-- ==== Sys2Proof/Word.lean ====
section
/-! DEFINITION. Bytes, words and the index types of the block (00_scope R5–R7). -/

namespace Sys2Proof

/-- One byte. -/
abbrev Byte := BitVec 8

/-- A register or general-register value: 64 bits (R8). -/
abbrev Word := BitVec 64

/-- Links X+, X−, Y+, Y−, Z+, Z− are 0–5 in that order. -/
abbrev Link := Fin 6

/-- Yards 0–3 (R7). -/
abbrev Yard := Fin 4

/-- Tenants 0–3 (R294). -/
abbrev Tenant := Fin 4

/-- Lane (fibre) groups 0–3 of a link (R7). -/
abbrev Group := Fin 4

/-- Team slots 0–63. -/
abbrev TeamSlot := Fin 64

/-- Postilion p = row × 16 + column (R7). -/
abbrev PostId := Fin 64

/-- A general register of a postilion, g0–g15 (R71). -/
abbrev GReg := Fin 16

/-- Router ports: 0–5 links, 6 array, 7 hitch/depot, 8 management (R203). -/
abbrev Port := Fin 9

/-- A queue pair index; 4,096 is the largest configuration (Table 0.1). -/
abbrev QP := Fin 4096

/-- Bits hi..lo of a natural number. -/
def bitsOf (v hi lo : Nat) : Nat := (v / 2 ^ lo) % 2 ^ (hi - lo + 1)

/-- Bit i of a natural number. -/
def bitAt (v i : Nat) : Bool := v / 2 ^ i % 2 == 1

/-- 1 for true, 0 for false. -/
def b2n (b : Bool) : Nat := if b then 1 else 0

end Sys2Proof
end

