-- ==== Sys2Proof/Syntax.lean ====
section
/-! DEFINITION. The commands of the block: one constructor of `Instr` per row of spec/opcode_table.json, with the
operands the row needs. Admin and work commands carry the pair they were fetched from and their 64 B entry (Table 10.2);
received units carry their 16 B slot (R210), received carriages all their bits (R172). An operand with a default says what
the hardware finds inside the step (an error, another tenant's MARK, bits of a pattern); the default is that it finds nothing. -/

namespace Sys2Proof

/-- A 64 B submission entry, little-endian: byte k is bits 8k+7..8k (Table 10.2). -/
abbrev Entry := BitVec 512

/-- A 16 B slot of a slot column, little-endian (R210). -/
abbrev Slot := BitVec 128

/-- A carriage as R172 lays it out: header (Table 7.1) and trailer (Table 7.3) as little-endian values. -/
structure Carriage where
  hdr : BitVec 128
  payload : List Byte
  trl : BitVec 64
  deriving DecidableEq, Repr

/-- What a DATA carriage carries in the team's chunk order (R96–R102, R111, R153). The carriage names it by SEQ. -/
inductive DataKind where
  | reduce | gather | multicast | exchange | flagsUp | flagsDown | normUp | normDown
  deriving DecidableEq, Repr

/-- The place of a DATA carriage in its instance: level (0 X, 1 Y, 2 Z), chunk, segment, near or far half (tree A or B),
the rank on the level's axis it came from, and the index of its first element in the command's logical buffer (R123). -/
structure DataPlace where
  kind : DataKind
  level : Fin 3
  chunk : Nat
  seg : Nat
  far : Bool
  fromRank : Nat
  elem : Nat
  deriving DecidableEq, Repr

/-- An identifier whose quarantine (R202) can end. -/
inductive QuarId where
  | team (t : TeamSlot)
  | window (ep : BitVec 16) (tenant : Tenant)
  | pair (q : QP)
  deriving DecidableEq, Repr

/-- The reset domains that have a shadow window (Table 12.5). -/
inductive Domain where
  | link (l : Link)
  | yard (y : Yard)
  | block
  deriving DecidableEq, Repr

/-- A temperature sensor (13.8): four per yard, and one per depot channel. -/
inductive Sensor where
  | yard (y : Yard) (k : Fin 4)
  | depot (c : Fin 16)
  deriving DecidableEq, Repr

/-- What a patrol scrub read of a depot word finds (R379, 14.3). -/
inductive EccResult where
  | good | corrected | chipkill | uncorrectable
  deriving DecidableEq, Repr

/-- An access through the test access port (R359). -/
inductive JtagOp where
  | boundaryScan
  | dbgRead (off : BitVec 26)
  | dbgWrite (off : BitVec 26) (v : Word)
  deriving DecidableEq, Repr

/-- The commands. -/
inductive Instr where
  -- admin commands (10.5)
  | createSq (q : QP) (e : Entry)
  | createCq (q : QP) (e : Entry)
  | destroySq (q : QP) (e : Entry)
  | destroyCq (q : QP) (e : Entry)
  | defineTeam (q : QP) (e : Entry)
  | retireTeam (q : QP) (e : Entry)
  | loadTimetableNow (q : QP) (e : Entry)
  | loadTimetableAtMtc (q : QP) (e : Entry)
  | timetableImageChecked
  | timetableSwap
  | setTenant (q : QP) (e : Entry)
  | allocSync (q : QP) (e : Entry)
  | freeSync (q : QP) (e : Entry)
  | linkEnable (q : QP) (e : Entry)
  | linkDisable (q : QP) (e : Entry)
  | linkRetrain (q : QP) (e : Entry)
  | linkReaim (q : QP) (e : Entry)
  | linkTest (q : QP) (e : Entry)
  | mirrorConfig (q : QP) (e : Entry)
  | getLogAon (q : QP) (e : Entry)
  | getLogDump (q : QP) (e : Entry)
  | resetYard (q : QP) (e : Entry)
  | fwActivate (q : QP) (e : Entry)
  | setEndpoints (q : QP) (e : Entry)
  | setDetour (q : QP) (e : Entry)
  -- work commands (10.6)
  | allreduce (q : QP) (e : Entry)
  | reduceScatter (q : QP) (e : Entry)
  | allgather (q : QP) (e : Entry)
  | broadcast (q : QP) (e : Entry)
  | reduce (q : QP) (e : Entry)
  | alltoall (q : QP) (e : Entry)
  | gather (q : QP) (e : Entry)
  | scatter (q : QP) (e : Entry)
  | barrier (q : QP) (e : Entry)
  | rcug (q : QP) (e : Entry)
  | update (q : QP) (e : Entry)
  | norm (q : QP) (e : Entry)
  | put (q : QP) (e : Entry)
  | get (q : QP) (e : Entry)
  | atomic (q : QP) (e : Entry)
  | signalCommand (q : QP) (e : Entry)
  | offload (q : QP) (e : Entry)
  | fetch (q : QP) (e : Entry)
  | copy (q : QP) (e : Entry)
  | mirrorCommit (q : QP) (e : Entry)
  | mirrorCommitWriteSend
  | mirrorCommitOutcome
  -- register accesses
  | sqDoorbell (q : QP) (v : Word)
  | cqHeadWrite (q : QP) (v : Word)
  | cqArm (q : QP) (v : Word)
  | cancel (q : QP) (v : Word)
  | adminQueueEnable (v : Word)
  | adminQueueDisable (v : Word)
  | irqUnmask (vec : Fin 32) (v : Word)
  | mtcLoad (v : Word)
  | arm (v : Word)
  | stopAtPeriod (v : Word)
  | stopNow (v : Word)
  | synObjSet (n : Fin 16384) (v : Word)
  | synAdd (n : Fin 16384) (v : Word)
  | fltStatusClear (v : Word)
  | fltFirstClear (v : Word)
  | fltReactWrite (hi : Bool) (v : Word)
  | blockReset
  | resetWinClear (v : Word)
  | dozeRequest
  | runRequest
  | offRequest
  | bootGo
  | epochDecisionWrite (t : TeamSlot) (v : Word)
  | debugHold (v : Word)
  | registerWrite (off : BitVec 26) (be : BitVec 8) (v : Word)
  | registerReadClear (off : BitVec 26) (be : BitVec 8)
  -- queue and identifier events
  | submissionFetch (y : Yard) (ue tbl : BitVec 8 := 0)
  | bindingRecordWrite (q : QP) (id : BitVec 16)
  | completionPost (q : QP) (id : BitVec 16)
  | interruptResponse (err : Bool)
  | commandTimeout (q : QP) (id : BitVec 16)
  | quarantineEnd (what : QuarId)
  | fenceEnd (ep : BitVec 16)
  -- ticks and time
  | stageTick (ue : Bool := false)
  | engineStart
  | periodEnd
  | realignment
  | tickSend
  | tickReceive (l : Link) (slots : List Slot) (sub : Fin 512)
  | timeCorrection
  | slewComplete
  | referenceLoss
  | referenceReturn
  -- postilion instructions (Tables 3.5 and 3.6)
  | nop (p : PostId)
  | add (p : PostId) (d a b : GReg)
  | sub (p : PostId) (d a b : GReg)
  | and (p : PostId) (d a b : GReg)
  | or (p : PostId) (d a b : GReg)
  | xor (p : PostId) (d a b : GReg)
  | shl (p : PostId) (d a b : GReg)
  | shr (p : PostId) (d a b : GReg)
  | addi (p : PostId) (d a : GReg) (imm : BitVec 14)
  | movi (p : PostId) (d : GReg) (imm : BitVec 22)
  | mul (p : PostId) (d a b : GReg)
  | beq (p : PostId) (a b : GReg) (imm : BitVec 14)
  | bne (p : PostId) (a b : GReg) (imm : BitVec 14)
  | blt (p : PostId) (a b : GReg) (imm : BitVec 14)
  | jmp (p : PostId) (imm : BitVec 22)
  | endSeg (p : PostId)
  | ld (p : PostId) (d a : GReg) (imm : BitVec 14) (ue : Bool := false)
  | st (p : PostId) (a b : GReg) (imm : BitVec 14)
  | stg (p : PostId) (d : GReg) (imm : BitVec 14)
  | send (p : PostId) (a b : GReg) (imm : BitVec 14)
  | waitm (p : PostId) (d : GReg) (imm : BitVec 14)
  | waits (p : PostId) (a b : GReg) (imm : BitVec 14)
  | signal (p : PostId) (a b : GReg)
  | xmit (p : PostId) (a : GReg) (imm : BitVec 14)
  | recv (p : PostId) (a : GReg) (imm : BitVec 14)
  | aop (p : PostId) (a : GReg) (imm : BitVec 14)
  | hrd (p : PostId) (a : GReg) (imm : BitVec 14)
  | hwr (p : PostId) (a : GReg) (imm : BitVec 14)
  | drd (p : PostId) (a : GReg) (imm : BitVec 14)
  | dwr (p : PostId) (a : GReg) (imm : BitVec 14)
  | waitx (p : PostId) (b : GReg)
  | mailboxMessageArrive (src dst : PostId) (m : Fin 8)
  -- array, governor, groom unit, epoch copy, handoff
  | arrayOperationStart (scr : EccResult := .good)
  | arrayOperationComplete (parity : Bool := false)
  | governorStep
  | groomJobStart
  | groomJobEnd
  | epochCopyComplete (t : TeamSlot)
  | vehTileComplete (tile : BitVec 16)
  -- carriages
  | scheduledCarriageSend (l : Link)
  | unscheduledCarriageGrant (l : Link)
  | carriageArrive (l : Link) (c : Carriage)
  | crcVerdict (l : Link)
  | dataReceive (p : Port) (c : Carriage) (d : DataPlace)
  | putReceive (p : Port) (c : Carriage)
  | getReqReceive (p : Port) (c : Carriage)
  | getRspReceive (p : Port) (c : Carriage)
  | atomReqReceive (p : Port) (c : Carriage)
  | atomRspReceive (p : Port) (c : Carriage)
  | signalReceive (p : Port) (c : Carriage)
  | barrierArrive (p : Port) (c : Carriage)
  | barrierRelease (p : Port) (c : Carriage)
  | mgmtReqReceive (p : Port) (c : Carriage)
  | mgmtRspReceive (p : Port) (c : Carriage)
  | farWrReceive (l : Link) (c : Carriage)
  | farRdreqReceive (l : Link) (c : Carriage)
  | farRdrspReceive (l : Link) (c : Carriage)
  | mirrorReceive (l : Link) (c : Carriage)
  -- link control units (Table 7.5)
  | ackUpstreamSend (l : Link) (t : Tenant)
  | ackUpstreamReceive (l : Link) (t : Tenant) (slot : Slot)
  | ackDownstreamReceive (l : Link) (t : Tenant) (slot : Slot)
  | ackDownstreamRepeat (l : Link) (t : Tenant)
  | nakReceive (l : Link) (t : Tenant) (slot : Slot)
  | replayTimeout (l : Link) (t : Tenant) (lsn : BitVec 11)
  | replaySend (l : Link) (t : Tenant)
  | recallReceive (l : Link) (t : Tenant) (slot : Option Slot)
  | reinReceive (l : Link) (slot : Slot)
  | haltReceive (l : Link) (slot : Slot)
  | linkHaltReceive (l : Link) (slot : Slot)
  | attributionPeriodEnd (l : Link)
  -- marks, training, light
  | markSend (l : Link) (t : Tenant)
  | markReceive (l : Link) (lanes : BitVec 64) (skews : List (BitVec 6)) (t : Tenant := 0)
  | berWindowEnd (l : Link) (viol : List (BitVec 12)) (disp : List (BitVec 12) := [])
  | laneLock (l : Link) (lanes : BitVec 64)
  | alignComplete (l : Link) (skews : List (BitVec 8))
  | rtReqReceive (l : Link) (slot : Slot) (hold : BitVec 32)
  | rtRspReceive (l : Link) (slot : Slot) (sub : Fin 512)
  | capReceive (l : Link) (g : Group) (slot : Slot)
  | stepReqReceive (l : Link) (slot : Slot)
  | stepAckReceive (l : Link) (slot : Slot)
  | resultReceive (l : Link) (slot : Slot)
  | stepStart (l : Link)
  | rungChange (l : Link)
  | prbsEnd (l : Link) (errLanes : BitVec 64)
  | trainingTimeout (l : Link)
  | reaimLight (l : Link)
  | reaimTimeout (l : Link)
  | lightOn (l : Link) (g : Group)
  | lightLoss (l : Link) (g : Group)
  | probePulse (l : Link) (g : Group)
  | litWaitExpiry (l : Link) (g : Group)
  | laserFault (l : Link) (g : Group)
  | bridleService (l : Link) (ring : Fin 128) (sample : BitVec 10)
  | gainChangeApply (l : Link) (lane : Fin 64) (receiving : Bool := false)
  -- faults and resets
  | deadlockRaise (y : Yard)
  | yardDrainComplete (y : Yard)
  | coachmanRestart (y : Yard)
  | replay (y : Yard)
  | replayGuilty (y : Yard)
  | shadowWindowEnd (d : Domain)
  | safeNAssert
  | safeNRelease
  | collectorMismatch
  | powerFailWarning
  | coldReset
  | aonPowerUp
  | supplyUndervoltage (r : Fin 6)
  | supplySequenceError (r : Fin 6)
  | thermalThresholdCrossing (x : Sensor) (temp : BitVec 8)
  | aonOscillatorLoss
  | coachmanWatchdogExpiry (y : Yard)
  | patrolScrubRead (addr : BitVec 29) (r : EccResult)
  -- hitch ports and depot
  | hitchReadResponse (port : Fin 16) (tag : BitVec 16) (yg : BitVec 6) (last : Bool) (err : BitVec 2)
      (data : BitVec 2048)
  | hitchWriteResponse (port : Fin 16) (tag : BitVec 16) (yg : BitVec 6) (err : BitVec 2)
  | hitchCreditReturn (port : Fin 16) (beat : Bool)
  | hitchBoundExpiry (port : Fin 16) (tag : BitVec 16)
  | depotAccessComplete (ch : Fin 16) (ue : BitVec 128)
  -- start-up
  | imageFetchComplete (err : Bool)
  | bootStepTimeout
  | depotTrainingComplete
  | pllLock
  | rtReqSend (l : Link)
  | capSend (l : Link)
  | probePulseEnd (l : Link) (g : Group)
  | prbsSync (l : Link) (lane : Fin 64) (bits : List Bool := [])
  | supplyGood (r : Fin 6)
  | jtagAccess (a : JtagOp)
  | cmMemUe (y : Yard)
  | cmTrap (y : Yard)
  | ctlPortViolation
  | undefinedOpcode (p : PostId) (op : BitVec 6)
  deriving DecidableEq, Repr

end Sys2Proof
end

