-- ==== Sys2Proof/Decode.lean ====
section
/-! DEFINITION. The words that spell commands: none of the rows of spec/opcode_table.json has bits there, so no table word spells one;
postilion instruction words (R76) are read from instruction RAM and decoded here. -/

namespace Sys2Proof

/-- The command that a table word spells: the table gives no row any bits. -/
def decodeTableWord (_nbits _w : Nat) : Option Instr := none

/-! ## Postilion instruction words (R76, Tables 3.5 and 3.6) -/

/-- Fields d, a, b of format A. -/
def pwD (w : BitVec 32) : GReg := Fin.ofNat 16 (bitsOf w.toNat 25 22)
def pwA (w : BitVec 32) : GReg := Fin.ofNat 16 (bitsOf w.toNat 21 18)
def pwB (w : BitVec 32) : GReg := Fin.ofNat 16 (bitsOf w.toNat 17 14)
def pwImm14 (w : BitVec 32) : BitVec 14 := BitVec.ofNat 14 w.toNat
def pwImm22 (w : BitVec 32) : BitVec 22 := BitVec.ofNat 22 w.toNat
def pwOp (w : BitVec 32) : BitVec 6 := BitVec.ofNat 6 (bitsOf w.toNat 31 26)

/-- The instruction of a postilion's word; an opcode that the tables do not define is UNDEFINED_OPCODE. -/
def decodePost (p : PostId) (w : BitVec 32) : Instr :=
  match (pwOp w).toNat with
  | 0x00 => .nop p
  | 0x01 => .add p (pwD w) (pwA w) (pwB w)
  | 0x02 => .sub p (pwD w) (pwA w) (pwB w)
  | 0x03 => .and p (pwD w) (pwA w) (pwB w)
  | 0x04 => .or p (pwD w) (pwA w) (pwB w)
  | 0x05 => .xor p (pwD w) (pwA w) (pwB w)
  | 0x06 => .shl p (pwD w) (pwA w) (pwB w)
  | 0x07 => .shr p (pwD w) (pwA w) (pwB w)
  | 0x08 => .addi p (pwD w) (pwA w) (pwImm14 w)
  | 0x09 => .movi p (pwD w) (pwImm22 w)
  | 0x0A => .mul p (pwD w) (pwA w) (pwB w)
  | 0x10 => .beq p (pwA w) (pwB w) (pwImm14 w)
  | 0x11 => .bne p (pwA w) (pwB w) (pwImm14 w)
  | 0x12 => .blt p (pwA w) (pwB w) (pwImm14 w)
  | 0x13 => .jmp p (pwImm22 w)
  | 0x14 => .endSeg p
  | 0x18 => .ld p (pwD w) (pwA w) (pwImm14 w)
  | 0x19 => .st p (pwA w) (pwB w) (pwImm14 w)
  | 0x1C => .stg p (pwD w) (pwImm14 w)
  | 0x20 => .send p (pwA w) (pwB w) (pwImm14 w)
  | 0x21 => .waitm p (pwD w) (pwImm14 w)
  | 0x22 => .waits p (pwA w) (pwB w) (pwImm14 w)
  | 0x23 => .signal p (pwA w) (pwB w)
  | 0x28 => .xmit p (pwA w) (pwImm14 w)
  | 0x29 => .recv p (pwA w) (pwImm14 w)
  | 0x2A => .aop p (pwA w) (pwImm14 w)
  | 0x2B => .hrd p (pwA w) (pwImm14 w)
  | 0x2C => .hwr p (pwA w) (pwImm14 w)
  | 0x2D => .drd p (pwA w) (pwImm14 w)
  | 0x2E => .dwr p (pwA w) (pwImm14 w)
  | 0x2F => .waitx p (pwB w)
  | _ => .undefinedOpcode p (pwOp w)

/-- A word of format A. -/
def wordA (op d a b imm : Nat) : BitVec 32 := BitVec.ofNat 32 (op * 2 ^ 26 + d * 2 ^ 22 + a * 2 ^ 18 + b * 2 ^ 14 + imm)

/-- A word of format B. -/
def wordB (op d imm : Nat) : BitVec 32 := BitVec.ofNat 32 (op * 2 ^ 26 + d * 2 ^ 22 + imm)

/-- The word of a postilion instruction, fields it does not use 0; none for another command. -/
def encodePost : Instr → Option (BitVec 32)
  | .nop _ => some (wordA 0x00 0 0 0 0)
  | .add _ d a b => some (wordA 0x01 d a b 0)
  | .sub _ d a b => some (wordA 0x02 d a b 0)
  | .and _ d a b => some (wordA 0x03 d a b 0)
  | .or _ d a b => some (wordA 0x04 d a b 0)
  | .xor _ d a b => some (wordA 0x05 d a b 0)
  | .shl _ d a b => some (wordA 0x06 d a b 0)
  | .shr _ d a b => some (wordA 0x07 d a b 0)
  | .addi _ d a i => some (wordA 0x08 d a 0 i.toNat)
  | .movi _ d i => some (wordB 0x09 d i.toNat)
  | .mul _ d a b => some (wordA 0x0A d a b 0)
  | .beq _ a b i => some (wordA 0x10 0 a b i.toNat)
  | .bne _ a b i => some (wordA 0x11 0 a b i.toNat)
  | .blt _ a b i => some (wordA 0x12 0 a b i.toNat)
  | .jmp _ i => some (wordB 0x13 0 i.toNat)
  | .endSeg _ => some (wordB 0x14 0 0)
  | .ld _ d a i false => some (wordA 0x18 d a 0 i.toNat)
  | .st _ a b i => some (wordA 0x19 0 a b i.toNat)
  | .stg _ d i => some (wordA 0x1C d 0 0 i.toNat)
  | .send _ a b i => some (wordA 0x20 0 a b i.toNat)
  | .waitm _ d i => some (wordA 0x21 d 0 0 i.toNat)
  | .waits _ a b i => some (wordA 0x22 0 a b i.toNat)
  | .signal _ a b => some (wordA 0x23 0 a b 0)
  | .xmit _ a i => some (wordA 0x28 0 a 0 i.toNat)
  | .recv _ a i => some (wordA 0x29 0 a 0 i.toNat)
  | .aop _ a i => some (wordA 0x2A 0 a 0 i.toNat)
  | .hrd _ a i => some (wordA 0x2B 0 a 0 i.toNat)
  | .hwr _ a i => some (wordA 0x2C 0 a 0 i.toNat)
  | .drd _ a i => some (wordA 0x2D 0 a 0 i.toNat)
  | .dwr _ a i => some (wordA 0x2E 0 a 0 i.toNat)
  | .waitx _ b => some (wordA 0x2F 0 0 b 0)
  | _ => none

end Sys2Proof
end

