-- ==== Sys2Proof/Config.lean ====
section
/-! DEFINITION. What an implementation fixes and what the manual leaves open. The constants without a body are free values:
nothing can be proved of them, so a statement holds whatever they are. -/

namespace Sys2Proof.Config

/-- The three configurations of Table 0.1. Codes of Table 3.1: 0 Pony, 1 Cob, 2 Shire (R1, R377). -/
inductive Conf where
  | pony | cob | shire
  deriving DecidableEq, Repr

/-- Endpoints of a configuration (Table 0.1). -/
def Conf.endpoints : Conf → Nat
  | .pony => 1024
  | .cob => 4096
  | .shire => 16384

/-- Submission queues and completion rings (Table 0.1). -/
def Conf.queues : Conf → Nat
  | .pony => 1024
  | .cob => 2048
  | .shire => 4096

/-- Sync objects (Table 0.1). -/
def Conf.syncObjs : Conf → Nat
  | .pony => 4096
  | .cob => 8192
  | .shire => 16384

/-- Teams active per chip (Table 0.1). -/
def Conf.teams : Conf → Nat
  | .pony => 16
  | .cob => 32
  | .shire => 64

/-- Scratchpad of all yards, MiB (Table 0.1). -/
def Conf.scratchMib : Conf → Nat
  | .pony => 96
  | .cob => 144
  | .shire => 192

/-- Depot, GiB (Table 0.1). -/
def Conf.depotGib : Conf → Nat
  | .pony => 8
  | .cob => 16
  | .shire => 32

/-- The CONFIG code (R377). -/
def Conf.code : Conf → Nat
  | .pony => 0
  | .cob => 1
  | .shire => 2

/-- FREE VALUE (DESIGN CHOICE: the manual gives no value). A value that R71 calls undefined: general registers g4–g15 at the
start of a segment. Applied to the state's counter of free values and the register number. Log entry 5. -/
opaque freeWord : Nat → Nat → Word

/-- FREE VALUE (DESIGN CHOICE: the standards and the fuses give it, the manual does not). Whether the signature of a firmware
image verifies under ECDSA P-384 and its key's SHA-384 equals the fused hash (R370): of the image's bytes. Log entry 7. -/
opaque signatureOk : List Byte → Nat → Bool

/-- FREE VALUE (DESIGN CHOICE). Whether the SHA-384 of the 97-byte key equals the fused key hash (R370). Log entry 7. -/
opaque keyHashOk : List Byte → Nat → Bool

/-- FREE VALUE (DESIGN CHOICE: R94 leaves the result undefined). A result byte of a collective whose bound bytes the host
changed: of the counter of free values and the address. Log entry 5. -/
opaque freeByte : Nat → Nat → Byte

/-- FREE VALUE (DESIGN CHOICE: the manual gives no source for it). The rein window generation that a target puts into the REIN of a team
carriage, whose header holds the team's generation in its place (R185, Table 7.9): of the machine time and the header. Log entry 131. -/
opaque reinGen : Nat → BitVec 128 → Nat

end Sys2Proof.Config
end

