-- ==== Sys2Proof/Machine/Regs.lean ====
section
/-! DEFINITION. The register window (14_register_summary, Table 14.1 and the field tables of every chapter): one
constructor of `Reg` per named register, one constructor of `Fld` per field, in the order of the chapters. -/

namespace Sys2Proof

/-- Access types of Table 0.4. -/
inductive Acc where
  | ro | rw | w1c | w1s | rc | wo
  deriving DecidableEq, Repr

/-- Field-change classes of Table 0.5: static, tick-latched, live. -/
inductive Cls where
  | s | t | l
  deriving DecidableEq, Repr

/-- The named registers. Index letters (t, q, l, e, n, y, v, k, p, w, s, c, i) are left out of the names. -/
inductive Reg where
  | AON_MTC | AON_MTC_LOAD | AON_MTC_STATUS | AON_TIME_STEPS | SYN_TIME_CTL | SYN_TIME_STATE | SYN_LINK_DELAY
  | SYN_LINK_OFFSET | TT_CTL | TT_STATUS | TT_STAGE_LEN | TT_UNSCHED_SHARE | TT_START_MTC | TT_PERIOD | TT_OVR_INFO
  | TT_OVR_POST | TT_EVAL_CTL | TT_STORE | TT_SWAP_MTC | TT_POST_FAULT | TT_TEAM | TT_TEAMCNT | ARR_STATUS
  | ARR_OPCOUNT | ARR_WAIT | ARR_LASTOP | ARR_SRG_KEY | ARR_SRG_CTR | ARR_SRG_TS | ARR_SRG_OUT | GRM_STATUS
  | GRM_COUNTS | GRM_START | GRM_FARWIN | RTE_EP_LO | RTE_EP_HI | RTE_SELF | RTE_CTL | RTE_DROPS | RTE_RECALL
  | RTE_WINSTAT | RTE_RETRY | RTE_CONG | RTE_CONGHIST | RTE_RXGEN | LNK_CTL | LNK_STATE | LNK_RUNG | LNK_FIBRE
  | LNK_BER | LNK_GAIN_THR | LNK_GAIN | LNK_PRBS_CTL | LNK_BRIDLE_CTL | LNK_EVENTS | LNK_LANE | LNK_RING
  | SYN_RANGE | SYN_MISUSE0 | SYN_MISUSE1 | SYN_MISUSE_LAST | SYN_REALIGN | SYN_DL_CTL | SYN_DL_STATUS | SYN_BAR
  | SYN_OBJ | SYN_ADD | SYN_FLAG | DB_SQ_TAIL | DB_SQ_HEAD | DB_CQ_TAIL | DB_CQ_HEAD | DB_CQ_ARM | DB_CANCEL
  | DB_STATUS | DB_TIMEOUT | ADM_SQ_BASE | ADM_CQ_BASE | ADM_CTL | IRQ_ADDR | IRQ_DATA | RTE_SLICE | RTE_LANEOWN
  | RTE_FENCE | GRM_MIR_CFG | GRM_MIR_OUT_EPOCH | GRM_MIR_OUT | GRM_MIR_OUTSTAT | GRM_MIR_COPY_EPOCH | GRM_MIR_COPY
  | GRM_MIR_COMMIT | GRM_MIR_IN_DROPS | FLT_STATUS | FLT_FIRST | FLT_FIRST_MTC | FLT_REACT0 | FLT_REACT1 | FLT_CTL
  | FLT_RESET | FLT_MASKED | FLT_DUMP_BASE | FLT_DUMP_PTR | FLT_PFW_ADDR | AON_RESET_WIN | AON_LOG_PTR | YRD_STATE
  | YRD_EPOCH_STAGE | TT_EPOCH | PWR_STATE | PWR_GOV | PWR_THERM | AON_SUPPLY | AON_BOOT | AON_LIGHT | HCH_BOUND
  | HCH_APER_BASE | HCH_APER_LIM | HCH_ERR | HCH_VEH_CTL | HCH_VEH_BASE | HCH_VEH_DB | HCH_VEH_SEQ | CMR_BOOT_ADDR
  | CMR_BOOT_LEN | CMR_BOOT_CTL | GLB_ID | GLB_CFG0 | GLB_CFG1 | GLB_CFG2 | GLB_CAP | GLB_FREQ | GLB_SERIAL
  | GLB_STATUS | GLB_SCRATCH | DEP_STATUS | DEP_ECC | DEP_UE_LAST | DEP_SCRUB | DEP_TEMP | DBG_TRACE_CTL
  | DBG_TRACE_STAT | DBG_HOLD
  deriving DecidableEq, Repr

/-- Where a register stands: register (i, j) is at base + i × s1 + j × s2, i < n1, j < n2; its index is i × n2 + j. -/
structure RegInfo where
  base : Nat
  n1 : Nat
  s1 : Nat
  n2 : Nat
  s2 : Nat
  deriving DecidableEq, Repr

/-- The fields, named register_FIELD. -/
inductive Fld where
  | AON_MTC_MTC_NS | AON_MTC_LOAD_VALUE | AON_MTC_STATUS_STEP_PENDING | AON_MTC_STATUS_SLEWING
  | AON_MTC_STATUS_ALIGNED | AON_MTC_STATUS_TRUSTED | AON_MTC_STATUS_HOLDOVER_REF | AON_MTC_STATUS_HOLDOVER_LINKS
  | AON_MTC_STATUS_SOURCE | AON_TIME_STEPS_COUNT | SYN_TIME_CTL_ROOT | SYN_TIME_CTL_ALT_PARENT
  | SYN_TIME_CTL_PARENT | SYN_TIME_STATE_MEAN_OFFSET | SYN_TIME_STATE_SOURCE_LINK | SYN_LINK_DELAY_VALID
  | SYN_LINK_DELAY_DELAY | SYN_LINK_OFFSET_VALID | SYN_LINK_OFFSET_OFFSET | TT_CTL_STOP_NOW | TT_CTL_STOP_AT_PERIOD
  | TT_CTL_ARM | TT_STATUS_PERIOD_COUNT | TT_STATUS_STAGE_IDX | TT_STATUS_ERR | TT_STATUS_STATE
  | TT_STAGE_LEN_LEN_US | TT_UNSCHED_SHARE_SIXTEENTHS | TT_START_MTC_START | TT_PERIOD_PERIOD_STAGES
  | TT_OVR_INFO_COUNT | TT_OVR_INFO_STAGE_IDX | TT_OVR_INFO_TEAM | TT_OVR_INFO_TEAM_GEN | TT_OVR_POST_POSTILIONS
  | TT_EVAL_CTL_EVAL_ACTIVE | TT_EVAL_CTL_EVAL_EN | TT_STORE_ACTIVE_ID | TT_STORE_VAR_LANES | TT_STORE_VAR_RUNG
  | TT_STORE_VAR_IDX | TT_STORE_NO_VARIANT | TT_STORE_SWAP_PENDING | TT_STORE_STANDBY_VALID | TT_STORE_ACTIVE_VALID
  | TT_STORE_ACTIVE_BANK | TT_SWAP_MTC_SWAP | TT_POST_FAULT_COUNT | TT_POST_FAULT_POSTILION | TT_POST_FAULT_CAUSE
  | TT_POST_FAULT_PC | TT_TEAM_INSTANCE | TT_TEAM_GEN | TT_TEAM_YARD | TT_TEAM_ALG | TT_TEAM_AXES
  | TT_TEAM_CHUNK_LOG2 | TT_TEAM_STATE | TT_TEAMCNT_MISSING_SELF | TT_TEAMCNT_PEER_ABSENT | TT_TEAMCNT_POISONED
  | TT_TEAMCNT_DEGRADED | ARR_STATUS_CUR_OPC | ARR_STATUS_CUR_ROW | ARR_STATUS_CUR_COL | ARR_STATUS_HAZARD
  | ARR_STATUS_STALL | ARR_STATUS_BUSY | ARR_OPCOUNT_COUNT | ARR_WAIT_PEAK | ARR_WAIT_WAIT | ARR_LASTOP_DESC
  | ARR_SRG_KEY_KEY | ARR_SRG_CTR_POINT | ARR_SRG_CTR_INDEX | ARR_SRG_TS_STEP | ARR_SRG_TS_TENSOR
  | ARR_SRG_OUT_WORD | GRM_STATUS_CUT | GRM_STATUS_TEAM | GRM_STATUS_YARD | GRM_STATUS_KIND | GRM_STATUS_BUSY
  | GRM_COUNTS_JOBS | GRM_COUNTS_SKIP_NF | GRM_COUNTS_SKIP_STEP | GRM_START_VALID | GRM_START_DONE_OBJ
  | GRM_START_START_OBJ | GRM_FARWIN_EN | GRM_FARWIN_REJECT | GRM_FARWIN_LIMIT_MIB | GRM_FARWIN_BASE_MIB
  | RTE_EP_LO_VALID | RTE_EP_LO_DETOUR_EN | RTE_EP_LO_GEN | RTE_EP_LO_TENANT_MASK | RTE_EP_LO_DETOUR_EP
  | RTE_EP_LO_Z | RTE_EP_LO_Y | RTE_EP_LO_X | RTE_EP_HI_STALE | RTE_SELF_VALID | RTE_SELF_EP | RTE_CTL_MGMT_WR_EN
  | RTE_DROPS_STALE | RTE_DROPS_TENANT | RTE_DROPS_MISROUTE | RTE_DROPS_MALFORMED | RTE_RECALL_SENT
  | RTE_RECALL_RECEIVED | RTE_WINSTAT_TIMEOUTS | RTE_WINSTAT_IN_USE | RTE_RETRY_REPLAYS | RTE_RETRY_NAKS
  | RTE_RETRY_LOST | RTE_CONG_BLOCKED | RTE_CONG_PEAK_BYTES | RTE_CONG_PEAK_BUFS | RTE_CONG_STAGE_IDX
  | RTE_CONGHIST_ENTRY | RTE_RXGEN_GENS | LNK_CTL_FFE_REQ | LNK_CTL_BER_LOWER_EN | LNK_CTL_RUNG_MAX
  | LNK_STATE_RETRAINS | LNK_STATE_LAST_FAIL | LNK_STATE_STATE | LNK_RUNG_GROUPS | LNK_RUNG_CAP | LNK_RUNG_RUNG
  | LNK_FIBRE_LASER_FAULT | LNK_FIBRE_LIGHT | LNK_FIBRE_LASER_ON | LNK_FIBRE_ACCESSIBLE | LNK_BER_WINDOW_ERRORS
  | LNK_BER_LOWERINGS | LNK_GAIN_THR_H | LNK_GAIN_THR_B2 | LNK_GAIN_THR_B1 | LNK_GAIN_THR_B0 | LNK_GAIN_RANGES
  | LNK_PRBS_CTL_RUNG | LNK_PRBS_CTL_PATTERN | LNK_BRIDLE_CTL_MOD_TARGET | LNK_BRIDLE_CTL_XTALK
  | LNK_BRIDLE_CTL_DITHER | LNK_EVENTS_LOSS_ATTRIB | LNK_EVENTS_LOSS_UNATTRIB | LNK_EVENTS_BAD_UNITS
  | LNK_EVENTS_QUICK | LNK_LANE_PRBS_ERR | LNK_LANE_CODE_VIOL | LNK_LANE_DISP_ERR | LNK_LANE_LOCK
  | LNK_LANE_PRBS_SYNC | LNK_LANE_SKEW | LNK_RING_START | LNK_RING_HEATER | LNK_RING_RELOCKS | LNK_RING_STATE
  | SYN_RANGE_TENANT | SYN_RANGE_LIMIT | SYN_RANGE_BASE | SYN_MISUSE0_XTENANT | SYN_MISUSE0_UNALLOC
  | SYN_MISUSE0_KIND | SYN_MISUSE0_OVF | SYN_MISUSE1_LATE_EPOCH | SYN_MISUSE1_BAR_ORPHAN | SYN_MISUSE1_BAR_SENSE
  | SYN_MISUSE_LAST_SRC_EP | SYN_MISUSE_LAST_OBJ | SYN_MISUSE_LAST_CAUSE | SYN_REALIGN_EPOCH | SYN_REALIGN_DISCREP
  | SYN_REALIGN_STAGES | SYN_DL_CTL_EN | SYN_DL_CTL_WINDOW_US | SYN_DL_STATUS_COUNT | SYN_DL_STATUS_RAISED
  | SYN_BAR_VALID | SYN_BAR_LOCAL_NEED | SYN_BAR_OBJ | SYN_OBJ_VALUE | SYN_ADD_OPERAND | SYN_FLAG_PARAM
  | SYN_FLAG_TEAM | SYN_FLAG_YARD | SYN_FLAG_ABSENT | SYN_FLAG_OVF | SYN_FLAG_KIND | SYN_FLAG_ALLOC
  | DB_SQ_TAIL_TAIL | DB_SQ_HEAD_HEAD | DB_CQ_TAIL_TAIL | DB_CQ_HEAD_HEAD | DB_CQ_ARM_ARM | DB_CANCEL_CMD_ID
  | DB_STATUS_QGEN | DB_STATUS_OUTSTANDING | DB_STATUS_BAD_DB | DB_STATUS_BAD_CANCEL | DB_STATUS_SQ_LOG2
  | DB_STATUS_CQ_LOG2 | DB_STATUS_VECTOR | DB_STATUS_YARD | DB_STATUS_QUARANTINE | DB_STATUS_SQ_LIVE
  | DB_STATUS_CQ_LIVE | DB_TIMEOUT_COLL_MS | DB_TIMEOUT_REM_100US | ADM_SQ_BASE_ADDR | ADM_CQ_BASE_ADDR
  | ADM_CTL_EN | ADM_CTL_CQ_LOG2 | ADM_CTL_SQ_LOG2 | ADM_CTL_VECTOR | IRQ_ADDR_ADDR | IRQ_DATA_MASK
  | IRQ_DATA_PENDING | IRQ_DATA_DATA | RTE_SLICE_EXT_Z | RTE_SLICE_EXT_Y | RTE_SLICE_EXT_X | RTE_LANEOWN_OWNER
  | RTE_FENCE_OVERFLOW | RTE_FENCE_ACTIVE | GRM_MIR_CFG_OUT_EN | GRM_MIR_CFG_IN_EN | GRM_MIR_CFG_LINK
  | GRM_MIR_CFG_BUDDY_EP | GRM_MIR_CFG_IN_SIZE_MIB | GRM_MIR_CFG_IN_BASE_MIB | GRM_MIR_OUT_EPOCH_EPOCH
  | GRM_MIR_OUT_STAGED | GRM_MIR_OUT_ACKED | GRM_MIR_OUTSTAT_COMMITS | GRM_MIR_OUTSTAT_LOST
  | GRM_MIR_OUTSTAT_LAST_OUTCOME | GRM_MIR_COPY_EPOCH_EPOCH | GRM_MIR_COPY_BYTES | GRM_MIR_COPY_CURRENT
  | GRM_MIR_COPY_STATE | GRM_MIR_COMMIT_EPOCH_LO | GRM_MIR_COMMIT_COUNT | GRM_MIR_IN_DROPS_STALE_EPOCH
  | GRM_MIR_IN_DROPS_OVERSIZE | GRM_MIR_IN_DROPS_DISABLED | FLT_STATUS_SOURCES | FLT_FIRST_VALID | FLT_FIRST_OVF
  | FLT_FIRST_SOURCE | FLT_FIRST_MTC_MTC | FLT_REACT0_REACT | FLT_REACT1_REACT | FLT_CTL_IRQ_EN | FLT_CTL_OOS
  | FLT_CTL_SAFE_N_LOW | FLT_CTL_SAFE | FLT_CTL_VECTOR | FLT_RESET_KEY | FLT_MASKED_COUNT | FLT_DUMP_BASE_ADDR
  | FLT_DUMP_BASE_SIZE_MIB | FLT_DUMP_PTR_RECORDS | FLT_DUMP_PTR_NEXT | FLT_PFW_ADDR_ADDR | FLT_PFW_ADDR_EN
  | AON_RESET_WIN_WINDOW_S | AON_RESET_WIN_LIMIT | AON_RESET_WIN_CLEAR | AON_RESET_WIN_COUNT | AON_LOG_PTR_WRAPS
  | AON_LOG_PTR_HEAD | YRD_STATE_GEN | YRD_STATE_RESETS | YRD_STATE_REPLAY_TEAM | YRD_STATE_STATE
  | YRD_EPOCH_STAGE_EN | YRD_EPOCH_STAGE_SIZE_MIB | YRD_EPOCH_STAGE_BASE_MIB | TT_EPOCH_INSTANCE
  | TT_EPOCH_DECISION | PWR_STATE_OFF_READY | PWR_STATE_CUR | PWR_STATE_REQ | PWR_GOV_BUBBLES | PWR_GOV_SLOPE
  | PWR_THERM_THROTTLE | PWR_THERM_REFRESH_X2 | PWR_THERM_DEPOT_MAX | PWR_THERM_BLOCK_MAX | AON_SUPPLY_IN_BAND
  | AON_SUPPLY_GOOD | AON_BOOT_STABLE | AON_BOOT_FAILS | AON_BOOT_LAST_FAIL | AON_BOOT_CAUSE | AON_LIGHT_PRESENT
  | HCH_BOUND_BOUND_US | HCH_APER_BASE_BASE | HCH_APER_LIM_LIMIT | HCH_ERR_RD_ERR | HCH_ERR_WR_ERR | HCH_ERR_STALE
  | HCH_ERR_LATE | HCH_VEH_CTL_EN | HCH_VEH_CTL_LAYOUT | HCH_VEH_CTL_TILES | HCH_VEH_BASE_ADDR | HCH_VEH_DB_ADDR
  | HCH_VEH_SEQ_SEQ | CMR_BOOT_ADDR_ADDR | CMR_BOOT_LEN_LEN | CMR_BOOT_CTL_STEP | CMR_BOOT_CTL_OK | CMR_BOOT_CTL_GO
  | GLB_ID_VENDOR | GLB_ID_BLOCK | GLB_ID_REL_MAJOR | GLB_ID_REL_MINOR | GLB_ID_TT_VERSION | GLB_ID_STEPPING
  | GLB_CFG0_ENDPOINTS | GLB_CFG0_QUEUES | GLB_CFG0_SYNC_OBJS | GLB_CFG0_TEAMS | GLB_CFG0_CONFIG
  | GLB_CFG1_SCRATCH_MIB | GLB_CFG1_DEPOT_GIB | GLB_CFG1_TT_STORE_KIB | GLB_CFG2_ARRAY_LANES | GLB_CFG2_LINKS
  | GLB_CFG2_LANES | GLB_CFG2_YARDS | GLB_CFG2_HITCH_PORTS | GLB_CFG2_DEPOT_CH | GLB_CFG2_TENANTS | GLB_CAP_EPOCH
  | GLB_CAP_TRACE | GLB_CAP_EVAL | GLB_CAP_SUBLINKS | GLB_CAP_VEH_LEGACY | GLB_CAP_VEH | GLB_CAP_FAR_WINDOW
  | GLB_CAP_MIRROR | GLB_CAP_GROOM | GLB_CAP_INT4 | GLB_CAP_FP64 | GLB_FREQ_FCLK_MHZ | GLB_FREQ_CM_MHZ
  | GLB_FREQ_REF_MHZ | GLB_SERIAL_SERIAL | GLB_STATUS_DEPOT_READY | GLB_STATUS_FW_OK | GLB_STATUS_STABLE
  | GLB_STATUS_OOS | GLB_STATUS_SAFE | GLB_STATUS_SLICE_SET | GLB_SCRATCH_DATA | DEP_STATUS_TRAINED
  | DEP_STATUS_THROTTLE | DEP_ECC_CE | DEP_ECC_CHIPKILL | DEP_ECC_UE | DEP_UE_LAST_CHANNEL | DEP_UE_LAST_ADDR
  | DEP_SCRUB_EN | DEP_SCRUB_PERIOD_H | DEP_TEMP_TEMP | DBG_TRACE_CTL_EN | DBG_TRACE_CTL_SEL | DBG_TRACE_STAT_SENT
  | DBG_TRACE_STAT_DROPPED | DBG_HOLD_COACHMAN | DBG_HOLD_ROW
  deriving DecidableEq, Repr

/-- A row of a field table. `rst` is the reset value where it does not depend on the index or the fuses. -/
structure FieldSpec where
  reg : Reg
  hi : Nat
  lo : Nat
  acc : Acc
  cls : Cls
  rst : Nat
  deriving DecidableEq, Repr

end Sys2Proof
end

