-- ==== Sys2Proof/Machine/RegTable.lean ====
section
/-! DEFINITION. The rows of the register and field tables (Tables 2.1, 2.3, 2.8, 3.8, 4.4, 5.12, 6.9, 7.10, 8.8, 9.7,
10.13, 11.4, 11.5, 12.8, 13.15, 14.2–14.4). -/

namespace Sys2Proof.Machine

/-- Offsets of the registers in the 64 MiB window, for the largest configuration. -/
def regInfo : Reg → RegInfo
  | .AON_MTC => ⟨0x0100000, 1, 0x8, 1, 0x8⟩
  | .AON_MTC_LOAD => ⟨0x0100008, 1, 0x8, 1, 0x8⟩
  | .AON_MTC_STATUS => ⟨0x0100010, 1, 0x8, 1, 0x8⟩
  | .AON_TIME_STEPS => ⟨0x0100018, 1, 0x8, 1, 0x8⟩
  | .SYN_TIME_CTL => ⟨0x0A00800, 1, 0x8, 1, 0x8⟩
  | .SYN_TIME_STATE => ⟨0x0A00808, 1, 0x8, 1, 0x8⟩
  | .SYN_LINK_DELAY => ⟨0x0A00840, 6, 0x8, 1, 0x8⟩
  | .SYN_LINK_OFFSET => ⟨0x0A00880, 6, 0x8, 1, 0x8⟩
  | .TT_CTL => ⟨0x0F00000, 1, 0x8, 1, 0x8⟩
  | .TT_STATUS => ⟨0x0F00008, 1, 0x8, 1, 0x8⟩
  | .TT_STAGE_LEN => ⟨0x0F00010, 1, 0x8, 1, 0x8⟩
  | .TT_UNSCHED_SHARE => ⟨0x0F00018, 1, 0x8, 1, 0x8⟩
  | .TT_START_MTC => ⟨0x0F00020, 1, 0x8, 1, 0x8⟩
  | .TT_PERIOD => ⟨0x0F00028, 1, 0x8, 1, 0x8⟩
  | .TT_OVR_INFO => ⟨0x0F00030, 1, 0x8, 1, 0x8⟩
  | .TT_OVR_POST => ⟨0x0F00038, 1, 0x8, 1, 0x8⟩
  | .TT_EVAL_CTL => ⟨0x0F00040, 1, 0x8, 1, 0x8⟩
  | .TT_STORE => ⟨0x0F00048, 1, 0x8, 1, 0x8⟩
  | .TT_SWAP_MTC => ⟨0x0F00050, 1, 0x8, 1, 0x8⟩
  | .TT_POST_FAULT => ⟨0x0F00058, 1, 0x8, 1, 0x8⟩
  | .TT_TEAM => ⟨0x0F01000, 64, 0x8, 1, 0x8⟩
  | .TT_TEAMCNT => ⟨0x0F01200, 64, 0x8, 1, 0x8⟩
  | .ARR_STATUS => ⟨0x0800000, 1, 0x8, 1, 0x8⟩
  | .ARR_OPCOUNT => ⟨0x0800008, 1, 0x8, 1, 0x8⟩
  | .ARR_WAIT => ⟨0x0800040, 4, 0x8, 1, 0x8⟩
  | .ARR_LASTOP => ⟨0x0800100, 4, 0x20, 4, 0x8⟩
  | .ARR_SRG_KEY => ⟨0x0800200, 1, 0x8, 1, 0x8⟩
  | .ARR_SRG_CTR => ⟨0x0800208, 1, 0x8, 1, 0x8⟩
  | .ARR_SRG_TS => ⟨0x0800210, 1, 0x8, 1, 0x8⟩
  | .ARR_SRG_OUT => ⟨0x0800218, 1, 0x8, 1, 0x8⟩
  | .GRM_STATUS => ⟨0x0900000, 1, 0x8, 1, 0x8⟩
  | .GRM_COUNTS => ⟨0x0900008, 1, 0x8, 1, 0x8⟩
  | .GRM_START => ⟨0x0900010, 4, 0x8, 1, 0x8⟩
  | .GRM_FARWIN => ⟨0x0900100, 6, 0x8, 1, 0x8⟩
  | .RTE_EP_LO => ⟨0x0E00000, 16384, 0x10, 1, 0x8⟩
  | .RTE_EP_HI => ⟨0x0E00008, 16384, 0x10, 1, 0x8⟩
  | .RTE_SELF => ⟨0x0E40000, 1, 0x8, 1, 0x8⟩
  | .RTE_CTL => ⟨0x0E40008, 1, 0x8, 1, 0x8⟩
  | .RTE_DROPS => ⟨0x0E40010, 1, 0x8, 1, 0x8⟩
  | .RTE_RECALL => ⟨0x0E40018, 1, 0x8, 1, 0x8⟩
  | .RTE_WINSTAT => ⟨0x0E40020, 1, 0x8, 1, 0x8⟩
  | .RTE_RETRY => ⟨0x0E40080, 6, 0x8, 1, 0x8⟩
  | .RTE_CONG => ⟨0x0E40100, 9, 0x8, 1, 0x8⟩
  | .RTE_CONGHIST => ⟨0x0E50000, 9, 0x800, 256, 0x8⟩
  | .RTE_RXGEN => ⟨0x0E60000, 8192, 0x8, 1, 0x8⟩
  | .LNK_CTL => ⟨0x0C00000, 6, 0x40000, 1, 0x8⟩
  | .LNK_STATE => ⟨0x0C00008, 6, 0x40000, 1, 0x8⟩
  | .LNK_RUNG => ⟨0x0C00010, 6, 0x40000, 1, 0x8⟩
  | .LNK_FIBRE => ⟨0x0C00018, 6, 0x40000, 1, 0x8⟩
  | .LNK_BER => ⟨0x0C00020, 6, 0x40000, 1, 0x8⟩
  | .LNK_GAIN_THR => ⟨0x0C00028, 6, 0x40000, 1, 0x8⟩
  | .LNK_GAIN => ⟨0x0C00030, 6, 0x40000, 2, 0x8⟩
  | .LNK_PRBS_CTL => ⟨0x0C00040, 6, 0x40000, 1, 0x8⟩
  | .LNK_BRIDLE_CTL => ⟨0x0C00048, 6, 0x40000, 1, 0x8⟩
  | .LNK_EVENTS => ⟨0x0C00050, 6, 0x40000, 1, 0x8⟩
  | .LNK_LANE => ⟨0x0C00100, 6, 0x40000, 64, 0x8⟩
  | .LNK_RING => ⟨0x0C00400, 6, 0x40000, 128, 0x8⟩
  | .SYN_RANGE => ⟨0x0A00000, 4, 0x8, 1, 0x8⟩
  | .SYN_MISUSE0 => ⟨0x0A00020, 1, 0x8, 1, 0x8⟩
  | .SYN_MISUSE1 => ⟨0x0A00028, 1, 0x8, 1, 0x8⟩
  | .SYN_MISUSE_LAST => ⟨0x0A00030, 1, 0x8, 1, 0x8⟩
  | .SYN_REALIGN => ⟨0x0A00038, 1, 0x8, 1, 0x8⟩
  | .SYN_DL_CTL => ⟨0x0A00040, 1, 0x8, 1, 0x8⟩
  | .SYN_DL_STATUS => ⟨0x0A00048, 1, 0x8, 1, 0x8⟩
  | .SYN_BAR => ⟨0x0A00400, 64, 0x8, 1, 0x8⟩
  | .SYN_OBJ => ⟨0x0B00000, 16384, 0x8, 1, 0x8⟩
  | .SYN_ADD => ⟨0x0B20000, 16384, 0x8, 1, 0x8⟩
  | .SYN_FLAG => ⟨0x0B40000, 16384, 0x8, 1, 0x8⟩
  | .DB_SQ_TAIL => ⟨0x1000000, 4096, 0x1000, 1, 0x8⟩
  | .DB_SQ_HEAD => ⟨0x1000008, 4096, 0x1000, 1, 0x8⟩
  | .DB_CQ_TAIL => ⟨0x1000010, 4096, 0x1000, 1, 0x8⟩
  | .DB_CQ_HEAD => ⟨0x1000018, 4096, 0x1000, 1, 0x8⟩
  | .DB_CQ_ARM => ⟨0x1000020, 4096, 0x1000, 1, 0x8⟩
  | .DB_CANCEL => ⟨0x1000028, 4096, 0x1000, 1, 0x8⟩
  | .DB_STATUS => ⟨0x1000030, 4096, 0x1000, 1, 0x8⟩
  | .DB_TIMEOUT => ⟨0x1000038, 4096, 0x1000, 1, 0x8⟩
  | .ADM_SQ_BASE => ⟨0x1000100, 1, 0x8, 1, 0x8⟩
  | .ADM_CQ_BASE => ⟨0x1000108, 1, 0x8, 1, 0x8⟩
  | .ADM_CTL => ⟨0x1000110, 1, 0x8, 1, 0x8⟩
  | .IRQ_ADDR => ⟨0x1000200, 32, 0x10, 1, 0x8⟩
  | .IRQ_DATA => ⟨0x1000208, 32, 0x10, 1, 0x8⟩
  | .RTE_SLICE => ⟨0x0E40028, 1, 0x8, 1, 0x8⟩
  | .RTE_LANEOWN => ⟨0x0E40030, 1, 0x8, 1, 0x8⟩
  | .RTE_FENCE => ⟨0x0E40038, 1, 0x8, 1, 0x8⟩
  | .GRM_MIR_CFG => ⟨0x0900200, 1, 0x8, 1, 0x8⟩
  | .GRM_MIR_OUT_EPOCH => ⟨0x0900208, 1, 0x8, 1, 0x8⟩
  | .GRM_MIR_OUT => ⟨0x0900210, 1, 0x8, 1, 0x8⟩
  | .GRM_MIR_OUTSTAT => ⟨0x0900218, 1, 0x8, 1, 0x8⟩
  | .GRM_MIR_COPY_EPOCH => ⟨0x0900220, 2, 0x10, 1, 0x8⟩
  | .GRM_MIR_COPY => ⟨0x0900228, 2, 0x10, 1, 0x8⟩
  | .GRM_MIR_COMMIT => ⟨0x0900240, 1, 0x8, 1, 0x8⟩
  | .GRM_MIR_IN_DROPS => ⟨0x0900248, 1, 0x8, 1, 0x8⟩
  | .FLT_STATUS => ⟨0x0200000, 1, 0x8, 1, 0x8⟩
  | .FLT_FIRST => ⟨0x0200008, 1, 0x8, 1, 0x8⟩
  | .FLT_FIRST_MTC => ⟨0x0200010, 1, 0x8, 1, 0x8⟩
  | .FLT_REACT0 => ⟨0x0200018, 1, 0x8, 1, 0x8⟩
  | .FLT_REACT1 => ⟨0x0200020, 1, 0x8, 1, 0x8⟩
  | .FLT_CTL => ⟨0x0200028, 1, 0x8, 1, 0x8⟩
  | .FLT_RESET => ⟨0x0200030, 1, 0x8, 1, 0x8⟩
  | .FLT_MASKED => ⟨0x0200038, 1, 0x8, 1, 0x8⟩
  | .FLT_DUMP_BASE => ⟨0x0200040, 1, 0x8, 1, 0x8⟩
  | .FLT_DUMP_PTR => ⟨0x0200048, 1, 0x8, 1, 0x8⟩
  | .FLT_PFW_ADDR => ⟨0x0200050, 1, 0x8, 1, 0x8⟩
  | .AON_RESET_WIN => ⟨0x0100040, 1, 0x8, 1, 0x8⟩
  | .AON_LOG_PTR => ⟨0x0100048, 1, 0x8, 1, 0x8⟩
  | .YRD_STATE => ⟨0x0400000, 4, 0x100000, 1, 0x8⟩
  | .YRD_EPOCH_STAGE => ⟨0x0400008, 4, 0x100000, 1, 0x8⟩
  | .TT_EPOCH => ⟨0x0F01400, 64, 0x8, 1, 0x8⟩
  | .PWR_STATE => ⟨0x0300000, 1, 0x8, 1, 0x8⟩
  | .PWR_GOV => ⟨0x0300008, 1, 0x8, 1, 0x8⟩
  | .PWR_THERM => ⟨0x0300010, 1, 0x8, 1, 0x8⟩
  | .AON_SUPPLY => ⟨0x0100020, 1, 0x8, 1, 0x8⟩
  | .AON_BOOT => ⟨0x0100028, 1, 0x8, 1, 0x8⟩
  | .AON_LIGHT => ⟨0x0100030, 1, 0x8, 1, 0x8⟩
  | .HCH_BOUND => ⟨0x2100000, 1, 0x8, 1, 0x8⟩
  | .HCH_APER_BASE => ⟨0x2100010, 4, 0x10, 1, 0x8⟩
  | .HCH_APER_LIM => ⟨0x2100018, 4, 0x10, 1, 0x8⟩
  | .HCH_ERR => ⟨0x2100100, 16, 0x8, 1, 0x8⟩
  | .HCH_VEH_CTL => ⟨0x2100200, 1, 0x8, 1, 0x8⟩
  | .HCH_VEH_BASE => ⟨0x2100208, 1, 0x8, 1, 0x8⟩
  | .HCH_VEH_DB => ⟨0x2100210, 1, 0x8, 1, 0x8⟩
  | .HCH_VEH_SEQ => ⟨0x2100218, 1, 0x8, 1, 0x8⟩
  | .CMR_BOOT_ADDR => ⟨0x2200000, 1, 0x8, 1, 0x8⟩
  | .CMR_BOOT_LEN => ⟨0x2200008, 1, 0x8, 1, 0x8⟩
  | .CMR_BOOT_CTL => ⟨0x2200010, 1, 0x8, 1, 0x8⟩
  | .GLB_ID => ⟨0x0000000, 1, 0x8, 1, 0x8⟩
  | .GLB_CFG0 => ⟨0x0000008, 1, 0x8, 1, 0x8⟩
  | .GLB_CFG1 => ⟨0x0000010, 1, 0x8, 1, 0x8⟩
  | .GLB_CFG2 => ⟨0x0000018, 1, 0x8, 1, 0x8⟩
  | .GLB_CAP => ⟨0x0000020, 1, 0x8, 1, 0x8⟩
  | .GLB_FREQ => ⟨0x0000028, 1, 0x8, 1, 0x8⟩
  | .GLB_SERIAL => ⟨0x0000030, 1, 0x8, 1, 0x8⟩
  | .GLB_STATUS => ⟨0x0000038, 1, 0x8, 1, 0x8⟩
  | .GLB_SCRATCH => ⟨0x0000040, 1, 0x8, 1, 0x8⟩
  | .DEP_STATUS => ⟨0x2000000, 1, 0x8, 1, 0x8⟩
  | .DEP_ECC => ⟨0x2000008, 1, 0x8, 1, 0x8⟩
  | .DEP_UE_LAST => ⟨0x2000010, 1, 0x8, 1, 0x8⟩
  | .DEP_SCRUB => ⟨0x2000018, 1, 0x8, 1, 0x8⟩
  | .DEP_TEMP => ⟨0x2000020, 2, 0x8, 1, 0x8⟩
  | .DBG_TRACE_CTL => ⟨0x2300000, 1, 0x8, 1, 0x8⟩
  | .DBG_TRACE_STAT => ⟨0x2300008, 1, 0x8, 1, 0x8⟩
  | .DBG_HOLD => ⟨0x2300010, 1, 0x8, 1, 0x8⟩

/-- The field tables. -/
def fieldSpec : Fld → FieldSpec
  | .AON_MTC_MTC_NS => ⟨.AON_MTC, 63, 0, .ro, .l, 0⟩
  | .AON_MTC_LOAD_VALUE => ⟨.AON_MTC_LOAD, 63, 0, .wo, .s, 0⟩
  | .AON_MTC_STATUS_STEP_PENDING => ⟨.AON_MTC_STATUS, 7, 7, .ro, .l, 0⟩
  | .AON_MTC_STATUS_SLEWING => ⟨.AON_MTC_STATUS, 6, 6, .ro, .l, 0⟩
  | .AON_MTC_STATUS_ALIGNED => ⟨.AON_MTC_STATUS, 5, 5, .ro, .l, 0⟩
  | .AON_MTC_STATUS_TRUSTED => ⟨.AON_MTC_STATUS, 4, 4, .ro, .l, 0⟩
  | .AON_MTC_STATUS_HOLDOVER_REF => ⟨.AON_MTC_STATUS, 3, 3, .ro, .l, 0⟩
  | .AON_MTC_STATUS_HOLDOVER_LINKS => ⟨.AON_MTC_STATUS, 2, 2, .ro, .l, 0⟩
  | .AON_MTC_STATUS_SOURCE => ⟨.AON_MTC_STATUS, 1, 0, .ro, .l, 0⟩
  | .AON_TIME_STEPS_COUNT => ⟨.AON_TIME_STEPS, 31, 0, .ro, .l, 0⟩
  | .SYN_TIME_CTL_ROOT => ⟨.SYN_TIME_CTL, 8, 8, .rw, .t, 0⟩
  | .SYN_TIME_CTL_ALT_PARENT => ⟨.SYN_TIME_CTL, 6, 4, .rw, .t, 7⟩
  | .SYN_TIME_CTL_PARENT => ⟨.SYN_TIME_CTL, 2, 0, .rw, .t, 7⟩
  | .SYN_TIME_STATE_MEAN_OFFSET => ⟨.SYN_TIME_STATE, 63, 32, .ro, .l, 0⟩
  | .SYN_TIME_STATE_SOURCE_LINK => ⟨.SYN_TIME_STATE, 2, 0, .ro, .l, 7⟩
  | .SYN_LINK_DELAY_VALID => ⟨.SYN_LINK_DELAY, 63, 63, .ro, .l, 0⟩
  | .SYN_LINK_DELAY_DELAY => ⟨.SYN_LINK_DELAY, 23, 0, .ro, .l, 0⟩
  | .SYN_LINK_OFFSET_VALID => ⟨.SYN_LINK_OFFSET, 63, 63, .ro, .l, 0⟩
  | .SYN_LINK_OFFSET_OFFSET => ⟨.SYN_LINK_OFFSET, 31, 0, .ro, .l, 0⟩
  | .TT_CTL_STOP_NOW => ⟨.TT_CTL, 2, 2, .wo, .l, 0⟩
  | .TT_CTL_STOP_AT_PERIOD => ⟨.TT_CTL, 1, 1, .wo, .l, 0⟩
  | .TT_CTL_ARM => ⟨.TT_CTL, 0, 0, .wo, .l, 0⟩
  | .TT_STATUS_PERIOD_COUNT => ⟨.TT_STATUS, 63, 48, .ro, .l, 0⟩
  | .TT_STATUS_STAGE_IDX => ⟨.TT_STATUS, 31, 20, .ro, .l, 0⟩
  | .TT_STATUS_ERR => ⟨.TT_STATUS, 7, 4, .ro, .l, 0⟩
  | .TT_STATUS_STATE => ⟨.TT_STATUS, 1, 0, .ro, .l, 0⟩
  | .TT_STAGE_LEN_LEN_US => ⟨.TT_STAGE_LEN, 6, 0, .rw, .s, 8⟩
  | .TT_UNSCHED_SHARE_SIXTEENTHS => ⟨.TT_UNSCHED_SHARE, 3, 0, .rw, .s, 2⟩
  | .TT_START_MTC_START => ⟨.TT_START_MTC, 63, 0, .rw, .s, 0⟩
  | .TT_PERIOD_PERIOD_STAGES => ⟨.TT_PERIOD, 12, 0, .ro, .l, 0⟩
  | .TT_OVR_INFO_COUNT => ⟨.TT_OVR_INFO, 63, 32, .ro, .l, 0⟩
  | .TT_OVR_INFO_STAGE_IDX => ⟨.TT_OVR_INFO, 31, 20, .ro, .l, 0⟩
  | .TT_OVR_INFO_TEAM => ⟨.TT_OVR_INFO, 13, 8, .ro, .l, 0⟩
  | .TT_OVR_INFO_TEAM_GEN => ⟨.TT_OVR_INFO, 7, 0, .ro, .l, 0⟩
  | .TT_OVR_POST_POSTILIONS => ⟨.TT_OVR_POST, 63, 0, .rc, .l, 0⟩
  | .TT_EVAL_CTL_EVAL_ACTIVE => ⟨.TT_EVAL_CTL, 1, 1, .ro, .l, 0⟩
  | .TT_EVAL_CTL_EVAL_EN => ⟨.TT_EVAL_CTL, 0, 0, .rw, .t, 0⟩
  | .TT_STORE_ACTIVE_ID => ⟨.TT_STORE, 63, 32, .ro, .l, 0⟩
  | .TT_STORE_VAR_LANES => ⟨.TT_STORE, 11, 10, .ro, .l, 0⟩
  | .TT_STORE_VAR_RUNG => ⟨.TT_STORE, 9, 8, .ro, .l, 0⟩
  | .TT_STORE_VAR_IDX => ⟨.TT_STORE, 7, 6, .ro, .l, 0⟩
  | .TT_STORE_NO_VARIANT => ⟨.TT_STORE, 5, 5, .ro, .l, 1⟩
  | .TT_STORE_SWAP_PENDING => ⟨.TT_STORE, 4, 4, .ro, .l, 0⟩
  | .TT_STORE_STANDBY_VALID => ⟨.TT_STORE, 3, 3, .ro, .l, 0⟩
  | .TT_STORE_ACTIVE_VALID => ⟨.TT_STORE, 2, 2, .ro, .l, 0⟩
  | .TT_STORE_ACTIVE_BANK => ⟨.TT_STORE, 0, 0, .ro, .l, 0⟩
  | .TT_SWAP_MTC_SWAP => ⟨.TT_SWAP_MTC, 63, 0, .ro, .l, 0⟩
  | .TT_POST_FAULT_COUNT => ⟨.TT_POST_FAULT, 63, 32, .ro, .l, 0⟩
  | .TT_POST_FAULT_POSTILION => ⟨.TT_POST_FAULT, 21, 16, .ro, .l, 0⟩
  | .TT_POST_FAULT_CAUSE => ⟨.TT_POST_FAULT, 15, 12, .ro, .l, 0⟩
  | .TT_POST_FAULT_PC => ⟨.TT_POST_FAULT, 11, 0, .ro, .l, 0⟩
  | .TT_TEAM_INSTANCE => ⟨.TT_TEAM, 63, 32, .ro, .l, 0⟩
  | .TT_TEAM_GEN => ⟨.TT_TEAM, 31, 24, .ro, .l, 0⟩
  | .TT_TEAM_YARD => ⟨.TT_TEAM, 23, 22, .ro, .l, 0⟩
  | .TT_TEAM_ALG => ⟨.TT_TEAM, 21, 21, .ro, .l, 0⟩
  | .TT_TEAM_AXES => ⟨.TT_TEAM, 20, 18, .ro, .l, 0⟩
  | .TT_TEAM_CHUNK_LOG2 => ⟨.TT_TEAM, 17, 13, .ro, .l, 0⟩
  | .TT_TEAM_STATE => ⟨.TT_TEAM, 1, 0, .ro, .l, 0⟩
  | .TT_TEAMCNT_MISSING_SELF => ⟨.TT_TEAMCNT, 63, 48, .ro, .l, 0⟩
  | .TT_TEAMCNT_PEER_ABSENT => ⟨.TT_TEAMCNT, 47, 32, .ro, .l, 0⟩
  | .TT_TEAMCNT_POISONED => ⟨.TT_TEAMCNT, 31, 16, .ro, .l, 0⟩
  | .TT_TEAMCNT_DEGRADED => ⟨.TT_TEAMCNT, 15, 0, .ro, .l, 0⟩
  | .ARR_STATUS_CUR_OPC => ⟨.ARR_STATUS, 15, 8, .ro, .l, 0⟩
  | .ARR_STATUS_CUR_ROW => ⟨.ARR_STATUS, 5, 4, .ro, .l, 0⟩
  | .ARR_STATUS_CUR_COL => ⟨.ARR_STATUS, 3, 3, .ro, .l, 0⟩
  | .ARR_STATUS_HAZARD => ⟨.ARR_STATUS, 2, 2, .ro, .l, 0⟩
  | .ARR_STATUS_STALL => ⟨.ARR_STATUS, 1, 1, .ro, .l, 0⟩
  | .ARR_STATUS_BUSY => ⟨.ARR_STATUS, 0, 0, .ro, .l, 0⟩
  | .ARR_OPCOUNT_COUNT => ⟨.ARR_OPCOUNT, 63, 0, .ro, .l, 0⟩
  | .ARR_WAIT_PEAK => ⟨.ARR_WAIT, 63, 32, .ro, .l, 0⟩
  | .ARR_WAIT_WAIT => ⟨.ARR_WAIT, 31, 0, .ro, .l, 0⟩
  | .ARR_LASTOP_DESC => ⟨.ARR_LASTOP, 63, 0, .ro, .l, 0⟩
  | .ARR_SRG_KEY_KEY => ⟨.ARR_SRG_KEY, 63, 0, .rw, .l, 0⟩
  | .ARR_SRG_CTR_POINT => ⟨.ARR_SRG_CTR, 55, 40, .rw, .l, 0⟩
  | .ARR_SRG_CTR_INDEX => ⟨.ARR_SRG_CTR, 39, 0, .rw, .l, 0⟩
  | .ARR_SRG_TS_STEP => ⟨.ARR_SRG_TS, 63, 32, .rw, .l, 0⟩
  | .ARR_SRG_TS_TENSOR => ⟨.ARR_SRG_TS, 31, 0, .rw, .l, 0⟩
  | .ARR_SRG_OUT_WORD => ⟨.ARR_SRG_OUT, 31, 0, .ro, .l, 0⟩
  | .GRM_STATUS_CUT => ⟨.GRM_STATUS, 11, 11, .ro, .l, 0⟩
  | .GRM_STATUS_TEAM => ⟨.GRM_STATUS, 10, 5, .ro, .l, 0⟩
  | .GRM_STATUS_YARD => ⟨.GRM_STATUS, 4, 3, .ro, .l, 0⟩
  | .GRM_STATUS_KIND => ⟨.GRM_STATUS, 2, 1, .ro, .l, 0⟩
  | .GRM_STATUS_BUSY => ⟨.GRM_STATUS, 0, 0, .ro, .l, 0⟩
  | .GRM_COUNTS_JOBS => ⟨.GRM_COUNTS, 63, 32, .ro, .l, 0⟩
  | .GRM_COUNTS_SKIP_NF => ⟨.GRM_COUNTS, 31, 16, .ro, .l, 0⟩
  | .GRM_COUNTS_SKIP_STEP => ⟨.GRM_COUNTS, 15, 0, .ro, .l, 0⟩
  | .GRM_START_VALID => ⟨.GRM_START, 63, 63, .rw, .s, 0⟩
  | .GRM_START_DONE_OBJ => ⟨.GRM_START, 29, 16, .rw, .s, 0⟩
  | .GRM_START_START_OBJ => ⟨.GRM_START, 13, 0, .rw, .s, 0⟩
  | .GRM_FARWIN_EN => ⟨.GRM_FARWIN, 63, 63, .rw, .s, 0⟩
  | .GRM_FARWIN_REJECT => ⟨.GRM_FARWIN, 62, 48, .ro, .l, 0⟩
  | .GRM_FARWIN_LIMIT_MIB => ⟨.GRM_FARWIN, 47, 32, .rw, .s, 0⟩
  | .GRM_FARWIN_BASE_MIB => ⟨.GRM_FARWIN, 15, 0, .rw, .s, 0⟩
  | .RTE_EP_LO_VALID => ⟨.RTE_EP_LO, 63, 63, .rw, .t, 0⟩
  | .RTE_EP_LO_DETOUR_EN => ⟨.RTE_EP_LO, 62, 62, .rw, .t, 0⟩
  | .RTE_EP_LO_GEN => ⟨.RTE_EP_LO, 55, 48, .rw, .t, 0⟩
  | .RTE_EP_LO_TENANT_MASK => ⟨.RTE_EP_LO, 43, 40, .rw, .t, 0⟩
  | .RTE_EP_LO_DETOUR_EP => ⟨.RTE_EP_LO, 39, 24, .rw, .t, 0⟩
  | .RTE_EP_LO_Z => ⟨.RTE_EP_LO, 21, 16, .rw, .t, 0⟩
  | .RTE_EP_LO_Y => ⟨.RTE_EP_LO, 13, 8, .rw, .t, 0⟩
  | .RTE_EP_LO_X => ⟨.RTE_EP_LO, 5, 0, .rw, .t, 0⟩
  | .RTE_EP_HI_STALE => ⟨.RTE_EP_HI, 15, 0, .ro, .l, 0⟩
  | .RTE_SELF_VALID => ⟨.RTE_SELF, 63, 63, .rw, .s, 0⟩
  | .RTE_SELF_EP => ⟨.RTE_SELF, 15, 0, .rw, .s, 0⟩
  | .RTE_CTL_MGMT_WR_EN => ⟨.RTE_CTL, 0, 0, .rw, .l, 0⟩
  | .RTE_DROPS_STALE => ⟨.RTE_DROPS, 63, 48, .ro, .l, 0⟩
  | .RTE_DROPS_TENANT => ⟨.RTE_DROPS, 47, 32, .ro, .l, 0⟩
  | .RTE_DROPS_MISROUTE => ⟨.RTE_DROPS, 31, 16, .ro, .l, 0⟩
  | .RTE_DROPS_MALFORMED => ⟨.RTE_DROPS, 15, 0, .ro, .l, 0⟩
  | .RTE_RECALL_SENT => ⟨.RTE_RECALL, 63, 32, .ro, .l, 0⟩
  | .RTE_RECALL_RECEIVED => ⟨.RTE_RECALL, 31, 0, .ro, .l, 0⟩
  | .RTE_WINSTAT_TIMEOUTS => ⟨.RTE_WINSTAT, 63, 48, .ro, .l, 0⟩
  | .RTE_WINSTAT_IN_USE => ⟨.RTE_WINSTAT, 12, 0, .ro, .l, 0⟩
  | .RTE_RETRY_REPLAYS => ⟨.RTE_RETRY, 63, 40, .ro, .l, 0⟩
  | .RTE_RETRY_NAKS => ⟨.RTE_RETRY, 39, 16, .ro, .l, 0⟩
  | .RTE_RETRY_LOST => ⟨.RTE_RETRY, 15, 0, .ro, .l, 0⟩
  | .RTE_CONG_BLOCKED => ⟨.RTE_CONG, 63, 40, .ro, .l, 0⟩
  | .RTE_CONG_PEAK_BYTES => ⟨.RTE_CONG, 31, 16, .ro, .l, 0⟩
  | .RTE_CONG_PEAK_BUFS => ⟨.RTE_CONG, 15, 12, .ro, .l, 0⟩
  | .RTE_CONG_STAGE_IDX => ⟨.RTE_CONG, 11, 0, .ro, .l, 0⟩
  | .RTE_CONGHIST_ENTRY => ⟨.RTE_CONGHIST, 63, 0, .ro, .l, 0⟩
  | .RTE_RXGEN_GENS => ⟨.RTE_RXGEN, 63, 0, .ro, .l, 0⟩
  | .LNK_CTL_FFE_REQ => ⟨.LNK_CTL, 10, 8, .rw, .s, 2⟩
  | .LNK_CTL_BER_LOWER_EN => ⟨.LNK_CTL, 3, 3, .rw, .l, 1⟩
  | .LNK_CTL_RUNG_MAX => ⟨.LNK_CTL, 1, 0, .rw, .s, 3⟩
  | .LNK_STATE_RETRAINS => ⟨.LNK_STATE, 63, 32, .ro, .l, 0⟩
  | .LNK_STATE_LAST_FAIL => ⟨.LNK_STATE, 15, 12, .ro, .l, 0⟩
  | .LNK_STATE_STATE => ⟨.LNK_STATE, 3, 0, .ro, .l, 0⟩
  | .LNK_RUNG_GROUPS => ⟨.LNK_RUNG, 7, 4, .ro, .l, 0⟩
  | .LNK_RUNG_CAP => ⟨.LNK_RUNG, 3, 2, .ro, .l, 0⟩
  | .LNK_RUNG_RUNG => ⟨.LNK_RUNG, 1, 0, .ro, .l, 0⟩
  | .LNK_FIBRE_LASER_FAULT => ⟨.LNK_FIBRE, 27, 24, .ro, .l, 0⟩
  | .LNK_FIBRE_LIGHT => ⟨.LNK_FIBRE, 23, 20, .ro, .l, 0⟩
  | .LNK_FIBRE_LASER_ON => ⟨.LNK_FIBRE, 19, 16, .ro, .l, 0⟩
  | .LNK_FIBRE_ACCESSIBLE => ⟨.LNK_FIBRE, 3, 0, .rw, .s, 15⟩
  | .LNK_BER_WINDOW_ERRORS => ⟨.LNK_BER, 63, 32, .ro, .l, 0⟩
  | .LNK_BER_LOWERINGS => ⟨.LNK_BER, 15, 0, .ro, .l, 0⟩
  | .LNK_GAIN_THR_H => ⟨.LNK_GAIN_THR, 55, 48, .rw, .s, 16⟩
  | .LNK_GAIN_THR_B2 => ⟨.LNK_GAIN_THR, 41, 32, .rw, .s, 512⟩
  | .LNK_GAIN_THR_B1 => ⟨.LNK_GAIN_THR, 25, 16, .rw, .s, 256⟩
  | .LNK_GAIN_THR_B0 => ⟨.LNK_GAIN_THR, 9, 0, .rw, .s, 128⟩
  | .LNK_GAIN_RANGES => ⟨.LNK_GAIN, 63, 0, .ro, .l, 0⟩
  | .LNK_PRBS_CTL_RUNG => ⟨.LNK_PRBS_CTL, 3, 2, .rw, .s, 0⟩
  | .LNK_PRBS_CTL_PATTERN => ⟨.LNK_PRBS_CTL, 1, 0, .rw, .s, 0⟩
  | .LNK_BRIDLE_CTL_MOD_TARGET => ⟨.LNK_BRIDLE_CTL, 31, 24, .rw, .s, 128⟩
  | .LNK_BRIDLE_CTL_XTALK => ⟨.LNK_BRIDLE_CTL, 20, 16, .rw, .s, 4⟩
  | .LNK_BRIDLE_CTL_DITHER => ⟨.LNK_BRIDLE_CTL, 11, 8, .rw, .s, 4⟩
  | .LNK_EVENTS_LOSS_ATTRIB => ⟨.LNK_EVENTS, 63, 48, .ro, .l, 0⟩
  | .LNK_EVENTS_LOSS_UNATTRIB => ⟨.LNK_EVENTS, 47, 32, .ro, .l, 0⟩
  | .LNK_EVENTS_BAD_UNITS => ⟨.LNK_EVENTS, 31, 16, .ro, .l, 0⟩
  | .LNK_EVENTS_QUICK => ⟨.LNK_EVENTS, 15, 0, .ro, .l, 0⟩
  | .LNK_LANE_PRBS_ERR => ⟨.LNK_LANE, 63, 32, .rc, .l, 0⟩
  | .LNK_LANE_CODE_VIOL => ⟨.LNK_LANE, 31, 20, .rc, .l, 0⟩
  | .LNK_LANE_DISP_ERR => ⟨.LNK_LANE, 19, 8, .rc, .l, 0⟩
  | .LNK_LANE_LOCK => ⟨.LNK_LANE, 7, 7, .ro, .l, 0⟩
  | .LNK_LANE_PRBS_SYNC => ⟨.LNK_LANE, 6, 6, .ro, .l, 0⟩
  | .LNK_LANE_SKEW => ⟨.LNK_LANE, 5, 0, .ro, .l, 0⟩
  | .LNK_RING_START => ⟨.LNK_RING, 43, 32, .rw, .s, 0⟩
  | .LNK_RING_HEATER => ⟨.LNK_RING, 27, 16, .ro, .l, 0⟩
  | .LNK_RING_RELOCKS => ⟨.LNK_RING, 15, 8, .ro, .l, 0⟩
  | .LNK_RING_STATE => ⟨.LNK_RING, 1, 0, .ro, .l, 0⟩
  | .SYN_RANGE_TENANT => ⟨.SYN_RANGE, 49, 48, .ro, .l, 0⟩
  | .SYN_RANGE_LIMIT => ⟨.SYN_RANGE, 46, 32, .ro, .l, 0⟩
  | .SYN_RANGE_BASE => ⟨.SYN_RANGE, 13, 0, .ro, .l, 0⟩
  | .SYN_MISUSE0_XTENANT => ⟨.SYN_MISUSE0, 63, 48, .ro, .l, 0⟩
  | .SYN_MISUSE0_UNALLOC => ⟨.SYN_MISUSE0, 47, 32, .ro, .l, 0⟩
  | .SYN_MISUSE0_KIND => ⟨.SYN_MISUSE0, 31, 16, .ro, .l, 0⟩
  | .SYN_MISUSE0_OVF => ⟨.SYN_MISUSE0, 15, 0, .ro, .l, 0⟩
  | .SYN_MISUSE1_LATE_EPOCH => ⟨.SYN_MISUSE1, 63, 48, .ro, .l, 0⟩
  | .SYN_MISUSE1_BAR_ORPHAN => ⟨.SYN_MISUSE1, 47, 32, .ro, .l, 0⟩
  | .SYN_MISUSE1_BAR_SENSE => ⟨.SYN_MISUSE1, 31, 16, .ro, .l, 0⟩
  | .SYN_MISUSE_LAST_SRC_EP => ⟨.SYN_MISUSE_LAST, 63, 48, .ro, .l, 0⟩
  | .SYN_MISUSE_LAST_OBJ => ⟨.SYN_MISUSE_LAST, 45, 32, .ro, .l, 0⟩
  | .SYN_MISUSE_LAST_CAUSE => ⟨.SYN_MISUSE_LAST, 3, 0, .ro, .l, 0⟩
  | .SYN_REALIGN_EPOCH => ⟨.SYN_REALIGN, 63, 48, .ro, .l, 0⟩
  | .SYN_REALIGN_DISCREP => ⟨.SYN_REALIGN, 47, 32, .ro, .l, 0⟩
  | .SYN_REALIGN_STAGES => ⟨.SYN_REALIGN, 12, 0, .rw, .s, 256⟩
  | .SYN_DL_CTL_EN => ⟨.SYN_DL_CTL, 32, 32, .rw, .l, 1⟩
  | .SYN_DL_CTL_WINDOW_US => ⟨.SYN_DL_CTL, 19, 0, .rw, .l, 1000⟩
  | .SYN_DL_STATUS_COUNT => ⟨.SYN_DL_STATUS, 63, 32, .ro, .l, 0⟩
  | .SYN_DL_STATUS_RAISED => ⟨.SYN_DL_STATUS, 3, 0, .w1c, .l, 0⟩
  | .SYN_BAR_VALID => ⟨.SYN_BAR, 63, 63, .ro, .l, 0⟩
  | .SYN_BAR_LOCAL_NEED => ⟨.SYN_BAR, 47, 32, .ro, .l, 0⟩
  | .SYN_BAR_OBJ => ⟨.SYN_BAR, 13, 0, .ro, .l, 0⟩
  | .SYN_OBJ_VALUE => ⟨.SYN_OBJ, 63, 0, .rw, .l, 0⟩
  | .SYN_ADD_OPERAND => ⟨.SYN_ADD, 63, 0, .wo, .l, 0⟩
  | .SYN_FLAG_PARAM => ⟨.SYN_FLAG, 63, 32, .ro, .l, 0⟩
  | .SYN_FLAG_TEAM => ⟨.SYN_FLAG, 21, 16, .ro, .l, 0⟩
  | .SYN_FLAG_YARD => ⟨.SYN_FLAG, 9, 8, .ro, .l, 0⟩
  | .SYN_FLAG_ABSENT => ⟨.SYN_FLAG, 4, 4, .ro, .l, 0⟩
  | .SYN_FLAG_OVF => ⟨.SYN_FLAG, 3, 3, .w1c, .l, 0⟩
  | .SYN_FLAG_KIND => ⟨.SYN_FLAG, 2, 1, .ro, .l, 0⟩
  | .SYN_FLAG_ALLOC => ⟨.SYN_FLAG, 0, 0, .ro, .l, 0⟩
  | .DB_SQ_TAIL_TAIL => ⟨.DB_SQ_TAIL, 15, 0, .rw, .l, 0⟩
  | .DB_SQ_HEAD_HEAD => ⟨.DB_SQ_HEAD, 15, 0, .ro, .l, 0⟩
  | .DB_CQ_TAIL_TAIL => ⟨.DB_CQ_TAIL, 15, 0, .ro, .l, 0⟩
  | .DB_CQ_HEAD_HEAD => ⟨.DB_CQ_HEAD, 15, 0, .rw, .l, 0⟩
  | .DB_CQ_ARM_ARM => ⟨.DB_CQ_ARM, 0, 0, .w1s, .l, 0⟩
  | .DB_CANCEL_CMD_ID => ⟨.DB_CANCEL, 15, 0, .wo, .l, 0⟩
  | .DB_STATUS_QGEN => ⟨.DB_STATUS, 63, 56, .ro, .l, 0⟩
  | .DB_STATUS_OUTSTANDING => ⟨.DB_STATUS, 55, 40, .ro, .l, 0⟩
  | .DB_STATUS_BAD_DB => ⟨.DB_STATUS, 39, 32, .ro, .l, 0⟩
  | .DB_STATUS_BAD_CANCEL => ⟨.DB_STATUS, 31, 24, .ro, .l, 0⟩
  | .DB_STATUS_SQ_LOG2 => ⟨.DB_STATUS, 23, 19, .ro, .l, 0⟩
  | .DB_STATUS_CQ_LOG2 => ⟨.DB_STATUS, 18, 14, .ro, .l, 0⟩
  | .DB_STATUS_VECTOR => ⟨.DB_STATUS, 12, 8, .ro, .l, 0⟩
  | .DB_STATUS_YARD => ⟨.DB_STATUS, 7, 6, .ro, .l, 0⟩
  | .DB_STATUS_QUARANTINE => ⟨.DB_STATUS, 2, 2, .ro, .l, 0⟩
  | .DB_STATUS_SQ_LIVE => ⟨.DB_STATUS, 1, 1, .ro, .l, 0⟩
  | .DB_STATUS_CQ_LIVE => ⟨.DB_STATUS, 0, 0, .ro, .l, 0⟩
  | .DB_TIMEOUT_COLL_MS => ⟨.DB_TIMEOUT, 31, 16, .ro, .l, 2000⟩
  | .DB_TIMEOUT_REM_100US => ⟨.DB_TIMEOUT, 15, 0, .ro, .l, 1000⟩
  | .ADM_SQ_BASE_ADDR => ⟨.ADM_SQ_BASE, 63, 12, .rw, .s, 0⟩
  | .ADM_CQ_BASE_ADDR => ⟨.ADM_CQ_BASE, 63, 12, .rw, .s, 0⟩
  | .ADM_CTL_EN => ⟨.ADM_CTL, 63, 63, .rw, .l, 0⟩
  | .ADM_CTL_CQ_LOG2 => ⟨.ADM_CTL, 20, 16, .rw, .s, 4⟩
  | .ADM_CTL_SQ_LOG2 => ⟨.ADM_CTL, 12, 8, .rw, .s, 4⟩
  | .ADM_CTL_VECTOR => ⟨.ADM_CTL, 4, 0, .rw, .s, 0⟩
  | .IRQ_ADDR_ADDR => ⟨.IRQ_ADDR, 63, 2, .rw, .l, 0⟩
  | .IRQ_DATA_MASK => ⟨.IRQ_DATA, 63, 63, .rw, .l, 1⟩
  | .IRQ_DATA_PENDING => ⟨.IRQ_DATA, 62, 62, .ro, .l, 0⟩
  | .IRQ_DATA_DATA => ⟨.IRQ_DATA, 31, 0, .rw, .l, 0⟩
  | .RTE_SLICE_EXT_Z => ⟨.RTE_SLICE, 22, 16, .rw, .s, 0⟩
  | .RTE_SLICE_EXT_Y => ⟨.RTE_SLICE, 14, 8, .rw, .s, 0⟩
  | .RTE_SLICE_EXT_X => ⟨.RTE_SLICE, 6, 0, .rw, .s, 0⟩
  | .RTE_LANEOWN_OWNER => ⟨.RTE_LANEOWN, 47, 0, .ro, .l, 0⟩
  | .RTE_FENCE_OVERFLOW => ⟨.RTE_FENCE, 47, 32, .ro, .l, 0⟩
  | .RTE_FENCE_ACTIVE => ⟨.RTE_FENCE, 6, 0, .ro, .l, 0⟩
  | .GRM_MIR_CFG_OUT_EN => ⟨.GRM_MIR_CFG, 63, 63, .ro, .l, 0⟩
  | .GRM_MIR_CFG_IN_EN => ⟨.GRM_MIR_CFG, 62, 62, .ro, .l, 0⟩
  | .GRM_MIR_CFG_LINK => ⟨.GRM_MIR_CFG, 50, 48, .ro, .l, 0⟩
  | .GRM_MIR_CFG_BUDDY_EP => ⟨.GRM_MIR_CFG, 47, 32, .ro, .l, 0⟩
  | .GRM_MIR_CFG_IN_SIZE_MIB => ⟨.GRM_MIR_CFG, 31, 16, .ro, .l, 0⟩
  | .GRM_MIR_CFG_IN_BASE_MIB => ⟨.GRM_MIR_CFG, 15, 0, .ro, .l, 0⟩
  | .GRM_MIR_OUT_EPOCH_EPOCH => ⟨.GRM_MIR_OUT_EPOCH, 63, 0, .ro, .l, 0⟩
  | .GRM_MIR_OUT_STAGED => ⟨.GRM_MIR_OUT, 63, 32, .ro, .l, 0⟩
  | .GRM_MIR_OUT_ACKED => ⟨.GRM_MIR_OUT, 31, 0, .ro, .l, 0⟩
  | .GRM_MIR_OUTSTAT_COMMITS => ⟨.GRM_MIR_OUTSTAT, 63, 32, .ro, .l, 0⟩
  | .GRM_MIR_OUTSTAT_LOST => ⟨.GRM_MIR_OUTSTAT, 31, 16, .ro, .l, 0⟩
  | .GRM_MIR_OUTSTAT_LAST_OUTCOME => ⟨.GRM_MIR_OUTSTAT, 7, 0, .ro, .l, 255⟩
  | .GRM_MIR_COPY_EPOCH_EPOCH => ⟨.GRM_MIR_COPY_EPOCH, 63, 0, .ro, .l, 0⟩
  | .GRM_MIR_COPY_BYTES => ⟨.GRM_MIR_COPY, 63, 32, .ro, .l, 0⟩
  | .GRM_MIR_COPY_CURRENT => ⟨.GRM_MIR_COPY, 2, 2, .ro, .l, 0⟩
  | .GRM_MIR_COPY_STATE => ⟨.GRM_MIR_COPY, 1, 0, .ro, .l, 0⟩
  | .GRM_MIR_COMMIT_EPOCH_LO => ⟨.GRM_MIR_COMMIT, 63, 32, .wo, .l, 0⟩
  | .GRM_MIR_COMMIT_COUNT => ⟨.GRM_MIR_COMMIT, 31, 0, .wo, .l, 0⟩
  | .GRM_MIR_IN_DROPS_STALE_EPOCH => ⟨.GRM_MIR_IN_DROPS, 63, 48, .ro, .l, 0⟩
  | .GRM_MIR_IN_DROPS_OVERSIZE => ⟨.GRM_MIR_IN_DROPS, 47, 32, .ro, .l, 0⟩
  | .GRM_MIR_IN_DROPS_DISABLED => ⟨.GRM_MIR_IN_DROPS, 31, 16, .ro, .l, 0⟩
  | .FLT_STATUS_SOURCES => ⟨.FLT_STATUS, 63, 0, .w1c, .l, 0⟩
  | .FLT_FIRST_VALID => ⟨.FLT_FIRST, 63, 63, .w1c, .l, 0⟩
  | .FLT_FIRST_OVF => ⟨.FLT_FIRST, 62, 62, .ro, .l, 0⟩
  | .FLT_FIRST_SOURCE => ⟨.FLT_FIRST, 5, 0, .ro, .l, 0⟩
  | .FLT_FIRST_MTC_MTC => ⟨.FLT_FIRST_MTC, 63, 0, .ro, .l, 0⟩
  | .FLT_REACT0_REACT => ⟨.FLT_REACT0, 63, 0, .rw, .l, 0⟩
  | .FLT_REACT1_REACT => ⟨.FLT_REACT1, 63, 0, .rw, .l, 0⟩
  | .FLT_CTL_IRQ_EN => ⟨.FLT_CTL, 63, 63, .rw, .l, 0⟩
  | .FLT_CTL_OOS => ⟨.FLT_CTL, 10, 10, .ro, .l, 0⟩
  | .FLT_CTL_SAFE_N_LOW => ⟨.FLT_CTL, 9, 9, .ro, .l, 0⟩
  | .FLT_CTL_SAFE => ⟨.FLT_CTL, 8, 8, .ro, .l, 0⟩
  | .FLT_CTL_VECTOR => ⟨.FLT_CTL, 4, 0, .rw, .l, 0⟩
  | .FLT_RESET_KEY => ⟨.FLT_RESET, 15, 0, .wo, .l, 0⟩
  | .FLT_MASKED_COUNT => ⟨.FLT_MASKED, 31, 0, .ro, .l, 0⟩
  | .FLT_DUMP_BASE_ADDR => ⟨.FLT_DUMP_BASE, 63, 12, .rw, .l, 0⟩
  | .FLT_DUMP_BASE_SIZE_MIB => ⟨.FLT_DUMP_BASE, 11, 4, .rw, .l, 0⟩
  | .FLT_DUMP_PTR_RECORDS => ⟨.FLT_DUMP_PTR, 63, 32, .ro, .l, 0⟩
  | .FLT_DUMP_PTR_NEXT => ⟨.FLT_DUMP_PTR, 31, 0, .ro, .l, 0⟩
  | .FLT_PFW_ADDR_ADDR => ⟨.FLT_PFW_ADDR, 63, 12, .rw, .l, 0⟩
  | .FLT_PFW_ADDR_EN => ⟨.FLT_PFW_ADDR, 0, 0, .rw, .l, 0⟩
  | .AON_RESET_WIN_WINDOW_S => ⟨.AON_RESET_WIN, 47, 32, .rw, .l, 60⟩
  | .AON_RESET_WIN_LIMIT => ⟨.AON_RESET_WIN, 19, 16, .rw, .l, 4⟩
  | .AON_RESET_WIN_CLEAR => ⟨.AON_RESET_WIN, 8, 8, .wo, .l, 0⟩
  | .AON_RESET_WIN_COUNT => ⟨.AON_RESET_WIN, 4, 0, .ro, .l, 0⟩
  | .AON_LOG_PTR_WRAPS => ⟨.AON_LOG_PTR, 63, 32, .ro, .l, 0⟩
  | .AON_LOG_PTR_HEAD => ⟨.AON_LOG_PTR, 13, 0, .ro, .l, 0⟩
  | .YRD_STATE_GEN => ⟨.YRD_STATE, 63, 56, .ro, .l, 0⟩
  | .YRD_STATE_RESETS => ⟨.YRD_STATE, 55, 48, .ro, .l, 0⟩
  | .YRD_STATE_REPLAY_TEAM => ⟨.YRD_STATE, 7, 2, .ro, .l, 0⟩
  | .YRD_STATE_STATE => ⟨.YRD_STATE, 1, 0, .ro, .l, 0⟩
  | .YRD_EPOCH_STAGE_EN => ⟨.YRD_EPOCH_STAGE, 63, 63, .rw, .s, 0⟩
  | .YRD_EPOCH_STAGE_SIZE_MIB => ⟨.YRD_EPOCH_STAGE, 47, 32, .rw, .s, 0⟩
  | .YRD_EPOCH_STAGE_BASE_MIB => ⟨.YRD_EPOCH_STAGE, 15, 0, .rw, .s, 0⟩
  | .TT_EPOCH_INSTANCE => ⟨.TT_EPOCH, 63, 32, .ro, .l, 0⟩
  | .TT_EPOCH_DECISION => ⟨.TT_EPOCH, 1, 0, .rw, .l, 0⟩
  | .PWR_STATE_OFF_READY => ⟨.PWR_STATE, 12, 12, .ro, .l, 0⟩
  | .PWR_STATE_CUR => ⟨.PWR_STATE, 10, 8, .ro, .l, 0⟩
  | .PWR_STATE_REQ => ⟨.PWR_STATE, 1, 0, .rw, .l, 0⟩
  | .PWR_GOV_BUBBLES => ⟨.PWR_GOV, 63, 32, .ro, .l, 0⟩
  | .PWR_GOV_SLOPE => ⟨.PWR_GOV, 6, 0, .rw, .s, 25⟩
  | .PWR_THERM_THROTTLE => ⟨.PWR_THERM, 19, 18, .ro, .l, 0⟩
  | .PWR_THERM_REFRESH_X2 => ⟨.PWR_THERM, 17, 17, .ro, .l, 0⟩
  | .PWR_THERM_DEPOT_MAX => ⟨.PWR_THERM, 15, 8, .ro, .l, 0⟩
  | .PWR_THERM_BLOCK_MAX => ⟨.PWR_THERM, 7, 0, .ro, .l, 0⟩
  | .AON_SUPPLY_IN_BAND => ⟨.AON_SUPPLY, 13, 8, .ro, .l, 0⟩
  | .AON_SUPPLY_GOOD => ⟨.AON_SUPPLY, 5, 0, .ro, .l, 0⟩
  | .AON_BOOT_STABLE => ⟨.AON_BOOT, 24, 24, .ro, .l, 0⟩
  | .AON_BOOT_FAILS => ⟨.AON_BOOT, 17, 16, .ro, .l, 0⟩
  | .AON_BOOT_LAST_FAIL => ⟨.AON_BOOT, 15, 8, .ro, .l, 0⟩
  | .AON_BOOT_CAUSE => ⟨.AON_BOOT, 7, 0, .ro, .l, 1⟩
  | .AON_LIGHT_PRESENT => ⟨.AON_LIGHT, 23, 0, .ro, .l, 0⟩
  | .HCH_BOUND_BOUND_US => ⟨.HCH_BOUND, 9, 0, .rw, .s, 20⟩
  | .HCH_APER_BASE_BASE => ⟨.HCH_APER_BASE, 46, 12, .rw, .t, 0⟩
  | .HCH_APER_LIM_LIMIT => ⟨.HCH_APER_LIM, 46, 12, .rw, .t, 0⟩
  | .HCH_ERR_RD_ERR => ⟨.HCH_ERR, 63, 48, .ro, .l, 0⟩
  | .HCH_ERR_WR_ERR => ⟨.HCH_ERR, 47, 32, .ro, .l, 0⟩
  | .HCH_ERR_STALE => ⟨.HCH_ERR, 31, 16, .ro, .l, 0⟩
  | .HCH_ERR_LATE => ⟨.HCH_ERR, 15, 0, .ro, .l, 0⟩
  | .HCH_VEH_CTL_EN => ⟨.HCH_VEH_CTL, 63, 63, .rw, .s, 0⟩
  | .HCH_VEH_CTL_LAYOUT => ⟨.HCH_VEH_CTL, 62, 62, .rw, .s, 0⟩
  | .HCH_VEH_CTL_TILES => ⟨.HCH_VEH_CTL, 15, 0, .rw, .s, 0⟩
  | .HCH_VEH_BASE_ADDR => ⟨.HCH_VEH_BASE, 63, 16, .rw, .s, 0⟩
  | .HCH_VEH_DB_ADDR => ⟨.HCH_VEH_DB, 63, 2, .rw, .s, 0⟩
  | .HCH_VEH_SEQ_SEQ => ⟨.HCH_VEH_SEQ, 63, 0, .ro, .l, 0⟩
  | .CMR_BOOT_ADDR_ADDR => ⟨.CMR_BOOT_ADDR, 46, 12, .rw, .s, 0⟩
  | .CMR_BOOT_LEN_LEN => ⟨.CMR_BOOT_LEN, 20, 0, .rw, .s, 0⟩
  | .CMR_BOOT_CTL_STEP => ⟨.CMR_BOOT_CTL, 9, 8, .ro, .l, 0⟩
  | .CMR_BOOT_CTL_OK => ⟨.CMR_BOOT_CTL, 1, 1, .w1s, .l, 0⟩
  | .CMR_BOOT_CTL_GO => ⟨.CMR_BOOT_CTL, 0, 0, .wo, .l, 0⟩
  | .GLB_ID_VENDOR => ⟨.GLB_ID, 63, 48, .ro, .l, 2670⟩
  | .GLB_ID_BLOCK => ⟨.GLB_ID, 47, 32, .ro, .l, 246⟩
  | .GLB_ID_REL_MAJOR => ⟨.GLB_ID, 31, 24, .ro, .l, 2⟩
  | .GLB_ID_REL_MINOR => ⟨.GLB_ID, 23, 16, .ro, .l, 1⟩
  | .GLB_ID_TT_VERSION => ⟨.GLB_ID, 15, 8, .ro, .l, 2⟩
  | .GLB_ID_STEPPING => ⟨.GLB_ID, 7, 0, .ro, .l, 0⟩
  | .GLB_CFG0_ENDPOINTS => ⟨.GLB_CFG0, 63, 48, .ro, .l, 0⟩
  | .GLB_CFG0_QUEUES => ⟨.GLB_CFG0, 47, 32, .ro, .l, 0⟩
  | .GLB_CFG0_SYNC_OBJS => ⟨.GLB_CFG0, 31, 16, .ro, .l, 0⟩
  | .GLB_CFG0_TEAMS => ⟨.GLB_CFG0, 15, 8, .ro, .l, 0⟩
  | .GLB_CFG0_CONFIG => ⟨.GLB_CFG0, 1, 0, .ro, .l, 0⟩
  | .GLB_CFG1_SCRATCH_MIB => ⟨.GLB_CFG1, 47, 32, .ro, .l, 0⟩
  | .GLB_CFG1_DEPOT_GIB => ⟨.GLB_CFG1, 31, 16, .ro, .l, 0⟩
  | .GLB_CFG1_TT_STORE_KIB => ⟨.GLB_CFG1, 15, 0, .ro, .l, 8192⟩
  | .GLB_CFG2_ARRAY_LANES => ⟨.GLB_CFG2, 63, 48, .ro, .l, 4096⟩
  | .GLB_CFG2_LINKS => ⟨.GLB_CFG2, 47, 40, .ro, .l, 6⟩
  | .GLB_CFG2_LANES => ⟨.GLB_CFG2, 39, 32, .ro, .l, 64⟩
  | .GLB_CFG2_YARDS => ⟨.GLB_CFG2, 31, 24, .ro, .l, 4⟩
  | .GLB_CFG2_HITCH_PORTS => ⟨.GLB_CFG2, 23, 16, .ro, .l, 16⟩
  | .GLB_CFG2_DEPOT_CH => ⟨.GLB_CFG2, 15, 8, .ro, .l, 16⟩
  | .GLB_CFG2_TENANTS => ⟨.GLB_CFG2, 7, 0, .ro, .l, 4⟩
  | .GLB_CAP_EPOCH => ⟨.GLB_CAP, 10, 10, .ro, .l, 1⟩
  | .GLB_CAP_TRACE => ⟨.GLB_CAP, 9, 9, .ro, .l, 1⟩
  | .GLB_CAP_EVAL => ⟨.GLB_CAP, 8, 8, .ro, .l, 1⟩
  | .GLB_CAP_SUBLINKS => ⟨.GLB_CAP, 7, 7, .ro, .l, 1⟩
  | .GLB_CAP_VEH_LEGACY => ⟨.GLB_CAP, 6, 6, .ro, .l, 1⟩
  | .GLB_CAP_VEH => ⟨.GLB_CAP, 5, 5, .ro, .l, 1⟩
  | .GLB_CAP_FAR_WINDOW => ⟨.GLB_CAP, 4, 4, .ro, .l, 1⟩
  | .GLB_CAP_MIRROR => ⟨.GLB_CAP, 3, 3, .ro, .l, 1⟩
  | .GLB_CAP_GROOM => ⟨.GLB_CAP, 2, 2, .ro, .l, 1⟩
  | .GLB_CAP_INT4 => ⟨.GLB_CAP, 1, 1, .ro, .l, 1⟩
  | .GLB_CAP_FP64 => ⟨.GLB_CAP, 0, 0, .ro, .l, 1⟩
  | .GLB_FREQ_FCLK_MHZ => ⟨.GLB_FREQ, 47, 32, .ro, .l, 1600⟩
  | .GLB_FREQ_CM_MHZ => ⟨.GLB_FREQ, 31, 16, .ro, .l, 2000⟩
  | .GLB_FREQ_REF_MHZ => ⟨.GLB_FREQ, 15, 0, .ro, .l, 125⟩
  | .GLB_SERIAL_SERIAL => ⟨.GLB_SERIAL, 63, 0, .ro, .l, 0⟩
  | .GLB_STATUS_DEPOT_READY => ⟨.GLB_STATUS, 5, 5, .ro, .l, 0⟩
  | .GLB_STATUS_FW_OK => ⟨.GLB_STATUS, 4, 4, .ro, .l, 0⟩
  | .GLB_STATUS_STABLE => ⟨.GLB_STATUS, 3, 3, .ro, .l, 0⟩
  | .GLB_STATUS_OOS => ⟨.GLB_STATUS, 2, 2, .ro, .l, 0⟩
  | .GLB_STATUS_SAFE => ⟨.GLB_STATUS, 1, 1, .ro, .l, 0⟩
  | .GLB_STATUS_SLICE_SET => ⟨.GLB_STATUS, 0, 0, .ro, .l, 0⟩
  | .GLB_SCRATCH_DATA => ⟨.GLB_SCRATCH, 63, 0, .rw, .l, 0⟩
  | .DEP_STATUS_TRAINED => ⟨.DEP_STATUS, 47, 32, .ro, .l, 0⟩
  | .DEP_STATUS_THROTTLE => ⟨.DEP_STATUS, 31, 0, .ro, .l, 0⟩
  | .DEP_ECC_CE => ⟨.DEP_ECC, 63, 32, .ro, .l, 0⟩
  | .DEP_ECC_CHIPKILL => ⟨.DEP_ECC, 31, 16, .ro, .l, 0⟩
  | .DEP_ECC_UE => ⟨.DEP_ECC, 15, 0, .ro, .l, 0⟩
  | .DEP_UE_LAST_CHANNEL => ⟨.DEP_UE_LAST, 63, 60, .ro, .l, 0⟩
  | .DEP_UE_LAST_ADDR => ⟨.DEP_UE_LAST, 34, 0, .ro, .l, 0⟩
  | .DEP_SCRUB_EN => ⟨.DEP_SCRUB, 63, 63, .rw, .s, 1⟩
  | .DEP_SCRUB_PERIOD_H => ⟨.DEP_SCRUB, 7, 0, .rw, .s, 24⟩
  | .DEP_TEMP_TEMP => ⟨.DEP_TEMP, 63, 0, .ro, .l, 0⟩
  | .DBG_TRACE_CTL_EN => ⟨.DBG_TRACE_CTL, 63, 63, .rw, .l, 0⟩
  | .DBG_TRACE_CTL_SEL => ⟨.DBG_TRACE_CTL, 12, 0, .rw, .l, 0⟩
  | .DBG_TRACE_STAT_SENT => ⟨.DBG_TRACE_STAT, 63, 32, .ro, .l, 0⟩
  | .DBG_TRACE_STAT_DROPPED => ⟨.DBG_TRACE_STAT, 31, 0, .ro, .l, 0⟩
  | .DBG_HOLD_COACHMAN => ⟨.DBG_HOLD, 7, 4, .rw, .s, 0⟩
  | .DBG_HOLD_ROW => ⟨.DBG_HOLD, 3, 0, .rw, .s, 0⟩

/-- The fields of each register. -/
def regFields : Reg → List Fld
  | .AON_MTC => [.AON_MTC_MTC_NS]
  | .AON_MTC_LOAD => [.AON_MTC_LOAD_VALUE]
  | .AON_MTC_STATUS => [.AON_MTC_STATUS_STEP_PENDING, .AON_MTC_STATUS_SLEWING, .AON_MTC_STATUS_ALIGNED,
      .AON_MTC_STATUS_TRUSTED, .AON_MTC_STATUS_HOLDOVER_REF, .AON_MTC_STATUS_HOLDOVER_LINKS, .AON_MTC_STATUS_SOURCE]
  | .AON_TIME_STEPS => [.AON_TIME_STEPS_COUNT]
  | .SYN_TIME_CTL => [.SYN_TIME_CTL_ROOT, .SYN_TIME_CTL_ALT_PARENT, .SYN_TIME_CTL_PARENT]
  | .SYN_TIME_STATE => [.SYN_TIME_STATE_MEAN_OFFSET, .SYN_TIME_STATE_SOURCE_LINK]
  | .SYN_LINK_DELAY => [.SYN_LINK_DELAY_VALID, .SYN_LINK_DELAY_DELAY]
  | .SYN_LINK_OFFSET => [.SYN_LINK_OFFSET_VALID, .SYN_LINK_OFFSET_OFFSET]
  | .TT_CTL => [.TT_CTL_STOP_NOW, .TT_CTL_STOP_AT_PERIOD, .TT_CTL_ARM]
  | .TT_STATUS => [.TT_STATUS_PERIOD_COUNT, .TT_STATUS_STAGE_IDX, .TT_STATUS_ERR, .TT_STATUS_STATE]
  | .TT_STAGE_LEN => [.TT_STAGE_LEN_LEN_US]
  | .TT_UNSCHED_SHARE => [.TT_UNSCHED_SHARE_SIXTEENTHS]
  | .TT_START_MTC => [.TT_START_MTC_START]
  | .TT_PERIOD => [.TT_PERIOD_PERIOD_STAGES]
  | .TT_OVR_INFO => [.TT_OVR_INFO_COUNT, .TT_OVR_INFO_STAGE_IDX, .TT_OVR_INFO_TEAM, .TT_OVR_INFO_TEAM_GEN]
  | .TT_OVR_POST => [.TT_OVR_POST_POSTILIONS]
  | .TT_EVAL_CTL => [.TT_EVAL_CTL_EVAL_ACTIVE, .TT_EVAL_CTL_EVAL_EN]
  | .TT_STORE => [.TT_STORE_ACTIVE_ID, .TT_STORE_VAR_LANES, .TT_STORE_VAR_RUNG, .TT_STORE_VAR_IDX,
      .TT_STORE_NO_VARIANT, .TT_STORE_SWAP_PENDING, .TT_STORE_STANDBY_VALID, .TT_STORE_ACTIVE_VALID,
      .TT_STORE_ACTIVE_BANK]
  | .TT_SWAP_MTC => [.TT_SWAP_MTC_SWAP]
  | .TT_POST_FAULT => [.TT_POST_FAULT_COUNT, .TT_POST_FAULT_POSTILION, .TT_POST_FAULT_CAUSE, .TT_POST_FAULT_PC]
  | .TT_TEAM => [.TT_TEAM_INSTANCE, .TT_TEAM_GEN, .TT_TEAM_YARD, .TT_TEAM_ALG, .TT_TEAM_AXES, .TT_TEAM_CHUNK_LOG2,
      .TT_TEAM_STATE]
  | .TT_TEAMCNT => [.TT_TEAMCNT_MISSING_SELF, .TT_TEAMCNT_PEER_ABSENT, .TT_TEAMCNT_POISONED, .TT_TEAMCNT_DEGRADED]
  | .ARR_STATUS => [.ARR_STATUS_CUR_OPC, .ARR_STATUS_CUR_ROW, .ARR_STATUS_CUR_COL, .ARR_STATUS_HAZARD,
      .ARR_STATUS_STALL, .ARR_STATUS_BUSY]
  | .ARR_OPCOUNT => [.ARR_OPCOUNT_COUNT]
  | .ARR_WAIT => [.ARR_WAIT_PEAK, .ARR_WAIT_WAIT]
  | .ARR_LASTOP => [.ARR_LASTOP_DESC]
  | .ARR_SRG_KEY => [.ARR_SRG_KEY_KEY]
  | .ARR_SRG_CTR => [.ARR_SRG_CTR_POINT, .ARR_SRG_CTR_INDEX]
  | .ARR_SRG_TS => [.ARR_SRG_TS_STEP, .ARR_SRG_TS_TENSOR]
  | .ARR_SRG_OUT => [.ARR_SRG_OUT_WORD]
  | .GRM_STATUS => [.GRM_STATUS_CUT, .GRM_STATUS_TEAM, .GRM_STATUS_YARD, .GRM_STATUS_KIND, .GRM_STATUS_BUSY]
  | .GRM_COUNTS => [.GRM_COUNTS_JOBS, .GRM_COUNTS_SKIP_NF, .GRM_COUNTS_SKIP_STEP]
  | .GRM_START => [.GRM_START_VALID, .GRM_START_DONE_OBJ, .GRM_START_START_OBJ]
  | .GRM_FARWIN => [.GRM_FARWIN_EN, .GRM_FARWIN_REJECT, .GRM_FARWIN_LIMIT_MIB, .GRM_FARWIN_BASE_MIB]
  | .RTE_EP_LO => [.RTE_EP_LO_VALID, .RTE_EP_LO_DETOUR_EN, .RTE_EP_LO_GEN, .RTE_EP_LO_TENANT_MASK,
      .RTE_EP_LO_DETOUR_EP, .RTE_EP_LO_Z, .RTE_EP_LO_Y, .RTE_EP_LO_X]
  | .RTE_EP_HI => [.RTE_EP_HI_STALE]
  | .RTE_SELF => [.RTE_SELF_VALID, .RTE_SELF_EP]
  | .RTE_CTL => [.RTE_CTL_MGMT_WR_EN]
  | .RTE_DROPS => [.RTE_DROPS_STALE, .RTE_DROPS_TENANT, .RTE_DROPS_MISROUTE, .RTE_DROPS_MALFORMED]
  | .RTE_RECALL => [.RTE_RECALL_SENT, .RTE_RECALL_RECEIVED]
  | .RTE_WINSTAT => [.RTE_WINSTAT_TIMEOUTS, .RTE_WINSTAT_IN_USE]
  | .RTE_RETRY => [.RTE_RETRY_REPLAYS, .RTE_RETRY_NAKS, .RTE_RETRY_LOST]
  | .RTE_CONG => [.RTE_CONG_BLOCKED, .RTE_CONG_PEAK_BYTES, .RTE_CONG_PEAK_BUFS, .RTE_CONG_STAGE_IDX]
  | .RTE_CONGHIST => [.RTE_CONGHIST_ENTRY]
  | .RTE_RXGEN => [.RTE_RXGEN_GENS]
  | .LNK_CTL => [.LNK_CTL_FFE_REQ, .LNK_CTL_BER_LOWER_EN, .LNK_CTL_RUNG_MAX]
  | .LNK_STATE => [.LNK_STATE_RETRAINS, .LNK_STATE_LAST_FAIL, .LNK_STATE_STATE]
  | .LNK_RUNG => [.LNK_RUNG_GROUPS, .LNK_RUNG_CAP, .LNK_RUNG_RUNG]
  | .LNK_FIBRE => [.LNK_FIBRE_LASER_FAULT, .LNK_FIBRE_LIGHT, .LNK_FIBRE_LASER_ON, .LNK_FIBRE_ACCESSIBLE]
  | .LNK_BER => [.LNK_BER_WINDOW_ERRORS, .LNK_BER_LOWERINGS]
  | .LNK_GAIN_THR => [.LNK_GAIN_THR_H, .LNK_GAIN_THR_B2, .LNK_GAIN_THR_B1, .LNK_GAIN_THR_B0]
  | .LNK_GAIN => [.LNK_GAIN_RANGES]
  | .LNK_PRBS_CTL => [.LNK_PRBS_CTL_RUNG, .LNK_PRBS_CTL_PATTERN]
  | .LNK_BRIDLE_CTL => [.LNK_BRIDLE_CTL_MOD_TARGET, .LNK_BRIDLE_CTL_XTALK, .LNK_BRIDLE_CTL_DITHER]
  | .LNK_EVENTS => [.LNK_EVENTS_LOSS_ATTRIB, .LNK_EVENTS_LOSS_UNATTRIB, .LNK_EVENTS_BAD_UNITS, .LNK_EVENTS_QUICK]
  | .LNK_LANE => [.LNK_LANE_PRBS_ERR, .LNK_LANE_CODE_VIOL, .LNK_LANE_DISP_ERR, .LNK_LANE_LOCK, .LNK_LANE_PRBS_SYNC,
      .LNK_LANE_SKEW]
  | .LNK_RING => [.LNK_RING_START, .LNK_RING_HEATER, .LNK_RING_RELOCKS, .LNK_RING_STATE]
  | .SYN_RANGE => [.SYN_RANGE_TENANT, .SYN_RANGE_LIMIT, .SYN_RANGE_BASE]
  | .SYN_MISUSE0 => [.SYN_MISUSE0_XTENANT, .SYN_MISUSE0_UNALLOC, .SYN_MISUSE0_KIND, .SYN_MISUSE0_OVF]
  | .SYN_MISUSE1 => [.SYN_MISUSE1_LATE_EPOCH, .SYN_MISUSE1_BAR_ORPHAN, .SYN_MISUSE1_BAR_SENSE]
  | .SYN_MISUSE_LAST => [.SYN_MISUSE_LAST_SRC_EP, .SYN_MISUSE_LAST_OBJ, .SYN_MISUSE_LAST_CAUSE]
  | .SYN_REALIGN => [.SYN_REALIGN_EPOCH, .SYN_REALIGN_DISCREP, .SYN_REALIGN_STAGES]
  | .SYN_DL_CTL => [.SYN_DL_CTL_EN, .SYN_DL_CTL_WINDOW_US]
  | .SYN_DL_STATUS => [.SYN_DL_STATUS_COUNT, .SYN_DL_STATUS_RAISED]
  | .SYN_BAR => [.SYN_BAR_VALID, .SYN_BAR_LOCAL_NEED, .SYN_BAR_OBJ]
  | .SYN_OBJ => [.SYN_OBJ_VALUE]
  | .SYN_ADD => [.SYN_ADD_OPERAND]
  | .SYN_FLAG => [.SYN_FLAG_PARAM, .SYN_FLAG_TEAM, .SYN_FLAG_YARD, .SYN_FLAG_ABSENT, .SYN_FLAG_OVF, .SYN_FLAG_KIND,
      .SYN_FLAG_ALLOC]
  | .DB_SQ_TAIL => [.DB_SQ_TAIL_TAIL]
  | .DB_SQ_HEAD => [.DB_SQ_HEAD_HEAD]
  | .DB_CQ_TAIL => [.DB_CQ_TAIL_TAIL]
  | .DB_CQ_HEAD => [.DB_CQ_HEAD_HEAD]
  | .DB_CQ_ARM => [.DB_CQ_ARM_ARM]
  | .DB_CANCEL => [.DB_CANCEL_CMD_ID]
  | .DB_STATUS => [.DB_STATUS_QGEN, .DB_STATUS_OUTSTANDING, .DB_STATUS_BAD_DB, .DB_STATUS_BAD_CANCEL,
      .DB_STATUS_SQ_LOG2, .DB_STATUS_CQ_LOG2, .DB_STATUS_VECTOR, .DB_STATUS_YARD, .DB_STATUS_QUARANTINE,
      .DB_STATUS_SQ_LIVE, .DB_STATUS_CQ_LIVE]
  | .DB_TIMEOUT => [.DB_TIMEOUT_COLL_MS, .DB_TIMEOUT_REM_100US]
  | .ADM_SQ_BASE => [.ADM_SQ_BASE_ADDR]
  | .ADM_CQ_BASE => [.ADM_CQ_BASE_ADDR]
  | .ADM_CTL => [.ADM_CTL_EN, .ADM_CTL_CQ_LOG2, .ADM_CTL_SQ_LOG2, .ADM_CTL_VECTOR]
  | .IRQ_ADDR => [.IRQ_ADDR_ADDR]
  | .IRQ_DATA => [.IRQ_DATA_MASK, .IRQ_DATA_PENDING, .IRQ_DATA_DATA]
  | .RTE_SLICE => [.RTE_SLICE_EXT_Z, .RTE_SLICE_EXT_Y, .RTE_SLICE_EXT_X]
  | .RTE_LANEOWN => [.RTE_LANEOWN_OWNER]
  | .RTE_FENCE => [.RTE_FENCE_OVERFLOW, .RTE_FENCE_ACTIVE]
  | .GRM_MIR_CFG => [.GRM_MIR_CFG_OUT_EN, .GRM_MIR_CFG_IN_EN, .GRM_MIR_CFG_LINK, .GRM_MIR_CFG_BUDDY_EP,
      .GRM_MIR_CFG_IN_SIZE_MIB, .GRM_MIR_CFG_IN_BASE_MIB]
  | .GRM_MIR_OUT_EPOCH => [.GRM_MIR_OUT_EPOCH_EPOCH]
  | .GRM_MIR_OUT => [.GRM_MIR_OUT_STAGED, .GRM_MIR_OUT_ACKED]
  | .GRM_MIR_OUTSTAT => [.GRM_MIR_OUTSTAT_COMMITS, .GRM_MIR_OUTSTAT_LOST, .GRM_MIR_OUTSTAT_LAST_OUTCOME]
  | .GRM_MIR_COPY_EPOCH => [.GRM_MIR_COPY_EPOCH_EPOCH]
  | .GRM_MIR_COPY => [.GRM_MIR_COPY_BYTES, .GRM_MIR_COPY_CURRENT, .GRM_MIR_COPY_STATE]
  | .GRM_MIR_COMMIT => [.GRM_MIR_COMMIT_EPOCH_LO, .GRM_MIR_COMMIT_COUNT]
  | .GRM_MIR_IN_DROPS => [.GRM_MIR_IN_DROPS_STALE_EPOCH, .GRM_MIR_IN_DROPS_OVERSIZE, .GRM_MIR_IN_DROPS_DISABLED]
  | .FLT_STATUS => [.FLT_STATUS_SOURCES]
  | .FLT_FIRST => [.FLT_FIRST_VALID, .FLT_FIRST_OVF, .FLT_FIRST_SOURCE]
  | .FLT_FIRST_MTC => [.FLT_FIRST_MTC_MTC]
  | .FLT_REACT0 => [.FLT_REACT0_REACT]
  | .FLT_REACT1 => [.FLT_REACT1_REACT]
  | .FLT_CTL => [.FLT_CTL_IRQ_EN, .FLT_CTL_OOS, .FLT_CTL_SAFE_N_LOW, .FLT_CTL_SAFE, .FLT_CTL_VECTOR]
  | .FLT_RESET => [.FLT_RESET_KEY]
  | .FLT_MASKED => [.FLT_MASKED_COUNT]
  | .FLT_DUMP_BASE => [.FLT_DUMP_BASE_ADDR, .FLT_DUMP_BASE_SIZE_MIB]
  | .FLT_DUMP_PTR => [.FLT_DUMP_PTR_RECORDS, .FLT_DUMP_PTR_NEXT]
  | .FLT_PFW_ADDR => [.FLT_PFW_ADDR_ADDR, .FLT_PFW_ADDR_EN]
  | .AON_RESET_WIN => [.AON_RESET_WIN_WINDOW_S, .AON_RESET_WIN_LIMIT, .AON_RESET_WIN_CLEAR, .AON_RESET_WIN_COUNT]
  | .AON_LOG_PTR => [.AON_LOG_PTR_WRAPS, .AON_LOG_PTR_HEAD]
  | .YRD_STATE => [.YRD_STATE_GEN, .YRD_STATE_RESETS, .YRD_STATE_REPLAY_TEAM, .YRD_STATE_STATE]
  | .YRD_EPOCH_STAGE => [.YRD_EPOCH_STAGE_EN, .YRD_EPOCH_STAGE_SIZE_MIB, .YRD_EPOCH_STAGE_BASE_MIB]
  | .TT_EPOCH => [.TT_EPOCH_INSTANCE, .TT_EPOCH_DECISION]
  | .PWR_STATE => [.PWR_STATE_OFF_READY, .PWR_STATE_CUR, .PWR_STATE_REQ]
  | .PWR_GOV => [.PWR_GOV_BUBBLES, .PWR_GOV_SLOPE]
  | .PWR_THERM => [.PWR_THERM_THROTTLE, .PWR_THERM_REFRESH_X2, .PWR_THERM_DEPOT_MAX, .PWR_THERM_BLOCK_MAX]
  | .AON_SUPPLY => [.AON_SUPPLY_IN_BAND, .AON_SUPPLY_GOOD]
  | .AON_BOOT => [.AON_BOOT_STABLE, .AON_BOOT_FAILS, .AON_BOOT_LAST_FAIL, .AON_BOOT_CAUSE]
  | .AON_LIGHT => [.AON_LIGHT_PRESENT]
  | .HCH_BOUND => [.HCH_BOUND_BOUND_US]
  | .HCH_APER_BASE => [.HCH_APER_BASE_BASE]
  | .HCH_APER_LIM => [.HCH_APER_LIM_LIMIT]
  | .HCH_ERR => [.HCH_ERR_RD_ERR, .HCH_ERR_WR_ERR, .HCH_ERR_STALE, .HCH_ERR_LATE]
  | .HCH_VEH_CTL => [.HCH_VEH_CTL_EN, .HCH_VEH_CTL_LAYOUT, .HCH_VEH_CTL_TILES]
  | .HCH_VEH_BASE => [.HCH_VEH_BASE_ADDR]
  | .HCH_VEH_DB => [.HCH_VEH_DB_ADDR]
  | .HCH_VEH_SEQ => [.HCH_VEH_SEQ_SEQ]
  | .CMR_BOOT_ADDR => [.CMR_BOOT_ADDR_ADDR]
  | .CMR_BOOT_LEN => [.CMR_BOOT_LEN_LEN]
  | .CMR_BOOT_CTL => [.CMR_BOOT_CTL_STEP, .CMR_BOOT_CTL_OK, .CMR_BOOT_CTL_GO]
  | .GLB_ID => [.GLB_ID_VENDOR, .GLB_ID_BLOCK, .GLB_ID_REL_MAJOR, .GLB_ID_REL_MINOR, .GLB_ID_TT_VERSION,
      .GLB_ID_STEPPING]
  | .GLB_CFG0 => [.GLB_CFG0_ENDPOINTS, .GLB_CFG0_QUEUES, .GLB_CFG0_SYNC_OBJS, .GLB_CFG0_TEAMS, .GLB_CFG0_CONFIG]
  | .GLB_CFG1 => [.GLB_CFG1_SCRATCH_MIB, .GLB_CFG1_DEPOT_GIB, .GLB_CFG1_TT_STORE_KIB]
  | .GLB_CFG2 => [.GLB_CFG2_ARRAY_LANES, .GLB_CFG2_LINKS, .GLB_CFG2_LANES, .GLB_CFG2_YARDS, .GLB_CFG2_HITCH_PORTS,
      .GLB_CFG2_DEPOT_CH, .GLB_CFG2_TENANTS]
  | .GLB_CAP => [.GLB_CAP_EPOCH, .GLB_CAP_TRACE, .GLB_CAP_EVAL, .GLB_CAP_SUBLINKS, .GLB_CAP_VEH_LEGACY,
      .GLB_CAP_VEH, .GLB_CAP_FAR_WINDOW, .GLB_CAP_MIRROR, .GLB_CAP_GROOM, .GLB_CAP_INT4, .GLB_CAP_FP64]
  | .GLB_FREQ => [.GLB_FREQ_FCLK_MHZ, .GLB_FREQ_CM_MHZ, .GLB_FREQ_REF_MHZ]
  | .GLB_SERIAL => [.GLB_SERIAL_SERIAL]
  | .GLB_STATUS => [.GLB_STATUS_DEPOT_READY, .GLB_STATUS_FW_OK, .GLB_STATUS_STABLE, .GLB_STATUS_OOS,
      .GLB_STATUS_SAFE, .GLB_STATUS_SLICE_SET]
  | .GLB_SCRATCH => [.GLB_SCRATCH_DATA]
  | .DEP_STATUS => [.DEP_STATUS_TRAINED, .DEP_STATUS_THROTTLE]
  | .DEP_ECC => [.DEP_ECC_CE, .DEP_ECC_CHIPKILL, .DEP_ECC_UE]
  | .DEP_UE_LAST => [.DEP_UE_LAST_CHANNEL, .DEP_UE_LAST_ADDR]
  | .DEP_SCRUB => [.DEP_SCRUB_EN, .DEP_SCRUB_PERIOD_H]
  | .DEP_TEMP => [.DEP_TEMP_TEMP]
  | .DBG_TRACE_CTL => [.DBG_TRACE_CTL_EN, .DBG_TRACE_CTL_SEL]
  | .DBG_TRACE_STAT => [.DBG_TRACE_STAT_SENT, .DBG_TRACE_STAT_DROPPED]
  | .DBG_HOLD => [.DBG_HOLD_COACHMAN, .DBG_HOLD_ROW]

/-- Every register, in the order of the chapters. -/
def allRegs : List Reg :=
  [.AON_MTC, .AON_MTC_LOAD, .AON_MTC_STATUS, .AON_TIME_STEPS, .SYN_TIME_CTL, .SYN_TIME_STATE, .SYN_LINK_DELAY,
   .SYN_LINK_OFFSET, .TT_CTL, .TT_STATUS, .TT_STAGE_LEN, .TT_UNSCHED_SHARE, .TT_START_MTC, .TT_PERIOD,
   .TT_OVR_INFO, .TT_OVR_POST, .TT_EVAL_CTL, .TT_STORE, .TT_SWAP_MTC, .TT_POST_FAULT, .TT_TEAM, .TT_TEAMCNT,
   .ARR_STATUS, .ARR_OPCOUNT, .ARR_WAIT, .ARR_LASTOP, .ARR_SRG_KEY, .ARR_SRG_CTR, .ARR_SRG_TS, .ARR_SRG_OUT,
   .GRM_STATUS, .GRM_COUNTS, .GRM_START, .GRM_FARWIN, .RTE_EP_LO, .RTE_EP_HI, .RTE_SELF, .RTE_CTL, .RTE_DROPS,
   .RTE_RECALL, .RTE_WINSTAT, .RTE_RETRY, .RTE_CONG, .RTE_CONGHIST, .RTE_RXGEN, .LNK_CTL, .LNK_STATE, .LNK_RUNG,
   .LNK_FIBRE, .LNK_BER, .LNK_GAIN_THR, .LNK_GAIN, .LNK_PRBS_CTL, .LNK_BRIDLE_CTL, .LNK_EVENTS, .LNK_LANE,
   .LNK_RING, .SYN_RANGE, .SYN_MISUSE0, .SYN_MISUSE1, .SYN_MISUSE_LAST, .SYN_REALIGN, .SYN_DL_CTL, .SYN_DL_STATUS,
   .SYN_BAR, .SYN_OBJ, .SYN_ADD, .SYN_FLAG, .DB_SQ_TAIL, .DB_SQ_HEAD, .DB_CQ_TAIL, .DB_CQ_HEAD, .DB_CQ_ARM,
   .DB_CANCEL, .DB_STATUS, .DB_TIMEOUT, .ADM_SQ_BASE, .ADM_CQ_BASE, .ADM_CTL, .IRQ_ADDR, .IRQ_DATA, .RTE_SLICE,
   .RTE_LANEOWN, .RTE_FENCE, .GRM_MIR_CFG, .GRM_MIR_OUT_EPOCH, .GRM_MIR_OUT, .GRM_MIR_OUTSTAT, .GRM_MIR_COPY_EPOCH,
   .GRM_MIR_COPY, .GRM_MIR_COMMIT, .GRM_MIR_IN_DROPS, .FLT_STATUS, .FLT_FIRST, .FLT_FIRST_MTC, .FLT_REACT0,
   .FLT_REACT1, .FLT_CTL, .FLT_RESET, .FLT_MASKED, .FLT_DUMP_BASE, .FLT_DUMP_PTR, .FLT_PFW_ADDR, .AON_RESET_WIN,
   .AON_LOG_PTR, .YRD_STATE, .YRD_EPOCH_STAGE, .TT_EPOCH, .PWR_STATE, .PWR_GOV, .PWR_THERM, .AON_SUPPLY, .AON_BOOT,
   .AON_LIGHT, .HCH_BOUND, .HCH_APER_BASE, .HCH_APER_LIM, .HCH_ERR, .HCH_VEH_CTL, .HCH_VEH_BASE, .HCH_VEH_DB,
   .HCH_VEH_SEQ, .CMR_BOOT_ADDR, .CMR_BOOT_LEN, .CMR_BOOT_CTL, .GLB_ID, .GLB_CFG0, .GLB_CFG1, .GLB_CFG2, .GLB_CAP,
   .GLB_FREQ, .GLB_SERIAL, .GLB_STATUS, .GLB_SCRATCH, .DEP_STATUS, .DEP_ECC, .DEP_UE_LAST, .DEP_SCRUB, .DEP_TEMP,
   .DBG_TRACE_CTL, .DBG_TRACE_STAT, .DBG_HOLD]

end Sys2Proof.Machine
end

