-- ==== Sys2Proof/Machine/Sparse.lean ====
section
/-! DEFINITION. Sparse maps with Nat keys: a list of (key, value) pairs, keys strictly rising, no entry equal to the default
of its key. Reading and writing agree on every list, in the canonical form or not. -/

namespace Sys2Proof.Machine

/-- The value at a key; `d` is what an unlisted key reads as. -/
def sget {α : Type} (d : Nat → α) : List (Nat × α) → Nat → α
  | [], k => d k
  | (j, v) :: t, k => if k < j then d k else if k = j then v else sget d t k

/-- Write a key, keeping the canonical form: a value equal to the default removes the entry. -/
def sset {α : Type} [DecidableEq α] (d : Nat → α) : List (Nat × α) → Nat → α → List (Nat × α)
  | [], k, v => if v = d k then [] else [(k, v)]
  | (j, w) :: t, k, v =>
    if k < j then (if v = d k then (j, w) :: t else (k, v) :: (j, w) :: t)
    else if k = j then (if v = d k then t.dropWhile (fun x => x.1 ≤ k) else (k, v) :: t)
    else (j, w) :: sset d t k v

/-- The canonical form. -/
def swf {α : Type} [DecidableEq α] (d : Nat → α) : List (Nat × α) → Bool
  | [] => true
  | (j, v) :: t => v != d j && t.all (fun x => j < x.1) && swf d t

/-- Keep the entries whose key passes the test: the others go back to their default. -/
def skeep {α : Type} (keep : Nat → Bool) (m : List (Nat × α)) : List (Nat × α) :=
  m.filter fun x => keep x.1

end Sys2Proof.Machine
end

