-- ==== Sys2Proof/Machine/Types.lean ====
section
/-! DEFINITION. The records that the state is made of: the timetable image as the checks of R64 read it, postilions, teams,
slot instances, queue pairs, commands, links and the always-on records. -/

namespace Sys2Proof.Machine

/-! ## Timetables (03_timetables_and_postilions 3.1) -/

/-- A slot list entry: start stage, length, work opcode, variant mask. -/
structure SlotEnt where
  start : Nat
  len : Nat
  op : Nat
  vmask : Nat
  deriving DecidableEq, Repr

/-- A team table entry with its slot list (Table 3.2). -/
structure TeamEnt where
  slot : Nat
  yard : Nat
  axes : Nat
  alg : Nat
  ext : Nat × Nat × Nat
  eval : Bool
  origin : Nat × Nat × Nat
  chunkLog2 : Nat
  slots : List SlotEnt
  deriving DecidableEq, Repr

/-- A segment table entry: stage, entry address, team slot, SPEC and EVAL. -/
structure SegEnt where
  stage : Nat
  entry : Nat
  team : Nat
  spec : Bool
  eval : Bool
  deriving DecidableEq, Repr

/-- A program directory entry with the images it names (Table 3.4). -/
structure Prog where
  iram : List (BitVec 32)
  dram : List Byte
  segs : List SegEnt
  /-- Pairs (sender, team) for mailboxes 0–7. -/
  mbx : List (Nat × Nat)
  deriving DecidableEq, Repr

/-- A variant directory entry (Table 3.3) with its 64 programs. -/
structure Variant where
  rung : Nat
  lanes : Nat
  links : Nat
  progs : List Prog
  deriving DecidableEq, Repr

/-- An eval-window entry: first stage, last stage, evaluation team. -/
structure EvalWin where
  first : Nat
  last : Nat
  team : Nat
  deriving DecidableEq, Repr

/-- A checked timetable image (Table 3.1). -/
structure Image where
  id : Nat
  stageUs : Nat
  share : Nat
  period : Nat
  delayBound : Nat
  variants : List Variant
  teams : List TeamEnt
  evals : List EvalWin
  deriving DecidableEq, Repr

/-- A LOAD_TIMETABLE in progress: its command, its mode, and the copied image bytes. -/
structure Load where
  q : Nat
  id : Nat
  atMtc : Bool
  swapMtc : Nat
  bytes : List Byte
  deriving DecidableEq, Repr

/-- The checked load whose swap waits: NOW as soon as possible, AT_MTC at its tick. -/
structure SwapReq where
  q : Nat
  id : Nat
  atMtc : Bool
  swapMtc : Nat
  deriving DecidableEq, Repr

/-- The timetable store. -/
structure TtStore where
  active : Option Image := none
  standby : Option Image := none
  load : Option Load := none
  swap : Option SwapReq := none
  /-- Links of the running variant that changed in mid-period (R70). -/
  lostLinks : List Nat := []
  /-- Variants of the active image in whose store an uncorrectable error was found (Table 12.1, source 19). -/
  badVars : List Nat := []
  deriving DecidableEq, Repr

/-! ## Postilions (3.3–3.6) -/

/-- What the postilion waits on. -/
inductive PWait where
  | run
  | mailbox (m : Nat)
  | sync (obj : Nat) (operand : Nat) (eq : Bool)
  | tags (mask : Nat)
  | sendStall (dst : Nat) (m : Nat)
  | reinStall
  | tagStall
  /-- END waits for every tag. -/
  | ending
  deriving DecidableEq, Repr

/-- The kinds of datapath operation (Table 3.6). -/
inductive OpKind where
  | xmit | recv | aop | hrd | hwr | drd | dwr
  deriving DecidableEq, Repr

/-- The 32 B descriptor of XMIT, RECV, HRD, HWR, DRD and DWR (3.4). -/
structure Desc where
  addr : Nat
  len : Nat
  seq : Nat
  spec : Bool
  mcast : Bool
  axis : Nat
  deriving DecidableEq, Repr

/-- Flags that carriages of a collective carry (4.8). -/
structure Flags3 where
  nonfinite : Bool := false
  poison : Bool := false
  absent : Bool := false
  deriving DecidableEq, Repr

/-- What is known of a 64 B granule whose bytes are not plain and confirmed: the received carriage (id + 1) or the array operation
(serial number) that made it and its place there, the unconfirmed carriages it derives from, its flags, and whether it is the
contribution of a missing member. -/
structure Mark where
  car : Nat := 0
  op : Nat := 0
  gi : Nat := 0
  deps : List Nat := []
  flags : Flags3 := {}
  void : Bool := false
  deriving DecidableEq, Repr

/-- Bytes with the marks of their granules; an unlisted granule is plain and confirmed. -/
structure Blob where
  data : List Byte := []
  marks : List (Nat × Mark) := []
  deriving DecidableEq, Repr

/-- A datapath operation that holds a tag. `parts` counts the host or depot requests still unanswered, `blob` holds the
bytes read so far, or the bytes to be written or sent once they are there. -/
structure TagOp where
  tag : Nat
  kind : OpKind
  desc : Desc
  /-- Sequence number of issue over the whole block. -/
  serial : Nat
  parts : Nat := 0
  blob : Option Blob := none
  /-- Serial number of the array operation that made the blob; 0 for none. -/
  src : Nat := 0
  /-- The requests have been made. -/
  issued : Bool := false
  /-- First data of a read have come (R116). -/
  begun : Bool := false
  /-- An XMIT of a receive buffer: it forwards a carriage that another member originated (R109). -/
  fwd : Bool := false
  deriving DecidableEq, Repr

/-- A postilion. Registers are sparse (an unlisted register is 0, g0 is never listed); instruction RAM is sparse by
instruction index, data RAM by byte address. -/
structure Post where
  regs : List (Nat × Word) := []
  pc : Nat := 0
  /-- The segment that runs. -/
  cur : Option SegEnt := none
  /-- Instance number, generation and command presence of the running segment. -/
  inst : Nat := 0
  missing : Bool := false
  /-- The segments of this stage still to start. -/
  rest : List SegEnt := []
  wait : PWait := .run
  iram : List (Nat × BitVec 32) := []
  iramLen : Nat := 0
  dram : List (Nat × Byte) := []
  /-- Messages by mailbox number, oldest first. -/
  mbox : List (Nat × List Word) := []
  map : List (Nat × Nat) := []
  tags : List TagOp := []
  deriving DecidableEq, Repr

/-- A message on the mesh, in sending order. -/
structure Msg where
  src : Nat
  dst : Nat
  m : Nat
  val : Word
  deriving DecidableEq, Repr

/-! ## Teams and slot instances (04_collective_operations) -/

/-- What DEFINE_TEAM and the running keep of a team besides TT_TEAMt. Counts are by opcode. -/
structure TeamRec where
  origin : Nat × Nat × Nat := (0, 0, 0)
  ext : Nat × Nat × Nat := (0, 0, 0)
  eval : Bool := false
  queue : Nat := 0
  /-- Defined since TT_TEAMt was last reset (R278). -/
  everDefined : Bool := false
  /-- Commands of each opcode counted (R26, R283). -/
  cmds : List (Nat × Nat) := []
  /-- Instances of each slot opcode started (R26). -/
  started : List (Nat × Nat) := []
  /-- Index of the next slot of the period in the team's slot list. -/
  slotPos : Nat := 0
  lastTraffic : Nat := 0
  degraded : Bool := false
  /-- The end of the retirement quarantine. -/
  quarEnd : Nat := 0
  deriving DecidableEq, Repr

/-- States of a slot instance: the command waits for its record, its record is written, it runs, it has ended. -/
inductive InstSt where
  | waiting | bound | running | ended
  deriving DecidableEq, Repr

/-- A final write of an EPOCH instance held in the staging area: staging depot address, destination address, length. -/
structure StagedWrite where
  stage : Nat
  dst : Nat
  len : Nat
  deriving DecidableEq, Repr

/-- Elements that a degraded instance holds: granule `o` of shard `r`, at level `lv` (0–2; 3: finished), its own value (src 0) or the partial of the
child of rank src − 1, as codes, with its flags. -/
structure DegPart where
  r : Nat
  o : Nat
  lv : Nat
  src : Nat
  vals : List Nat
  flags : Flags3
  deriving DecidableEq, Repr

/-- Elements that a degraded instance sends: axis, rank of the peer on it, chunk, level number, the member they came from and whether they are part of an
exchange, multicast and its direction, index of the first element, format, codes, flags. -/
structure Send where
  a : Nat
  peer : Nat
  k : Nat
  st : Nat
  src : Nat := 0
  ex : Bool := false
  mc : Bool := false
  minus : Bool := false
  elem : Nat
  fmt : Nat
  vals : List Nat
  flags : Flags3 := {}
  deriving DecidableEq, Repr

/-- A slot instance of a team on this member. -/
structure Inst where
  team : Nat
  gen : Nat
  /-- Team-wide instance number (R26). -/
  n : Nat
  op : Nat
  /-- The bound command; none for a missing member. -/
  cmd : Option (Nat × Nat) := none
  entry : Entry := 0
  /-- How many commands of its opcode the command follows (R26). -/
  idx : Nat := 0
  st : InstSt := .waiting
  /-- First and last stage of the slot, and its start instant, once it has started. -/
  first : Nat := 0
  last : Nat := 0
  t0 : Nat := 0
  missing : Bool := false
  degraded : Bool := false
  replay : Bool := false
  sat : Nat := 0
  flush : Nat := 0
  /-- Largest magnitude as FP32 bits (R141), own and team-wide. -/
  amax : Nat := 0
  teamAmax : Option Nat := none
  own : Flags3 := {}
  /-- Team-wide flags of the closing exchange (R111). -/
  teamFlags : Option Flags3 := none
  /-- Chunks with output withheld because of a lost carriage, and because of ABSENT. -/
  withPoison : List Nat := []
  withAbsent : List Nat := []
  epoch : Bool := false
  /-- Staging area of an EPOCH instance: depot base and length (R333). -/
  stageBase : Nat := 0
  stageLen : Nat := 0
  staged : List StagedWrite := []
  /-- The epoch decision: 0 none, 1 COMMIT, 2 DISCARD, 3 UNKNOWN (R334, R335). -/
  decision : Nat := 0
  /-- A final value was written through a hitch port without EPOCH (R330). -/
  wrote : Bool := false
  /-- Lowest and highest scratchpad granule addressed (R329). -/
  scrLo : Nat := 0
  scrHi : Nat := 0
  /-- The member's barrier arrival was made (R254). -/
  arrived : Bool := false
  /-- A hitch or depot access of the instance failed (R346). -/
  bad : Bool := false
  /-- A far carriage of the instance was refused (R170, R309). -/
  blocked : Bool := false
  /-- The status of a skip (Table 6.4, R166). -/
  skip : Option Nat := none
  /-- A groom job's first write was issued (R158). -/
  groomed : Bool := false
  /-- The mirror staging area that its groom job names: scratchpad offset and bytes (R165). -/
  mirArea : Nat × Nat := (0, 0)
  /-- What a degraded instance or a replay holds (R106). -/
  deg : List DegPart := []
  /-- Its slot has begun while an earlier instance of the team still runs in degraded mode. -/
  due : Bool := false
  /-- Closing exchange: what children sent (level, rank, flags, amax), and whether this member's own part was sent (R111). -/
  kids : List (Nat × Nat × Flags3 × Nat) := []
  sentUp : Bool := false
  /-- Granules of output that a degraded instance has put in place. -/
  outDone : Nat := 0
  /-- Step of a degraded RCUG or NORM: 0 reduction, 1 norm exchange, 2 groom job, 3 gather of parameters, 4 over (Table 6.2). -/
  phase : Nat := 0
  /-- Parts of norm result blocks that children sent: level, rank, offset, bytes, flags (R153). -/
  norm : List (Nat × Nat × Nat × List Byte × Flags3) := []
  /-- GATHER_FMT of an RCUG. -/
  gfmt : Nat := 0
  /-- Granules that a degraded instance has done, by chunk × 16 + level number, and what waits for the start of a level: elements to send, and granules to
  fold (chunk, level number, shard, granule) (R100). -/
  levels : List (Nat × Nat) := []
  sends : List Send := []
  folds : List (Nat × Nat × Nat × Nat) := []
  /-- It waits for the array before it begins (R24). -/
  hold : Bool := false
  deriving DecidableEq, Repr

/-! ## Queue pairs and commands (10_queues_and_commands) -/

/-- What a queue pair keeps besides its doorbell page. -/
structure QpRec where
  sqBase : Nat := 0
  cqBase : Nat := 0
  mirror : Nat := 0
  lastTraffic : Nat := 0
  quarEnd : Nat := 0
  deriving DecidableEq, Repr

/-- An entry fetched and not yet started. -/
structure Fetched where
  q : Nat
  e : Entry
  t0 : Nat
  /-- A read of its fragment table or descriptors returns an error (R346). -/
  bad : Bool := false
  deriving DecidableEq, Repr

/-- A remote operation in progress (07_carriages_and_routing 7.6). -/
structure Remote where
  kind : Nat
  ep : Nat
  tenant : Nat
  /-- Carriages not yet sent: the offset and length of each. -/
  todo : List (Nat × Nat) := []
  /-- Sequence numbers sent and not yet answered, with offset and length. -/
  out : List (Nat × Nat × Nat) := []
  /-- Carriages queued so far and not cancelled. -/
  sent : Nat := 0
  cancelled : Bool := false
  blocked : Bool := false
  failed : Bool := false
  deriving DecidableEq, Repr

/-- What an outstanding command waits for. -/
inductive Phase where
  /-- A work command bound, or to be bound, to instance n of its team. -/
  | work (team n : Nat)
  | load
  | retire (team : Nat)
  | yardReset (y : Nat)
  | link (l : Nat) (act : Nat)
  | endpoints (at_ : Nat)
  | detour (at_ : Nat)
  | remote (r : Remote)
  /-- MIRROR_COMMIT: waits for the mirror carriages, or, with its write sent, for the buddy's response. -/
  | mirror (sent : Bool)
  | copy (left : Nat)
  deriving DecidableEq, Repr

/-- An outstanding command that has started. -/
structure Cmd where
  q : Nat
  id : Nat
  e : Entry
  t0 : Nat
  phase : Phase
  deriving DecidableEq, Repr

/-- A finished command whose completion is not yet posted (Table 10.4). -/
structure Done where
  q : Nat
  id : Nat
  op : Nat
  status : Nat
  flags : Nat := 0
  sat : Nat := 0
  flush : Nat := 0
  amax : Nat := 0
  pchunks : Nat := 0
  pfirst : Nat := 0
  result : Nat := 0
  /-- Generation of the pair that fetched the command (R275). -/
  qgen : Nat := 0
  /-- The instance whose writes are acknowledged before it is posted (R29). -/
  inst : Option (Nat × Nat) := none
  /-- A DESTROY_SQ is posted only after every completion of this pair (R277). -/
  after : Option Nat := none
  deriving DecidableEq, Repr

/-! ## Time, logs, outputs -/

/-- The reference of the counter (R41). -/
inductive RefSt where
  | present
  | lost
  deriving DecidableEq, Repr

/-- What the counter keeps besides AON_MTC and SYN registers: fraction (1/65,536 ns), time since the last reference edge (1/8 ns, in core
cycles of 5), slew still to remove (1/65,536 ns), reference time still frozen, the instants last served, the offsets toward the 16-TICK mean
(1/64 ns). -/
structure TimeSt where
  frac : Nat := 0
  sub : Nat := 0
  slew : Int := 0
  freeze : Nat := 0
  ref : RefSt := .present
  lastTick : Nat := 0
  lastSend : Nat := 0
  lastRealign : Nat := 0
  suppress : Bool := false
  rootRegain : Bool := false
  samples : List Int := []
  /-- A step that waits for the engine to stop, in 1/65,536 ns (R42). -/
  waitStep : Option Int := none
  /-- A correction is in progress; the follower becomes aligned when it completes. -/
  correcting : Bool := false
  deriving DecidableEq, Repr

/-- A record of the AON log ring (R338); `gap` marks the 8 zero bytes that are not a record. -/
structure LogRec where
  off : Nat
  mtc : Nat
  typ : Nat
  unit : Nat
  detail : Nat
  body : List Word
  gap : Bool := false
  deriving DecidableEq, Repr

/-- What the block sends, in order: link units and carriages, interrupt messages, TICK_OUT pulses, hitch requests, training
units, laser and trace outputs. The MODEL's own record of its outputs. -/
inductive OutEv where
  | slot (l : Nat) (t : Nat) (s : Slot)
  | tick (l t : Nat) (value : Slot)
  | prbs (l : Nat) (pattern rung : Nat)
  | mark (l : Nat) (t : Nat)
  | eoc (l : Nat) (t : Nat) (rcl : Bool)
  | carriage (l : Nat) (t : Nat) (c : Carriage)
  | irq (addr : Nat) (data : Nat)
  | tickOut (mtc : Nat) (width : Nat)
  | hitchRead (port tag yg addr len : Nat)
  | hitchWrite (port tag yg addr len : Nat) (data : List Byte)
  | train (l : Nat) (ty : Nat) (s : Slot)
  | lasers (l : Nat) (mask : Nat)
  | heater (l : Nat) (ring : Nat) (code : Nat)
  | coachIrq (y : Nat)
  | trace (mtc typ payload : Nat)
  | mgmtRsp (v : Nat)
  deriving DecidableEq, Repr

/-- Domain of a shadow window (R325) and when it ends. -/
structure ShadowWin where
  dom : Domain
  until_ : Nat
  deriving DecidableEq, Repr

/-- A T field's shadow copy: the tick it commits at, the field, the index, the value (R10). -/
structure Shadow where
  at_ : Nat
  f : Fld
  i : Nat
  v : Nat
  deriving DecidableEq, Repr

/-- Input pins, true = high. -/
structure Pins where
  safeN : Bool := true
  pfwN : Bool := true
  deriving DecidableEq, Repr

/-- A suspect of a yard reset (R330): team, instance number, opcode, its command, and whether it is replayable. -/
structure Suspect where
  inst : Inst
  replayable : Bool
  deriving DecidableEq, Repr

/-- Progress of a yard reset (Table 12.4). -/
inductive YardStep where
  | running
  /-- Steps 1 and 2 done; waits for the next tick. -/
  | waitTick
  /-- Step 3 done; waits for the drain of step 4. -/
  | draining
  /-- Step 5 done; the coachman is to restart. -/
  | cleared
  /-- Step 6 done; replay runs. -/
  | replay
  deriving DecidableEq, Repr

structure YardRec where
  step : YardStep := .running
  t1 : Nat := 0
  replay : Bool := false
  /-- The reset reached the escalation limit (R332). -/
  oos : Bool := false
  cmd : Option (Nat × Nat) := none
  /-- The suspects still to be replayed, in ascending team slot. -/
  suspects : List Suspect := []
  /-- Completions that step 6 posts. -/
  held : List Done := []
  /-- The start of the first suspect's replay, while it runs: its timer, started afresh. -/
  replaying : Option Nat := none
  /-- Last hitch request of the yard. -/
  lastReq : Nat := 0
  /-- Round-robin position of the coachman (R268). -/
  rr : Nat := 0
  /-- The last instant at which the yard was not stuck or moved (R263). -/
  quietAt : Nat := 0
  /-- A DEFINE_TEAM has bound a team to the yard (R341). -/
  everBound : Bool := false
  deriving DecidableEq, Repr

/-- A yard whose reset has ended. -/
def YardRec.stopped (r : YardRec) : YardRec := { r with step := .running, cmd := none, suspects := [], held := [], replaying := none }

/-- A team HALT seen (R326). -/
structure HaltSeen where
  team : Nat
  gen : Nat
  ep : Nat
  t : Nat
  deriving DecidableEq, Repr

/-- A node of a barrier tree (R252). -/
structure BarNode where
  count : Nat := 0
  absent : Bool := false
  sense : Bool := true
  deriving DecidableEq, Repr

/-- The barrier end of a team on this chip: nodes of levels X, Y, Z, whether its last tree arrival awaits its release, the
held tree arrivals with their ABSENT marks, oldest first (R250), and whether one of the local arrivals counted in ARRIVED is
marked ABSENT (R254). -/
structure BarSt where
  n0 : BarNode := {}
  n1 : BarNode := {}
  n2 : BarNode := {}
  out : Bool := false
  held : List Bool := []
  absent : Bool := false
  deriving DecidableEq, Repr

/-- A wait of a coachman's wait port (R245). -/
structure CoachWait where
  y : Nat
  obj : Nat
  operand : Nat
  eq : Bool
  deriving DecidableEq, Repr

end Sys2Proof.Machine
end

