-- ==== Sys2Proof/Machine/LinkTypes.lean ====
section
/-! DEFINITION. The records of the router, the links, the array, the groom unit and the hitch ports. -/

namespace Sys2Proof.Machine

/-! ## Router (07_carriages_and_routing) -/

/-- A carriage in a retry buffer (R187). -/
structure RetryEnt where
  lsn : Nat
  c : Carriage
  /-- When its EOC left. -/
  t : Nat
  retry : Nat := 0
  /-- A replay is scheduled (R189). -/
  replay : Bool := false
  /-- It was recalled and goes out again with new bytes (R194). -/
  again : Bool := false
  /-- Bytes of mirror data it carries; 0 for another kind (R303). -/
  mirror : Nat := 0
  deriving DecidableEq, Repr

/-- A carriage sent while some of its contributors were unconfirmed (R191, R192): its place, its bits, the bytes it was made of, the ids of its
contributors 1–7 in order, and those whose downstream ACK was sent. One that only passes through this chip is forwarded with its trailer
unchanged and has one contributor, the carriage received. -/
structure Onward where
  l : Nat
  t : Nat
  lsn : Nat
  c : Carriage
  blob : Blob
  contrib : List Nat
  acked : List Nat := []
  fwd : Bool := false
  recalled : Bool := false
  deriving DecidableEq, Repr

/-- One direction pair of a sub-link (R187, R188, R296). -/
structure SubLink where
  /-- LSN of the next carriage sent. -/
  next : Nat := 0
  retry : List RetryEnt := []
  /-- The sender is busy with a carriage until this instant, in 1/64 ns, and whether that carriage is scheduled; its LSN. -/
  busy : Nat := 0
  busySched : Bool := false
  busyLsn : Nat := 0
  /-- LSN of the next new carriage expected. -/
  expect : Nat := 0
  /-- LSNs before `expect` whose outcome is not yet known, and those of them from a stage that has ended. -/
  missing : List Nat := []
  late : List Nat := []
  /-- The last upstream ACK sent: its LSN and instant. -/
  lastAck : Nat := 0
  ackAt : Nat := 0
  /-- Something received is not yet acknowledged upstream. -/
  dirty : Bool := false
  /-- Free buffers last reported by the peer (R180). -/
  free0 : Nat := 4
  free1 : Nat := 2
  /-- Second copies of downstream ACKs: LSN, contributor, due time (R211). -/
  repeats : List (Nat × Nat × Nat) := []
  /-- MARKs sent since the link entered its present state (R213). -/
  marks : Nat := 0
  deriving DecidableEq, Repr

/-- A carriage that has arrived and awaits its CRC verdict. `id` names it in confirmation vectors. -/
structure Arriving where
  id : Nat
  l : Nat
  t : Nat
  c : Carriage
  at_ : Nat
  /-- It ended with RECALL in the EOC position. -/
  recalled : Bool := false
  /-- Its stage has ended: it is acknowledged, and lost (R58). -/
  late : Bool := false
  deriving DecidableEq, Repr

/-- Confirmation of a received carriage: its own verdict and the contributors not yet confirmed (R191). -/
structure Vec where
  id : Nat
  l : Nat
  t : Nat
  lsn : Nat
  crcOk : Bool
  missing : List Nat
  /-- A copy of the carriage is for this chip. -/
  mine : Bool := true
  deriving DecidableEq, Repr

/-- A carriage accepted at its destination and not yet applied: the port it came in on, its id. -/
structure Accepted where
  port : Nat
  id : Nat
  c : Carriage
  deriving DecidableEq, Repr

/-- A carriage that waits for an output: output link, buffer class (R180; 2: a scheduled one forwarded or of an exchange, 3: a class 0 one of a team in
degraded mode), the port whose buffer it holds
(6 array, 7 hitch and depot, 8 management and sync for an injected one), whether it advances in its ring, and its round-robin key (R23). -/
structure OutCar where
  l : Nat
  cls : Nat
  port : Nat
  adv : Bool
  key : Nat
  c : Carriage
  deriving DecidableEq, Repr

/-- A rein window (R184). -/
structure Win where
  ep : Nat
  tenant : Nat
  /-- Team slot for class 1 DATA (R183), 64 otherwise. -/
  team : Nat
  gen : Nat
  credits : Nat := 64
  seq : Nat := 0
  last : Nat := 0
  /-- Carriages whose credit a REIN returns, oldest first: sequence number and command (pair 0 for none). -/
  owed : List (Nat × Nat × Nat) := []
  /-- Retired by R197 or awaiting its quarantine: the instant the next generation takes effect. -/
  quarEnd : Nat := 0
  deriving DecidableEq, Repr

/-- A REIN unit on its way (R185). -/
structure Rein where
  dst : Nat
  src : Nat
  tenant : Nat
  blocked : Bool
  gen : Nat
  credits : Nat
  /-- The output port whose queue holds it: a link, or 8 for one of this chip. -/
  port : Nat := 8
  deriving DecidableEq, Repr

/-- A fenced endpoint and the end of its fence (R312). -/
structure Fence where
  ep : Nat
  until_ : Nat
  deriving DecidableEq, Repr

/-- A scheduled carriage received and not yet taken by a RECV: link, its id, its bits. -/
structure RxCar where
  l : Nat
  id : Nat
  c : Carriage
  deriving DecidableEq, Repr

/-- Congestion figures of a port in the running stage: buffers, 64 B units, grants held back (R203). -/
structure Cong where
  bufs : Nat := 0
  bytes : Nat := 0
  blocked : Nat := 0
  deriving DecidableEq, Repr

/-- A carriage that waits for a rein credit: window key, header fields, payload (R184). -/
structure Waiting where
  ep : Nat
  tenant : Nat
  team : Nat
  cls : Nat
  kind : Nat
  yard : Nat
  idTeam : Nat
  idGen : Nat
  payload : List Byte
  flags : Flags3 := {}
  maxis : Nat := 0
  /-- Direction of a multicast: minus. -/
  minus : Bool := false
  deriving DecidableEq, Repr

structure Net where
  subs : List (Nat × SubLink) := []
  nextId : Nat := 0
  arriving : List Arriving := []
  vecs : List Vec := []
  /-- Ids of carriages declared lost or recalled for good: what derives from them is withheld (R108). -/
  lostIds : List Nat := []
  /-- Good carriages for this chip that wait for their confirmation. -/
  held : List Accepted := []
  accepted : List Accepted := []
  onward : List Onward := []
  /-- Downstream ACKs held for a carriage still arriving: link, tenant, LSN, contributor (R191). -/
  heldAcks : List (Nat × Nat × Nat × Nat) := []
  rx : List RxCar := []
  /-- Units that wait until no scheduled carriage is being sent, by link and tenant; the 1 µs segment that `slots` counts, and the slots filled in it by
  sub-link while a scheduled carriage was being sent (R214). -/
  unitq : List (Nat × Nat × Slot) := []
  slotSeg : Nat := 0
  slots : List (Nat × Nat) := []
  outq : List OutCar := []
  /-- Deficits by round-robin key (R23). -/
  deficit : List (Nat × Nat) := []
  reinq : List Rein := []
  /-- REIN units that wait for room in their port's queue, in order. -/
  reinWait : List Rein := []
  /-- Management requests in arrival order, at most 16 (R204). -/
  mgmtq : List Carriage := []
  wins : List Win := []
  waiting : List Waiting := []
  /-- Send-generation table, key endpoint × 4 + tenant; the value is generation + 256 once a window was allocated (R385). -/
  sendGens : List (Nat × Nat) := []
  fences : List Fence := []
  cong : List (Nat × Cong) := []
  /-- Position of the next RTE_CONGHIST entry. -/
  congPos : Nat := 0
  deriving DecidableEq, Repr

/-! ## Links (08_optical_lanes) -/

/-- Open-fibre control of a group (Table 8.5). -/
inductive Fibre where
  | off | probe | litWait | lit
  deriving DecidableEq, Repr

structure GroupRec where
  st : Fibre := .off
  /-- When the state was entered or the pulse began. -/
  t : Nat := 0
  light : Bool := false
  /-- Since when the light has been in its present state. -/
  lightT : Nat := 0
  deriving DecidableEq, Repr

/-- A ring's bridle loop (8.8) besides its heater code and state, which LNK_RINGk holds. -/
structure RingRec where
  /-- 0 sweeps; 1 captured, writes h + δ next; 2 writes h − δ next. -/
  phase : Nat := 0
  /-- Services of the sweep so far, its largest and smallest samples, the sweeps that failed in a row. -/
  n : Nat := 0
  hi : Nat := 0
  lo : Nat := 1023
  sweeps : Nat := 0
  /-- Off-resonance level measured at capture, and the sample at h + δ. -/
  off : Nat := 0
  prev : Nat := 0
  /-- Heater code at the start of the run of services within 4 codes, and the length of that run. -/
  base : Nat := 0
  run : Nat := 0
  /-- Monitor value when the ring locked, and the services in a row below half of it. -/
  peak : Nat := 0
  weak : Nat := 0
  /-- Samples in a row above and below the boundaries of the lane's gain range; whether the range was set by a first sample. -/
  above : Nat := 0
  below : Nat := 0
  ranged : Bool := false
  deriving DecidableEq, Repr

/-- The PRBS checker of a receive lane (R218): its shift register, newest bit first, error-free bits so far, and whether it counted an error. -/
structure PrbsRec where
  reg : List Bool := []
  run : Nat := 0
  err : Bool := false
  deriving DecidableEq, Repr

/-- The DFE of a receive lane (R217): its six taps, zero where unlisted, and until when, in 1/64 ns, a gain-range change holds its adaptation. -/
structure DfeRec where
  taps : List Word := []
  hold : Nat := 0
  deriving DecidableEq, Repr

/-- What a link keeps besides its registers. -/
structure LinkRec where
  /-- When the training state was entered. -/
  t : Nat := 0
  groups : List (Nat × GroupRec) := []
  /-- Groups kept in the present training, the rung trained at, and what a step leaves. -/
  keep : Nat := 15
  /-- Groups that a bring-up from REAIM may admit (R227). -/
  aim : Nat := 15
  target : Nat := 0
  prevRung : Nat := 0
  prevGroups : Nat := 0
  /-- The training relocks a step (LOCK, ALIGN, PRBS, ROUNDTRIP), and the part of a quick retrain: 0 lock, 1 align, 2 round trip. -/
  step : Bool := false
  part : Nat := 0
  /-- Lanes locked. -/
  locked : Nat := 0
  /-- Round-trip exchanges asked, answered, the sum of their samples in 1/64 ns, the last request's instant. -/
  rtAsked : Nat := 0
  rtGot : Nat := 0
  rtSum : Nat := 0
  rtAt : Nat := 0
  /-- CAP units: columns sent, the instant of the last, the groups heard and the peer's RUNG_MAX. -/
  caps : Nat := 0
  capAt : Nat := 0
  capMask : Nat := 0
  capMax : Nat := 3
  /-- FFE preset that the peer asked for (R216). -/
  ffe : Nat := 0
  /-- STEP: this end asked, and the instant at which both change rung. -/
  asked : Bool := false
  stepAt : Option Nat := none
  /-- Groups that passed PRBS in the receive direction here and at the peer, and when PRBS ended. -/
  resultOwn : Option Nat := none
  resultPeer : Option Nat := none
  prbsT : Nat := 0
  /-- Attribution of losses: until this instant, or until enabled again (R232). -/
  attrib : Nat := 0
  attribHold : Bool := false
  /-- Cap that R226 and R228 leave until the next bring-up from DARK. -/
  lowCap : Nat := 3
  /-- Entry into ACTIVE, and the start of the error window. -/
  active : Nat := 0
  berT : Nat := 0
  /-- Lanes that missed the last MARK. -/
  markMiss : Nat := 0
  rings : List (Nat × RingRec) := []
  /-- Pending gain-range changes by lane: the new range + 1. -/
  gains : List (Nat × Nat) := []
  /-- DFEs and PRBS checkers by receive lane. -/
  dfe : List (Nat × DfeRec) := []
  prbs : List (Nat × PrbsRec) := []
  deriving DecidableEq, Repr

/-! ## Array and groom unit (05, 06) -/

/-- A scheduled receive or transmit buffer of a row: its address, its bytes, the operation that filled it. -/
structure Buf where
  row : Nat
  addr : Nat
  blob : Blob
  op : Nat := 0
  deriving DecidableEq, Repr

/-- Bytes that a hitch or depot read has brought for the array; a missing member's stream is void. -/
structure Stream where
  row : Nat
  col : Nat
  tag : Nat
  blob : Blob
  deriving DecidableEq, Repr

/-- Elements lo .. hi − 1 of the command, of one tensor, and what R157 takes for them from its descriptor. -/
structure GathRun where
  lo : Nat
  hi : Nat
  tensor : Nat
  step : Nat
  mode : Nat
  scale : Nat
  gather : Bool
  amax : Bool
  deriving DecidableEq, Repr

structure UpdOp where
  job : Nat
  first : Nat
  count : Nat
  stage : Option Nat
  deriving DecidableEq, Repr

/-- An issued array operation: its row, column and tag, its 32 B descriptor and what it takes from the binding record. -/
structure ArrOp where
  row : Nat
  col : Nat
  tag : Nat
  serial : Nat
  desc : List Byte
  team : Nat
  inst : Nat
  infmt : Nat
  outfmt : Nat
  mode : Nat
  scale : Nat
  tensor : Nat
  seed : Nat
  missing : Bool := false
  /-- When it was issued, 1/65,536 ns. -/
  t : Nat := 0
  /-- An AOP of an RCUG's gather (R157): the tensors that its elements belong to. -/
  gath : List GathRun := []
  /-- An UPDATE operation of the groom unit (R147): its job, the place of its first element in the shard, its elements, and the scratchpad offset of
  their staged gradient where the job has one. -/
  upd : Option UpdOp := none
  deriving DecidableEq, Repr

/-- The results of an operation. -/
structure ArrRes where
  blob : Blob := {}
  nonf : Bool := false
  sat : Nat := 0
  flush : Nat := 0
  amax : Nat := 0
  deriving DecidableEq, Repr

/-- The operation that executes: its operands A, B, C and, for NORMACC, the word it adds to. -/
structure ArrCur where
  op : ArrOp
  srcs : List (Option Blob)
  /-- The yard was reset or the team aborted: results are discarded (R15, R19). -/
  discard : Bool := false
  deriving DecidableEq, Repr

/-- An operation kept until its operands are confirmed (R194), with the scratchpad bytes that it overwrote. -/
structure Kept where
  op : ArrOp
  srcs : List (Option Blob)
  res : ArrRes
  shadow : List (Nat × Byte) := []
  /-- Its results were marked invalid and await the replay (R193). -/
  stale : Bool := false
  deriving DecidableEq, Repr

structure ArraySt where
  queue : List ArrOp := []
  cur : Option ArrCur := none
  kept : List Kept := []
  rxbuf : List Buf := []
  txbuf : List Buf := []
  streams : List Stream := []
  /-- Marks of scratchpad granules, by scratch address / 64. -/
  marks : List (Nat × Mark) := []
  /-- Writes of the generator's test inputs in the last 16 core cycles, with the output before each (R143). -/
  srg : List (Nat × Nat) := []
  /-- Time that each row's operations waited for the array in the present stage, 1/65,536 ns. -/
  wait : List (Nat × Nat) := []
  deriving DecidableEq, Repr

/-- A groom request (Table 6.1) copied at its signal. -/
structure GroomReq where
  y : Nat
  team : Nat
  rec_ : Nat
  kind : Nat
  stageOff : Nat
  resultOff : Nat
  mirrorOff : Nat
  deriving DecidableEq, Repr

/-- What the update stores for one element: its descriptor, its place in the group, its index, the codes of p, m, v; the codes that stand there where
the results are withheld. -/
structure GEl where
  d : Nat
  j : Nat
  i : Nat
  p : Nat
  m : Nat
  v : Nat
  sat : Nat := 0
  flush : Nat := 0
  nonf : Bool := false
  held : Bool := false
  deriving DecidableEq, Repr

/-- Steps of a groom job: the reads that its gate needs, its UPDATE operations, its last writes. -/
inductive GroomStep where
  | gate | update | ending
  deriving DecidableEq, Repr

/-- The job that runs (6.1). -/
structure GroomJob where
  req : GroomReq
  /-- Its number, which its requests and operations name, and its instance. -/
  id : Nat := 0
  inst : Nat := 0
  step : GroomStep := .gate
  /-- The status of a skip (Table 6.4). -/
  skip : Option Nat := none
  /-- Parts of its reads that are outstanding; the operands that its present UPDATE operation reads, and those of which something has come (0 parameters,
  1 first moments, 2 second moments, 3 gradient, 4 clip factors); what has come: operand, local address, bytes, and a mask of its 64 B words that are unavailable. -/
  reads : Nat := 0
  need : List Nat := []
  begun : List Nat := []
  got : List (Nat × Nat × List Byte × Nat) := []
  /-- Writes not yet acknowledged. -/
  writes : Nat := 0
  /-- Elements of the shard that its UPDATE operations have covered, and what they stored. -/
  next : Nat := 0
  els : List GEl := []
  /-- Its first hitch or depot write was issued (R149, R158). -/
  wrote : Bool := false
  /-- Its team was aborted: it writes nothing more (R59). -/
  dead : Bool := false
  deriving DecidableEq, Repr

/-- The groom unit: requests, the running job, and what is staged and sent for the buddy (6.1, 6.5, 11.4). -/
structure GroomSt where
  queue : List GroomReq := []
  /-- Mirror staging areas of ended jobs: yard, scratchpad offset, bytes, their offset in the copy (6.5). -/
  mirStage : List (Nat × Nat × Nat × Nat) := []
  job : Option GroomJob := none
  /-- Jobs started. -/
  jobs : Nat := 0
  /-- Mirror carriages sent and neither acknowledged nor lost; mirror bytes sent of those staged. -/
  mirOpen : Nat := 0
  mirSent : Nat := 0
  deriving DecidableEq, Repr

/-! ## Hitch ports and depot (13) -/

/-- The datapath operation a request belongs to. -/
structure TagRef where
  row : Nat
  col : Nat
  tag : Nat
  serial : Nat
  deriving DecidableEq, Repr

/-- What a hitch request serves: a datapath operation; operand `part` of a groom job. -/
inductive HitchUse where
  | tag (r : TagRef)
  | groom (job part : Nat)
  deriving DecidableEq, Repr

/-- A hitch request: `off` is its place in the operation's bytes, `data` the bytes written or the beats received, `own` the instance that it serves. -/
structure HitchReq where
  port : Nat
  tag : Nat
  wr : Bool
  yg : Nat
  addr : Nat
  len : Nat
  off : Nat
  t : Nat
  data : List Byte := []
  beats : Nat := 0
  late : Bool := false
  err : Bool := false
  own : Option (Nat × Nat) := none
  use : HitchUse
  deriving DecidableEq, Repr

/-- Who waits for a depot access. -/
inductive DepotUse where
  | tag (r : TagRef) (off : Nat)
  | farWrite
  | farRead (l : Nat) (c : Carriage)
  | mirror (copy epoch len : Nat)
  | groom (job part y : Nat)
  /-- A degraded OFFLOAD or FETCH of instance (t, n) of yard y. -/
  | move (t n y off : Nat)
  deriving DecidableEq, Repr

structure DepotReq where
  ch : Nat
  wr : Bool
  addr : Nat
  data : List Byte
  len : Nat
  own : Option (Nat × Nat) := none
  use : DepotUse
  deriving DecidableEq, Repr

structure HitchSt where
  /-- Request and beat credits by port. -/
  cred : List (Nat × Nat) := []
  beats : List (Nat × Nat) := []
  reqs : List HitchReq := []
  /-- Requests that wait for a credit, in order. -/
  waitq : List HitchReq := []
  dreqs : List DepotReq := []
  nextTag : Nat := 0
  /-- Bytes written and confirmed in each handoff tile (R351). -/
  veh : List (Nat × Nat) := []
  /-- Tiles completely written and not yet reported. -/
  vehDone : List Nat := []
  deriving DecidableEq, Repr

end Sys2Proof.Machine
end

