-- ==== Sys2Proof/Machine/State.lean ====
section
/-! DEFINITION. The state of the block: registers, memories, queues, engines, and the queue of waiting commands. -/

namespace Sys2Proof.Machine

/-- Why a step stops with a fault. -/
inductive Fault where
  /-- Raised by every control-port command while the block is in Off or held in reset: R349 forbids the host to drive the
  port then and gives such an access no effect. Safe: the model stops where the manual says nothing. -/
  | controlPortDead
  deriving DecidableEq, Repr

/-- Why a command has no meaning. -/
inductive Refusal where
  /-- Raised by an arm of `exec` whose command has no meaning yet. Safe: nothing can be proved of it. -/
  | notModelled (mnemonic : String)
  deriving DecidableEq, Repr

/-- What the fuses fix (R1, R370, R377). DESIGN CHOICE (log entry 3) for the values at reset. -/
structure Fuses where
  conf : Config.Conf := .shire
  stepping : Nat := 0
  serial : Nat := 0
  keyHash : Nat := 0
  minVersion : Nat := 0
  deriving DecidableEq, Repr

/-- The stage engine besides TT_STATUS: a STOP_NOW that awaits the next tick, and the deferred EVAL_EN (R54, R61). -/
structure Engine where
  stopNow : Bool := false
  evalPending : Option Nat := none
  deriving DecidableEq, Repr

/-- Start-up (Table 13.11). Steps 1–6 as numbered there, 7 once started. -/
structure Boot where
  step : Nat := 1
  /-- When the step was entered. -/
  t : Nat := 0
  /-- The image address and length used without GO (R369), and the one FW_ACTIVATE stored (R370). -/
  addr : Nat := 0
  len : Nat := 0
  next : Option (Nat × Nat) := none
  /-- Training attempts of step 6. -/
  attempts : Nat := 0
  /-- ENABLEs held until step 6 ends: link, command (R369). -/
  held : List (Nat × Nat × Nat) := []
  deriving DecidableEq, Repr

/-- Power: whether the rails have been removed in Off, whether a supply sequence error holds the block in reset, a block
reset held by SAFE_N, sensor readings plus 1 (0–15 the yard sensors 4y + k, 16–31 the depot channels), and the throttle and refresh
changes that wait for the tick (R365). -/
structure Power where
  off : Bool := false
  seqHold : Bool := false
  heldReset : Bool := false
  sensors : List (Nat × Nat) := []
  /-- Throttle level and refresh doubling of each channel as measured, level + 4 × refresh. -/
  chan : List (Nat × Nat) := []
  /-- Column groups of the array that are on, 0–16 (R364), and the instant of the last governor step. -/
  width : Nat := 0
  lastStep : Nat := 0
  lastOp : Nat := 0
  deriving DecidableEq, Repr

/-- The sync unit besides its registers: realignment index of each pair (0: not realigned since ALLOC_SYNC, else j + 1),
barrier ends by team slot, waits of the coachmen. -/
structure Sync where
  pairs : List (Nat × Nat) := []
  bars : List (Nat × BarSt) := []
  coach : List CoachWait := []
  deriving DecidableEq, Repr

/-- Queues: queue pairs, entries fetched, commands outstanding, commands finished. -/
structure Queues where
  qps : List (Nat × QpRec) := []
  fetched : List Fetched := []
  cmds : List Cmd := []
  dones : List Done := []
  deriving DecidableEq, Repr

/-- The always-on records: the log ring oldest first, the MTC of the last 16 yard resets, shadow windows, sources whose
condition persists. -/
structure Aon where
  log : List LogRec := []
  resets : List Nat := []
  windows : List ShadowWin := []
  persist : List Nat := []
  halts : List HaltSeen := []
  /-- Interrupt messages outstanding at the host. -/
  irqOut : Nat := 0
  /-- Interrupt messages that wait because 32 are outstanding. -/
  irqq : List (Nat × Nat) := []
  deriving DecidableEq, Repr

/-- The state. -/
structure State where
  /-- Commands that wait, first in first out. -/
  pending : List Instr := []
  fuses : Fuses := {}
  pins : Pins := {}
  /-- Register fields by key; see `fkey`. -/
  regs : List (Nat × Nat) := []
  shadows : List Shadow := []
  /-- Response of the control port. -/
  rdata : Nat := 0
  host : List (Nat × Byte) := []
  depot : List (Nat × Byte) := []
  scratch : List (Nat × Byte) := []
  /-- The MODEL's own fields: what was sent, and the counters of free values and of issued operations. -/
  outbox : List OutEv := []
  fresh : Nat := 0
  serial : Nat := 0
  time : TimeSt := {}
  eng : Engine := {}
  tt : TtStore := {}
  posts : List (Nat × Post) := []
  mesh : List Msg := []
  teams : List (Nat × TeamRec) := []
  insts : List Inst := []
  qs : Queues := {}
  sync : Sync := {}
  aon : Aon := {}
  yards : List (Nat × YardRec) := []
  boot : Boot := {}
  power : Power := {}
  net : Net := {}
  links : List (Nat × LinkRec) := []
  arr : ArraySt := {}
  groom : GroomSt := {}
  hitch : HitchSt := {}
  deriving DecidableEq, Repr

/-- The machine right after reset: RST_N has just been released after power-on (R369 step 1), nothing is stored, every
register field reads its reset value, which `fldReset` gives for unlisted keys. -/
def State.reset : State := {}

end Sys2Proof.Machine
end

