-- ==== Sys2Proof/Machine/Ops.lean ====
section
/-! DEFINITION. The named operations over registers, memories, the log, the outputs and sync values. -/

namespace Sys2Proof.Machine

/-- The outcome of a command. -/
abbrev Out := Host.Outcome State Fault Refusal

/-! ## Register fields -/

/-- Key of field f of the register with index i. -/
def fkey (f : Fld) (i : Nat) : Nat := i * 512 + f.ctorIdx

/-- Width of a field. -/
def fwidth (f : Fld) : Nat := (fieldSpec f).hi - (fieldSpec f).lo + 1

/-- Reset reactions of sources 0–31 and 32–63 (Table 12.1). -/
def reactReset (hi : Bool) : List Nat :=
  if hi then [1, 1, 1, 1, 0, 0, 0, 0, 1, 1, 1, 1, 0, 0, 0, 1, 1, 1, 1, 0, 0, 1, 0, 0, 0, 0, 0, 0, 0, 0, 0, 0]
  else [2, 1, 2, 2, 1, 1, 2, 2, 2, 1, 1, 1, 1, 1, 0, 0, 0, 0, 1, 1, 1, 1, 0, 1, 0, 0, 1, 1, 0, 1, 0, 0]

/-- A list of 2-bit fields as one number, the first lowest. -/
def pack2 : List Nat → Nat
  | [] => 0
  | x :: t => x + 4 * pack2 t

/-- Reset value of field f with index i: the table's, but for the fields that Tables 1.2, 9.7, 12.1 and 14.2 make depend on the
index or the fuses. -/
def fldReset (fu : Fuses) (f : Fld) (i : Nat) : Nat :=
  match f with
  | .SYN_RANGE_BASE => i * fu.conf.syncObjs / 4
  | .SYN_RANGE_LIMIT => (i + 1) * fu.conf.syncObjs / 4
  | .DB_STATUS_YARD => if i = 0 then 0 else i / (fu.conf.queues / 4)
  | .FLT_REACT0_REACT => pack2 (reactReset false)
  | .FLT_REACT1_REACT => pack2 (reactReset true)
  | .GLB_ID_STEPPING => fu.stepping
  | .GLB_CFG0_ENDPOINTS => fu.conf.endpoints
  | .GLB_CFG0_QUEUES => fu.conf.queues
  | .GLB_CFG0_SYNC_OBJS => fu.conf.syncObjs
  | .GLB_CFG0_TEAMS => fu.conf.teams
  | .GLB_CFG0_CONFIG => fu.conf.code
  | .GLB_CFG1_SCRATCH_MIB => fu.conf.scratchMib
  | .GLB_CFG1_DEPOT_GIB => fu.conf.depotGib
  | .GLB_SERIAL_SERIAL => fu.serial
  | _ => (fieldSpec f).rst

/-- The value of field f of register index i. -/
def State.rf (s : State) (f : Fld) (i : Nat := 0) : Nat := sget (fun _ => fldReset s.fuses f i) s.regs (fkey f i)

/-- Set field f of register index i, within its width. -/
def State.setf (s : State) (f : Fld) (i : Nat) (v : Nat) : State :=
  { s with regs := sset (fun _ => fldReset s.fuses f i) s.regs (fkey f i) (v % 2 ^ fwidth f) }

/-- Add to a saturating counter field. -/
def State.sat (s : State) (f : Fld) (i : Nat) (n : Nat := 1) : State :=
  s.setf f i (min (s.rf f i + n) (2 ^ fwidth f - 1))

/-- Add to a wrapping field. -/
def State.inc (s : State) (f : Fld) (i : Nat) (n : Nat := 1) : State := s.setf f i (s.rf f i + n)

/-- Set a one-bit field. -/
def State.flag (s : State) (f : Fld) (i : Nat) (b : Bool) : State := s.setf f i (b2n b)

/-- A one-bit field as a truth value. -/
def State.on (s : State) (f : Fld) (i : Nat := 0) : Bool := s.rf f i != 0

/-- Set several fields in order. -/
def State.setfs (s : State) : List (Fld × Nat × Nat) → State
  | [] => s
  | (f, i, v) :: t => (s.setf f i v).setfs t

/-- The field's present value in its place in the register. -/
def fplace (f : Fld) (v : Nat) : Nat := v * 2 ^ (fieldSpec f).lo

/-- The part of a register value that belongs to field f. -/
def fpart (f : Fld) (v : Nat) : Nat := bitsOf v (fieldSpec f).hi (fieldSpec f).lo

/-! ## Time -/

/-- The core domain runs: rails present and no supply sequence hold (R363, R368). -/
def State.coreOn (s : State) : Bool := !s.power.off && !s.power.seqHold

/-- The counter at the last reference edge, in units of 1/65,536 ns (R31). -/
def State.edgeMtc (s : State) : Nat := s.rf .AON_MTC_MTC_NS * 65536 + s.time.frac

/-- What the sync unit interpolates since then, in core cycles of 0.625 ns (R31): nothing while the core domain is off, where the counter has 8 ns
granularity, or while a freeze holds the counter. -/
def State.interp (s : State) : Nat := if s.coreOn && s.time.freeze == 0 then s.time.sub * 8192 else 0

/-- The counter in units of 1/65,536 ns, interpolated. -/
def State.mtc (s : State) : Nat := s.edgeMtc + s.interp

/-- The integer part of the machine time counter. -/
def State.now (s : State) : Nat := s.mtc / 65536 % 2 ^ 64

/-- Set the counter, in units of 1/65,536 ns; the interpolation begins again from there. -/
def State.setMtc (s : State) (u : Nat) : State :=
  { s.setf .AON_MTC_MTC_NS 0 (u / 65536) with time := { s.time with frac := u % 65536, sub := 0 } }

/-- Stage length in ns (R46). -/
def State.stageLen (s : State) : Nat := s.rf .TT_STAGE_LEN_LEN_US * 1000

/-- The last tick instant at or before now. -/
def State.tickAt (s : State) : Nat := s.now / s.stageLen * s.stageLen

/-- A tick instant has been reached and its tick is not yet served (R44). -/
def State.tickDue (s : State) : Bool := s.time.lastTick < s.tickAt

/-- The tick at which a T write made now commits: the next one, or the one after when it is 64 ns or less away (Table 0.5). -/
def State.commitTick (s : State) : Nat :=
  let nt := s.tickAt + s.stageLen
  if nt - s.now ≤ 64 then nt + s.stageLen else nt

/-- The quarantine of R202: 4 stage lengths or 50 µs, whichever is longer. -/
def State.quarantine (s : State) : Nat := max (4 * s.stageLen) 50000

/-- The state t that a command makes of s: no command changes the queue of waiting commands or what the fuses fix (R377). -/
def State.keep (s t : State) : State := { t with pending := s.pending, fuses := s.fuses }

/-- An event of the core domain: it happens only while the core domain runs. -/
def event (s : State) (f : State → State) : Out := .next (if s.coreOn then s.keep (f s) else s)

/-- An event of the always-on island: f with the core domain running, g while it is off or held. -/
def island (s : State) (f g : State → State) : Out := .next (s.keep (if s.coreOn then f s else g s))

/-- An access of the control port (R349). A write is answered with 0. -/
def portAccess (s : State) (f : State → State) : Out :=
  if s.coreOn then .next (s.keep (f { s with rdata := 0 })) else .fault .controlPortDead

/-- Do f when the condition holds. -/
def State.when (s : State) (c : Bool) (f : State → State) : State := if c then f s else s

/-! ## Bytes and memories -/

/-- Little-endian value of bytes (R6). -/
def leNat : List Byte → Nat
  | [] => 0
  | b :: t => b.toNat + 256 * leNat t

/-- The k low bytes of n, little-endian. -/
def leBytes : Nat → Nat → List Byte
  | 0, _ => []
  | k + 1, n => BitVec.ofNat 8 n :: leBytes k (n / 256)

/-- What an unlisted byte reads as (log entry 4). -/
def byte0 : Nat → Byte := fun _ => 0

/-- The canonical form of a byte memory: addresses strictly rising, no listed byte equal to what an unlisted one reads as. -/
abbrev Memory.wf (m : List (Nat × Byte)) : Bool := swf byte0 m

/-- k bytes of a memory from address a. -/
def rdBytes (m : List (Nat × Byte)) (a : Nat) : Nat → List Byte
  | 0 => []
  | k + 1 => sget byte0 m a :: rdBytes m (a + 1) k

/-- Store bytes from address a. -/
def wrBytes (m : List (Nat × Byte)) (a : Nat) : List Byte → List (Nat × Byte)
  | [] => m
  | b :: t => wrBytes (sset byte0 m a b) (a + 1) t

/-- Little-endian value of k bytes at a. -/
def rdLe (m : List (Nat × Byte)) (a k : Nat) : Nat := leNat (rdBytes m a k)

/-- Host memory, depot and scratchpad writes. -/
def State.wrHost (s : State) (a : Nat) (bs : List Byte) : State := { s with host := wrBytes s.host a bs }
def State.wrDepot (s : State) (a : Nat) (bs : List Byte) : State := { s with depot := wrBytes s.depot a bs }
def State.wrScratch (s : State) (a : Nat) (bs : List Byte) : State := { s with scratch := wrBytes s.scratch a bs }

/-- Address of byte o of scratchpad bank y in the scratch map. -/
def scrAddr (y o : Nat) : Nat := y * 2 ^ 26 + o

/-- Bytes of one scratchpad bank, and of the depot and its quarters (Tables 0.1, 1.2). -/
def State.bankSize (s : State) : Nat := s.fuses.conf.scratchMib * 2 ^ 20 / 4
def State.depotSize (s : State) : Nat := s.fuses.conf.depotGib * 2 ^ 30
def State.quarter (s : State) : Nat := s.depotSize / 4

/-- A local offset of R176: bit 47 selects the depot. -/
def isDepot (a : Nat) : Bool := bitAt a 47
def offsetOf (a : Nat) : Nat := a % 2 ^ 47

/-- Read and write a local offset of R176 form. -/
def State.rdLocal (s : State) (a k : Nat) : List Byte :=
  if isDepot a then rdBytes s.depot (offsetOf a) k else rdBytes s.host (offsetOf a) k
def State.wrLocal (s : State) (a : Nat) (bs : List Byte) : State :=
  if isDepot a then s.wrDepot (offsetOf a) bs else s.wrHost (offsetOf a) bs

/-! ## CRC-32C (R12) -/

/-- Eight steps of the reflected CRC-32C register. -/
def crcBits : Nat → Nat → Nat
  | 0, c => c
  | n + 1, c => crcBits n (if c % 2 = 1 then (c / 2) ^^^ 0x82F63B78 else c / 2)

/-- The register after the bytes. -/
def crcRun : Nat → List Byte → Nat
  | c, [] => c
  | c, b :: t => crcRun (crcBits 8 (c ^^^ b.toNat)) t

/-- CRC-32C of a byte string. PRESUMED conventions of the named polynomial: log entry 8. -/
def crc32c (bs : List Byte) : Nat := crcRun 0xFFFFFFFF bs ^^^ 0xFFFFFFFF

/-! ## Entries, slots, carriages -/

/-- k bytes of a little-endian value from byte offset o, as a number. -/
def fieldAt (v : Nat) (o k : Nat) : Nat := v / 2 ^ (8 * o) % 2 ^ (8 * k)

/-- Field of a submission entry at byte offset o, k bytes long. -/
def ent (e : Entry) (o k : Nat) : Nat := fieldAt e.toNat o k

/-- OPCODE, FLAGS and CMD_ID of an entry (Table 10.2). -/
def eOp (e : Entry) : Nat := ent e 0 1
def eFlags (e : Entry) : Nat := ent e 1 1
def eId (e : Entry) : Nat := ent e 2 2
/-- FRAG and EPOCH. -/
def eFrag (e : Entry) : Bool := bitAt (eFlags e) 0
def eEpoch (e : Entry) : Bool := bitAt (eFlags e) 1

/-- Byte range of a received slot. -/
def slotAt (v : Slot) (o k : Nat) : Nat := fieldAt v.toNat o k

/-- A unit's slot (R210): K-code, fields in bytes 1–12, check in bytes 13–14. -/
def mkSlot (k : Nat) (fields : Nat) : Slot :=
  let lo := k + 256 * (fields % 2 ^ 96)
  BitVec.ofNat 128 (lo + (crc32c (leBytes 13 lo) % 65536) * 2 ^ 104)

/-- The check of R210. -/
def slotOk (v : Slot) : Bool := slotAt v 13 2 == crc32c (leBytes 13 (v.toNat % 2 ^ 104)) % 65536

/-- K-codes of Table 8.2. -/
def kComma : Nat := 0xBC
def kRein : Nat := 0x1C
def kAck : Nat := 0x7C
def kNak : Nat := 0x9C
def kRecall : Nat := 0xFE
def kHalt : Nat := 0x5C

/-- Fields laid out from (byte offset from byte 1, value) pairs. -/
def fieldsOf : List (Nat × Nat) → Nat
  | [] => 0
  | (o, v) :: t => v * 2 ^ (8 * o) + fieldsOf t

/-- Bits of a carriage header. -/
def hb (c : Carriage) (hi lo : Nat) : Nat := bitsOf c.hdr.toNat hi lo
def cClass (c : Carriage) : Nat := hb c 1 0
def cKind (c : Carriage) : Nat := hb c 5 2
def cSpec (c : Carriage) : Bool := hb c 6 6 == 1
def cDst (c : Carriage) : Nat := hb c 23 8
def cSrc (c : Carriage) : Nat := hb c 39 24
def cTenant (c : Carriage) : Nat := hb c 41 40
def cYard (c : Carriage) : Nat := hb c 43 42
def cMaxis (c : Carriage) : Nat := hb c 45 44
def cYgen (c : Carriage) : Nat := hb c 55 48
def cTeam (c : Carriage) : Nat := hb c 63 56
def cGen (c : Carriage) : Nat := hb c 71 64
def cSeq (c : Carriage) : Nat := hb c 87 72
def cLen (c : Carriage) : Nat := hb c 94 88
def cDgen (c : Carriage) : Nat := hb c 103 96
def cLsn (c : Carriage) : Nat := hb c 114 104
def cRetry (c : Carriage) : Nat := hb c 116 115
def cDphase (c : Carriage) : Bool := hb c 117 117 == 1
def cRev (c : Carriage) : Bool := hb c 118 118 == 1
def cRdir (c : Carriage) : Bool := hb c 119 119 == 1
def cHchk (c : Carriage) : Nat := hb c 127 120

/-- Trailer fields (Table 7.3). -/
def tCrc (c : Carriage) : Nat := bitsOf c.trl.toNat 31 0
def tCv (c : Carriage) : Nat := bitsOf c.trl.toNat 38 32
def tNcon (c : Carriage) : Nat := bitsOf c.trl.toNat 42 40
def tFlags (c : Carriage) : Flags3 :=
  { nonfinite := bitAt c.trl.toNat 48, poison := bitAt c.trl.toNat 49, absent := bitAt c.trl.toNat 50 }

/-- HCHK over header bytes 0–14. -/
def hchk (h : Nat) : Nat := crc32c (leBytes 15 h) % 256

/-- The trailer CRC: header bytes 0–12, the payload and trailer bytes 4–7 (R173). -/
def carCrc (c : Carriage) : Nat :=
  crc32c (leBytes 13 c.hdr.toNat ++ c.payload ++ leBytes 4 (c.trl.toNat / 2 ^ 32))

/-- Trace payload of a carriage sent (Table 14.5, types 6–11). -/
def carTrace (c : Carriage) : Nat := cClass c + 2 ^ 8 * cKind c + 2 ^ 16 * cLsn c + 2 ^ 32 * cDst c + 2 ^ 48 * cLen c

/-- The carriage's trailer CRC is right. -/
def crcGood (c : Carriage) : Bool := tCrc c == carCrc c

/-- The carriage with its hop fields written and HCHK recomputed (R173). -/
def setHop (c : Carriage) (lsn retry : Nat) (dph rev rdir : Bool) : Carriage :=
  let h := c.hdr.toNat % 2 ^ 104 + lsn % 2048 * 2 ^ 104 + retry % 4 * 2 ^ 115 + b2n dph * 2 ^ 117 + b2n rev * 2 ^ 118
    + b2n rdir * 2 ^ 119
  { c with hdr := BitVec.ofNat 128 (h + hchk h * 2 ^ 120) }

/-- The fields of a new carriage. -/
structure CarInfo where
  cls : Nat
  kind : Nat
  spec : Bool := false
  dst : Nat
  src : Nat
  tenant : Nat
  yard : Nat := 0
  maxis : Nat := 0
  ygen : Nat := 0
  team : Nat := 0xFF
  gen : Nat := 0
  seq : Nat := 0
  dgen : Nat := 0
  cv : Nat := 0
  ncon : Nat := 0
  flags : Flags3 := {}
  deriving DecidableEq, Repr

def Flags3.num (f : Flags3) : Nat := b2n f.nonfinite + 2 * b2n f.poison + 4 * b2n f.absent

def Flags3.or (a b : Flags3) : Flags3 :=
  { nonfinite := a.nonfinite || b.nonfinite, poison := a.poison || b.poison, absent := a.absent || b.absent }

/-- Bytes padded with zeros to a whole number of 64 B units, at least one. -/
def pad64 (bs : List Byte) : List Byte :=
  bs ++ List.replicate ((64 - bs.length % 64) % 64 + (if bs.isEmpty then 64 else 0)) 0

/-- A new carriage with payload, CRC and HCHK (Tables 7.1, 7.3). -/
def mkCarriage (i : CarInfo) (bs : List Byte) : Carriage :=
  let p := pad64 bs
  let h := i.cls % 4 + i.kind % 16 * 2 ^ 2 + b2n i.spec * 2 ^ 6 + i.dst % 65536 * 2 ^ 8 + i.src % 65536 * 2 ^ 24
    + i.tenant % 4 * 2 ^ 40 + i.yard % 4 * 2 ^ 42 + i.maxis % 4 * 2 ^ 44 + i.ygen % 256 * 2 ^ 48 + i.team % 256 * 2 ^ 56
    + i.gen % 256 * 2 ^ 64 + i.seq % 65536 * 2 ^ 72 + (p.length / 64 - 1) % 128 * 2 ^ 88 + i.dgen % 256 * 2 ^ 96
  let t := (i.cv % 128) * 2 ^ 32 + i.ncon % 8 * 2 ^ 40 + i.flags.num * 2 ^ 48
  let c0 : Carriage := ⟨BitVec.ofNat 128 (h + hchk h * 2 ^ 120), p, BitVec.ofNat 64 t⟩
  { c0 with trl := BitVec.ofNat 64 (t + carCrc c0) }

/-! ## Outputs and the AON log -/

/-- Record an output. -/
def State.emit (s : State) (o : OutEv) : State := { s with outbox := s.outbox ++ [o] }

/-- Length in bytes of a log record. -/
def LogRec.size (r : LogRec) : Nat := if r.gap then 8 else 16 + 8 * r.body.length

/-- Append at offset o a record and drop the oldest records that it overwrites. -/
def logPut (log : List LogRec) (r : LogRec) : List LogRec :=
  log.filter (fun x => !(x.off < r.off + r.size && r.off < x.off + x.size)) ++ [r]

/-- Write a record to the AON log ring (R338): the tail that is too short is filled first. -/
def State.log (s : State) (typ unit detail : Nat) (body : List Word := []) : State :=
  let h := s.rf .AON_LOG_PTR_HEAD
  let n := 16 + 8 * body.length
  let left := 16384 - h
  let fill : State := if n ≤ left then s
    else
      let g : LogRec := { off := h, mtc := s.now, typ := 0, unit := 0, detail := 0, gap := left == 8,
                          body := List.replicate ((left - 16) / 8) 0 }
      ({ s with aon := { s.aon with log := logPut s.aon.log g } }.setf .AON_LOG_PTR_HEAD 0 0).sat .AON_LOG_PTR_WRAPS 0
  let h' := if n ≤ left then h else 0
  let r : LogRec := { off := h', mtc := s.now, typ := typ, unit := unit, detail := detail, body := body }
  let s' := { fill with aon := { fill.aon with log := logPut fill.aon.log r } }
  let e := h' + n
  if e = 16384 then (s'.setf .AON_LOG_PTR_HEAD 0 0).sat .AON_LOG_PTR_WRAPS 0 else s'.setf .AON_LOG_PTR_HEAD 0 e

/-- The word of a number. -/
def w64 (n : Nat) : Word := BitVec.ofNat 64 n

/-! ## Interrupt messages (R286, R350) -/

/-- Put a message on the interrupt port; at most 32 are outstanding, later ones wait in order. -/
def State.message (s : State) (addr data : Nat) : State :=
  if s.aon.irqOut < 32 then { (s.emit (.irq addr data)) with aon := { s.aon with irqOut := s.aon.irqOut + 1 } }
  else { s with aon := { s.aon with irqq := s.aon.irqq ++ [(addr, data)] } }

/-- Send vector v, or set PENDING while it is masked. -/
def State.vector (s : State) (v : Nat) : State :=
  if s.on .IRQ_DATA_MASK v then s.setf .IRQ_DATA_PENDING v 1
  else s.message (s.rf .IRQ_ADDR_ADDR v * 4) (s.rf .IRQ_DATA_DATA v)

/-! ## Trace (R380) -/

/-- Stream a trace record of the type when it is selected. DESIGN CHOICE (log entry 9): no record is ever dropped. -/
def State.trace (s : State) (typ : Nat) (payload : Nat) : State :=
  if s.on .DBG_TRACE_CTL_EN && bitAt (s.rf .DBG_TRACE_CTL_SEL) typ then
    (s.emit (.trace (s.now % 2 ^ 48) typ payload)).inc .DBG_TRACE_STAT_SENT 0
  else s

/-! ## Lookups -/

def State.post (s : State) (p : Nat) : Post := sget (fun _ => {}) s.posts p
def State.team (s : State) (t : Nat) : TeamRec := sget (fun _ => {}) s.teams t
def State.setTeam (s : State) (t : Nat) (x : TeamRec) : State := { s with teams := sset (fun _ => {}) s.teams t x }
def State.yard (s : State) (y : Nat) : YardRec := sget (fun _ => {}) s.yards y
def State.setYard (s : State) (y : Nat) (x : YardRec) : State := { s with yards := sset (fun _ => {}) s.yards y x }
/-- Yard y is not stuck, or something of it moves, at this instant (R263). -/
def State.touch (s : State) (y : Nat) : State := s.setYard y { s.yard y with quietAt := s.now }
/-- The postilion waits on a sync object or a mailbox (R263). -/
def Post.stuck (x : Post) : Bool :=
  match x.wait with
  | .mailbox _ | .sync _ _ _ | .sendStall _ _ => x.cur.isSome
  | _ => false
/-- It waits so, or is gated with no segment left. -/
def Post.quiet (x : Post) : Bool := x.stuck || (x.cur.isNone && x.rest.isEmpty)
/-- Write a postilion; its yard is touched unless it was and is quiet. -/
def State.setPost (s : State) (p : Nat) (x : Post) : State :=
  let s1 : State := { s with posts := sset (fun _ => {}) s.posts p x }
  if (s.post p).quiet && x.quiet then s1 else s1.touch (p / 16)
def State.link (s : State) (l : Nat) : LinkRec := sget (fun _ => {}) s.links l
def State.setLink (s : State) (l : Nat) (x : LinkRec) : State := { s with links := sset (fun _ => {}) s.links l x }
def State.qp (s : State) (q : Nat) : QpRec := sget (fun _ => {}) s.qs.qps q
def State.setQp (s : State) (q : Nat) (x : QpRec) : State :=
  { s with qs := { s.qs with qps := sset (fun _ => {}) s.qs.qps q x } }
def State.sub (s : State) (l t : Nat) : SubLink := sget (fun _ => {}) s.net.subs (l * 4 + t)
def State.setSub (s : State) (l t : Nat) (x : SubLink) : State :=
  { s with net := { s.net with subs := sset (fun _ => {}) s.net.subs (l * 4 + t) x } }
def State.bar (s : State) (t : Nat) : BarSt := sget (fun _ => {}) s.sync.bars t
def State.setBar (s : State) (t : Nat) (x : BarSt) : State :=
  { s with sync := { s.sync with bars := sset (fun _ => {}) s.sync.bars t x } }

/-- Update every item of a list that passes the test. -/
def updWhere {α : Type} (p : α → Bool) (f : α → α) (xs : List α) : List α := xs.map fun x => if p x then f x else x

def nat6 : List Nat := [0, 1, 2, 3, 4, 5]
def nat4 : List Nat := [0, 1, 2, 3]

/-- Own endpoint, link state, tenants. -/
def State.self (s : State) : Nat := s.rf .RTE_SELF_EP
def State.linkSt (s : State) (l : Nat) : Nat := s.rf .LNK_STATE_STATE l
/-- A link is trained only in ACTIVE (R224). -/
def State.live (s : State) (l : Nat) : Bool := s.linkSt l == 6
def State.groupOwner (s : State) (l g : Nat) : Nat := bitsOf (s.rf .RTE_LANEOWN_OWNER) (2 * (4 * l + g) + 1) (2 * (4 * l + g))
/-- Groups of link l in use that tenant t owns (R296). -/
def State.subGroups (s : State) (l t : Nat) : List Nat :=
  nat4.filter fun g => bitAt (s.rf .LNK_RUNG_GROUPS l) g && s.groupOwner l g == t
/-- The tenants that have a sub-link on link l. -/
def State.subTenants (s : State) (l : Nat) : List Nat := nat4.filter fun t => !(s.subGroups l t).isEmpty
def State.yardTenant (s : State) (y : Nat) : Nat := s.rf .SYN_RANGE_TENANT y
def State.sliceSet (s : State) : Bool :=
  s.rf .RTE_SLICE_EXT_X != 0 && s.rf .RTE_SLICE_EXT_Y != 0 && s.rf .RTE_SLICE_EXT_Z != 0
def State.extent (s : State) (a : Nat) : Nat :=
  if a = 0 then s.rf .RTE_SLICE_EXT_X else if a = 1 then s.rf .RTE_SLICE_EXT_Y else s.rf .RTE_SLICE_EXT_Z
/-- Coordinates of an endpoint's entry, axis a. -/
def State.coord (s : State) (ep a : Nat) : Nat :=
  if a = 0 then s.rf .RTE_EP_LO_X ep else if a = 1 then s.rf .RTE_EP_LO_Y ep else s.rf .RTE_EP_LO_Z ep
/-- The chip's own coordinates: those of its own endpoint's entry (log entry 3). -/
def State.here (s : State) (a : Nat) : Nat := s.coord s.self a
/-- Out of service, in Stable, in the safe state. -/
def State.oos (s : State) : Bool := s.on .FLT_CTL_OOS
def State.stable (s : State) : Bool := s.on .AON_BOOT_STABLE
def State.safe (s : State) : Bool := s.on .FLT_CTL_SAFE
/-- The stage engine's state (Table 2.8): 0 STOPPED, 1 ARMED, 2 RUNNING, 3 STOPPING. -/
def State.engSt (s : State) : Nat := s.rf .TT_STATUS_STATE

/-- Bits 6:0 of a yard-and-generation field (R323). -/
def State.yg (s : State) (y : Nat) : Nat := y % 4 * 16 + s.rf .YRD_STATE_GEN y % 16

end Sys2Proof.Machine
end

