-- ==== Sys2Proof/Machine/Clock.lean ====
section
/-! DEFINITION. The 125 MHz reference edge and the core cycles between edges (R31, R41, R42). -/

namespace Sys2Proof.Machine

/-- The counter's advance at one edge in 1/65,536 ns: nominally 8.0 ns; while a slew is in progress 8 ps more or less, at most
what is left of it (R42). The 16-bit fraction holds 8 ps as 524/65,536 ns, rounded down (DESIGN CHOICE: log entry 132). -/
def edgeAdvance (slew : Int) : Int :=
  524288 + (if 0 ≤ slew then min slew 524 else max slew (-524))

/-- One edge of the reference. A freeze swallows edges until its time has passed (R33, R42). -/
def refEdge (s : State) : State :=
  let d := edgeAdvance s.time.slew
  let u := s.edgeMtc + (d.toNat - s.time.freeze)
  { s.setf .AON_MTC_MTC_NS 0 (u / 65536) with time := { s.time with
      slew := s.time.slew - (d - 524288), freeze := s.time.freeze - d.toNat, frac := u % 65536 } }

/-- Time since the last edge after one core cycle of 0.625 ns more, in 1/8 ns; the 12.8 cycles of a reference period end at an edge. -/
def nextSub (sub : Nat) : Nat := if sub + 5 < 64 then sub + 5 else sub + 5 - 64

end Sys2Proof.Machine
end

