-- ==== Sys2Proof/Machine/Flags.lean ====
section
/-! DEFINITION. The arithmetic of the array (05_reduction_arithmetic): formats, exact values, the one rounding, stochastic rounding, the
element operations, their counts and flags. -/

namespace Sys2Proof.Machine

/-! ## Formats and values (R124–R128) -/

/-- A floating-point format: significand bits p, exponent of the smallest step, largest finite magnitude code, width, infinities, and the random
bits of Table 5.9. -/
structure FloatFmt where
  p : Nat
  qmin : Int
  maxc : Nat
  width : Nat
  hasInf : Bool
  srw : Nat
  deriving DecidableEq, Repr

/-- The floating-point format of a code (Table 5.4). -/
def floatFmt (f : Nat) : Option FloatFmt :=
  match f with
  | 0 => some ⟨24, -149, 0x7F7FFFFF, 32, true, 0⟩
  | 1 => some ⟨8, -133, 0x7F7F, 16, true, 16⟩
  | 2 => some ⟨11, -24, 0x7BFF, 16, true, 13⟩
  | 3 => some ⟨53, -1074, 0x7FEFFFFFFFFFFFFF, 64, true, 0⟩
  | 4 => some ⟨4, -10, 0x7E, 8, false, 20⟩
  | 5 => some ⟨3, -17, 0x7E, 8, false, 21⟩
  | _ => none

/-- Bits of one element of a format. -/
def fmtBits (f : Nat) : Nat :=
  match f with
  | 3 => 64
  | 0 | 6 => 32
  | 1 | 2 => 16
  | 8 => 4
  | _ => 8

/-- An exact value: (−1)^neg × m × 2^e, or an integer. -/
inductive Val where
  | nan
  | inf (neg : Bool)
  | fin (neg : Bool) (m : Nat) (e : Int)
  | int (v : Int)
  deriving DecidableEq, Repr

/-- Two's complement value of a w-bit code. -/
def signed (w c : Nat) : Int := if 2 ^ (w - 1) ≤ c % 2 ^ w then (c % 2 ^ w : Nat) - (2 ^ w : Nat) else (c % 2 ^ w : Nat)

/-- Decode a code of a format exactly (R127, R128). -/
def decodeVal (f c : Nat) : Val :=
  match floatFmt f with
  | none => .int (signed (fmtBits f) c)
  | some F =>
    let neg := bitAt c (F.width - 1)
    let a := c % 2 ^ (F.width - 1)
    let ex := a / 2 ^ (F.p - 1)
    let fr := a % 2 ^ (F.p - 1)
    if F.maxc < a then (if F.hasInf && fr == 0 then .inf neg else .nan)
    else if ex = 0 then .fin neg fr F.qmin
    else .fin neg (fr + 2 ^ (F.p - 1)) (F.qmin + (ex - 1 : Nat))

/-- A subnormal code of its own format (R131). -/
def subnormal (f c : Nat) : Bool :=
  match floatFmt f with
  | none => false
  | some F => let a := c % 2 ^ (F.width - 1); a != 0 && a < 2 ^ (F.p - 1)

/-- The canonical NaN (R126, R127). -/
def nanCode (F : FloatFmt) : Nat := if F.hasInf then F.maxc + 1 + 2 ^ (F.p - 2) else 0x7F

/-- A NaN or an infinity. -/
def Val.nonfinite : Val → Bool
  | .nan => true
  | .inf _ => true
  | _ => false

/-! ## Modes (Table 5.8) -/

def mRnd (m : Nat) : Nat := bitsOf m 1 0
def mSr (m : Nat) : Bool := bitAt m 3
def mFtz (m : Nat) : Bool := bitAt m 4
def mSat (m : Nat) : Bool := bitAt m 5
def mOp (m : Nat) : Nat := bitsOf m 7 6
def mAcc (m : Nat) : Nat := bitsOf m 9 8
def mAmax (m : Nat) : Bool := bitAt m 10
def mWide (m : Nat) : Bool := bitAt m 11

/-- Accumulator format of a command (R121). -/
def accFmt (f m : Nat) : Nat :=
  if 6 ≤ f then 6 else if f = 3 then 3 else if mAcc m = 2 then 1 else 0

/-! ## The generator (R136) -/

def rotl32 (x n : Nat) : Nat := (x * 2 ^ n + x % 2 ^ 32 / 2 ^ (32 - n)) % 2 ^ 32

/-- One round on (x0, x1, x2, x3). -/
def srgRound (ka kb : Nat) (x : Nat × Nat × Nat × Nat) : Nat × Nat × Nat × Nat :=
  let x0 := (x.1 + x.2.1 + ka) % 2 ^ 32
  let x3 := rotl32 (x.2.2.2 ^^^ x0) 16
  let x2 := (x.2.2.1 + x3 + kb) % 2 ^ 32
  let x1 := rotl32 (x.2.1 ^^^ x2) 12
  let y0 := (x0 + x1) % 2 ^ 32
  let y3 := rotl32 (x3 ^^^ y0) 8
  let y2 := (x2 + y3) % 2 ^ 32
  let y1 := rotl32 (x1 ^^^ y2) 7
  (y1, y2, y3, y0)

def srgRounds : Nat → Nat → Nat → Nat × Nat × Nat × Nat → Nat × Nat × Nat × Nat
  | 0, _, _, x => x
  | n + 1, ka, kb, x => srgRounds n ((ka + 0x9E3779B9) % 2 ^ 32) ((kb + 0x6A09E667) % 2 ^ 32) (srgRound ka kb x)

/-- srg(k, i, t, s, point). -/
def srg (k i t s point : Nat) : Nat :=
  (srgRounds 10 (k % 2 ^ 32) (k / 2 ^ 32 % 2 ^ 32)
    (i % 2 ^ 32, (i / 2 ^ 32 % 256 + point * 256) % 2 ^ 32, t % 2 ^ 32, s % 2 ^ 32)).1

/-! ## Rounding (R129, R131, R132, R134, R135) -/

/-- Whether a magnitude n + rem ÷ 2^sh rounds up in direction rnd. -/
def roundsUp (rnd : Nat) (neg : Bool) (n rem sh : Nat) : Bool :=
  match rnd with
  | 0 => 2 ^ sh < 2 * rem || (2 * rem == 2 ^ sh && n % 2 == 1)
  | 1 => !neg && rem != 0
  | 2 => neg && rem != 0
  | _ => false

/-- Whether it rounds up stochastically with generator word u (R135). -/
def srUp (w u rem sh : Nat) : Bool := rem != 0 && 2 ^ w ≤ rem * 2 ^ w / 2 ^ sh + u / 2 ^ (32 - w)

/-- m × 2^e as n × 2^q with n rounded, for a given step exponent q. -/
def roundStep (up : Nat → Nat → Nat → Bool) (m : Nat) (e q : Int) : Nat :=
  if q ≤ e then m * 2 ^ (e - q).toNat
  else
    let sh := (q - e).toNat
    let n := m / 2 ^ sh
    let rem := m % 2 ^ sh
    if up n rem sh then n + 1 else n

/-- The outcome of a rounding: the code and whether R132 and R131 changed it. -/
structure Rounded where
  code : Nat
  sat : Bool := false
  flush : Bool := false
  deriving DecidableEq, Repr

def signBit (F : FloatFmt) (neg : Bool) : Nat := b2n neg * 2 ^ (F.width - 1)

/-- An overflow toward infinity is the direction's IEEE result. -/
def toInf (rnd : Nat) (neg : Bool) : Bool := rnd == 0 || (rnd == 1 && !neg) || (rnd == 2 && neg)

/-- Round an exact value to a floating-point format. `u` is the generator word where SR applies. -/
def roundFloat (F : FloatFmt) (mode : Nat) (u : Option Nat) (v : Val) : Rounded :=
  let sat := mSat mode
  let fin (neg : Bool) (m : Nat) (e : Int) : Rounded :=
    if m = 0 then { code := signBit F neg }
    else
      let top : Int := (Nat.log2 m : Int) + e
      if mFtz mode && top < F.qmin + (F.p - 1 : Nat) then { code := signBit F neg, flush := true }
      else
        let q := max (top - (F.p - 1 : Nat)) F.qmin
        let n := roundStep (fun n rem sh => match u with
          | some w => srUp F.srw w rem sh
          | none => roundsUp (mRnd mode) neg n rem sh) m e q
        let c := n + (q - F.qmin).toNat * 2 ^ (F.p - 1)
        if c ≤ F.maxc then { code := signBit F neg + c }
        else if !F.hasInf then { code := signBit F neg + F.maxc, sat := true }
        else if u.isSome || toInf (mRnd mode) neg then
          (if sat then { code := signBit F neg + F.maxc, sat := true } else { code := signBit F neg + F.maxc + 1 })
        else { code := signBit F neg + F.maxc }
  match v with
  | .nan => { code := nanCode F }
  | .inf neg => if !F.hasInf || sat then { code := signBit F neg + F.maxc, sat := true } else { code := signBit F neg + F.maxc + 1 }
  | .fin neg m e => fin neg m e
  | .int i => fin (i < 0) i.natAbs 0

/-- Clamp an integer to w bits. -/
def clampInt (w : Nat) (i : Int) : Rounded :=
  let hi : Int := (2 ^ (w - 1) : Nat) - 1
  let lo : Int := -((2 ^ (w - 1) : Nat) : Int)
  let c : Int := if hi < i then hi else if i < lo then lo else i
  { code := (c % (2 ^ w : Nat)).toNat, sat := c != i }

/-- Round to an integer format: MODE direction, never SR; clamped; NaN gives 0. -/
def roundInt (w mode : Nat) (v : Val) : Rounded :=
  match v with
  | .nan => { code := 0, sat := true }
  | .inf neg => { (clampInt w (if neg then -((2 ^ w : Nat) : Int) else (2 ^ w : Nat))) with sat := true }
  | .fin neg m e =>
    let n : Int := roundStep (fun n rem sh => roundsUp (mRnd mode) neg n rem sh) m e 0
    clampInt w (if neg then -n else n)
  | .int i => clampInt w i

/-- Round an exact value to format f; the generator word is used where R134 allows. -/
def roundTo (f mode : Nat) (u : Nat) (v : Val) : Rounded :=
  match floatFmt f with
  | some F => roundFloat F mode (if mSr mode && F.srw != 0 then some u else none) v
  | none => roundInt (fmtBits f) mode v

/-! ## Exact operations on values -/

/-- A signed integer times 2^e as a value; a zero takes the sign given. -/
def ofSigned (z : Bool) (m : Int) (e : Int) : Val := if m = 0 then .fin z 0 0 else .fin (m < 0) m.natAbs e

/-- Signed mantissa of sign and magnitude. -/
def sgn (neg : Bool) (m : Nat) : Int := if neg then -(m : Int) else m

/-- Exact sum. A zero sum of unlike signs is +0, −0 toward −∞. -/
def addVal (rnd : Nat) (a b : Val) : Val :=
  match a, b with
  | .nan, _ => .nan
  | _, .nan => .nan
  | .inf s, .inf t => if s == t then .inf s else .nan
  | .inf s, _ => .inf s
  | _, .inf t => .inf t
  | .fin s m e, .fin t n g =>
    let q := min e g
    let x := sgn s (m * 2 ^ (e - q).toNat) + sgn t (n * 2 ^ (g - q).toNat)
    if m = 0 && n = 0 then .fin (if s == t then s else rnd == 2) 0 0 else ofSigned (rnd == 2) x q
  | .int x, .int y => .int (x + y)
  | x, _ => x

/-- Exact product. -/
def mulVal (a b : Val) : Val :=
  match a, b with
  | .nan, _ => .nan
  | _, .nan => .nan
  | .inf s, .inf t => .inf (s != t)
  | .inf s, .fin t n _ => if n = 0 then .nan else .inf (s != t)
  | .fin s m _, .inf t => if m = 0 then .nan else .inf (s != t)
  | .fin s m e, .fin t n g => .fin (s != t) (m * n) (if m * n = 0 then 0 else e + g)
  | .int x, .int y => .int (x * y)
  | x, _ => x

/-- a < b in the order that puts −0 below +0. -/
def ltVal (a b : Val) : Bool :=
  match a, b with
  | .inf s, .inf t => s && !t
  | .inf s, _ => s
  | _, .inf t => !t
  | .fin s m e, .fin t n g =>
    if m = 0 && n = 0 then s && !t
    else
      let q := min e g
      sgn s (m * 2 ^ (e - q).toNat) < sgn t (n * 2 ^ (g - q).toNat)
  | .int x, .int y => x < y
  | _, _ => false

/-- Maximum and minimum; a NaN operand gives NaN. -/
def maxVal (a b : Val) : Val := if a == .nan || b == .nan then .nan else if ltVal a b then b else a
def minVal (a b : Val) : Val := if a == .nan || b == .nan then .nan else if ltVal b a then b else a

/-- An integer that joins a floating-point operand (R128): 24 significand bits in the MODE direction. -/
def internal (rnd : Nat) (v : Val) : Val :=
  match v with
  | .int i =>
    if i = 0 then .fin false 0 0
    else
      let q : Int := max ((Nat.log2 i.natAbs : Int) - 23) 0
      .fin (i < 0) (roundStep (fun n rem sh => roundsUp rnd (i < 0) n rem sh) i.natAbs 0 q) q
  | x => x

def Val.isInt : Val → Bool
  | .int _ => true
  | _ => false

/-- An operation on two values, with R128's treatment of integers. -/
def mixed (rnd : Nat) (op : Val → Val → Val) (a b : Val) : Val :=
  if a.isInt && b.isInt then op a b else op (internal rnd a) (internal rnd b)

/-! ## One element of an operation (Table 5.2, R120, R133, R136, R139, R141) -/

/-- What an operation's elements share. -/
structure OpCtx where
  opc : Nat
  scaleOn : Bool := false
  amaxOn : Bool := false
  fa : Nat := 0
  fb : Nat := 0
  acc : Nat := 0
  dst : Nat := 0
  mode : Nat := 0
  point : Nat := 0
  seed : Nat := 0
  tensor : Nat := 0
  step : Nat := 0
  scale : Nat := 0x3F800000
  deriving DecidableEq, Repr

/-- An element under way: its value, the next rounding step, whether it was saturated, flushed, non-finite. -/
structure El where
  v : Val
  k : Nat := 0
  sat : Bool := false
  flush : Bool := false
  nonf : Bool := false
  /-- An integer value is an INT32, not an INT8 or INT4. -/
  i32 : Bool := false
  deriving DecidableEq, Repr

/-- The generator word of an element at its next rounding step. -/
def OpCtx.word (c : OpCtx) (i k : Nat) : Nat := if mSr c.mode then srg c.seed i c.tensor c.step ((c.point + k) % 65536) else 0

/-- Load a source element: FTZ on input, NONFINITE on entry. -/
def OpCtx.load (c : OpCtx) (f code : Nat) : El :=
  let fl := mFtz c.mode && subnormal f code
  let v := if fl then (match decodeVal f code with | .fin s _ _ => .fin s 0 0 | x => x) else decodeVal f code
  { v := v, flush := fl, nonf := v.nonfinite, i32 := f == 6 }

/-- Merge the marks of a source into an element. -/
def El.mark (x y : El) : El := { x with sat := x.sat || y.sat, flush := x.flush || y.flush, nonf := x.nonf || y.nonf }

/-- The mode that a rounding of x follows: an INT32 value is rounded in the MODE direction, never by SR (Table 5.7). -/
def OpCtx.modeFor (c : OpCtx) (x : El) : Nat := if x.v.isInt && x.i32 && mSr c.mode then c.mode &&& 0xFFF7 else c.mode

/-- One rounding step into format f. -/
def OpCtx.rstep (c : OpCtx) (i f : Nat) (x : El) : El × Nat :=
  let r := roundTo f (c.modeFor x) (c.word i x.k) x.v
  let w := decodeVal f r.code
  ({ v := w, k := x.k + 1, i32 := f == 6, sat := x.sat || r.sat, flush := x.flush || r.flush, nonf := x.nonf || w.nonfinite }, r.code)

/-- A fold of two integers is computed in INT32 (R128, R132). -/
def clampFold (v : Val) : Val × Bool :=
  match v with
  | .int i => let r := clampInt 32 i; (.int (signed 32 r.code), r.sat)
  | x => (x, false)

/-- Fold y into x with a rounded operation. -/
def OpCtx.fold (c : OpCtx) (i : Nat) (op : Val → Val → Val) (x y : El) : El :=
  let (v, s) := clampFold (mixed (mRnd c.mode) op x.v y.v)
  let x1 := { x.mark y with v := v, sat := x.sat || y.sat || s, i32 := true }
  (c.rstep i c.acc x1).1

/-- Fold with an exact operation, which still takes a number. -/
def OpCtx.foldX (c : OpCtx) (op : Val → Val → Val) (x y : El) : El :=
  let v := mixed (mRnd c.mode) op x.v y.v
  { x.mark y with v := v, k := x.k + 1, i32 := true, nonf := x.nonf || y.nonf || v.nonfinite }

/-- The fold of an operator of Table 5.8, code 0 SUM, 1 MAX, 2 MIN. -/
def OpCtx.foldOp (c : OpCtx) (i op : Nat) (x y : El) : El :=
  match op with
  | 0 => c.fold i (addVal (mRnd c.mode)) x y
  | 1 => c.foldX maxVal x y
  | _ => c.foldX minVal x y

/-- Fold in an optional source. -/
def OpCtx.foldOpt (c : OpCtx) (i op : Nat) (x : El) (y : Option El) : El :=
  match y with
  | some e => c.foldOp i op x e
  | none => x

/-- The product by the bound scale, rounded to format f. -/
def OpCtx.scaleInto (c : OpCtx) (i f : Nat) (x : El) : El :=
  let s := decodeVal 0 c.scale
  let v := mulVal (internal (mRnd c.mode) x.v) s
  (c.rstep i f { x with v := v, nonf := x.nonf || s.nonfinite }).1

/-- The scale of CTL.SCALE: into the accumulator format, or FP32 for an integer accumulator (R120, R139). -/
def OpCtx.scaleStep (c : OpCtx) (i : Nat) (x : El) : El := c.scaleInto i (if 6 ≤ c.acc then 0 else c.acc) x

/-- Fold the operands that are there, left to right; a void one is left out as an absent one is (R109, R114). -/
def OpCtx.foldAll (c : OpCtx) (i op : Nat) (a b cc : Option El) : Option El :=
  match a with
  | some x => some (c.foldOpt i op (c.foldOpt i op x b) cc)
  | none => match b with
    | some y => some (c.foldOpt i op y cc)
    | none => cc

/-- MULADD: the product, then the sum; absent operands act as Table 5.2's text says. -/
def OpCtx.mulAdd (c : OpCtx) (i : Nat) (a b cc : Option El) : Option El :=
  match a, b with
  | some x, some y => some (c.foldOpt i 0 (c.fold i mulVal x y) cc)
  | some x, none => some (c.foldOpt i 0 x cc)
  | none, _ => cc

/-- The folded value of an element before the scale and the destination rounding; none where every operand is void. -/
def OpCtx.folded (c : OpCtx) (i : Nat) (a b cc : Option El) : Option El :=
  match c.opc with
  | 0x01 => c.foldAll i (mOp c.mode) a b cc
  | 0x02 => c.foldAll i 0 a b cc
  | 0x03 => c.foldAll i 1 a b cc
  | 0x04 => c.foldAll i 2 a b cc
  | 0x05 => a.map (c.scaleInto i c.acc)
  | 0x07 => c.mulAdd i a b cc
  | _ => a

/-- An element's |x| for the amax, as FP32 bits (R141): rounded in the MODE direction where it is no FP32 value. -/
def amaxBits (mode : Nat) (v : Val) : Nat :=
  match v with
  | .fin _ m e => (roundTo 0 (mRnd mode) 0 (.fin false m e)).code
  | .int i => (roundTo 0 (mRnd mode) 0 (.int i.natAbs)).code
  | _ => 0

/-- What one element gives. -/
structure ElOut where
  code : Nat
  sat : Bool
  flush : Bool
  nonf : Bool
  amax : Nat
  deriving DecidableEq, Repr

/-- One element: the fold, the scale of CTL.SCALE, the amax, the destination rounding. An element whose every operand is void is padding: zero, counting
nothing (R92, R109). -/
def OpCtx.element (c : OpCtx) (i : Nat) (a b cc : Option Nat) : ElOut :=
  match c.folded i (a.map (c.load c.fa)) (b.map (c.load c.fb)) (cc.map (c.load c.acc)) with
  | none => { code := 0, sat := false, flush := false, nonf := false, amax := 0 }
  | some x =>
    let y := if c.scaleOn then c.scaleStep i x else x
    let m := if c.amaxOn then amaxBits c.mode y.v else 0
    let (z, code) := c.rstep i c.dst y
    { code := code, sat := z.sat, flush := z.flush, nonf := z.nonf, amax := m }

/-! ## Buffers of elements -/

/-- The nibbles of bytes, lower first. -/
def nibbles : List Byte → List Nat
  | [] => []
  | b :: t => b.toNat % 16 :: b.toNat / 16 :: nibbles t

/-- n elements of k bytes. -/
def unpackBytes (k : Nat) : Nat → List Byte → List Nat
  | 0, _ => []
  | n + 1, bs => leNat (bs.take k) :: unpackBytes k n (bs.drop k)

/-- The first n elements of a byte string. -/
def unpack (f n : Nat) (bs : List Byte) : List Nat := if f = 8 then (nibbles bs).take n else unpackBytes (fmtBits f / 8) n bs

/-- The bytes of elements; `half` fills the upper half of a last byte that holds one INT4 element. -/
def pack (f half : Nat) : List Nat → List Byte
  | [] => []
  | [x] => if f = 8 then [BitVec.ofNat 8 (x % 16 + 16 * (half % 16))] else leBytes (fmtBits f / 8) x
  | x :: y :: t => if f = 8 then BitVec.ofNat 8 (x % 16 + 16 * (y % 16)) :: pack f half t
    else leBytes (fmtBits f / 8) x ++ pack f half (y :: t)

/-- Bytes of n elements; an odd INT4 count takes a whole last byte. -/
def elemBytes (f n : Nat) : Nat := (fmtBits f * n + 7) / 8

/-- The results of an operation over a list of elements. -/
structure OpOut where
  codes : List Nat := []
  sat : Nat := 0
  flush : Nat := 0
  nonf : Bool := false
  amax : Nat := 0
  deriving DecidableEq, Repr

/-- Add one to a 32-bit count, saturating (R133). -/
def satAdd (a b : Nat) : Nat := min (a + b) 0xFFFFFFFF

/-- Every element of the operation, from index i: its codes of A, B and C. -/
def OpCtx.run (c : OpCtx) (i : Nat) : List (Option Nat × Option Nat × Option Nat) → OpOut
  | [] => {}
  | (a, b, cc) :: t =>
    let r := c.run (i + 1) t
    let e := c.element (i % 2 ^ 40) a b cc
    { codes := e.code :: r.codes, sat := satAdd r.sat (b2n e.sat), flush := satAdd r.flush (b2n e.flush), nonf := e.nonf || r.nonf,
      amax := max e.amax r.amax }

/-! ## Plain operations: nearest even with IEEE overflow (R119, R147) -/

/-- Round to a format in a direction, without FTZ, SAT and SR. -/
def rnd0 (f rnd : Nat) (v : Val) : Nat := (roundTo f (rnd % 4) 0 v).code
def fAdd (f a b : Nat) : Nat := rnd0 f 0 (addVal 0 (decodeVal f a) (decodeVal f b))
def fMul (f a b : Nat) : Nat := rnd0 f 0 (mulVal (decodeVal f a) (decodeVal f b))

/-- One level of the pairwise tree: 2j with 2j + 1, an odd last entry unchanged. -/
def pairUp (f : Nat) : List Nat → List Nat
  | a :: b :: t => fAdd f a b :: pairUp f t
  | l => l

/-- The tree's total. -/
def treeSum (f : Nat) : Nat → List Nat → Nat
  | 0, l => l.headD 0
  | _ + 1, [] => 0
  | _ + 1, [a] => a
  | n + 1, l => treeSum f n (pairUp f l)

/-- The total of NORMACC over the elements, added to the word w (R119). -/
def normAcc (fa : Nat) (as : List Nat) (w : Nat) : Nat × Bool :=
  let f := if fa = 3 then 3 else 0
  let sq := as.map fun a => rnd0 f 0 (mulVal (decodeVal fa a) (decodeVal fa a))
  let r := fAdd f (treeSum f 64 sq) w
  (r, (as.any fun a => (decodeVal fa a).nonfinite) || (sq.any fun a => (decodeVal f a).nonfinite) || (decodeVal f r).nonfinite)

/-- Quotient of two finite values with 128 further bits, the last sticky: it rounds as the exact quotient does. -/
def divVal (a b : Val) : Val :=
  match a, b with
  | .nan, _ => .nan
  | _, .nan => .nan
  | .inf _, .inf _ => .nan
  | .inf s, .fin t _ _ => .inf (s != t)
  | .fin s _ _, .inf t => .fin (s != t) 0 0
  | .fin s m e, .fin t n g =>
    if n = 0 then (if m = 0 then .nan else .inf (s != t))
    else
      let x := m * 2 ^ 256
      .fin (s != t) (2 * (x / n) + b2n (x % n != 0)) (if m = 0 then 0 else e - g - 257)
  | x, _ => x

/-- Integer square root by bits, from 2^k down. -/
def isqrt : Nat → Nat → Nat → Nat
  | 0, _, r => r
  | k + 1, x, r => if (r + 2 ^ k) * (r + 2 ^ k) ≤ x then isqrt k x (r + 2 ^ k) else isqrt k x r

/-- Square root with a sticky last bit; −0 keeps its sign, a negative value gives NaN. -/
def sqrtVal (a : Val) : Val :=
  match a with
  | .nan => .nan
  | .inf s => if s then .nan else .inf false
  | .fin s m e =>
    if m = 0 then .fin s 0 0
    else if s then .nan
    else
      let (m1, e1) := if e % 2 = 0 then (m, e) else (2 * m, e - 1)
      let x := m1 * 2 ^ 256
      let r := isqrt 300 x 0
      .fin false (2 * r + b2n (r * r != x)) (e1 / 2 - 129)
  | .int i => .int i

def fDiv (f a b : Nat) : Nat := rnd0 f 0 (divVal (decodeVal f a) (decodeVal f b))
def fSqrt (f a : Nat) : Nat := rnd0 f 0 (sqrtVal (decodeVal f a))

end Sys2Proof.Machine
end

