-- ==== Sys2Proof/Machine/Segments.lean ====
section
/-! DEFINITION. Postilion registers, data RAM and segments: starting, skipping and ending a segment (R71, R72, R82). -/

namespace Sys2Proof.Machine

/-- Register a of a postilion; g0 reads as zero (R71). -/
def Post.reg (x : Post) (a : Nat) : Word := if a = 0 then 0 else sget (fun _ => 0) x.regs a

/-- Write register d; writes to g0 are discarded. -/
def Post.setReg (x : Post) (d : Nat) (v : Word) : Post :=
  if d = 0 then x else { x with regs := sset (fun _ => 0) x.regs d v }

/-- Data RAM bytes. -/
def Post.rdRam (x : Post) (a k : Nat) : List Byte := rdBytes x.dram a k
def Post.wrRam (x : Post) (a : Nat) (bs : List Byte) : Post := { x with dram := wrBytes x.dram a bs }

/-- Messages of mailbox m. -/
def Post.box (x : Post) (m : Nat) : List Word := sget (fun _ => []) x.mbox m
def Post.setBox (x : Post) (m : Nat) (ms : List Word) : Post := { x with mbox := sset (fun _ => []) x.mbox m ms }

/-- Address of the binding record of team slot t and instance n (R81). -/
def recAddr (t n : Nat) : Nat := 128 * t + 64 * (n % 2)

/-- STATE and instance number of a postilion's copy of a record. -/
def Post.recState (x : Post) (t n : Nat) : Nat := leNat (x.rdRam (recAddr t n + 3) 1)
def Post.recInst (x : Post) (t n : Nat) : Nat := leNat (x.rdRam (recAddr t n + 4) 4)
def Post.setRecState (x : Post) (t n v : Nat) : Post := x.wrRam (recAddr t n + 3) [BitVec.ofNat 8 v]

/-- The instance of team t that runs on this member. -/
def State.running (s : State) (t : Nat) : Option Inst := s.insts.find? fun i => i.team == t && i.st == .running

/-- Change the instances that pass the test. -/
def State.updInst (s : State) (p : Inst → Bool) (f : Inst → Inst) : State := { s with insts := updWhere p f s.insts }

/-- Clear the record of team t's instance n in its yard's row where it still reads STATE 1. -/
def State.clearRec (s : State) (t n : Nat) : State :=
  let y := s.rf .TT_TEAM_YARD t
  (List.range 16).foldl (fun (s : State) c =>
    let x := s.post (16 * y + c)
    if x.recInst t n == n && x.recState t n == 1 then s.setPost (16 * y + c) (x.setRecState t n 0) else s) s

/-- Drop the instances that have not started and pass the test; their records are cleared. -/
def State.dropInsts (s : State) (p : Inst → Bool) : State :=
  let gone (i : Inst) : Bool := p i && (i.st == .waiting || i.st == .bound)
  let s1 := (s.insts.filter gone).foldl (fun (s : State) (i : Inst) => s.clearRec i.team i.n) s
  { s1 with insts := s1.insts.filter fun i => !gone i }

/-- The row of a postilion and its column. -/
def rowOf (p : Nat) : Nat := p / 16
def colOf (p : Nat) : Nat := p % 16

/-- The link of a column 0–11. -/
def colLink (c : Nat) : Nat := c / 2

/-- The block skips the segment (R72, R381, R70, R298): its team is aborted, its yard is in reset or out of service, EVAL is set while EVAL_EN is
0, another team is under replay, its row is held by DBG_HOLD, its link has changed in mid-period, or its team runs in degraded mode. -/
def State.skipSeg (s : State) (p : Nat) (g : SegEnt) : Bool :=
  let y := rowOf p
  s.rf .TT_TEAM_STATE g.team == 2
    || s.rf .YRD_STATE_STATE y == 1 || s.rf .YRD_STATE_STATE y == 3
    || (g.eval && !s.on .TT_EVAL_CTL_EVAL_EN)
    || (s.rf .YRD_STATE_STATE y == 2 && s.rf .YRD_STATE_REPLAY_TEAM y != g.team)
    || bitAt (s.rf .DBG_HOLD_ROW) y
    || (colOf p < 12 && s.tt.lostLinks.contains (colLink (colOf p)))
    || (match s.running g.team with
      | some i => i.degraded
      | none => false)

/-- g4–g15 at a segment's start: undefined (R71), so free values. -/
def freeRegs (fresh : Nat) : Nat → List (Nat × Word) → List (Nat × Word)
  | 0, rs => rs
  | k + 1, rs => sset (fun _ => 0) (freeRegs fresh k rs) (k + 4) (Config.freeWord fresh (k + 4))

/-- A postilion with segment g started: g1–g3, g4–g15, pc, and its copy of the record set to running (R71, R82). -/
def Post.startSeg (x : Post) (g : SegEnt) (n stage fresh : Nat) : Post :=
  let member := x.recState g.team n == 1 && x.recInst g.team n == n
  let run := x.recState g.team n == 2 && x.recInst g.team n == n
  let x1 := if member then x.setRecState g.team n 2 else x
  let x2 := ((({ x1 with regs := freeRegs fresh 12 [] }.setReg 1 (w64 g.team)).setReg 2 (w64 (recAddr g.team n))).setReg 3 (w64 stage))
  { x2 with pc := g.entry, cur := some g, inst := n, missing := !(member || run), wait := .run, tags := [] }

/-- Start the next segment of the stage that is not skipped; with none left the postilion is gated (R72). -/
def State.nextSeg (s : State) (p : Nat) : State :=
  let x := s.post p
  match x.rest.dropWhile (s.skipSeg p) with
  | [] => s.setPost p { x with cur := none, rest := [], wait := .run, tags := [] }
  | g :: t =>
    let n := match s.running g.team with
      | some i => i.n
      | none => s.rf .TT_TEAM_INSTANCE g.team
    { s.setPost p ({ x with rest := t }.startSeg g n (s.rf .TT_STATUS_STAGE_IDX) s.fresh) with fresh := s.fresh + 1 }

/-- The postilions that run a segment of team t. -/
def State.postsOf (s : State) (t : Nat) : List Nat :=
  (s.posts.filter fun x => match x.2.cur with | some g => g.team == t | none => false).map (·.1)

/-- End at once every unfinished segment of team t, in ascending postilion order (R59). -/
def State.endSegs (s : State) (t : Nat) : State := (s.postsOf t).foldl (fun s p => s.nextSeg p) s

/-- Empty every mailbox that team t owns and release postilions stalled sending to them (R80). A message still on the mesh arrives later (DESIGN
CHOICE: log entry 140). -/
def State.emptyBoxes (s : State) (t : Nat) : State :=
  let owned (x : Post) (m : Nat) : Bool := match x.map[m]? with | some pr => pr.2 == t | none => false
  let posts1 := s.posts.map fun (p, x) => (p, { x with mbox := x.mbox.filter fun b => !owned x b.1 })
  let freed (d m : Nat) : Bool := owned (sget (fun _ => {}) s.posts d) m
  { s with posts := posts1.map fun (p, x) =>
      match x.wait with
      | .sendStall d m => (p, if freed d m then { x with wait := .run } else x)
      | _ => (p, x) }

/-- A postilion executes now: it runs a segment, waits on nothing, and its row is not held (R74, R381). -/
def State.runnable (s : State) (p : Nat) : Bool :=
  let x := s.post p
  x.cur.isSome && x.wait == .run && !bitAt (s.rf .DBG_HOLD_ROW) (rowOf p) && !s.safe

end Sys2Proof.Machine
end

