-- ==== Sys2Proof/Machine/PostAlu.lean ====
section
/-! DEFINITION. Postilion arithmetic (Table 3.5): one instruction of the postilion's segment at its pc. -/

namespace Sys2Proof.Machine

/-- The word at the postilion's pc; instruction RAM that no image has written reads 0 (log entry 4). -/
def Post.word (x : Post) : BitVec 32 := sget (fun _ => 0) x.iram x.pc

/-- The next instruction index, within the 4,096 instructions of the RAM. -/
def Post.next (x : Post) : Post := { x with pc := (x.pc + 1) % 4096 }

/-- Execute instruction i of postilion p: it happens only when the postilion executes and its word decodes to i (R74). -/
def State.postRun (s : State) (p : PostId) (i : Instr) (f : State → Post → State) : State :=
  if s.runnable p && decodePost p (s.post p).word == i then f s (s.post p) else s

/-- An instruction that only changes its postilion. -/
def State.postOnly (s : State) (p : PostId) (i : Instr) (f : Post → Post) : State :=
  s.postRun p i fun s x => s.setPost p (f x)

/-- An instruction that writes register d from two registers. -/
def alu (p : PostId) (i : Instr) (d a b : GReg) (f : Word → Word → Word) (s : State) : State :=
  s.postOnly p i fun x => (x.setReg d (f (x.reg a) (x.reg b))).next

/-- A 14-bit immediate, sign-extended to 64 bits. -/
def imm14 (i : BitVec 14) : Word := i.signExtend 64

/-- NOP. -/
def execNop (p : PostId) (s : State) : Out := event s fun s => s.postOnly p (.nop p) Post.next
/-- ADD, modulo 2^64. -/
def execAdd (p : PostId) (d a b : GReg) (s : State) : Out := event s fun s => alu p (.add p d a b) d a b (· + ·) s
/-- SUB. -/
def execSub (p : PostId) (d a b : GReg) (s : State) : Out := event s fun s => alu p (.sub p d a b) d a b (· - ·) s
/-- AND. -/
def execAnd (p : PostId) (d a b : GReg) (s : State) : Out := event s fun s => alu p (.and p d a b) d a b (· &&& ·) s
/-- OR. -/
def execOr (p : PostId) (d a b : GReg) (s : State) : Out := event s fun s => alu p (.or p d a b) d a b (· ||| ·) s
/-- XOR. -/
def execXor (p : PostId) (d a b : GReg) (s : State) : Out := event s fun s => alu p (.xor p d a b) d a b (· ^^^ ·) s
/-- SHL by g[b] mod 64. -/
def execShl (p : PostId) (d a b : GReg) (s : State) : Out :=
  event s fun s => alu p (.shl p d a b) d a b (fun x y => x <<< (y.toNat % 64)) s
/-- SHR, logical, by g[b] mod 64. -/
def execShr (p : PostId) (d a b : GReg) (s : State) : Out :=
  event s fun s => alu p (.shr p d a b) d a b (fun x y => x >>> (y.toNat % 64)) s
/-- ADDI. -/
def execAddi (p : PostId) (d a : GReg) (imm : BitVec 14) (s : State) : Out :=
  event s fun s => s.postOnly p (.addi p d a imm) fun x => (x.setReg d (x.reg a + imm14 imm)).next
/-- MOVI. -/
def execMovi (p : PostId) (d : GReg) (imm : BitVec 22) (s : State) : Out :=
  event s fun s => s.postOnly p (.movi p d imm) fun x => (x.setReg d (imm.signExtend 64)).next
/-- MUL, the low 64 bits. -/
def execMul (p : PostId) (d a b : GReg) (s : State) : Out := event s fun s => alu p (.mul p d a b) d a b (· * ·) s

end Sys2Proof.Machine
end

