-- ==== Sys2Proof/Machine/NetOps.lean ====
section
/-! DEFINITION. Sending: units, HALTs, rein windows, injected carriages and their route (7.2–7.4, 8.2). -/

namespace Sys2Proof.Machine

/-- Now, in 1/64 ns. -/
def State.t64 (s : State) : Nat := s.mtc / 1024

/-- A scheduled carriage is being sent on the sub-link. -/
def State.sendsSched (s : State) (l t : Nat) : Bool := (s.sub l t).busySched && decide (s.t64 < (s.sub l t).busy)

/-- Slots filled on the sub-link in the present 1 µs segment while a scheduled carriage was being sent. -/
def State.slotsUsed (s : State) (l t : Nat) : Nat := if s.net.slotSeg = s.now / 1000 then sget (fun _ => 0) s.net.slots (4 * l + t) else 0

/-- One slot more of the present segment. -/
def State.useSlot (s : State) (l t : Nat) : State :=
  let xs := if s.net.slotSeg = s.now / 1000 then s.net.slots else []
  { s with net := { s.net with slotSeg := s.now / 1000, slots := sset (fun _ => 0) xs (4 * l + t) (s.slotsUsed l t + 1) } }

/-- The units of a sub-link that have waited leave, in order. -/
def State.flushUnits (s : State) (l t : Nat) : State :=
  let mine (u : Nat × Nat × Slot) : Bool := u.1 == l && u.2.1 == t
  (s.net.unitq.filter mine).foldl (fun (s : State) u => s.emit (.slot l t u.2.2))
    { s with net := { s.net with unitq := s.net.unitq.filter fun u => !mine u } }

/-- Send a unit in a slot of the sub-link of tenant t of link l. While a scheduled carriage is being sent at most 48 slot columns, of one slot for each
lane group, go in each 1 µs segment; further units wait until none is (R214). -/
def State.unit (s : State) (l t k fields : Nat) : State :=
  if !s.sendsSched l t then (s.flushUnits l t).emit (.slot l t (mkSlot k fields))
  else if s.slotsUsed l t < 48 * (s.subGroups l t).length then (s.useSlot l t).emit (.slot l t (mkSlot k fields))
  else { s with net := { s.net with unitq := s.net.unitq ++ [(l, t, mkSlot k fields)] } }

/-- The tenant whose sub-link carries units that concern no tenant: the lowest with a group in use. -/
def State.mainTenant (s : State) (l : Nat) : Nat := (s.subTenants l).headD 0

/-- Fields of a HALT (Table 8.3). -/
def haltFields (slot gen reason ep : Nat) : Nat := fieldsOf [(0, slot), (1, gen), (2, reason), (3, ep)]

/-- A HALT on every live link but one (R59, R326). -/
def State.haltAll (s : State) (except slot gen reason ep : Nat) : State :=
  nat6.foldl (fun s l => if s.live l && l != except then s.unit l (s.mainTenant l) kHalt (haltFields slot gen reason ep) else s) s

/-- A HALT of this slot, generation and endpoint was seen within the last 1 ms (R326). -/
def State.haltSeen (s : State) (t gen ep : Nat) : Bool :=
  s.aon.halts.any fun h => h.team == t && h.gen == gen && h.ep == ep && decide (s.now ≤ h.t + 1000000)

/-- Record a HALT as seen; records older than 1 ms are forgotten. -/
def State.noteHalt (s : State) (t gen ep : Nat) : State :=
  { s with aon := { s.aon with
    halts := (s.aon.halts.filter fun h => decide (s.now ≤ h.t + 1000000) && !(h.team == t && h.gen == gen && h.ep == ep))
      ++ [{ team := t, gen := gen, ep := ep, t := s.now }] } }

/-- A team HALT of this chip for team slot t; it counts as seen here (DEDUCED: log entry 33). -/
def State.haltTeam (s : State) (t reason : Nat) : State :=
  (s.haltAll 6 t (s.rf .TT_TEAM_GEN t) reason s.self).noteHalt t (s.rf .TT_TEAM_GEN t) s.self

/-- The link-level HALT of R231 on every sub-link of link l, while the link is ACTIVE. -/
def State.haltLink (s : State) (l reason : Nat) : State :=
  if s.live l then (s.subTenants l).foldl (fun s t => s.unit l t kHalt (haltFields 0xFF 0 reason s.self)) s else s

/-- Axis of a link, its direction (true: minus), and the link of an axis and direction. -/
def axisOf (l : Nat) : Nat := l / 2
def dirOf (l : Nat) : Bool := l % 2 == 1
def linkOf (axis : Nat) (minus : Bool) : Nat := 2 * axis + b2n minus

/-- A link is dead for a tenant: not trained, or without a lane group of the tenant in use (R179, R297). -/
def State.deadFor (s : State) (l t : Nat) : Bool := !s.live l || (s.subGroups l t).isEmpty

/-- What `next_hop` decides. -/
inductive Hop where
  | send (l : Nat) (rev rdir : Bool)
  | arrive
  | unreachable
  deriving DecidableEq, Repr

/-- Dimension-order routing (R179). `tgt` is the endpoint routed to; `inAxis` the axis the carriage arrived on, 3 for an injected one. -/
def State.nextHop (s : State) (tgt tenant inAxis : Nat) (rev rdir : Bool) : Hop :=
  match [0, 1, 2].find? (fun a => s.here a != s.coord tgt a) with
  | none => .arrive
  | some a =>
    let m := s.extent a
    let d := (s.coord tgt a + m - s.here a) % m
    let rdir0 := if inAxis = a then rdir else !(d ≤ m - d)
    let rev0 := if inAxis = a then rev else false
    if s.deadFor (linkOf a rdir0) tenant then
      if rev0 then .unreachable else .send (linkOf a (!rdir0)) true (!rdir0)
    else .send (linkOf a rdir0) rev0 rdir0

/-- The endpoint a carriage is routed to from here: the detour while in phase 0 (R182). -/
def State.routeTarget (s : State) (c : Carriage) : Nat :=
  if s.on .RTE_EP_LO_DETOUR_EN (cDst c) && !cDphase c then s.rf .RTE_EP_LO_DETOUR_EP (cDst c) else cDst c

/-- The window of a key, if allocated. -/
def State.win? (s : State) (ep tenant team : Nat) : Option Win :=
  s.net.wins.find? fun w => w.ep == ep && w.tenant == tenant && w.team == team

/-- Replace the window of w's key, or add it. -/
def State.setWin (s : State) (w : Win) : State :=
  let same (x : Win) : Bool := x.ep == w.ep && x.tenant == w.tenant && x.team == w.team
  if s.net.wins.any same then { s with net := { s.net with wins := updWhere same (fun _ => w) s.net.wins } }
  else { s with net := { s.net with wins := s.net.wins ++ [w] } }.setf .RTE_WINSTAT_IN_USE 0 (s.net.wins.length + 1)

/-- Allocate a window on first use (R184, R385): none when all 4,096 are held. -/
def State.openWin (s : State) (ep tenant team : Nat) : Option (State × Win) :=
  match s.win? ep tenant team with
  | some w => some (s, w)
  | none =>
    if 4096 ≤ s.net.wins.length then none
    else
      let k := ep * 4 + tenant
      let g := sget (fun _ => 0) s.net.sendGens k
      let g' := if g < 256 then g else (g + 1) % 256
      let w : Win := { ep := ep, tenant := tenant, team := team, gen := g', last := s.now }
      some ({ s with net := { s.net with sendGens := sset (fun _ => 0) s.net.sendGens k (g' + 256) } }.setWin w, w)

/-- Take one credit of a window and its sequence number for a carriage sent now; none while it has no credit or is in quarantine. -/
def State.takeCredit (s : State) (ep tenant team : Nat) : Option (State × Win) :=
  match s.openWin ep tenant team with
  | none => none
  | some (s1, w) =>
    if w.credits = 0 || s.now < w.quarEnd then none
    else some (s1.setWin { w with credits := w.credits - 1, seq := (w.seq + 1) % 65536 }, w)

/-- Give credits back to a window, at most 64. -/
def State.giveCredit (s : State) (ep tenant team n : Nat) : State :=
  match s.win? ep tenant team with
  | none => s
  | some w => s.setWin { w with credits := min 64 (w.credits + n), last := s.now }

/-- The realignment epoch e(t) now (R257). -/
def State.epochNow (s : State) : Nat :=
  s.now / (s.stageLen * max 1 (s.rf .SYN_REALIGN_STAGES)) % 65536

/-- An operation granule (Table 7.7). -/
def granule (target len aop flags obj op1 op2 : Nat) : List Byte :=
  leBytes 8 target ++ leBytes 4 len ++ leBytes 1 aop ++ leBytes 1 flags ++ leBytes 2 obj ++ leBytes 8 op1 ++ leBytes 8 op2
    ++ List.replicate 32 0

/-- Output of a REIN: its next hop toward the endpoint it returns to. -/
def State.reinHop (s : State) (r : Rein) : Hop := s.nextHop r.dst r.tenant 3 false false

/-- The port whose queue takes a REIN. -/
def State.reinPort (s : State) (r : Rein) : Nat :=
  if r.dst = s.self then 8
  else match s.reinHop r with
    | .send l _ _ => l
    | _ => 8

/-- Queue a REIN unit on its port (R185): units of one window are merged, up to 64 credits; a unit that finds 64 waiting comes after them (DESIGN CHOICE:
log entry 96). -/
def State.queueRein (s : State) (r0 : Rein) : State :=
  let r := { r0 with port := s.reinPort r0 }
  let same (x : Rein) : Bool := x.dst == r.dst && x.src == r.src && x.tenant == r.tenant && x.gen == r.gen && x.blocked == r.blocked
    && x.port == r.port && x.credits + r.credits ≤ 64
  if s.net.reinq.any same then
    { s with net := { s.net with reinq := updWhere same (fun x => { x with credits := x.credits + r.credits }) s.net.reinq } }
  else if (s.net.reinq.filter fun x => x.port == r.port).length < 64 then { s with net := { s.net with reinq := s.net.reinq ++ [r] } }
  else { s with net := { s.net with reinWait := s.net.reinWait ++ [r] } }

/-- Queue a REIN unit behind those that wait. -/
def State.sendRein (s : State) (r : Rein) : State :=
  (s.net.reinWait ++ [r]).foldl (fun (s : State) x => s.queueRein x) { s with net := { s.net with reinWait := [] } }

/-- The window generation of a carriage's REIN (R185): the carriage's own outside any team; the header of a team carriage holds the team's
generation there (Table 7.9), and its window's is a free value (log entry 131). -/
def State.reinGenOf (s : State) (c : Carriage) : Nat := if cTeam c = 0xFF then cGen c else Config.reinGen s.now c.hdr % 256

/-- The REIN that returns the credit of a received carriage. -/
def State.reinFor (s : State) (c : Carriage) (blocked : Bool) : State :=
  s.sendRein { dst := cSrc c, src := s.self, tenant := cTenant c, blocked := blocked, gen := s.reinGenOf c, credits := 1 }

/-! ## Acceptance at the destination (Table 7.4) -/

/-- The kind may travel in the class (Table 7.2). -/
def kindOk (k c : Nat) : Bool :=
  if k = 0 then c == 0 || c == 1
  else if k ≤ 5 then c == 1
  else if k ≤ 7 then c == 2
  else if k ≤ 9 then c == 3
  else k ≤ 13 && c == 0

/-- A reserved header or trailer bit is set (Tables 7.1, 7.3). -/
def reservedSet (c : Carriage) : Bool :=
  hb c 7 7 != 0 || hb c 47 46 != 0 || hb c 95 95 != 0 || bitsOf c.trl.toNat 39 39 != 0 || bitsOf c.trl.toNat 47 43 != 0
    || bitsOf c.trl.toNat 63 51 != 0

/-- Field of a carriage's operation granule (Table 7.7). -/
def gran (c : Carriage) (o k : Nat) : Nat := leNat ((c.payload.drop o).take k)
def gTarget (c : Carriage) : Nat := gran c 0 8
def gLen (c : Carriage) : Nat := gran c 8 4
def gAop (c : Carriage) : Nat := gran c 12 1
def gNotify (c : Carriage) : Bool := bitAt (gran c 13 1) 0
def gObj (c : Carriage) : Nat := gran c 14 2
def gOp1 (c : Carriage) : Nat := gran c 16 8
def gOp2 (c : Carriage) : Nat := gran c 24 8

/-- The tenant that owns the yard whose quarter of depot addresses holds a range; none where no one quarter does. -/
def State.depotTenant (s : State) (a n : Nat) : Option Nat :=
  (nat4.find? fun y => y * s.quarter ≤ a && a + n ≤ (y + 1) * s.quarter).map s.yardTenant

/-- The offset lies outside R176: beyond the tenant's aperture (R348), or in a depot quarter of another tenant. -/
def State.addressBad (s : State) (tenant a n : Nat) : Bool :=
  2 ^ 48 ≤ a || (if isDepot a then s.depotTenant (offsetOf a) n != some tenant
    else s.rf .HCH_APER_LIM_LIMIT tenant * 4096 < offsetOf a + n)

/-- The memory address that a remote offset stands for (R348). -/
def State.aperture (s : State) (tenant a : Nat) : Nat := if isDepot a then a else s.rf .HCH_APER_BASE_BASE tenant * 4096 + a

/-- Base and size of the incoming mirror region, and of its copy c (R301). -/
def State.mirBase (s : State) : Nat := s.rf .GRM_MIR_CFG_IN_BASE_MIB * 2 ^ 20
def State.mirSize (s : State) : Nat := s.rf .GRM_MIR_CFG_IN_SIZE_MIB * 2 ^ 20
def State.copyBase (s : State) (c : Nat) : Nat := s.mirBase + c * (s.mirSize / 2)

/-- A depot range touches the incoming mirror region, enabled or frozen with copies (R309). -/
def State.inMirror (s : State) (a n : Nat) : Bool := s.mirSize != 0 && a < s.mirBase + s.mirSize && s.mirBase < a + n

/-- Copy c is COMMITTED. -/
def State.committed (s : State) (c : Nat) : Bool := s.rf .GRM_MIR_COPY_STATE c == 2

/-- Every byte of a depot range that lies in the mirror region lies in a copy that is COMMITTED (R309). -/
def State.inCommitted (s : State) (a n : Nat) : Bool :=
  [0, 1].all fun c => s.committed c || s.copyBase c + s.mirSize / 2 ≤ a || a + n ≤ s.copyBase c

/-- The far window of link l refuses a range: closed, or outside, or against R309. -/
def State.farBad (s : State) (l : Nat) (c : Carriage) (wr : Bool) : Bool :=
  let a := offsetOf (gTarget c)
  let n := gLen c
  !s.on .GRM_FARWIN_EN l || !isDepot (gTarget c) || decide (2 ^ 48 ≤ gTarget c) || n == 0 || decide (8192 < n) ||
    decide (a < s.rf .GRM_FARWIN_BASE_MIB l * 2 ^ 20) || decide (s.rf .GRM_FARWIN_LIMIT_MIB l * 2 ^ 20 < a + n) ||
    decide (s.depotSize < a + n) || (s.inMirror a n && (wr || !s.inCommitted a n))

/-- The target's record of the newest window generation of a source and tenant (R200, Table 7.10). -/
def State.rxGen (s : State) (src tenant : Nat) : Nat :=
  bitsOf (s.rf .RTE_RXGEN_GENS ((4 * src + tenant) / 8)) (8 * ((4 * src + tenant) % 8) + 7) (8 * ((4 * src + tenant) % 8))
def State.setRxGen (s : State) (src tenant g : Nat) : State :=
  let k := (4 * src + tenant) / 8
  let o := 8 * ((4 * src + tenant) % 8)
  s.setf .RTE_RXGEN_GENS k (s.rf .RTE_RXGEN_GENS k - s.rxGen src tenant * 2 ^ o + g % 256 * 2 ^ o)

/-- A carriage whose generation the target checks against RTE_RXGEN: non-team, class 1 or 2, no response (Table 7.9). -/
def windowChecked (c : Carriage) : Bool := cTeam c == 0xFF && (cClass c == 1 || cClass c == 2) && cKind c != 3 && cKind c != 5

/-- The ID generation is stale (row 6). -/
def State.genStale (s : State) (c : Carriage) : Bool :=
  if cTeam c != 0xFF then s.rf .TT_TEAM_GEN (cTeam c) != cGen c
  else if windowChecked c then
    let d := (s.rxGen (cSrc c) (cTenant c) + 256 - cGen c) % 256
    1 ≤ d && d ≤ 127
  else false

/-- Length that an access of this carriage has at its target (R348). -/
def accLen (c : Carriage) : Nat := if cKind c = 4 then 8 else gLen c

/-- The address of a carriage that came in on port l lies outside R176: of a remote operation; of a far carriage, outside the window (R169, R309). A
write into the mirror region is outside too (R301, R307; DEDUCED: log entry 146). -/
def State.targetBad (s : State) (l : Nat) (c : Carriage) : Bool :=
  let k := cKind c
  let a := gTarget c
  if k = 1 || k = 2 || k = 4 then
    s.addressBad (cTenant c) a (accLen c) || (k != 2 && isDepot a && s.inMirror (offsetOf a) (accLen c))
  else (k == 10 && s.farBad l c true) || (k == 11 && s.farBad l c false)

/-- The first row of Table 7.4 from 2 on that holds of a carriage that came in on port l. Of a mirror carriage row 6 is not asked (R302). -/
def State.acceptRow (s : State) (l : Nat) (c : Carriage) : Nat :=
  let k := cKind c
  if !kindOk k (cClass c) || reservedSet c then 2
  else if cDst c != s.self then 3
  else if cDgen c != s.rf .RTE_EP_LO_GEN s.self then 4
  else if !bitAt (s.rf .RTE_EP_LO_TENANT_MASK s.self) (cTenant c) || s.targetBad l c then 5
  else if k != 13 && s.genStale c then 6
  else 7

/-- A wake event returns the block from Doze to Run (R367). -/
def State.undoze (s : State) : State := if s.rf .PWR_STATE_CUR = 1 then s.setf .PWR_STATE_CUR 0 0 else s

/-- Far carriages (R170). -/
def farKind (c : Carriage) : Bool := cKind c == 10 || cKind c == 11

/-- Kinds whose credit returns by REIN (R184). -/
def creditKind (c : Carriage) : Bool :=
  cClass c == 1 && (cKind c == 0 || cKind c == 1 || cKind c == 2 || cKind c == 4) || cClass c == 2

/-- Row 5 of Table 7.4: a carriage for another tenant, or outside its addresses. A far one counts at its window too (R170). -/
def State.refuse (s : State) (l : Nat) (c : Carriage) : State :=
  let s1 := s.sat .RTE_DROPS_TENANT 0
  let s2 := if farKind c then s1.sat .GRM_FARWIN_REJECT l else s1
  if creditKind c || farKind c then s2.reinFor c true else s2

/-- The yards that an accepted carriage is for (R263): its team's, a response's own, its object's, its depot quarter's, else those of its tenant
(DEDUCED: log entry 147). -/
def State.yardsOf (s : State) (c : Carriage) : List Nat :=
  let k := cKind c
  if cTeam c < 64 then [s.rf .TT_TEAM_YARD (cTeam c)]
  else if k = 3 || k = 5 then [cYard c]
  else if k = 6 then nat4.filter fun y => s.rf .SYN_RANGE_BASE y ≤ gTarget c % 2 ^ 14 && gTarget c % 2 ^ 14 < s.rf .SYN_RANGE_LIMIT y
  else if (k = 1 || k = 2 || k = 4) && isDepot (gTarget c) then nat4.filter fun y => y == offsetOf (gTarget c) / s.quarter
  else nat4.filter fun y => s.yardTenant y == cTenant c

/-- Note for the deadlock detector that a carriage was accepted. -/
def State.touchFor (s : State) (c : Carriage) : State := (s.yardsOf c).foldl (fun (s : State) y => s.touch y) s

/-- Take a carriage at its destination: the outcome of Table 7.4. An accepted one waits to be applied; its window generation is recorded. -/
def State.receiveAt (s : State) (c : Carriage) (port id : Nat) : State :=
  let s0 := if cDst c = s.self then s.undoze else s
  match s0.acceptRow port c with
  | 2 => s0.sat .RTE_DROPS_MALFORMED 0
  | 3 => s0.sat .RTE_DROPS_MISROUTE 0
  | 4 => (s0.sat .RTE_DROPS_STALE 0).sat .RTE_EP_HI_STALE (cSrc c)
  | 5 => s0.refuse port c
  | 6 => s0.sat .RTE_DROPS_STALE 0
  | _ =>
    let s1 := if windowChecked c then s0.setRxGen (cSrc c) (cTenant c) (cGen c) else s0
    let s2 : State := { s1 with net := { s1.net with accepted := s1.net.accepted ++ [{ port := port, id := id, c := c }] } }
    s2.touchFor c

/-- Round-robin key of an unscheduled carriage (R23): team slot, or 256 + tenant outside any team. -/
def rrKey (c : Carriage) : Nat := if cTeam c = 0xFF then 256 + cTenant c else cTeam c

/-- Unscheduled carriages that hold a buffer of port p, those whose verdict is due among them, and the 64 B units they take. -/
def State.held64 (s : State) (p : Nat) : Nat × Nat :=
  let mine := ((s.net.outq.filter fun o => o.port == p && o.cls < 2).map fun o => o.c) ++
    (s.net.arriving.filter fun a => a.l == p && cClass a.c != 0).map fun a => a.c
  (min 6 mine.length, mine.foldl (fun n c => n + (24 + c.payload.length + 63) / 64) 0)

/-- Keep the peak occupancy of port p (R203). -/
def State.peak (s : State) (p : Nat) : State :=
  let g := sget (fun _ => {}) s.net.cong p
  let h := s.held64 p
  { s with net := { s.net with cong := sset (fun _ => {}) s.net.cong p { g with bufs := max g.bufs h.1, bytes := max g.bytes h.2 } } }

/-- The port by which a carriage of this chip enters the router: collective data the array's, remote operations the hitch and depot port, management
and sync carriages port 8 (R203; DESIGN CHOICE for sync: log entry 31). -/
def ownPort (c : Carriage) : Nat := if cClass c = 3 || cClass c = 2 then 8 else if cKind c = 0 then 6 else 7

/-- Queue an unscheduled carriage for link l. -/
def State.enqueue (s : State) (l port : Nat) (adv : Bool) (c : Carriage) : State :=
  State.peak { s with net := { s.net with outq := s.net.outq ++ [{ l := l, cls := b2n (cDphase c), port := port, adv := adv, key := rrKey c, c := c }] } } port

/-- The phase change of a detour at its intermediate chip (R182). -/
def State.detoured (s : State) (c : Carriage) : Bool := s.routeTarget c == s.self && !cDphase c && s.on .RTE_EP_LO_DETOUR_EN (cDst c)

/-- Put an unscheduled carriage in the queue of the output `nextHop` gives; the intermediate chip of a detour starts phase 1 first. A multicast goes
the way its RDIR says on its axis, or nowhere (R181; DEDUCED: log entry 148). UNREACHABLE drops are counted with MISROUTE. A carriage for this chip's
own endpoint is handed to its own receive side, port 8. -/
def State.inject (s : State) (c0 : Carriage) (port0 inAxis0 : Nat) : State :=
  let port := if port0 < 6 then port0 else ownPort c0
  if cMaxis c0 != 0 then
    let l := linkOf (cMaxis c0 - 1) (cRdir c0)
    if s.deadFor l (cTenant c0) then s.sat .RTE_DROPS_MISROUTE 0 else s.enqueue l port (inAxis0 == axisOf l && port < 6) (setHop c0 0 0 (cDphase c0) false (cRdir c0))
  else
    let turn := s.detoured c0
    let c := if turn then setHop c0 0 0 true false false else c0
    let inAxis := if turn then 3 else inAxis0
    match s.nextHop (s.routeTarget c) (cTenant c) inAxis (cRev c) (cRdir c) with
    | .send l rev rdir => s.enqueue l port (inAxis == axisOf l && port < 6 && rev == cRev c) (setHop c 0 0 (cDphase c) rev rdir)
    | .arrive => { s with net := { s.net with nextId := s.net.nextId + 1 } }.receiveAt c 8 s.net.nextId
    | .unreachable => s.sat .RTE_DROPS_MISROUTE 0

/-- Record that a REIN will return the credit of a carriage of this window, sent for command (q, id); pair 0 for none. -/
def State.owe (s : State) (ep tenant team seq q id : Nat) : State :=
  match s.win? ep tenant team with
  | some w => s.setWin { w with owed := w.owed ++ [(seq, q, id)] }
  | none => s

/-- The carriage of this sequence number is accounted for. -/
def State.unowe (s : State) (ep tenant team seq : Nat) : State :=
  match s.win? ep tenant team with
  | some w => s.setWin { w with owed := w.owed.filter fun x => x.1 != seq }
  | none => s

/-- Traffic of queue pair q, sent or received, for its quarantine (R202); pair 0 has none. -/
def State.queueTraffic (s : State) (q : Nat) : State := if q = 0 then s else s.setQp q { s.qp q with lastTraffic := s.now }

/-- The window that a credited carriage of this chip belongs to. -/
def State.winOf (s : State) (c : Carriage) : Option Win :=
  if !creditKind c || cSrc c != s.self then none else s.win? (cDst c) (cTenant c) (if cClass c = 1 && cKind c = 0 then cTeam c else 64)

/-- Traffic of the window and of the queue pair of a carriage of this chip that is sent (R184, R202). -/
def State.winTraffic (s : State) (c : Carriage) : State :=
  match s.winOf c with
  | none => s
  | some w =>
    let s1 := s.setWin { w with last := s.now }
    match w.owed.find? fun x => x.1 == cSeq c with
    | some x => s1.queueTraffic x.2.1
    | none => s1

/-- Fields of a REIN unit (Table 8.3; no yard generation among them: DEDUCED, log entry 145). -/
def reinFields (r : Rein) : Nat :=
  fieldsOf [(0, r.dst), (2, r.src), (4, r.tenant + 4 * b2n r.blocked), (5, r.gen), (6, r.credits)]

/-- The credit of a carriage of this chip that will not be sent returns to its window. -/
def State.uncredit (s : State) (o : OutCar) : State :=
  match s.winOf o.c with
    | some w => s.setWin { w with credits := min 64 (w.credits + 1), owed := w.owed.filter fun x => x.1 != cSeq o.c }
    | none => s

/-- Postilions stalled on a credit go on (R246). -/
def State.freeReinStalls (s : State) : State :=
  { s with posts := s.posts.map fun (p, x) => (p, if x.wait == .reinStall then { x with wait := .run } else x) }

/-! ## Carriages that take a rein credit -/

/-- Send a carriage of a window, or let it wait for a credit. -/
def State.sendCredited (s : State) (w : Waiting) : State :=
  match s.takeCredit w.ep w.tenant w.team with
  | some (s1, win) =>
    let c := mkCarriage {
      cls := w.cls, kind := w.kind, dst := w.ep, src := s.self, tenant := w.tenant, yard := w.yard,
      ygen := s.rf .YRD_STATE_GEN w.yard, team := w.idTeam, gen := if w.idTeam = 0xFF then win.gen else w.idGen, seq := win.seq,
      dgen := s.rf .RTE_EP_LO_GEN w.ep, flags := w.flags, maxis := w.maxis } w.payload
    (s1.owe w.ep w.tenant w.team win.seq 0 0).inject (setHop c 0 0 false false w.minus) 8 3
  | none => { s with net := { s.net with waiting := s.net.waiting ++ [w] } }

/-- Try again the carriages that wait for credits, in order. -/
def State.pumpWaiting (s : State) : State :=
  s.net.waiting.foldl (fun s w => s.sendCredited w) { s with net := { s.net with waiting := [] } }

/-- Remove the queued carriages that the test names: a cancel before their grant (R198). Their credits free the postilions and carriages that wait for
one. -/
def State.cancelOut (s : State) (p : OutCar → Bool) : State :=
  let gone := s.net.outq.filter p
  let s1 := gone.foldl (fun (s : State) o => s.uncredit o) { s with net := { s.net with outq := s.net.outq.filter fun o => !p o } }
  if gone.any fun o => creditKind o.c then s1.freeReinStalls.pumpWaiting else s1

end Sys2Proof.Machine
end

