-- ==== Sys2Proof/Machine/Faults.lean ====
section
/-! DEFINITION. The fault collector, team aborts, completions of commands, link exits and the safe state (12.1–12.4). -/

namespace Sys2Proof.Machine

/-! ## Completions -/

/-- Completion fields of a command that reports no collective data (R275). -/
def plainDone (q id op status result : Nat) : Done :=
  { q := q, id := id, op := op, status := status, pfirst := 0xFFFFFFFF, result := result }

/-- FLAGS of Table 10.4. -/
def doneFlags (f : Flags3) (flush : Nat) (amaxOk : Bool) : Nat :=
  b2n f.nonfinite + 2 * b2n f.poison + 4 * b2n (flush != 0) + 8 * b2n amaxOk

/-- Least element of a list, or d. -/
def leastOr (d : Nat) : List Nat → Nat
  | [] => d
  | x :: t => min x (leastOr d t)

/-- MODE bit AMAX of a work entry: bit 10 of MODE (Table 5.8). -/
def eAmax (e : Entry) : Bool := bitAt (ent e 6 2) 10

/-- Opcodes whose instances run the closing exchange (R111, R168). -/
def closes (op : Nat) : Bool := (0x20 ≤ op && op ≤ 0x27) || op == 0x30 || op == 0x32

/-- Completion of an instance's command with a status (R112, R133, R141, R111, R275). A member without the team-wide OR sets POISON; an instance without
a closing exchange reports its own flags, and OFFLOAD, FETCH and BARRIER report none. -/
def Inst.done (i : Inst) (q id status : Nat) (result : Nat := 0) : Done :=
  let own : Option (Nat × Nat) := some (i.team, i.n)
  let fl := match i.teamFlags with
    | some f => f
    | none => if closes i.op then { i.own with poison := true } else i.own
  let am := match i.teamAmax with
    | some a => (a, eAmax i.entry)
    | none => (0, false)
  if status = 6 || status = 8 || status = 0xB || status = 0xA || i.op = 0x28 || i.op = 0x48 || i.op = 0x49 then
    { plainDone q id i.op status result with inst := own }
  else { q := q, id := id, op := i.op, status := status, inst := own, flags := doneFlags fl i.flush am.2, sat := i.sat, flush := i.flush,
         amax := if am.2 then am.1 else 0, pchunks := i.withPoison.length, pfirst := leastOr 0xFFFFFFFF i.withPoison, result := result }

/-- Take command (q, id) from the outstanding lists and put its completion among those to be posted. -/
def State.finishWith (s : State) (d : Done) : State :=
  { s with qs := { s.qs with cmds := s.qs.cmds.filter (fun c => !(c.q == d.q && c.id == d.id)),
                             fetched := s.qs.fetched.filter (fun f => !(f.q == d.q && eId f.e == d.id)),
                             dones := s.qs.dones ++ [{ d with qgen := s.rf .DB_STATUS_QGEN d.q }] } }

/-- A write of instance (t, n) is not yet acknowledged (R29). -/
def State.unacked (s : State) (own : Option (Nat × Nat)) : Bool :=
  own.isSome && (s.hitch.reqs.any (fun r => r.wr && r.own == own) || s.hitch.waitq.any (fun r => r.wr && r.own == own)
    || s.hitch.dreqs.any fun r => r.wr && r.own == own)

/-- The outstanding command (q, id). -/
def State.cmd? (s : State) (q id : Nat) : Option Cmd := s.qs.cmds.find? fun c => c.q == q && c.id == id

/-- Complete command (q, id) with a status. -/
def State.finish (s : State) (q id op status : Nat) (result : Nat := 0) : State :=
  s.finishWith (plainDone q id op status result)

/-- Complete an outstanding command with a status. -/
def State.finishCmd (s : State) (c : Cmd) (status : Nat) (result : Nat := 0) : State :=
  s.finish c.q c.id (eOp c.e) status result

/-- Complete the command of an instance, if it has one. -/
def State.finishInst (s : State) (i : Inst) (status : Nat) (result : Nat := 0) : State :=
  match i.cmd with
  | some (q, id) => if (s.cmd? q id).isSome then s.finishWith (i.done q id status result) else s
  | none => s

/-! ## The collector -/

/-- Reaction of source b now (R315). -/
def State.reaction (s : State) (b : Nat) : Nat :=
  if b < 32 then bitsOf (s.rf .FLT_REACT0_REACT) (2 * b + 1) (2 * b)
  else bitsOf (s.rf .FLT_REACT1_REACT) (2 * (b - 32) + 1) (2 * (b - 32))

/-- Sources marked P in Table 12.1. -/
def privileged (b : Nat) : Bool := b < 8

/-- Where an event arises, for Table 12.5. -/
inductive Origin where
  | block
  | link (l : Nat)
  | yard (y : Nat)
  /-- A carriage lost on link l, of a team of yard y, or of none. -/
  | car (l : Nat) (y : Option Nat)
  deriving DecidableEq, Repr

/-- Sources a window of the domain masks (Table 12.5). -/
def masks (d : Domain) (o : Origin) (b : Nat) : Bool :=
  match d, o with
  | .link l, .link l' => l.val == l' && [12, 1, 17, 16].contains b
  | .yard y, .yard y' => y.val == y' && [32 + y.val, 29, 18, 27, 28].contains b
  | .link l, .car l' _ => l.val == l' && b == 16
  | .yard y, .car _ y' => some y.val == y' && b == 16
  | .block, _ => b != 8 && !(privileged b && b != 1)
  | _, _ => false

/-- The origin of carriage c's loss on link l. -/
def State.carOrigin (s : State) (l : Nat) (c : Carriage) : Origin :=
  .car l (if cTeam c < 64 && s.rf .TT_TEAM_STATE (cTeam c) != 0 then some (s.rf .TT_TEAM_YARD (cTeam c)) else none)

/-- A shadow window open now masks the event (R325). -/
def State.masked (s : State) (o : Origin) (b : Nat) : Bool := s.aon.windows.any fun w => s.now < w.until_ && masks w.dom o b

/-- The FLT vector of R316. -/
def State.fltVector (s : State) : State := if s.on .FLT_CTL_IRQ_EN then s.vector (s.rf .FLT_CTL_VECTOR) else s

/-- FLT_FIRST of a privileged event that set its bit (R317). -/
def State.first (s : State) (b : Nat) : State :=
  if !privileged b then s
  else if s.on .FLT_FIRST_VALID then s.setf .FLT_FIRST_OVF 0 1
  else s.setfs [(.FLT_FIRST_VALID, 0, 1), (.FLT_FIRST_SOURCE, 0, b), (.FLT_FIRST_MTC_MTC, 0, s.now)]

/-- Set bit b of FLT_STATUS with its log record, FLT_FIRST and vector, without the safe state (R314–R317). Reserved sources never set. -/
def State.latch (s : State) (b : Nat) (o : Origin := .block) (detail : Nat := 0) : State :=
  if b = 54 || b = 55 || 60 ≤ b then s
  else if s.masked o b then (s.log 2 b detail).sat .FLT_MASKED_COUNT 0
  else if bitAt (s.rf .FLT_STATUS_SOURCES) b then s
  else
    let s1 := (((s.setf .FLT_STATUS_SOURCES 0 (s.rf .FLT_STATUS_SOURCES + 2 ^ b)).log 1 b detail).first b).trace 3 b
    if s.reaction b = 0 then s1 else s1.fltVector

/-- Bit b is set and its reaction asks for the safe state, or b is source 0 (R315, R318). -/
def State.wantsSafe (s : State) (b : Nat) : Bool :=
  bitAt (s.rf .FLT_STATUS_SOURCES) b && (b == 0 || 2 ≤ s.reaction b)

/-! ## Team abort -/

/-- Clear the barrier end of team t after an abort (R256): node counts, held arrivals, ARRIVED. -/
def State.clearBar (s : State) (t : Nat) : State :=
  if !s.on .SYN_BAR_VALID t then s
  else
    let n := s.rf .SYN_BAR_OBJ t
    let v := s.rf .SYN_OBJ_VALUE n
    let nd : BarNode := { sense := !bitAt v 63 }
    (s.setBar t { n0 := nd, n1 := nd, n2 := nd }).setf .SYN_OBJ_VALUE n (v / 65536 * 65536)

/-- The epoch decision of an instance that ends without the downward pass (R335). -/
def State.epochUnknown (s : State) (i : Inst) : State :=
  if i.epoch && i.st == .running && i.decision = 0 && i.teamFlags.isNone then
    s.setfs [(.TT_EPOCH_INSTANCE, i.team, i.n), (.TT_EPOCH_DECISION, i.team, 3)]
  else s

/-- Nothing but an epoch decision or copy is left of the instance: a BARRIER whose slot has passed still waits for its release. -/
def Inst.over (i : Inst) : Bool := i.st == .ended && i.op != 0x28

/-- The records of team t in its yard's row become free (log entry 46). -/
def State.freeRecs (s : State) (t : Nat) : State :=
  let y := s.rf .TT_TEAM_YARD t
  (List.range 16).foldl (fun (s : State) c =>
    let x := s.post (16 * y + c)
    if x.recState t 0 = 0 && x.recState t 1 = 0 then s else s.setPost (16 * y + c) ((x.setRecState t 0 0).setRecState t 1 0)) s

/-- The groom unit does nothing more for an aborted team: its requests go, and a job that runs writes nothing more (R59; log entry 155). -/
def GroomSt.abort (g : GroomSt) (t : Nat) : GroomSt :=
  { g with
    queue := g.queue.filter fun r => r.team != t
    job := g.job.map fun j => if j.req.team = t then { j with dead := true, step := .ending } else j }

/-- Requests of a team that no port has issued yet are dropped: an abort cuts them off (R59). -/
def HitchSt.dropTeam (h : HitchSt) (t : Nat) : HitchSt :=
  { h with waitq := h.waitq.filter fun r => (r.own.map fun x => x.1) != some t }

/-- Abort team t on this chip (R59, R327, R80, R256): STATE 2, its segments ended, mailboxes and barrier emptied, its queued carriages
cancelled, its instances ended, its commands completed with `status` unless `none`. -/
def State.abortCore (s : State) (t : Nat) (status : Option Nat) : State :=
  let s1 := s.setf .TT_TEAM_STATE t 2
  let s2 := (((s1.endSegs t).emptyBoxes t).freeRecs t).clearBar t
  let s2' : State := { s2 with net := { s2.net with waiting := s2.net.waiting.filter fun w => w.idTeam != t } }
  let s3 := s2'.cancelOut fun o => cTeam o.c == t && cSrc o.c == s2'.self
  let mine := s3.insts.filter fun i => i.team == t && !i.over
  let s4 := mine.foldl (fun s i => s.epochUnknown i) s3
  let s5 : State := match status with
    | none => s4
    | some st =>
      let a := mine.foldl (fun (s : State) (i : Inst) => s.finishInst i st) s4
      let rest := a.qs.cmds.filter fun c => match c.phase with
        | .work u n => u == t && !(s3.insts.any fun i => i.team == t && i.n == n && i.over)
        | _ => false
      rest.foldl (fun (s : State) (c : Cmd) => s.finishCmd c st) a
  let s6 := s5.dropInsts fun i => i.team == t
  { s6 with
    arr := { s6.arr with cur := s6.arr.cur.map fun c => if c.op.team = t then { c with discard := true } else c }
    hitch := s6.hitch.dropTeam t
    groom := s6.groom.abort t
    insts := (updWhere (fun i => i.team == t && i.st == .running && i.epoch && i.decision = 0)
        (fun i => { i with st := .ended, decision := 3 }) s6.insts).filter fun i =>
          i.team != t || i.over }

/-- Some running EPOCH instance of team t has no decision. -/
def State.epochOpen (s : State) (t : Nat) : Bool :=
  s.insts.any fun i => i.team == t && i.st == .running && i.epoch && i.decision == 0 && i.teamFlags.isNone

/-! ## Leaving ACTIVE -/

/-- A source link of the time tree: live with a measured delay (R36, R37). -/
def State.timeLink (s : State) (l : Nat) : Bool := l < 6 && s.live l && s.on .SYN_LINK_DELAY_VALID l

/-- Choose the time source link again; a follower without one enters HOLDOVER_LINKS (R36, R40), with or without its reference (DEDUCED: log
entry 133). -/
def State.sourceUpdate (s : State) : State :=
  let src := if s.on .SYN_TIME_CTL_ROOT then 7
    else if s.timeLink (s.rf .SYN_TIME_CTL_PARENT) then s.rf .SYN_TIME_CTL_PARENT
    else if s.timeLink (s.rf .SYN_TIME_CTL_ALT_PARENT) then s.rf .SYN_TIME_CTL_ALT_PARENT else 7
  let s1 := if src = s.rf .SYN_TIME_STATE_SOURCE_LINK then s
    else { s.setf .SYN_TIME_STATE_SOURCE_LINK 0 src with time := { s.time with samples := [] } }
  if s.on .SYN_TIME_CTL_ROOT then s1.setf .AON_MTC_STATUS_HOLDOVER_LINKS 0 0
  else if src = 7 then s1.setf .AON_MTC_STATUS_HOLDOVER_LINKS 0 1 else s1

/-- The states in which a link's lanes carry a PRBS pattern (Table 8.6). -/
def prbsSt (st : Nat) : Bool := st == 8 || st == 11

/-- The pattern of the lanes in such a state: PRBS31, or the one of LNK_PRBS_CTL (R218). -/
def State.prbsPattern (s : State) (l st : Nat) : Nat := if st = 8 then 3 else s.rf .LNK_PRBS_CTL_PATTERN l

/-- A PRBS pattern begins on the lanes, or its checkers end: none is synchronised any more (log entry 152). -/
def State.prbsTurn (s : State) (l st : Nat) : State :=
  let s1 := if prbsSt (s.linkSt l) then
      ((List.range 64).foldl (fun (s : State) k => s.setf .LNK_LANE_PRBS_SYNC (64 * l + k) 0) s).setLink l { s.link l with prbs := [] }
    else s
  if prbsSt st && s.prbsPattern l st != 0 then
    s1.emit (.prbs l (s.prbsPattern l st) (if st = 8 then s.rf .LNK_RUNG_RUNG l else s.rf .LNK_PRBS_CTL_RUNG l))
  else s1

/-- Set a link's state, with its trace record (Table 14.5, type 12). -/
def State.setLinkSt (s : State) (l st : Nat) : State :=
  if s.linkSt l = st then s
  else
    let s1 := ((s.prbsTurn l st).trace 12 (l + 256 * s.linkSt l + 65536 * st)).setf .LNK_STATE_STATE l st
    s1.setLink l { s1.link l with t := s.now }

/-- The incoming link of the mirror region (R299). -/
def State.mirIn (s : State) : Nat := s.rf .GRM_MIR_CFG_LINK ^^^ 1

/-- Set WRITING copies to INVALID, latching MIRROR_FAIL (R307), without the reaction. -/
def State.mirInvalid0 (s : State) : State :=
  [0, 1].foldl (fun s c => if s.rf .GRM_MIR_COPY_STATE c = 1 then (s.setf .GRM_MIR_COPY_STATE c 3).latch 45 else s) s

/-- The running variant uses link l. -/
def State.variantLink (s : State) (l : Nat) : Bool :=
  !s.on .TT_STORE_NO_VARIANT && match s.tt.active with
    | some im => match im.variants[s.rf .TT_STORE_VAR_IDX]? with
      | some v => bitAt v.links l
      | none => false
    | none => false

/-- A link used by the running variant changed in mid-period (R70). -/
def State.midChange (s : State) (l : Nat) : State :=
  if s.variantLink l && 2 ≤ s.engSt && !s.tt.lostLinks.contains l then
    { s with tt := { s.tt with lostLinks := s.tt.lostLinks ++ [l] } } else s

/-- Lost bytes of the mirror carriages left in a retry buffer (R303, R308). -/
def State.loseMirror (s : State) (es : List RetryEnt) : State :=
  let m := es.filter fun e => 0 < e.mirror
  if m.isEmpty then s
  else { s.sat .GRM_MIR_OUTSTAT_LOST 0 m.length with
    groom := { s.groom with mirOpen := s.groom.mirOpen - m.length } }

/-- A mirror carriage of this chip that waits for its link. -/
def OutCar.mirrors (o : OutCar) : Bool := cKind o.c == 13 && !o.adv

/-- Mirror carriages not yet sent are lost (R308). -/
def State.loseUnsent (s : State) (os : List OutCar) : State :=
  if os.isEmpty then s
  else { s.sat .GRM_MIR_OUTSTAT_LOST 0 os.length with
    groom := { s.groom with mirSent := os.foldl (fun n o => n + gLen o.c) s.groom.mirSent } }

/-- The unscheduled carriages that wait for link l find another way, or none (R179). -/
def State.reroute (s : State) (l : Nat) : State :=
  let mine := s.net.outq.filter fun o => o.l == l && o.cls < 2
  let s1 : State := { s with net := { s.net with outq := s.net.outq.filter fun o => !(o.l == l && o.cls < 2) } }
  mine.foldl (fun (s : State) o => s.inject o.c o.port (if o.port < 6 then axisOf o.port else 3)) s1

/-- A carriage of a degraded OFFLOAD or FETCH to a neighbour is lost: its part is done, its command POISONED (R108, R170). -/
def State.loseMove (s : State) (c : Carriage) : State :=
  if (cKind c = 10 || cKind c = 11) && cSrc c = s.self then
    s.updInst (fun i => i.team == cTeam c && i.gen == cGen c && i.st == .running && i.degraded && (i.op == 0x48 || i.op == 0x49)) fun i =>
      { i with outDone := i.outDone + 1, bad := true }
  else s

/-- The carriages left in a retry buffer of link l are lost (R190, R229). -/
def State.loseRetry (s : State) (l : Nat) (es : List RetryEnt) : State :=
  es.foldl (fun (s : State) e => ((s.loseMove e.c).sat .RTE_RETRY_LOST l).latch 16 (s.carOrigin l e.c)) s

/-- The groups that a link may admit when it trains after REAIM: those it had in use or in training (R227). -/
def State.aimMask (s : State) (l : Nat) : Nat :=
  let st := s.linkSt l
  if st = 6 || st = 7 || st = 9 then s.rf .LNK_RUNG_GROUPS l
  else if 2 ≤ st && st ≤ 8 then (s.link l).keep else if st = 10 then (s.link l).aim else 15

/-- Link l leaves its state for `st`, without the reaction to the faults this sets. Leaving ACTIVE counts in RETRAINS. DARK, DISABLED and REAIM lose
the retry buffer (R229) and the incoming mirror copy (R307); a quick retrain keeps them. A step keeps the delay until the rung changes (R37). -/
def State.leave0 (s : State) (l st : Nat) : State :=
  let act := s.live l
  let s1 := if act then (s.sat .LNK_STATE_RETRAINS l).midChange l else s
  let s2 := (s1.setLinkSt l st).setLink l { (s1.setLinkSt l st).link l with aim := s.aimMask l }
  let s3 := if st = 7 then s2 else s2.setfs [(.SYN_LINK_DELAY_VALID, l, 0), (.SYN_LINK_OFFSET_VALID, l, 0)]
  let s4 := if st = 0 || st = 1 || st = 10 || st = 11 then
      let s5 := nat4.foldl (fun s t => (((s.loseMirror (s.sub l t).retry).loseRetry l (s.sub l t).retry).setSub l t
        { s.sub l t with retry := [], missing := [], late := [], repeats := [], dirty := false })) s3
      let s6 := { s5 with net := { s5.net with
        arriving := s5.net.arriving.filter (fun a => a.l != l)
        onward := s5.net.onward.filter (fun o => o.l != l)
        outq := s5.net.outq.filter (fun o => !(o.l == l && o.mirrors))
        heldAcks := s5.net.heldAcks.filter (fun h => h.1 != l)
        unitq := s5.net.unitq.filter (fun u => u.1 != l) } }
      let s7 := (s6.loseUnsent (s5.net.outq.filter fun o => o.l == l && o.mirrors)).setf .LNK_RUNG_GROUPS l 0
      if s7.on .GRM_MIR_CFG_IN_EN && s7.mirIn = l && st != 11 then s7.mirInvalid0 else s7
    else s3
  if act then (s4.reroute l).sourceUpdate else s4

/-! ## Engine stop -/

/-- Complete ABORTED every command bound to an instance that has not started (R57). -/
def State.abortBound (s : State) : State :=
  let w := s.qs.cmds.filter fun c => match c.phase with
    | .work t n => !(s.insts.any fun i => i.team == t && i.n == n && (i.st == .running || i.st == .ended))
    | _ => false
  let s1 := w.foldl (fun s c => s.finishCmd c 1) s
  s1.dropInsts fun _ => true

/-- Apply a step of the counter by m (1/65,536 ns): forward at once, backward by freezing (R41–R43). Instants it crosses are skipped. -/
def State.timeStep (s : State) (m : Int) : State :=
  let old := s.mtc
  let s0 := s.setMtc (s.mtc + m.toNat)
  let s1 : State := { s0 with time := { s0.time with freeze := s.time.freeze + (-m).toNat } }
  let s2 := (s1.sat .AON_TIME_STEPS_COUNT 0).log 4 0 0 [w64 (old / 65536), w64 ((old + m.toNat - (-m).toNat) / 65536)]
  { s2 with time := { s2.time with
      suppress := true, waitStep := none,
      lastTick := max s2.time.lastTick (if s1.now % s1.stageLen = 0 then s1.tickAt - s1.stageLen else s1.tickAt),
      lastSend := max s2.time.lastSend (if s1.now % 1000 = 0 then s1.now - 1000 else s1.now / 1000 * 1000) } }

/-- A correction has ended: the increment is 8.0 ns again, and ALIGNED and TRUSTED are set, TRUSTED only on the reference (R42). -/
def State.corrected (s : State) : State :=
  (({ s with time := { s.time with correcting := false } }).setfs [(.AON_MTC_STATUS_SLEWING, 0, 0), (.AON_MTC_STATUS_ALIGNED, 0, 1)]).flag
    .AON_MTC_STATUS_TRUSTED 0 (!s.on .AON_MTC_STATUS_HOLDOVER_REF)

/-- The correction by a step: a forward step ends it at once, a freeze when its time has passed. -/
def State.correctStep (s : State) (m : Int) : State :=
  let s1 := (s.timeStep m).setfs [(.AON_MTC_STATUS_STEP_PENDING, 0, 0), (.AON_MTC_STATUS_SLEWING, 0, 0)]
  let s2 : State := { s1 with time := { s1.time with slew := 0, correcting := true } }
  if 0 ≤ m then s2.corrected else s2

/-- A pending step happens as soon as the engine is STOPPED (R42). -/
def State.doWaitStep (s : State) : State :=
  match s.time.waitStep with
  | some m => if s.engSt = 0 then s.correctStep m else s
  | none => s

/-- The engine becomes STOPPED (R57, R42). Slots are counted from stage 0 of its next start. -/
def State.stopEngine (s : State) : State :=
  if s.engSt = 0 then s
  else
    let s1 := (s.setf .TT_STATUS_STATE 0 0).setf .TT_EVAL_CTL_EVAL_ACTIVE 0 0
    (({ s1 with
      eng := { s.eng with stopNow := false }
      teams := s.teams.map fun (x : Nat × TeamRec) => (x.1, { x.2 with slotPos := 0 }) }).abortBound).doWaitStep

/-! ## The safe state (R319, R320, Table 12.2) -/

/-- Teams that are defined or aborted. -/
def State.activeTeams (s : State) : List Nat :=
  (List.range 64).filter fun t => s.rf .TT_TEAM_STATE t == 1

/-- Turn off the lasers of the accessible groups of link l, or of every group. -/
def State.lasersOff (s : State) (l : Nat) (every : Bool) : State :=
  let acc := if every then 15 else s.rf .LNK_FIBRE_ACCESSIBLE l
  let m := (nat4.filter fun g => bitAt (s.rf .LNK_FIBRE_LASER_ON l) g && !bitAt acc g).foldl (fun a g => a + 2 ^ g) 0
  let s1 := s.setf .LNK_FIBRE_LASER_ON l m
  (s1.setLink l { s1.link l with groups := (s1.link l).groups.filter fun g => !bitAt acc g.1 }).emit (.lasers l m)

/-- Enter the safe state: resets of yards end (R321), engine STOPPED, whereupon a pending step of the counter happens (R42), teams aborted, HALTs, lanes idle, accessible lasers off; the commands outstanding are never completed. -/
def State.safeEnter (s : State) : State :=
  if s.safe then s
  else
    let ts := s.activeTeams
    let unk := ts.any s.epochOpen
    let s1 := { (s.setf .TT_STATUS_STATE 0 0).setf .TT_EVAL_CTL_EVAL_ACTIVE 0 0 with
      eng := { s.eng with stopNow := false }
      yards := s.yards.map fun (x : Nat × YardRec) => (x.1, x.2.stopped) }
    let s2 := ts.foldl (fun s t => s.abortCore t none) s1.doWaitStep
    let s3 := (s2.setf .FLT_CTL_SAFE 0 1).log 10 0 0
    let s4 := ts.foldl (fun s t => s.haltTeam t 4) s3
    let s5 := nat6.foldl (fun s l => s.haltLink l 4) s4
    let s6 := nat6.foldl (fun s l => ((if s.linkSt l = 0 then s else s.leave0 l 1).lasersOff l false)) s5
    if unk then s6.latch 50 else s6

/-- A fault event: latch it and take its reaction (R314–R319). The vector of the setting is the one the safe state sends (log entry 10). -/
def State.fault (s : State) (b : Nat) (o : Origin := .block) (detail : Nat := 0) : State :=
  let s1 := s.latch b o detail
  if s1.wantsSafe b && !bitAt (s.rf .FLT_STATUS_SOURCES) b then s1.safeEnter else s1

/-- The reaction to the bits that a change of s to t has set (R315, R319). -/
def State.react (s t : State) (bs : List Nat) : State :=
  if bs.any fun b => t.wantsSafe b && !bitAt (s.rf .FLT_STATUS_SOURCES) b then t.safeEnter else t

/-- Link l leaves its state for `st`. -/
def State.leave (s : State) (l st : Nat) : State := s.react (s.leave0 l st) [16, 45]

/-- Set WRITING copies to INVALID (R307). -/
def State.mirInvalid (s : State) : State := s.react s.mirInvalid0 [45]

/-- A write refused under R10 and its like: logged with the register offset, source CFG_IGNORED. -/
def State.cfgIgnored (s : State) (off : Nat) : State := (s.log 3 0 off).fault 51

/-! ## Retiring a team (R279) -/

/-- Opcodes whose commands belong to a team. -/
def teamOp (op : Nat) : Bool := (0x20 ≤ op && op ≤ 0x32) || op == 0x48 || op == 0x49 || op == 0x50

/-- Commands of team t other than the one of its running instance, started or only fetched, complete with a status. -/
def State.dropTeamCmds (s : State) (t status : Nat) : State :=
  let runs (c : Cmd) : Bool := s.insts.any fun i => i.team == t && i.cmd == some (c.q, c.id) && (i.st == .running || i.st == .ended)
  let cs := s.qs.cmds.filter fun c => match c.phase with
    | .work u _ => u == t && !runs c
    | _ => false
  let fs := s.qs.fetched.filter fun f => teamOp (eOp f.e) && ent f.e 4 1 == t
  let s1 := cs.foldl (fun (s : State) (c : Cmd) => s.finishCmd c status) s
  let s2 := fs.foldl (fun (s : State) (f : Fetched) => s.finish f.q (eId f.e) (eOp f.e) status) s1
  s2.dropInsts fun i => i.team == t

/-- The retirement takes effect: the commands of the team that were fetched while it waited complete ABORTED too (R279), STATE 3, the quarantine counts
from the last traffic (R113, R202), RETIRE_TEAM completes. -/
def State.retireNow (s0 : State) (t q id : Nat) : State :=
  let s := s0.dropTeamCmds t 1
  ((s.setf .TT_TEAM_STATE t 3).setTeam t { s.team t with quarEnd := max s.now (s.team t).lastTraffic + s.quarantine }).finish q id 0x06 0

/-- A waiting RETIRE_TEAM of team t goes on once no instance of t runs. -/
def State.retireCheck (s : State) (t : Nat) : State :=
  if (s.running t).isSome then s
  else match s.qs.cmds.find? fun c => c.phase == .retire t with
    | some c => s.retireNow t c.q c.id
    | none => s

/-- Abort team t as the member that latched the abort, or that learnt of it (R59, R327). -/
def State.abortTeam (s : State) (t status : Nat) : State :=
  if s.rf .TT_TEAM_STATE t != 1 then s
  else
    let unk := s.epochOpen t
    let s1 := (s.abortCore t (some status)).retireCheck t
    if unk then s1.fault 50 else s1

/-- Abort team t with a HALT of this chip (R59, R75). -/
def State.abortWithHalt (s : State) (t reason : Nat) : State :=
  if s.rf .TT_TEAM_STATE t != 1 then s else (s.haltTeam t reason).abortTeam t 1

/-- A postilion fault (R75): POSTILION_FAULT latched, TT_POST_FAULT written, the segment's team aborted. -/
def State.postFault (s : State) (p cause : Nat) : State :=
  let x := s.post p
  let s1 := (s.sat .TT_POST_FAULT_COUNT 0).setfs
    [(.TT_POST_FAULT_POSTILION, 0, p), (.TT_POST_FAULT_CAUSE, 0, cause), (.TT_POST_FAULT_PC, 0, x.pc)]
  let s2 := s1.fault 18 (.yard (rowOf p))
  match x.cur with
  | some g => s2.abortWithHalt g.team 2
  | none => s2

/-- Close the shadow windows that have ended. -/
def State.sweepWindows (s : State) : State :=
  { s with aon := { s.aon with windows := s.aon.windows.filter fun w => s.now < w.until_ } }

/-- Open a shadow window. -/
def State.shadow (s : State) (d : Domain) (len : Nat) : State :=
  { s with aon := { s.aon with windows := s.aon.windows ++ [{ dom := d, until_ := s.now + len }] } }

end Sys2Proof.Machine
end

