-- ==== Sys2Proof/Machine/SyncOps.lean ====
section
/-! DEFINITION. The sync pool: operations, waiters, misuse, barriers (09_synchronisation), and the team geometry that
barriers use (R85, R86, R98). -/

namespace Sys2Proof.Machine

/-! ## Team geometry -/

/-- Component a of a triple. -/
def axisVal (v : Nat × Nat × Nat) (a : Nat) : Nat := if a = 0 then v.1 else if a = 1 then v.2.1 else v.2.2

/-- Axes of team slot t, in the order X, Y, Z (R85). -/
def State.teamAxes (s : State) (t : Nat) : List Nat := [0, 1, 2].filter fun a => bitAt (s.rf .TT_TEAM_AXES t) a

/-- Rank of coordinate c on axis a of the team: (c − o) mod M (R85, R86). -/
def State.rankOf (s : State) (t a c : Nat) : Nat :=
  let m := s.extent a
  if m = 0 then 0 else (c + m - axisVal (s.team t).origin a % m) % m

/-- This chip's rank on axis a of the team. -/
def State.rank (s : State) (t a : Nat) : Nat := s.rankOf t a (s.here a)

/-- Lowest set bit of u, as a power of two; 0 for 0. -/
def lowBit : Nat → Nat → Nat
  | 0, _ => 0
  | k + 1, u => if u = 0 then 0 else if u % 2 = 1 then 1 else 2 * lowBit k (u / 2)

/-- Parent position of u ≠ 0 in a SPAN tree (R98). -/
def spanParent (u : Nat) : Nat := u - lowBit 7 u

/-- Child positions of u in a SPAN tree of n ranks, in ascending edge length (R98). -/
def spanChildren (n u : Nat) : List Nat :=
  ([1, 2, 4, 8, 16, 32].filter fun d => (u = 0 || d < lowBit 7 u) && u + d < n).map (u + ·)

/-- Endpoints with a VALID entry. -/
def State.validEps (s : State) : List Nat :=
  (s.regs.filter fun x => x.1 % 512 == Fld.ctorIdx .RTE_EP_LO_VALID).map (·.1 / 512)

/-- The endpoint at coordinates (x, y, z) of the table. -/
def State.epAt (s : State) (x y z : Nat) : Option Nat :=
  s.validEps.find? fun e => s.coord e 0 == x && s.coord e 1 == y && s.coord e 2 == z

/-- The endpoint of the team member whose rank on axis a is r and whose other coordinates are this chip's. -/
def State.peerEp (s : State) (t a r : Nat) : Option Nat :=
  let c := (axisVal (s.team t).origin a + r) % max 1 (s.extent a)
  s.epAt (if a = 0 then c else s.here 0) (if a = 1 then c else s.here 1) (if a = 2 then c else s.here 2)

/-! ## Waiters (R245, R248, R251) -/

/-- A wait on an object of this kind with this operand is released by value v. -/
def released (kind v operand : Nat) (eq : Bool) : Bool :=
  if kind = 1 then
    if eq then bitAt v 63 == bitAt operand 0
    else (v / 2 ^ 32 % 2 ^ 31 + 2 ^ 31 - operand % 2 ^ 31) % 2 ^ 31 < 2 ^ 30
  else if eq then v == operand % 2 ^ 63 else operand % 2 ^ 63 ≤ v

/-- Release every waiter on object n that its value satisfies. A released WAITS completes: its pc advances. A released coachman is interrupted. -/
def State.wake (s : State) (n : Nat) : State :=
  let v := s.rf .SYN_OBJ_VALUE n
  let k := s.rf .SYN_FLAG_KIND n
  let posts := s.posts.map fun (p, x) =>
    match x.wait with
    | .sync o op eq => (p, if o == n && released k v op eq then { x with wait := .run, pc := (x.pc + 1) % 4096 } else x)
    | _ => (p, x)
  let hit (c : CoachWait) : Bool := c.obj == n && released k v c.operand c.eq
  let gone := s.sync.coach.filter hit
  let s1 := { s with posts := posts, sync := { s.sync with coach := s.sync.coach.filter fun c => !hit c } }
  gone.foldl (fun s c => s.emit (.coachIrq c.y)) s1

/-- Give object n a value, check its waiters, and trace the operation (order number of Table 9.2). -/
def State.setObj (s : State) (n v op : Nat) : State :=
  ((s.setf .SYN_OBJ_VALUE n v).wake n).trace 5 (n + 65536 * op + 2 ^ 32 * (v % 2 ^ 32))

/-! ## Misuse (R261) -/

/-- Count and record a misuse of causes 1–6. -/
def State.misuse (s : State) (cause obj ep : Nat) : State :=
  let f : Fld := match cause with
    | 1 => .SYN_MISUSE0_XTENANT
    | 2 => .SYN_MISUSE0_UNALLOC
    | 3 => .SYN_MISUSE0_KIND
    | 4 => .SYN_MISUSE0_OVF
    | 5 => .SYN_MISUSE1_BAR_SENSE
    | _ => .SYN_MISUSE1_BAR_ORPHAN
  let s1 := (s.sat f 0).setfs
    [(.SYN_MISUSE_LAST_SRC_EP, 0, ep), (.SYN_MISUSE_LAST_OBJ, 0, obj), (.SYN_MISUSE_LAST_CAUSE, 0, cause)]
  (s1.log 7 cause obj [w64 ep]).fault 30

/-- The yard whose range holds object n (R241). -/
def State.objYard (s : State) (n : Nat) : Option Nat :=
  nat4.find? fun y => s.rf .SYN_RANGE_BASE y ≤ n && n < s.rf .SYN_RANGE_LIMIT y

def State.allocated (s : State) (n : Nat) : Bool := s.on .SYN_FLAG_ALLOC n && (s.objYard n).isSome

/-- A signal of a yard's groom start object: the groom unit copies the request of Table 6.1 from column 14's data RAM (R145). -/
def State.groomSignal (s : State) (n : Nat) : State :=
  match nat4.find? fun y => s.on .GRM_START_VALID y && s.rf .GRM_START_START_OBJ y == n && s.objYard n == some y with
  | none => s
  | some y =>
    let x := s.post (16 * y + 14)
    let at_ (o k : Nat) : Nat := leNat (x.rdRam (16320 + o) k)
    { s with groom := { s.groom with queue := s.groom.queue ++
      [{ y := y, team := at_ 0 1, rec_ := at_ 1 1, kind := at_ 2 1, stageOff := at_ 8 8, resultOff := at_ 16 8, mirrorOff := at_ 24 8 }] } }

/-- Add to a counter or pair object, saturating at 2^63 − 1 (R245). -/
def State.objAdd (s : State) (n k : Nat) : State :=
  let v := s.rf .SYN_OBJ_VALUE n + k
  (if v < 2 ^ 63 then s.setObj n v 1
  else ((s.setObj n (2 ^ 63 - 1) 1).setf .SYN_FLAG_OVF n 1).misuse 4 n s.self).groomSignal n

/-! ## Barriers (9.3) -/

/-- Node of axis a of a barrier end. -/
def BarSt.node (b : BarSt) (a : Nat) : BarNode := if a = 0 then b.n0 else if a = 1 then b.n1 else b.n2
def BarSt.setNode (b : BarSt) (a : Nat) (n : BarNode) : BarSt :=
  if a = 0 then { b with n0 := n } else if a = 1 then { b with n1 := n } else { b with n2 := n }

/-- Send a barrier carriage of team t to rank r on axis a (R253). -/
def State.sendBar (s : State) (t a r phase : Nat) (sense absent : Bool) : State :=
  match s.peerEp t a r with
  | none => s
  | some ep =>
    let y := s.rf .TT_TEAM_YARD t
    let e := s.rf .SYN_OBJ_VALUE (s.rf .SYN_BAR_OBJ t) / 2 ^ 32 % 2 ^ 31
    s.sendCredited {
      ep := ep, tenant := s.yardTenant y, team := 64, cls := 2, kind := 7, yard := y, idTeam := t,
      idGen := s.rf .TT_TEAM_GEN t,
      payload := leBytes 1 phase ++ leBytes 1 a ++ leBytes 1 (b2n sense + 2 * b2n absent) ++ leBytes 1 0 ++ leBytes 4 e
        ++ List.replicate 56 0 }

/-- Complete the BARRIER commands of team t that wait for the release (R254). -/
def State.barDone (s : State) (t : Nat) (absent : Bool) : State :=
  let mine (i : Inst) : Bool := i.team == t && i.op == 0x28 && (i.st == .running || i.st == .ended) && i.arrived
  let w := s.insts.filter mine
  let s1 := w.foldl (fun (s : State) (i : Inst) => s.finishInst i (if absent then 2 else 0)) s
  { s1 with insts := s1.insts.filter fun i => !mine i }

/-- The levels from axis lv back to X among the team's axes. -/
def releaseLevels (axes : List Nat) (lv : Nat) : List Nat := (axes.filter (· ≤ lv)).reverse

/-- Apply a release to the member's object and forward it (R252 on_release). -/
def State.onRelease (s : State) (t lv : Nat) (sense absent : Bool) : State :=
  let n := s.rf .SYN_BAR_OBJ t
  let v := s.rf .SYN_OBJ_VALUE n
  let v' := b2n sense * 2 ^ 63 + (v / 2 ^ 32 % 2 ^ 31 + 1) % 2 ^ 31 * 2 ^ 32 + v % 2 ^ 32
  let s1 := (s.flag .SYN_FLAG_ABSENT n absent).setObj n v' 0
  let s2 := s1.setBar t { s1.bar t with out := false }
  let kids (a : Nat) : List (Nat × Nat) := (spanChildren (axisVal (s.team t).ext a) (s.rank t a)).map (a, ·)
  let all := ((releaseLevels (s.teamAxes t) lv).map kids).flatten
  (all.foldl (fun s ar => s.sendBar t ar.1 ar.2 1 sense absent) s2).barDone t absent

/-- An arrival at the node of the first of these axes (R252 on_arrive). -/
def State.onArrive (s : State) (t : Nat) : List Nat → Bool → Bool → State
  | [], _, _ => s
  | a :: rest, sense, absent =>
    let nd := (s.bar t).node a
    if nd.sense != sense then s.misuse 5 (s.rf .SYN_BAR_OBJ t) s.self
    else
      let u := s.rank t a
      let cnt := nd.count + 1
      let ab := nd.absent || absent
      if cnt < 1 + (spanChildren (axisVal (s.team t).ext a) u).length then
        s.setBar t ((s.bar t).setNode a { nd with count := cnt, absent := ab })
      else
        let s1 := s.setBar t ((s.bar t).setNode a { count := 0, absent := false, sense := !sense })
        if u = 0 then
          match rest with
          | [] => s1.onRelease t a sense ab
          | r => s1.onArrive t r sense ab
        else s1.sendBar t a (spanParent u) 0 sense ab

/-- The member's tree arrival, or its being held until the previous one is released (R250). -/
def State.treeArrive (s : State) (t : Nat) (absent : Bool) : State :=
  let b := s.bar t
  if b.out then s.setBar t { b with held := b.held ++ [absent] }
  else
    let sense := !bitAt (s.rf .SYN_OBJ_VALUE (s.rf .SYN_BAR_OBJ t)) 63
    (s.setBar t { b with out := true }).onArrive t (s.teamAxes t) sense absent

/-- After a release, make the oldest held tree arrival (R250). -/
def State.heldArrive (s : State) (t : Nat) : State :=
  match (s.bar t).held with
  | ab :: rest => if (s.bar t).out then s else (s.setBar t { s.bar t with held := rest }).treeArrive t ab
  | [] => s

/-- One local arrival at barrier object n (R250). The tree arrival is ABSENT where one of its local arrivals was (R254). -/
def State.localArrive (s : State) (n : Nat) (absent : Bool) : State :=
  let t := s.rf .SYN_FLAG_TEAM n
  let v := s.rf .SYN_OBJ_VALUE n
  let a := v % 65536 + 1
  let ab := absent || (s.bar t).absent
  if a < s.rf .SYN_FLAG_PARAM n then (s.setBar t { s.bar t with absent := ab }).setObj n (v / 65536 * 65536 + a) 1
  else (((s.setBar t { s.bar t with absent := false }).setObj n (v / 65536 * 65536) 1).treeArrive t ab).heldArrive t

/-- An add by a local agent: a local arrival on a barrier object, else an add (R245, R250). -/
def State.localAdd (s : State) (n k : Nat) : State :=
  if s.rf .SYN_FLAG_KIND n = 1 then s.localArrive n false else s.objAdd n k

end Sys2Proof.Machine
end

