-- ==== Sys2Proof/Machine/PostControl.lean ====
section
/-! DEFINITION. Postilion control, loads, stores and STG, END, and undefined opcodes (Table 3.5, R58, R72, R75, R83). -/

namespace Sys2Proof.Machine

/-! ## Jumps -/

/-- Jump to an instruction index of the loaded image, else a postilion fault with cause 4 (R75). -/
def State.jumpTo (s : State) (p : PostId) (x : Post) (t : Int) : State :=
  if 0 ≤ t && t < x.iramLen then s.setPost p { x with pc := t.toNat } else s.postFault p 4

/-- Jump by the offset when the condition holds, else go on. -/
def State.branch (s : State) (p : PostId) (x : Post) (c : Bool) (imm : BitVec 14) : State :=
  if c then s.jumpTo p x ((x.pc : Int) + imm.toInt) else s.setPost p x.next

/-- BEQ. -/
def execBeq (p : PostId) (a b : GReg) (imm : BitVec 14) (s : State) : Out :=
  event s fun s => s.postRun p (.beq p a b imm) fun s x => s.branch p x (x.reg a == x.reg b) imm
/-- BNE. -/
def execBne (p : PostId) (a b : GReg) (imm : BitVec 14) (s : State) : Out :=
  event s fun s => s.postRun p (.bne p a b imm) fun s x => s.branch p x (x.reg a != x.reg b) imm
/-- BLT, signed. -/
def execBlt (p : PostId) (a b : GReg) (imm : BitVec 14) (s : State) : Out :=
  event s fun s => s.postRun p (.blt p a b imm) fun s x => s.branch p x ((x.reg a).slt (x.reg b)) imm
/-- JMP. -/
def execJmp (p : PostId) (imm : BitVec 22) (s : State) : Out :=
  event s fun s => s.postRun p (.jmp p imm) fun s x => s.jumpTo p x imm.toInt

/-! ## END (R72, R83) -/

/-- The program that the running variant gives postilion p. -/
def State.prog (s : State) (p : Nat) : Option Prog :=
  if s.on .TT_STORE_NO_VARIANT then none
  else match s.tt.active with
    | some im => match im.variants[s.rf .TT_STORE_VAR_IDX]? with
      | some v => v.progs[p]?
      | none => none
    | none => none

/-- The segments of postilion p at stage k. -/
def State.segsAt (s : State) (p k : Nat) : List SegEnt :=
  match s.prog p with
  | some pr => pr.segs.filter fun g => g.stage == k
  | none => []

/-- Postilion p has a further segment of team t in the stages up to `last`. -/
def State.moreSegs (s : State) (p t last : Nat) : Bool :=
  (s.post p).rest.any (fun g => g.team == t) || match s.prog p with
    | some pr => pr.segs.any fun g => g.team == t && s.rf .TT_STATUS_STAGE_IDX < g.stage && g.stage ≤ last
    | none => false

/-- The segment finishes: the last one of its instance on this postilion sets STATE 3 in its copy of the record; the next one starts. -/
def State.endSeg (s : State) (p : Nat) : State :=
  let x := s.post p
  match x.cur with
  | none => s
  | some g =>
    let last := match s.running g.team with
      | some i => i.last
      | none => s.rf .TT_STATUS_STAGE_IDX
    let done := x.recState g.team x.inst == 2 && x.recInst g.team x.inst == x.inst && !s.moreSegs p g.team last
    let x1 := if done then x.setRecState g.team x.inst 3 else x
    (s.setPost p { x1 with wait := .run }).nextSeg p

/-- END: the segment finishes once every tag is complete. -/
def execEndSeg (p : PostId) (s : State) : Out :=
  event s fun s => s.postRun p (.endSeg p) fun s x =>
    if x.tags.isEmpty then s.endSeg p else s.setPost p { x with wait := .ending }

/-- A tag's operation completes: the tag is free, and waits on it go on (R77). -/
def State.tagDone (s : State) (p tag serial : Nat) : State :=
  let x := s.post p
  if x.tags.any fun t => t.tag == tag && t.serial == serial then
    let ts := x.tags.filter fun t => !(t.tag == tag && t.serial == serial)
    let y := { x with tags := ts }
    match x.wait with
    | .tags m => s.setPost p (if ts.any (fun t => bitAt m t.tag) then y else { y with wait := .run }.next)
    | .tagStall => s.setPost p { y with wait := .run }
    | .ending => if ts.isEmpty then (s.setPost p y).endSeg p else s.setPost p y
    | _ => s.setPost p y
  else s

/-! ## Data RAM and STG -/

/-- A data-RAM address that an access of 8 B may take: aligned and within 0–16,383 (R75, R76). -/
def ramOk (a : Word) (n : Nat) : Bool := a.toNat % 8 == 0 && a.toNat + n ≤ 16384

/-- LD. An address out of range is a postilion fault with cause 3. Where the data RAM cannot correct the word it reads, POST_RAM_UE is latched and the
postilion faults (R314, Table 12.1), with the cause of the data RAM (DEDUCED: log entry 150). -/
def execLd (p : PostId) (d a : GReg) (imm : BitVec 14) (s : State) (ue : Bool := false) : Out :=
  event s fun s => s.postRun p (.ld p d a imm) fun s x =>
    let ad := x.reg a + imm14 imm
    if !ramOk ad 8 then s.postFault p 3
    else if ue then (s.fault 20 (.yard (rowOf p))).postFault p 3
    else s.setPost p ((x.setReg d (w64 (leNat (x.rdRam ad.toNat 8)))).next)

/-- ST. -/
def execSt (p : PostId) (a b : GReg) (imm : BitVec 14) (s : State) : Out :=
  event s fun s => s.postRun p (.st p a b imm) fun s x =>
    let ad := x.reg a + imm14 imm
    if ramOk ad 8 then s.setPost p ((x.wrRam ad.toNat (leBytes 8 (x.reg b).toNat)).next) else s.postFault p 3

/-- STG: stage index, instance number, machine ns since the tick. For another immediate the manual states no value: a free one (log entry 5). -/
def execStg (p : PostId) (d : GReg) (imm : BitVec 14) (s : State) : Out :=
  event s fun s => s.postRun p (.stg p d imm) fun s x =>
    match imm.toNat with
    | 0 => s.setPost p (x.setReg d (w64 (s.rf .TT_STATUS_STAGE_IDX))).next
    | 1 => s.setPost p (x.setReg d (w64 x.inst)).next
    | 2 => s.setPost p (x.setReg d (w64 (s.now - s.tickAt))).next
    | _ => { s.setPost p (x.setReg d (Config.freeWord s.fresh 0)).next with fresh := s.fresh + 1 }

/-- An undefined opcode is a postilion fault with cause 1 (R75). -/
def execUndefinedOpcode (p : PostId) (op : BitVec 6) (s : State) : Out :=
  event s fun s => s.postRun p (.undefinedOpcode p op) fun s _ => s.postFault p 1

end Sys2Proof.Machine
end

