-- ==== Sys2Proof/Machine/QueueOps.lean ====
section
/-! DEFINITION. Starting a fetched command: where opcodes are accepted, the checks common to all, fragment tables, and
INVALID completions (10.2–10.4). -/

namespace Sys2Proof.Machine

/-! ## INVALID reasons (Table 10.6) -/

def rOpcode : Nat := 1
def rQueue : Nat := 2
def rField : Nat := 3
def rBounds : Nat := 4
def rTeam : Nat := 5
def rFragment : Nat := 6
def rState : Nat := 7
def rQuarantine : Nat := 8
def rDuplicate : Nat := 9
def rTimetable : Nat := 10
def rDescriptor : Nat := 11
def rSignature : Nat := 12

/-- The first of the checks that fails: (it fails, reason, detail) in order. -/
def firstBad : List (Bool × Nat × Nat) → Option (Nat × Nat)
  | [] => none
  | (bad, r, d) :: t => if bad then some (r, d) else firstBad t

/-- RESULT of an INVALID completion (Table 10.5). -/
def invResult (r d : Nat) : Nat := r + 256 * d

/-- Complete INVALID. -/
def State.invalid (s : State) (q : Nat) (e : Entry) (r d : Nat) : State := s.finish q (eId e) (eOp e) 6 (invResult r d)

/-- Opcodes on which EPOCH and FRAG are allowed (Table 10.2, R274). -/
def epochOps (op : Nat) : Bool := (0x20 ≤ op && op ≤ 0x27) || op == 0x30
def fragOps (op : Nat) : Bool := (0x20 ≤ op && op ≤ 0x27) || [0x40, 0x41, 0x48, 0x49, 0x50].contains op

/-- Defined opcodes (Tables 10.7 to 10.11). -/
def definedOp (op : Nat) : Bool :=
  (1 ≤ op && op ≤ 0x11) || (0x20 ≤ op && op ≤ 0x28) || [0x30, 0x31, 0x32, 0x40, 0x41, 0x42, 0x43, 0x48, 0x49, 0x50, 0x51].contains op

/-- The flags are allowed on the opcode (R273). -/
def flagsOk (e : Entry) : Bool :=
  eFlags e / 4 == 0 && (!eEpoch e || epochOps (eOp e)) && (!eFrag e || fragOps (eOp e))

/-- Byte k of the entry is named by one of the (offset, size) fields. -/
def covered (fs : List (Nat × Nat)) (k : Nat) : Bool := fs.any fun f => f.1 ≤ k && k < f.1 + f.2

/-- The first reserved byte that is not zero (R273). -/
def firstReserved (e : Entry) (fs : List (Nat × Nat)) : Option Nat :=
  ((List.range 60).map (· + 4)).find? fun k => !covered fs k && ent e k 1 != 0

/-- Checks of flags and reserved bytes. -/
def formBad (e : Entry) (fs : List (Nat × Nat)) : Option (Nat × Nat) :=
  if !flagsOk e then some (rField, 1)
  else match firstReserved e fs with
    | some k => some (rField, k)
    | none => none

/-! ## Starting -/

/-- The yard that owns pair q. -/
def State.qYard (s : State) (q : Nat) : Nat := s.rf .DB_STATUS_YARD q

/-- The yard whose coachman serves pair 0: the lowest not in reset (R17), which is one whose YRD_STATE is not RESETTING: a replaying yard's coachman
runs (DEDUCED: log entry 143); in Stable only coachman 0 is there (R371). -/
def State.adminYard (s : State) : Option Nat :=
  if s.stable then (if s.rf .YRD_STATE_STATE 0 == 1 then none else some 0) else nat4.find? fun y => s.rf .YRD_STATE_STATE y != 1

/-- The coachman that serves pair q is at work (R17): its yard is not in reset and it is not held (R381). -/
def State.coachOk (s : State) (q : Nat) : Bool :=
  let ok (y : Nat) : Bool := s.rf .YRD_STATE_STATE y != 1 && !bitAt (s.rf .DBG_HOLD_COACHMAN) y
  if q = 0 then s.adminYard.any ok else ok (s.qYard q) && s.rf .YRD_STATE_STATE (s.qYard q) != 3

/-- The entry is the first fetched entry of pair q that has not started, and may start now. -/
def State.start? (s : State) (q op : Nat) (e : Entry) : Option Fetched :=
  match s.qs.fetched.find? fun f => f.q == q with
  | some f => if f.e == e && eOp e == op && s.coachOk q && !s.safe then some f else none
  | none => none

/-- Commands completed normally while out of service or in Stable (R288). -/
def oosAllowed (op : Nat) (e : Entry) : Bool :=
  [0x03, 0x04, 0x0D, 0x0F].contains op || (op == 0x0B && ent e 5 1 == 1)

/-- Hitch port, and depot channel, of yard y for an address: its four take turns by 4 KiB (DESIGN CHOICE: log entry 14). -/
def portFor (y a : Nat) : Nat := 4 * y + a / 4096 % 4

/-- The host address of the table that the coachman reads for entry e: its descriptors, or its fragments. -/
def tableOf (e : Entry) : Option Nat :=
  if eOp e = 0x30 || eOp e = 0x31 || eOp e = 0x32 then some (ent e 56 8) else if eFrag e then some (ent e 56 8) else none

/-- Start command e of opcode op on pair q: OUT_OF_SERVICE under R288, QUEUE under R271, the form checks, POISONED
where a read of its table returns an error (R346), then its own meaning f. -/
def State.startCmd (s : State) (q op : Nat) (e : Entry) (fs : List (Nat × Nat)) (onPair : Bool)
    (f : State → Fetched → State) : State :=
  match s.start? q op e with
  | none => s
  | some ft =>
    if (s.oos || s.stable) && !oosAllowed op e then s.finish q (eId e) op 0xA
    else match formBad e fs with
      | some (r, d) => s.invalid q e r d
      | none =>
        if !onPair then s.invalid q e rQueue 0
        else match tableOf e with
          | some a => if ft.bad then (s.sat .HCH_ERR_RD_ERR (portFor (s.qYard q) a)).finish q (eId e) op 4 else f s ft
          | none => f s ft

/-- A started command becomes outstanding with a phase. -/
def State.adopt (s : State) (ft : Fetched) (ph : Phase) : State :=
  { s with qs := { s.qs with
      fetched := s.qs.fetched.filter (fun x => !(x.q == ft.q && eId x.e == eId ft.e)),
      cmds := s.qs.cmds ++ [{ q := ft.q, id := eId ft.e, e := ft.e, t0 := ft.t0, phase := ph }] } }

/-- An admin command of pair 0 whose checks are `bad` and whose effect is `eff`, completed at once with `result` of the new state. -/
def State.adminCmd (s : State) (q op : Nat) (e : Entry) (fs : List (Nat × Nat)) (bad : State → List (Bool × Nat × Nat))
    (eff : State → Fetched → State) : State :=
  s.startCmd q op e fs (q == 0) fun s ft =>
    match firstBad (bad s) with
    | some (r, d) => s.invalid q e r d
    | none => eff s ft

/-- Queue pairs of the configuration, sync objects, endpoints, team slots (R2). -/
def State.nq (s : State) : Nat := s.fuses.conf.queues
def State.nsync (s : State) : Nat := s.fuses.conf.syncObjs
def State.nep (s : State) : Nat := s.fuses.conf.endpoints
def State.nteam (s : State) : Nat := s.fuses.conf.teams

/-! ## Fragment tables (R274) -/

/-- The fragments of a table: (address, length) in table order, k entries from host address a. -/
def State.frags (s : State) (a : Nat) : Nat → List (Nat × Nat)
  | 0 => []
  | k + 1 => (rdLe s.host a 8, rdLe s.host (a + 8) 4) :: s.frags (a + 16) k

/-- The first fragment that breaks Table 10.3. -/
def State.badFrag (s : State) (a n : Nat) : Option Nat :=
  (List.range n).find? fun k =>
    let b := a + 16 * k
    let ad := rdLe s.host b 8
    let ln := rdLe s.host (b + 8) 4
    ad % 64 != 0 || 2 ^ 47 ≤ ad || ln % 64 != 0 || ln == 0 || rdLe s.host (b + 12) 4 != 0

/-- FRAG_COUNT + 1 of an entry whose count stands at offset o. -/
def fragN (e : Entry) (o : Nat) : Nat := ent e o 2 + 1

/-- FRAGMENT check of a command (R274). -/
def State.fragBad (s : State) (e : Entry) (o : Nat) : List (Bool × Nat × Nat) :=
  if !eFrag e then []
  else
    let a := ent e 56 8
    let n := fragN e o
    [(a % 64 != 0, rFragment, 0), ((s.badFrag a n).isSome, rFragment, (s.badFrag a n).getD 0)]

/-- Length of the logical buffer. -/
def fragLen (fs : List (Nat × Nat)) : Nat := fs.foldl (fun a f => a + f.2) 0

/-- Pieces (local address, length) of the logical-buffer range o .. o + n − 1. -/
def fragPieces : List (Nat × Nat) → Nat → Nat → List (Nat × Nat)
  | [], _, _ => []
  | (a, l) :: t, o, n =>
    if n = 0 then []
    else if l ≤ o then fragPieces t (o - l) n
    else
      let k := min n (l - o)
      (a + o, k) :: fragPieces t 0 (n - k)

/-- The logical host buffer of a command: its fragments, or none for a plain offset. -/
def State.bufFrags (s : State) (e : Entry) (o : Nat) : Option (List (Nat × Nat)) :=
  if eFrag e then some (s.frags (ent e 56 8) (fragN e o)) else none

/-- Pieces of n bytes at a command's address a. -/
def pieces (b : Option (List (Nat × Nat))) (a n : Nat) : List (Nat × Nat) :=
  match b with
  | some fs => fragPieces fs a n
  | none => [(a, n)]

/-- Read and write through pieces. -/
def State.rdPieces (s : State) (ps : List (Nat × Nat)) : List Byte := (ps.map fun p => s.rdLocal p.1 p.2).flatten

def State.wrPieces (s : State) : List (Nat × Nat) → List Byte → State
  | [], _ => s
  | (a, n) :: t, bs => (s.wrLocal a (bs.take n)).wrPieces t (bs.drop n)

/-- AT_MTC of SET_ENDPOINTS and SET_DETOUR breaks R280. -/
def State.atMtcBad (s : State) (a : Nat) : Bool := a != 0 && (a % s.stageLen != 0 || a < s.now + s.stageLen)

/-- The tick an AT_MTC names: 0 commits at the next tick, under Table 0.5. -/
def State.atTick (s : State) (a : Nat) : Nat := if a = 0 then s.commitTick else a

/-- Put a value into the shadow copy of a T field for a tick; of several, the last wins (Table 0.5). -/
def State.shadowAt (s : State) (at_ : Nat) (f : Fld) (i v : Nat) : State :=
  { s with shadows := s.shadows.filter (fun x => !(x.at_ == at_ && x.f == f && x.i == i)) ++ [{ at_ := at_, f := f, i := i, v := v }] }

end Sys2Proof.Machine
end

