-- ==== Sys2Proof/Machine/QueueAdmin.lean ====
section
/-! DEFINITION. CREATE_SQ, CREATE_CQ, DESTROY_SQ and DESTROY_CQ (R276, R277, Table 10.7). -/

namespace Sys2Proof.Machine

/-- The QP operand. -/
def qpOf (e : Entry) : Nat := ent e 4 2

/-- Checks of LOG2_SIZE and BASE. -/
def ringBad (e : Entry) : List (Bool × Nat × Nat) :=
  [(ent e 8 8 % 4096 != 0, rBounds, 8), (decide (ent e 16 1 < 4 || 16 < ent e 16 1), rField, 16)]

def createSqBad (e : Entry) (s : State) : List (Bool × Nat × Nat) :=
  let p := qpOf e
  ([(decide (s.nq ≤ p), rBounds, 4)] : List (Bool × Nat × Nat)) ++ ringBad e ++
  [(p == 0, rState, 4), (s.on .DB_STATUS_QUARANTINE p, rQuarantine, 4),
   (!s.on .DB_STATUS_CQ_LIVE p || s.on .DB_STATUS_SQ_LIVE p, rState, 4)]

/-- The pair comes into service with the next generation; indices restart at 0 (log entry 11). -/
def createSq (e : Entry) (s : State) : State :=
  let p := qpOf e
  let g := (s.rf .DB_STATUS_QGEN p + 1) % 256
  let coll := if ent e 20 2 = 0 then 2000 else ent e 20 2
  let rem := if ent e 22 2 = 0 then 1000 else ent e 22 2
  (s.setfs [(.DB_STATUS_QGEN, p, g), (.DB_STATUS_SQ_LOG2, p, ent e 16 1), (.DB_STATUS_SQ_LIVE, p, 1), (.DB_SQ_TAIL_TAIL, p, 0),
    (.DB_SQ_HEAD_HEAD, p, 0), (.DB_TIMEOUT_COLL_MS, p, coll), (.DB_TIMEOUT_REM_100US, p, rem)]).setQp p
      { s.qp p with sqBase := ent e 8 8 }

/-- CREATE_SQ (R276): RESULT gives the generation in force. -/
def execCreateSq (q : QP) (e : Entry) (s : State) : Out :=
  event s fun s => s.adminCmd q 0x01 e [(4, 2), (8, 8), (16, 1), (20, 2), (22, 2)] (createSqBad e) fun s _ =>
    let s1 := createSq e s
    s1.finish q (eId e) 0x01 0 (s1.rf .DB_STATUS_QGEN (qpOf e))

def createCqBad (e : Entry) (s : State) : List (Bool × Nat × Nat) :=
  let p := qpOf e
  ([(decide (s.nq ≤ p), rBounds, 4)] : List (Bool × Nat × Nat)) ++ ringBad e ++
  [(decide (31 < ent e 17 1), rField, 17), (ent e 24 8 % 8 != 0, rBounds, 24), (p == 0, rState, 4),
   (s.on .DB_STATUS_QUARANTINE p, rQuarantine, 4), (s.on .DB_STATUS_CQ_LIVE p || s.on .DB_STATUS_SQ_LIVE p, rState, 4)]

def createCq (e : Entry) (s : State) : State :=
  let p := qpOf e
  (s.setfs [(.DB_STATUS_CQ_LOG2, p, ent e 16 1), (.DB_STATUS_VECTOR, p, ent e 17 1), (.DB_STATUS_CQ_LIVE, p, 1),
    (.DB_CQ_TAIL_TAIL, p, 0), (.DB_CQ_HEAD_HEAD, p, 0), (.DB_CQ_ARM_ARM, p, 0)]).setQp p
      { s.qp p with cqBase := ent e 8 8, mirror := ent e 24 8 }

/-- CREATE_CQ (R276). -/
def execCreateCq (q : QP) (e : Entry) (s : State) : Out :=
  event s fun s => s.adminCmd q 0x02 e [(4, 2), (8, 8), (16, 1), (17, 1), (24, 8)] (createCqBad e) fun s _ =>
    (createCq e s).finish q (eId e) 0x02 0

/-- A team that is defined or aborted names queue p. -/
def State.teamNames (s : State) (p : Nat) : Bool :=
  (List.range 64).any fun t => (s.rf .TT_TEAM_STATE t == 1 || s.rf .TT_TEAM_STATE t == 2) && (s.team t).queue == p

def destroySqBad (e : Entry) (s : State) : List (Bool × Nat × Nat) :=
  let p := qpOf e
  [(decide (s.nq ≤ p), rBounds, 4), (p == 0 || !s.on .DB_STATUS_SQ_LIVE p || s.teamNames p, rState, 4)]

/-- The outgoing carriage o, of this chip, is a request of remote operation r. -/
def Remote.owns (self : Nat) (r : Remote) (o : OutCar) : Bool :=
  cSrc o.c == self && [1, 2, 4, 6].contains (cKind o.c) && cDst o.c == r.ep && cTenant o.c == r.tenant && cTeam o.c == 0xFF &&
    r.out.any fun x => x.1 == cSeq o.c

/-- Cancel the outgoing carriages of the commands that pass the test (R198). -/
def State.cancelCmds (s : State) (p : Cmd → Bool) : State :=
  (s.qs.cmds.filter p).foldl (fun (s : State) (c : Cmd) => match c.phase with
    | .remote r => s.cancelOut (r.owns s.self)
    | .mirror true => s.cancelOut fun o => cSrc o.c == s.self && cKind o.c == 8 && cSeq o.c == c.id && cYard o.c == s.rf .DB_STATUS_YARD c.q
    | _ => s) s

/-- Instances bound to a command of the test lose it: their records are cleared and they run as a missing member. -/
def State.unbind (s : State) (p : Nat → Nat → Bool) : State :=
  s.dropInsts fun i => match i.cmd with
    | some (q, id) => p q id
    | none => false

/-- DESTROY_SQ's effect (R277): the queue stops, its commands complete ABORTED, the pair is in quarantine, whose time counts from DESTROY_SQ's own
completion (`State.destroyed`). -/
def destroySq (e : Entry) (s : State) : State :=
  let p := qpOf e
  let s1 := (s.setf .DB_STATUS_SQ_LIVE p 0).cancelCmds (fun c => c.q == p)
  let s2 := (s1.qs.cmds.filter (fun c => c.q == p)).foldl (fun (s : State) (c : Cmd) => s.finishCmd c 1) s1
  let s3 := (s2.qs.fetched.filter (fun f => f.q == p)).foldl (fun (s : State) (f : Fetched) => s.finish p (eId f.e) (eOp f.e) 1) s2
  let s4 := s3.unbind fun q _ => q == p
  s4.setf .DB_STATUS_QUARANTINE p 1

/-- A DESTROY_SQ of pair p has still to complete. -/
def State.destroying (s : State) (p : Nat) : Bool := s.qs.dones.any fun d => d.after == some p

/-- DESTROY_SQ of pair p completes: the time of the quarantine counts from now or from the pair's last traffic (R277; DEDUCED:
log entry 160). -/
def State.destroyed (s : State) (p : Nat) : State :=
  s.setQp p { s.qp p with quarEnd := max s.now (s.qp p).lastTraffic + s.quarantine }

/-- DESTROY_SQ (R277). -/
def execDestroySq (q : QP) (e : Entry) (s : State) : Out :=
  event s fun s => s.adminCmd q 0x03 e [(4, 2)] (destroySqBad e) fun s _ => (destroySq e s).finishWith { plainDone q (eId e) 0x03 0 0 with after := some (qpOf e) }

def destroyCqBad (e : Entry) (s : State) : List (Bool × Nat × Nat) :=
  let p := qpOf e
  [(decide (s.nq ≤ p), rBounds, 4), (p == 0 || !s.on .DB_STATUS_CQ_LIVE p || s.on .DB_STATUS_SQ_LIVE p, rState, 4)]

/-- DESTROY_CQ (R276). It takes effect after a DESTROY_SQ of the same pair has completed (R272). -/
def execDestroyCq (q : QP) (e : Entry) (s : State) : Out :=
  event s fun s => if s.destroying (qpOf e) then s else s.adminCmd q 0x04 e [(4, 2)] (destroyCqBad e) fun s _ =>
    (s.setf .DB_STATUS_CQ_LIVE (qpOf e) 0).finish q (eId e) 0x04 0

end Sys2Proof.Machine
end

