-- ==== Sys2Proof/Machine/TeamAdmin.lean ====
section
/-! DEFINITION. DEFINE_TEAM, RETIRE_TEAM, SET_TENANT, ALLOC_SYNC and FREE_SYNC (R278, R279, R294, R295, R243, R244). -/

namespace Sys2Proof.Machine

/-! ## DEFINE_TEAM -/

def dtSlot (e : Entry) : Nat := ent e 4 1
def dtYard (e : Entry) : Nat := ent e 6 1
def dtAxes (e : Entry) : Nat := ent e 8 1
def dtOrigin (e : Entry) : Nat × Nat × Nat := (ent e 12 1, ent e 13 1, ent e 14 1)
def dtExtent (e : Entry) : Nat × Nat × Nat := (ent e 16 1, ent e 17 1, ent e 18 1)
def dtQueue (e : Entry) : Nat := ent e 20 2

/-- A value outside its range or code set (R278, reason FIELD). -/
def teamFieldBad (e : Entry) (s : State) : List (Bool × Nat × Nat) :=
  [(decide (3 < dtYard e), rField, 6), (decide (1 < ent e 7 1), rField, 7), (dtAxes e == 0 || decide (7 < dtAxes e), rField, 8),
   (decide (ent e 9 1 < 16 || 22 < ent e 9 1), rField, 9), (decide (1 < ent e 10 1), rField, 10)] ++
  [0, 1, 2].map fun a => (decide (s.extent a ≤ axisVal (dtOrigin e) a), rField, 12 + a)

/-- The extent of axis a breaks R85. -/
def extentBad (e : Entry) (s : State) (a : Nat) : Bool :=
  let n := axisVal (dtExtent e) a
  if bitAt (dtAxes e) a then decide (n < 2 || s.extent a < n) else n != 1

/-- This chip is a member of the sub-box (R85). -/
def memberOf (e : Entry) (s : State) : Bool :=
  [0, 1, 2].all fun a =>
    let m := max 1 (s.extent a)
    (s.here a + m - axisVal (dtOrigin e) a % m) % m < axisVal (dtExtent e) a

/-- QUEUE is a live submission queue of YARD. -/
def queueOk (e : Entry) (s : State) : Bool :=
  let q := dtQueue e
  q < s.nq && q != 0 && s.on .DB_STATUS_SQ_LIVE q && s.rf .DB_STATUS_YARD q == dtYard e

def defineTeamBad (e : Entry) (s : State) : List (Bool × Nat × Nat) :=
  let t := dtSlot e
  [(!s.sliceSet, rState, 0), (decide (s.nteam ≤ t), rBounds, 4)] ++ teamFieldBad e s ++
  [([0, 1, 2].any (extentBad e s) || !memberOf e s, rTeam, 16), (!queueOk e s, rTeam, 20),
   (s.rf .TT_TEAM_STATE t != 0, rState, 4),
   ((s.team t).everDefined && ent e 5 1 != (s.rf .TT_TEAM_GEN t + 1) % 256, rState, 5)]

/-- The slot list of team slot t in image im. -/
def Image.slotsOf (im : Image) (t : Nat) : List SlotEnt :=
  match im.teams.find? fun x => x.slot == t with
  | some te => te.slots
  | none => []

/-- The slots of team slot t in the running timetable. -/
def State.slotList (s : State) (t : Nat) : List SlotEnt :=
  match s.tt.active with
  | some im => im.slotsOf t
  | none => []

/-- TT_TEAMt from the command, TT_TEAMCNTt cleared, counting from 0 (R113, R26). -/
def defineTeam (e : Entry) (s : State) : State :=
  let t := dtSlot e
  let s1 := s.setfs [(.TT_TEAM_INSTANCE, t, 0), (.TT_TEAM_GEN, t, ent e 5 1), (.TT_TEAM_YARD, t, dtYard e), (.TT_TEAM_ALG, t, ent e 7 1),
    (.TT_TEAM_AXES, t, dtAxes e), (.TT_TEAM_CHUNK_LOG2, t, ent e 9 1), (.TT_TEAM_STATE, t, 1), (.TT_TEAMCNT_MISSING_SELF, t, 0),
    (.TT_TEAMCNT_PEER_ABSENT, t, 0), (.TT_TEAMCNT_POISONED, t, 0), (.TT_TEAMCNT_DEGRADED, t, 0)]
  let pos := if 2 ≤ s.engSt then ((s.slotList t).filter fun x => x.start ≤ s.rf .TT_STATUS_STAGE_IDX).length else 0
  let s2 := s1.setYard (dtYard e) { s1.yard (dtYard e) with everBound := true }
  s2.setTeam t { origin := dtOrigin e, ext := dtExtent e, eval := bitAt (ent e 10 1) 0, queue := dtQueue e, everDefined := true, slotPos := pos }

/-- DEFINE_TEAM (R278): RESULT gives the generation in force. -/
def execDefineTeam (q : QP) (e : Entry) (s : State) : Out :=
  event s fun s => s.adminCmd q 0x05 e
    [(4, 1), (5, 1), (6, 1), (7, 1), (8, 1), (9, 1), (10, 1), (12, 3), (16, 3), (20, 2)] (defineTeamBad e) fun s _ =>
      (defineTeam e s).finish q (eId e) 0x05 0 (ent e 5 1)

/-! ## RETIRE_TEAM -/

/-- RETIRE_TEAM (R279). -/
def execRetireTeam (q : QP) (e : Entry) (s : State) : Out :=
  event s fun s => s.startCmd q 0x06 e [(4, 1), (5, 1)] (q == 0) fun s ft =>
    let t := ent e 4 1
    if s.nteam ≤ t then s.invalid q e rBounds 4
    else if ent e 5 1 != s.rf .TT_TEAM_GEN t then s.finish q (eId e) 0x06 8
    else if s.rf .TT_TEAM_STATE t = 0 || s.rf .TT_TEAM_STATE t = 3 then s.invalid q e rState 4
    else ((s.adopt ft (.retire t)).dropTeamCmds t 1).retireCheck t

/-! ## SET_TENANT -/

def stFirst (e : Entry) : Nat := ent e 6 2
def stCount (e : Entry) : Nat := ent e 8 2
def stBase (e : Entry) : Nat := ent e 12 2
def stLimit (e : Entry) : Nat := ent e 14 2
def stGroups (e : Entry) : Nat := ent e 16 4

/-- The command moves the range of its yard. -/
def stMoves (e : Entry) : Bool := stBase e != stLimit e

/-- Object n leaves or enters the yard's range. -/
def crosses (e : Entry) (s : State) (y n : Nat) : Bool :=
  let was := s.rf .SYN_RANGE_BASE y ≤ n && n < s.rf .SYN_RANGE_LIMIT y
  let is := stBase e ≤ n && n < stLimit e
  stMoves e && was != is

/-- The part of another yard's range that the new range takes: first object and the one after the last. -/
def taken (e : Entry) (s : State) (z : Nat) : Nat × Nat :=
  (max (stBase e) (s.rf .SYN_RANGE_BASE z), min (stLimit e) (s.rf .SYN_RANGE_LIMIT z))

/-- What it takes from yard z lies at neither end of z's range (R295). -/
def takesMiddle (e : Entry) (s : State) (y z : Nat) : Bool :=
  let t := taken e s z
  stMoves e && z != y && t.1 < t.2 && t.1 != s.rf .SYN_RANGE_BASE z && t.2 != s.rf .SYN_RANGE_LIMIT z

/-- Pairs named. -/
def stPairs (e : Entry) : List Nat := (List.range (stCount e)).map (stFirst e + ·)

def setTenantBad (e : Entry) (s : State) : List (Bool × Nat × Nat) :=
  let y := ent e 4 1
  let changes := s.yardTenant y != ent e 5 1
  let alloc (n : Nat) : Bool := s.on .SYN_FLAG_ALLOC n
  [(decide (3 < y), rField, 4), (decide (3 < ent e 5 1), rField, 5), (decide (stLimit e < stBase e), rField, 14),
   (decide (2 ^ 24 ≤ stGroups e), rField, 16),
   (stCount e != 0 && (stFirst e == 0 || s.nq < stFirst e + stCount e), rBounds, 6), (decide (s.nsync < stLimit e), rBounds, 14),
   ((List.range 24).any (fun k => bitAt (stGroups e) k && s.linkSt (k / 4) != 0), rState, 16),
   (changes && ((List.range 64).any (fun t => (s.rf .TT_TEAM_STATE t == 1 || s.rf .TT_TEAM_STATE t == 2) && s.rf .TT_TEAM_YARD t == y)
      || (List.range s.nsync).any (fun n => alloc n && s.objYard n == some y)), rState, 5),
   ((stPairs e).any (fun p => s.on .DB_STATUS_SQ_LIVE p || s.on .DB_STATUS_CQ_LIVE p), rState, 6),
   ((List.range s.nsync).any (fun n => crosses e s y n && alloc n), rState, 12), (nat4.any (takesMiddle e s y), rState, 12)]

/-- Owner bits with the named groups given to tenant t. -/
def giveGroups (own mask t : Nat) : Nat → Nat
  | 0 => 0
  | k + 1 => giveGroups own mask t k + (if bitAt mask k then t else bitsOf own (2 * k + 1) (2 * k)) * 4 ^ k

/-- Yard z loses what the new range of yard y takes; its range shrinks at that end. A range taken whole keeps its base. -/
def shrink (e : Entry) (y : Nat) (s : State) (z : Nat) : State :=
  let t := taken e s z
  if stMoves e && z != y && t.1 < t.2 then
    if t.2 = s.rf .SYN_RANGE_LIMIT z then s.setf .SYN_RANGE_LIMIT z t.1 else s.setf .SYN_RANGE_BASE z t.2
  else s

def setTenant (e : Entry) (s : State) : State :=
  let y := ent e 4 1
  let s1 := nat4.foldl (shrink e y) s
  let s2 := if stMoves e then s1.setfs [(.SYN_RANGE_BASE, y, stBase e), (.SYN_RANGE_LIMIT, y, stLimit e)] else s1
  let s3 := (stPairs e).foldl (fun (s : State) p => s.setf .DB_STATUS_YARD p y) s2
  (s3.setf .SYN_RANGE_TENANT y (ent e 5 1)).setf .RTE_LANEOWN_OWNER 0
    (giveGroups (s.rf .RTE_LANEOWN_OWNER) (stGroups e) (ent e 5 1) 24)

/-- SET_TENANT (R294, R295). -/
def execSetTenant (q : QP) (e : Entry) (s : State) : Out :=
  event s fun s => s.adminCmd q 0x08 e [(4, 1), (5, 1), (6, 2), (8, 2), (12, 2), (14, 2), (16, 4)] (setTenantBad e) fun s _ =>
    (setTenant e s).finish q (eId e) 0x08 0

/-! ## ALLOC_SYNC and FREE_SYNC -/

/-- The yard the command acts for (Table 10.1). -/
def syncYard (q : Nat) (e : Entry) (s : State) : Nat := if q = 0 then ent e 4 1 else s.qYard q

/-- Objects f .. f + k − 1 are all free. -/
def State.freeRun (s : State) (f k : Nat) : Bool := (List.range k).all fun j => !s.on .SYN_FLAG_ALLOC (f + j)

/-- The lowest fitting run of k objects in yard y's range; an even start for a pair. -/
def State.lowestRun (s : State) (y k : Nat) (pair : Bool) : Option Nat :=
  let b := s.rf .SYN_RANGE_BASE y
  ((List.range (s.rf .SYN_RANGE_LIMIT y + 1 - b)).map (b + ·)).find? fun f =>
    f + k ≤ s.rf .SYN_RANGE_LIMIT y && !(pair && f % 2 == 1) && s.freeRun f k

/-- The first object of the run that the command asks for; an empty run has no object that could be taken or lie outside. -/
def allocFirst (e : Entry) (y : Nat) (s : State) : Option Nat :=
  if ent e 8 2 = 0 then some (ent e 6 2)
  else if ent e 6 2 = 0xFFFF then s.lowestRun y (ent e 8 2) (ent e 10 1 == 2)
  else if s.rf .SYN_RANGE_BASE y ≤ ent e 6 2 && ent e 6 2 + ent e 8 2 ≤ s.rf .SYN_RANGE_LIMIT y && s.freeRun (ent e 6 2) (ent e 8 2) then
    some (ent e 6 2) else none

def allocBad (q : Nat) (e : Entry) (s : State) : List (Bool × Nat × Nat) :=
  let y := syncYard q e s
  let k := ent e 10 1
  let t := ent e 11 1
  let n := ent e 8 2
  let prm := ent e 12 4
  let f := (allocFirst e y s).getD 0
  [(q == 0 && decide (3 < ent e 4 1), rField, 4), (n != 0 && ent e 6 2 != 0xFFFF && decide (s.nsync < ent e 6 2 + n), rBounds, 6),
   ((allocFirst e y s).isNone, rState, 6), (k == 1 && t < 64 && s.on .SYN_BAR_VALID t, rState, 11),
   (n != 0 && k == 2 && f % 2 == 1, rField, 6), (n == 0 || (k == 1 && n != 1) || (k == 2 && n != 2), rField, 8), (decide (2 < k), rField, 10),
   ((k == 0 && prm != 0) || (k != 0 && prm == 0) || (k == 1 && decide (65535 < prm)), rField, 12),
   (k != 0 && (decide (s.nteam ≤ t) || s.rf .TT_TEAM_STATE t != 1 || s.rf .TT_TEAM_YARD t != y), rTeam, 11)]

/-- Allocate object n (R243). -/
def allocObj (kind team prm : Nat) (s : State) (n : Nat) : State :=
  s.setfs [(.SYN_OBJ_VALUE, n, 0), (.SYN_FLAG_ALLOC, n, 1), (.SYN_FLAG_KIND, n, kind), (.SYN_FLAG_TEAM, n, team), (.SYN_FLAG_PARAM, n, prm),
    (.SYN_FLAG_OVF, n, 0), (.SYN_FLAG_ABSENT, n, 0)]

def allocSync (e : Entry) (f : Nat) (s : State) : State :=
  let k := ent e 10 1
  let t := if k = 0 then 0 else ent e 11 1
  let s1 := (List.range (ent e 8 2)).foldl (fun s j => allocObj (if k = 2 then 2 + j else k) t (ent e 12 4) s (f + j)) s
  if k = 1 then ((s1.setfs [(.SYN_BAR_VALID, t, 1), (.SYN_BAR_LOCAL_NEED, t, ent e 12 4), (.SYN_BAR_OBJ, t, f)]).setBar t {})
  else if k = 2 then { s1 with sync := { s1.sync with pairs := sset (fun _ => 0) s1.sync.pairs f 0 } }
  else s1

/-- ALLOC_SYNC (R243): RESULT gives the first object. -/
def execAllocSync (q : QP) (e : Entry) (s : State) : Out :=
  event s fun s => s.startCmd q 0x09 e [(4, 1), (6, 2), (8, 2), (10, 1), (11, 1), (12, 4)] true fun s _ =>
    match firstBad (allocBad q e s) with
    | some (r, d) => s.invalid q e r d
    | none =>
      let f := (allocFirst e (syncYard q e s) s).getD 0
      (allocSync e f s).finish q (eId e) 0x09 0 f

/-- A postilion or coachman waits on object n. -/
def State.waitedOn (s : State) (n : Nat) : Bool :=
  s.posts.any (fun x => match x.2.wait with | .sync o _ _ => o == n | _ => false) || s.sync.coach.any fun c => c.obj == n

def freeBad (q : Nat) (e : Entry) (s : State) : List (Bool × Nat × Nat) :=
  let y := syncYard q e s
  let f := ent e 6 2
  let n := ent e 8 2
  [(q == 0 && decide (3 < ent e 4 1), rField, 4), (n != 0 && decide (s.nsync < f + n), rBounds, 6),
   (n != 0 && decide (f < s.rf .SYN_RANGE_BASE y || s.rf .SYN_RANGE_LIMIT y < f + n), rState, 6),
   ((List.range n).any (fun j => s.waitedOn (f + j)), rState, 6)]

/-- Free object n; it keeps its value (R244). A freed barrier object leaves its team without one. -/
def freeObj (s : State) (n : Nat) : State :=
  let t := s.rf .SYN_FLAG_TEAM n
  let s1 := s.setf .SYN_FLAG_ALLOC n 0
  if s.on .SYN_FLAG_ALLOC n && s.rf .SYN_FLAG_KIND n = 1 then
    (s1.setfs [(.SYN_BAR_VALID, t, 0), (.SYN_BAR_LOCAL_NEED, t, 0), (.SYN_BAR_OBJ, t, 0)]).setBar t {}
  else { s1 with sync := { s1.sync with pairs := sset (fun _ => 0) s1.sync.pairs (n - n % 2) 0 } }

/-- FREE_SYNC (R244). -/
def execFreeSync (q : QP) (e : Entry) (s : State) : Out :=
  event s fun s => s.startCmd q 0x0A e [(4, 1), (6, 2), (8, 2)] true fun s _ =>
    match firstBad (freeBad q e s) with
    | some (r, d) => s.invalid q e r d
    | none => ((List.range (ent e 8 2)).foldl (fun s j => freeObj s (ent e 6 2 + j)) s).finish q (eId e) 0x0A 0

end Sys2Proof.Machine
end

