-- ==== Sys2Proof/Machine/Timetable.lean ====
section
/-! DEFINITION. LOAD_TIMETABLE: the copy, the checks of R64, the swap (R65–R67) and the choice of the variant (R69). -/

namespace Sys2Proof.Machine

/-! ## Reading an image -/

/-- n little-endian bytes of the image at offset o. -/
def imgAt (b : List Byte) (o n : Nat) : Nat := leNat b / 2 ^ (8 * o) % 2 ^ (8 * n)

/-- A table of `size` bytes at `off` lies wholly before byte `e`, at a multiple of 8 (R63, R64). -/
def inside (e off size : Nat) : Bool := off % 8 == 0 && off + size ≤ e

/-- The list does not fall. -/
def rising : List Nat → Bool
  | a :: b :: t => a ≤ b && rising (b :: t)
  | _ => true

/-- Every two items are different. -/
def distinct : List Nat → Bool
  | [] => true
  | a :: t => !t.contains a && distinct t

/-- A slot list entry. -/
def slotEnt (b : List Byte) (period o : Nat) : Option SlotEnt :=
  let x : SlotEnt := { start := imgAt b o 2, len := imgAt b (o + 2) 2, op := imgAt b (o + 4) 1, vmask := imgAt b (o + 5) 1 }
  if 1 ≤ x.len && x.start + x.len ≤ period && definedOp x.op && 0x20 ≤ x.op then some x else none

/-- A team table entry (Table 3.2). A set bit of FLAGS that the table does not define fails it (DEDUCED: log entry 135). -/
def teamEnt (b : List Byte) (e period o : Nat) : Option TeamEnt :=
  let k (j : Nat) : Nat := imgAt b (o + j) 1
  let ns := imgAt b (o + 12) 2
  let so := imgAt b (o + 16) 4
  let ext := (k 4, k 5, k 6)
  let ok := k 0 ≤ 63 && k 1 ≤ 3 && 1 ≤ k 2 && k 2 ≤ 7 && k 3 ≤ 1 && [0, 1, 2].all (fun a => bitAt (k 2) a || axisVal ext a == 1)
    && k 7 ≤ 1 && 16 ≤ k 11 && k 11 ≤ 22 && 1 ≤ ns && ns ≤ 4096 && inside e so (8 * ns)
  if !ok then none
  else
    match (List.range ns).mapM fun j => slotEnt b period (so + 8 * j) with
    | some sl =>
      if rising (sl.map (·.start)) then
        some { slot := k 0, yard := k 1, axes := k 2, alg := k 3, ext := ext, eval := bitAt (k 7) 0, origin := (k 8, k 9, k 10),
               chunkLog2 := k 11, slots := sl }
      else none
    | none => none

/-- A segment table entry; a set flag bit that 3.1 does not define fails it (DEDUCED: log entry 135). -/
def segEnt (b : List Byte) (period o : Nat) : Option SegEnt :=
  let fl := imgAt b (o + 5) 1
  let x : SegEnt := { stage := imgAt b o 2, entry := imgAt b (o + 2) 2, team := imgAt b (o + 4) 1, spec := bitAt fl 0, eval := bitAt fl 1 }
  if x.stage < period && x.entry ≤ 4095 && x.team ≤ 63 && fl ≤ 3 then some x else none

/-- A (sender, team) pair of MBX_MAP: postilion 0–63 or 0xFF, team slot 0–63 or 0xFF (Table 3.4, R79). -/
def mbxOk (m : Nat × Nat) : Bool := (m.1 ≤ 63 || m.1 == 0xFF) && (m.2 ≤ 63 || m.2 == 0xFF)

/-- A program directory entry (Table 3.4). -/
def progEnt (b : List Byte) (e period o : Nat) : Option Prog :=
  let io := imgAt b o 4
  let il := imgAt b (o + 4) 2
  let dl := imgAt b (o + 6) 2
  let d0 := imgAt b (o + 8) 4
  let so := imgAt b (o + 12) 4
  let ns := imgAt b (o + 16) 2
  let mbx := (List.range 8).map fun j => (imgAt b (o + 24 + 2 * j) 1, imgAt b (o + 25 + 2 * j) 1)
  if !(inside e io il && inside e d0 dl && inside e so (8 * ns) && mbx.all mbxOk) then none
  else
    match (List.range ns).mapM fun j => segEnt b period (so + 8 * j) with
    | some sg =>
      if rising (sg.map (·.stage)) && sg.all (fun x => (sg.filter fun y => y.stage == x.stage).length ≤ 8) then
        some { iram := (List.range (il / 4)).map fun j => BitVec.ofNat 32 (imgAt b (io + 4 * j) 4),
               dram := (b.drop d0).take dl, segs := sg, mbx := mbx }
      else none
    | none => none

/-- A variant directory entry (Table 3.3); a link above 5 in LINKS fails it (DEDUCED: log entry 135). -/
def variantEnt (b : List Byte) (e period o : Nat) : Option Variant :=
  let k (j : Nat) : Nat := imgAt b (o + j) 1
  let po := imgAt b (o + 8) 4
  if !(k 0 ≤ 3 && k 1 ≤ 3 && k 2 < 64 && inside e po (64 * 48)) then none
  else
    match (List.range 64).mapM fun p => progEnt b e period (po + 48 * p) with
    | some ps => some { rung := k 0, lanes := k 1, links := k 2, progs := ps }
    | none => none

/-- An eval-window entry. -/
def evalEnt (b : List Byte) (period o : Nat) : Option EvalWin :=
  let x : EvalWin := { first := imgAt b o 2, last := imgAt b (o + 2) 2, team := imgAt b (o + 4) 1 }
  if x.first ≤ x.last && x.last < period && x.team ≤ 63 then some x else none

/-- No two windows overlap. -/
def apart : List EvalWin → Bool
  | [] => true
  | a :: t => t.all (fun c => a.last < c.first || c.last < a.first) && apart t

/-- Header fields out of the ranges of Table 3.1 (step 5): EVAL_OFF is 0 where there are no windows. -/
def headerBad (b : List Byte) (nteam : Nat) : Bool :=
  let k (o n lo hi : Nat) : Bool := decide (imgAt b o n < lo || hi < imgAt b o n)
  k 6 2 64 64 || k 16 1 2 64 || k 17 1 1 8 || k 18 2 1 4096 || k 20 2 1 179 || k 22 1 1 4 || k 23 1 1 (min 64 nteam) || k 24 1 0 16 ||
    (imgAt b 24 1 == 0 && imgAt b 40 4 != 0)

/-- The tables of the image (step 6). -/
def imageTables (b : List Byte) : Option Image :=
  let e := b.length - 4
  let p := imgAt b 18 2
  let tof := imgAt b 32 4
  let vo := imgAt b 36 4
  let eo := imgAt b 40 4
  let nt := imgAt b 23 1
  let nv := imgAt b 22 1
  let ne := imgAt b 24 1
  if !(inside e tof (32 * nt) && inside e vo (16 * nv) && (ne == 0 || (eo != 0 && inside e eo (8 * ne)))) then none
  else
    match (List.range nt).mapM (fun j => teamEnt b e p (tof + 32 * j)), (List.range nv).mapM (fun j => variantEnt b e p (vo + 16 * j)),
      (List.range ne).mapM (fun j => evalEnt b p (eo + 8 * j)) with
    | some ts, some vs, some ws =>
      if distinct (ts.map (·.slot)) && apart ws then
        some { id := imgAt b 12 4, stageUs := imgAt b 16 1, share := imgAt b 17 1, period := p, delayBound := imgAt b 20 2,
               variants := vs, teams := ts, evals := ws }
      else none
    | _, _, _ => none

/-- Lengths of the programs and entry addresses (step 7): `imageTables` has read IRAM_LEN ÷ 4 instructions of each program. -/
def programsBad (b : List Byte) (im : Image) : Bool :=
  let vo := imgAt b 36 4
  (List.range im.variants.length).any fun v =>
    (List.range 64).any fun p =>
      let o := imgAt b (vo + 16 * v + 8) 4 + 48 * p
      let il := imgAt b (o + 4) 2
      il % 4 != 0 || 16384 < il || 8192 < imgAt b (o + 6) 2 ||
        match im.variants[v]? with
        | some x => match x.progs[p]? with
          | some pr => pr.segs.any fun g => il / 4 ≤ g.entry
          | none => false
        | none => false

/-- The seven checks of R64 in order: the first failing step, or the image. -/
def checkImage (b : List Byte) (conf nteam : Nat) (xyz : Nat × Nat × Nat) : Nat ⊕ Image :=
  let l := b.length
  if l < 64 || l % 64 != 0 || 4 * 2 ^ 20 < l || imgAt b 8 4 != l then .inl 1
  else if imgAt b 0 4 != 0x36545446 || imgAt b 4 2 != 2 then .inl 2
  else if crc32c (b.take (l - 4)) != imgAt b (l - 4) 4 then .inl 3
  else if imgAt b 25 1 != conf || (imgAt b 26 1, imgAt b 27 1, imgAt b 28 1) != xyz then .inl 4
  else if headerBad b nteam then .inl 5
  else match imageTables b with
    | none => .inl 6
    | some im => if programsBad b im then .inl 7 else .inr im

/-! ## The running variant (R69) -/

/-- Number of lane groups in a mask. -/
def groupCount (m : Nat) : Nat := (nat4.filter (bitAt m)).length

/-- The lanes of link l serve a variant: of the whole link, or of each sub-link that the variant's segments use (R298). -/
def State.lanesOk (s : State) (v : Variant) (l : Nat) : Bool :=
  if (s.subTenants l).length ≤ 1 then v.lanes + 1 ≤ groupCount (s.rf .LNK_RUNG_GROUPS l)
  else nat4.all fun y =>
    let uses := [2 * l, 2 * l + 1].any fun c => match v.progs[16 * y + c]? with
      | some p => !p.segs.isEmpty
      | none => false
    !uses || v.lanes + 1 ≤ (s.subGroups l (s.yardTenant y)).length

/-- Variant v is selectable. -/
def State.selectable (s : State) (v : Variant) : Bool :=
  nat6.all fun l => !bitAt v.links l || (s.live l && s.rf .LNK_RUNG_RUNG l == v.rung && s.lanesOk v l)

/-- Of the selectable variants from index i, those whose store words met an uncorrectable error left out (Table 12.1), the highest rung, then the most lanes, then the lowest index. -/
def State.bestVariant (s : State) : List Variant → Nat → Option (Nat × Variant)
  | [], _ => none
  | v :: t, i =>
    let r := s.bestVariant t (i + 1)
    if s.tt.badVars.contains i || !s.selectable v then r
    else match r with
      | none => some (i, v)
      | some (j, w) => if v.rung * 4 + v.lanes < w.rung * 4 + w.lanes then some (j, w) else some (i, v)

/-- A postilion with a program's images loaded: instructions past the image read 0, data-RAM bytes past the DRAM image stay (DESIGN CHOICE: log
entry 138). -/
def Post.load (x : Post) (pr : Prog) : Post :=
  { x with
    iram := (List.range pr.iram.length).foldl (fun m j => sset (fun _ => 0) m j (pr.iram.getD j 0)) []
    iramLen := pr.iram.length
    dram := wrBytes x.dram 8192 pr.dram
    map := pr.mbx }

/-- Load the images of a variant into the postilions. -/
def State.loadPrograms (s : State) (v : Variant) : State :=
  (List.range 64).foldl (fun (s : State) p =>
    match v.progs[p]? with
    | none => s
    | some pr => s.setPost p ((s.post p).load pr)) s

/-- Select the variant of the active image; load it when the choice changes or `force` is set. With none selectable the VAR fields read 0 (DESIGN
CHOICE: log entry 139). -/
def State.selectVariant (s : State) (force : Bool) : State :=
  match s.tt.active with
  | none => s
  | some im =>
    let old := if s.on .TT_STORE_NO_VARIANT then none else some (s.rf .TT_STORE_VAR_IDX)
    let s0 : State := { s with tt := { s.tt with lostLinks := [] } }
    match s.bestVariant im.variants 0 with
    | none => s0.setfs [(.TT_STORE_NO_VARIANT, 0, 1), (.TT_STORE_VAR_IDX, 0, 0), (.TT_STORE_VAR_RUNG, 0, 0), (.TT_STORE_VAR_LANES, 0, 0)]
    | some (i, v) =>
      let s1 := s0.setfs [(.TT_STORE_NO_VARIANT, 0, 0), (.TT_STORE_VAR_IDX, 0, i), (.TT_STORE_VAR_RUNG, 0, v.rung), (.TT_STORE_VAR_LANES, 0, v.lanes)]
      if force || old != some i then s1.loadPrograms v else s1

/-! ## Loading -/

/-- Complete the AT_MTC load whose swap still waits: a newer load takes the standby bank (DESIGN CHOICE: log entry 12). -/
def State.dropSwap (s : State) : State :=
  match s.tt.swap with
  | some r => ({ s with tt := { s.tt with swap := none } }.setfs [(.TT_STORE_SWAP_PENDING, 0, 0), (.TT_SWAP_MTC_SWAP, 0, 0)]).finish r.q r.id 0x07 1
  | none => s

/-- Start a load: the image is copied to the standby bank. One load is checked at a time. -/
def State.startLoad (s : State) (q : Nat) (e : Entry) (atMtc : Bool) : State :=
  if ent e 4 1 != b2n atMtc || s.tt.load.isSome then s
  else s.startCmd q 0x07 e [(4, 1), (8, 8), (16, 4), (24, 8)] (q == 0) fun s ft =>
    let s1 := (s.dropSwap.adopt ft .load).setf .TT_STORE_STANDBY_VALID 0 0
    { s1 with tt := { s1.tt with
        standby := none
        load := some { q := q, id := eId e, atMtc := atMtc, swapMtc := ent e 24 8,
                       bytes := rdBytes s.host (ent e 8 8) (min (ent e 16 4) (4 * 2 ^ 20 + 64)) } } }

/-- A reserved ACT is refused by the row of NOW. -/
def State.loadOther (s : State) (q : Nat) (e : Entry) : State :=
  if 1 < ent e 4 1 then s.startCmd q 0x07 e [(4, 1), (8, 8), (16, 4), (24, 8)] (q == 0) fun s _ => s.invalid q e rField 4 else s

/-- LOAD_TIMETABLE with ACT NOW (R64, R65). -/
def execLoadTimetableNow (q : QP) (e : Entry) (s : State) : Out := event s fun s => (s.startLoad q e false).loadOther q e

/-- LOAD_TIMETABLE with ACT AT_MTC (R64, R65). -/
def execLoadTimetableAtMtc (q : QP) (e : Entry) (s : State) : Out := event s fun s => s.startLoad q e true

/-- R65's conditions on an AT_MTC swap: a tick at which the running image's index returns to 0, the running stage length and share. -/
def State.atMtcOk (s : State) (im : Image) (t : Nat) : Bool :=
  match s.tt.active with
  | some a =>
    let b := s.rf .TT_START_MTC_START
    2 ≤ s.engSt && t % s.stageLen == 0 && b ≤ t && (t - b) / s.stageLen % a.period == 0 && im.stageUs == s.rf .TT_STAGE_LEN_LEN_US
      && im.share == s.rf .TT_UNSCHED_SHARE_SIXTEENTHS
  | none => false

/-- The checks end (R64): a failing image empties the standby bank; a good one waits for its swap. Where R65 turns a checked image away it stays in
the standby bank (DEDUCED: log entry 136). -/
def State.imageChecked (s : State) (ld : Load) : State :=
  let s0 : State := { s with tt := { s.tt with load := none } }
  let bad (d : Nat) (s : State) : State := s.finish ld.q ld.id 0x07 6 (invResult rTimetable d)
  match checkImage ld.bytes s.fuses.conf.code s.nteam (s.here 0, s.here 1, s.here 2) with
  | .inl k => bad k s0
  | .inr im =>
    let s1 := ({ s0 with tt := { s0.tt with standby := some im } }).setf .TT_STORE_STANDBY_VALID 0 1
    let wait : State := { s1 with tt := { s1.tt with swap := some { q := ld.q, id := ld.id, atMtc := ld.atMtc, swapMtc := ld.swapMtc } } }
    if !ld.atMtc then (if s.engSt = 0 then wait else bad 8 s1)
    else if !s.atMtcOk im ld.swapMtc then bad 8 s1
    else if ld.swapMtc ≤ s.now then s1.finish ld.q ld.id 0x07 1
    else wait.setfs [(.TT_STORE_SWAP_PENDING, 0, 1), (.TT_SWAP_MTC_SWAP, 0, ld.swapMtc)]

/-- The checks of a loaded image are done (R64). -/
def execTimetableImageChecked (s : State) : Out :=
  event s fun s => match s.tt.load with
    | some ld => s.imageChecked ld
    | none => s

/-! ## The swap -/

/-- A team of the image matches the defined team of its slot (R66). -/
def State.teamMatches (s : State) (x : TeamEnt) : Bool :=
  let t := x.slot
  let r := s.team t
  s.rf .TT_TEAM_STATE t == 1 && s.rf .TT_TEAM_YARD t == x.yard && s.rf .TT_TEAM_AXES t == x.axes && s.rf .TT_TEAM_ALG t == x.alg
    && s.rf .TT_TEAM_CHUNK_LOG2 t == x.chunkLog2 && r.ext == x.ext && r.origin == x.origin && r.eval == x.eval

/-- Restart the counts of a team in the new image (R67). -/
def State.restartCounts (s : State) (x : TeamEnt) : State :=
  (s.setf .TT_TEAM_INSTANCE x.slot 0).setTeam x.slot { s.team x.slot with cmds := [], started := [], slotPos := 0 }

/-- The banks swap and the new image's variant is selected (R65–R69). -/
def State.takeImage (s : State) (im : Image) : State :=
  let s1 := im.teams.foldl (fun (s : State) x => s.restartCounts x) s.abortBound
  let s2 := ({ s1 with tt := { s1.tt with active := some im, standby := none, badVars := [] } }).setfs
    [(.TT_STORE_ACTIVE_ID, 0, im.id), (.TT_STORE_ACTIVE_VALID, 0, 1), (.TT_STORE_STANDBY_VALID, 0, 0),
     (.TT_STORE_ACTIVE_BANK, 0, s.rf .TT_STORE_ACTIVE_BANK + 1), (.TT_PERIOD_PERIOD_STAGES, 0, im.period)]
  s2.selectVariant true

/-- Carry out the swap of a waiting load; its command completes (R65–R67). -/
def State.doSwap (s : State) (r : SwapReq) : State :=
  let s0 := ({ s with tt := { s.tt with swap := none } }).setfs [(.TT_STORE_SWAP_PENDING, 0, 0), (.TT_SWAP_MTC_SWAP, 0, 0)]
  match s0.tt.standby with
  | none => s0.finish r.q r.id 0x07 1
  | some im =>
    if !im.teams.all s0.teamMatches then s0.finish r.q r.id 0x07 6 (invResult rTimetable 8)
    else
      let s1 := s0.takeImage im
      (if r.atMtc then s1.setf .TT_START_MTC_START 0 r.swapMtc else s1).finish r.q r.id 0x07 0

end Sys2Proof.Machine
end

