-- ==== Sys2Proof/Machine/WorkChecks.lean ====
section
/-! DEFINITION. The checks of work commands that belong to a team, and the counting that binds them to slot instances
(R26, R89–R94, R121, R124, R125, R163, R169, R274, R282, R283, R372). -/

namespace Sys2Proof.Machine

/-! ## Formats (Table 5.4) and modes (Table 5.8) -/

/-- Bytes of n elements of a format. -/
def fmtBytes (f n : Nat) : Nat :=
  match f with
  | 0 | 6 => 4 * n
  | 1 | 2 => 2 * n
  | 3 => 8 * n
  | 8 => n / 2
  | _ => n

/-- A floating-point format. -/
def fmtFloat (f : Nat) : Bool := f ≤ 5

/-- A mode that Table 5.8 or R121 refuses for a command of input format f. -/
def modeBad (m f : Nat) : Bool :=
  bitsOf m 15 12 != 0 || bitAt m 2 || bitsOf m 9 8 == 3 || bitsOf m 7 6 == 3 || (bitsOf m 9 8 != 0 && (!fmtFloat f || f == 3))

/-! ## Fields of Table 10.8 -/

def wTeam (e : Entry) : Nat := ent e 4 1
def wGen (e : Entry) : Nat := ent e 5 1
def wMode (e : Entry) : Nat := ent e 6 2
def wSrc (e : Entry) : Nat := ent e 8 8
def wDst (e : Entry) : Nat := ent e 16 8
def wCount (e : Entry) : Nat := ent e 24 8
def wIn (e : Entry) : Nat := ent e 32 1
def wOut (e : Entry) : Nat := ent e 33 1
def wRoot (e : Entry) : Nat := ent e 34 2

/-- Members of team t and this member's team rank (R86). -/
def State.members (s : State) (t : Nat) : Nat := (s.team t).ext.1 * (s.team t).ext.2.1 * (s.team t).ext.2.2
def State.teamRank (s : State) (t : Nat) : Nat :=
  s.rank t 0 + (s.team t).ext.1 * (s.rank t 1 + (s.team t).ext.2.1 * s.rank t 2)

/-- Slice size σ of a team of n members and chunk size 2^c (R91). -/
def sliceBytes (c n : Nat) : Nat := 64 * max 1 (2 ^ c / (64 * max 1 n))

/-- Bytes of the largest shard (R90, R150): op, formats' element size of the input, elements e, members n. -/
def largestShard (op f e n : Nat) : Nat :=
  if op = 0x20 || op = 0x23 || op = 0x24 then ((fmtBytes f e + 63) / 64 + n - 1) / max 1 n * 64
  else if op = 0x30 || op = 0x32 then (fmtBytes f ((e + n - 1) / max 1 n) + 63) / 64 * 64
  else fmtBytes f e

/-- Number of chunks K (R91). -/
def chunkCount (op f e n c : Nat) : Nat := (largestShard op f e n + sliceBytes c n - 1) / sliceBytes c n

/-- Bytes that this member reads and writes (Table 4.1). -/
def State.bufSizes (s : State) (e : Entry) : Nat × Nat :=
  let t := wTeam e
  let n := s.members t
  let root := s.teamRank t == wRoot e
  let i (k : Nat) : Nat := fmtBytes (wIn e) (k * wCount e)
  let o (k : Nat) : Nat := fmtBytes (wOut e) (k * wCount e)
  match eOp e with
  | 0x20 => (i 1, o 1)
  | 0x21 => (i n, o 1)
  | 0x22 => (i 1, o n)
  | 0x23 => (if root then i 1 else 0, o 1)
  | 0x24 => (i 1, if root then o 1 else 0)
  | 0x25 => (i n, o n)
  | 0x26 => (i 1, if root then o n else 0)
  | 0x27 => (if root then i n else 0, o 1)
  | 0x30 => (i 1, fmtBytes (rdLe s.host (ent e 56 8 + 5) 1) (wCount e))
  | 0x31 => (i 1, if wDst e = 0 then 0 else 4 * ent e 40 2)
  | 0x32 => (i 1, 4 * ent e 40 2)
  | 0x50 => (i 1, o 1)
  | _ => (0, 0)

/-! ## Buffers -/

/-- A depot range lies in yard y's quarter. -/
def State.inQuarter (s : State) (y a n : Nat) : Bool := y * s.quarter ≤ a && a + n ≤ (y + 1) * s.quarter

/-- Checks of a buffer of n bytes whose address field stands at offset o, written (w) or read. -/
def State.regionBad (s : State) (y : Nat) (e : Entry) (o n : Nat) (w : Bool) (fragO : Nat := 44) : List (Bool × Nat × Nat) :=
  let a := ent e o 8
  if n = 0 then []
  else match s.bufFrags e fragO with
    | some fs => [(decide (fragLen fs < a + n), rBounds, o)]
    | none =>
      [(decide (2 ^ 48 ≤ a), rField, o),
       (if isDepot a then !s.inQuarter y (offsetOf a) n || (w && s.inMirror (offsetOf a) n) else decide (2 ^ 47 < a + n), rBounds, o)]

/-- Two lists of pieces share a byte. -/
def overlap (xs ys : List (Nat × Nat)) : Bool := xs.any fun x => ys.any fun y => x.1 < y.1 + y.2 && y.1 < x.1 + x.2

/-- LENGTH of an OFFLOAD or FETCH (Table 10.11), and its piece of a depot: of this chip's own by the local address, of another's by the global one. -/
def oLen (e : Entry) : Nat := ent e 24 8
def State.depotPiece (s : State) (e : Entry) : Nat × Nat := (if wDst e / 2 ^ 48 = s.self then wDst e % 2 ^ 48 else wDst e, oLen e)

/-- The pieces of memory that a command writes as its destination: BARRIER has none, UPDATE's destination field names clip factors, which it reads
(R166), and OFFLOAD and FETCH move between HOST and DEPOT. -/
def State.destPieces (s : State) (e : Entry) : List (Nat × Nat) :=
  match eOp e with
  | 0x28 | 0x31 => []
  | 0x48 => [s.depotPiece e]
  | 0x49 => pieces (s.bufFrags e 44) (wSrc e) (oLen e)
  | _ => pieces (s.bufFrags e 44) (wDst e) (s.bufSizes e).2

/-- The pieces of memory that a command reads as its source. -/
def State.srcPieces (s : State) (e : Entry) : List (Nat × Nat) :=
  match eOp e with
  | 0x28 => []
  | 0x48 => pieces (s.bufFrags e 44) (wSrc e) (oLen e)
  | 0x49 => [s.depotPiece e]
  | _ => pieces (s.bufFrags e 44) (wSrc e) (s.bufSizes e).1

/-- Destinations of the commands bound at present. -/
def State.boundDests (s : State) : List (Nat × Nat) :=
  ((s.insts.filter fun i => i.cmd.isSome && i.st != .ended).map fun i => s.destPieces i.entry).flatten

/-- Overlaps that R94 refuses. -/
def State.overlapBad (s : State) (e : Entry) : Bool :=
  let op := eOp e
  let place := (op == 0x20 && wSrc e == wDst e) ||
    (op == 0x22 && wSrc e == wDst e + s.teamRank (wTeam e) * fmtBytes (wOut e) (wCount e))
  (!place && overlap (s.srcPieces e) (s.destPieces e)) || overlap (s.destPieces e) s.boundDests

/-! ## Checks common to team commands -/

/-- The depot is trained on every channel (R372). -/
def State.depotReady (s : State) : Bool := s.rf .DEP_STATUS_TRAINED == 0xFFFF

/-- The team's slot list in the active image holds opcode op. -/
def State.hasSlot (s : State) (t op : Nat) : Bool := (s.slotList t).any fun x => x.op == op

/-- Slice, team slot, team state and queue (R291, R2, R282, R18). -/
def teamBad (q : Nat) (e : Entry) (s : State) : List (Bool × Nat × Nat) :=
  let t := wTeam e
  [(!s.sliceSet, rState, 0), (decide (s.nteam ≤ t), rBounds, 4), (s.rf .TT_TEAM_STATE t != 1, rTeam, 4),
   (q == 0 || (s.team t).queue != q, rQueue, 4)]

/-- Bytes of the command's output that the epoch staging area of its yard must hold (R333). -/
def epochBad (e : Entry) (s : State) : List (Bool × Nat × Nat) :=
  let y := s.rf .TT_TEAM_YARD (wTeam e)
  if !eEpoch e then []
  else [(!s.depotReady, rState, 1),
    (!s.on .YRD_EPOCH_STAGE_EN y || s.rf .YRD_EPOCH_STAGE_SIZE_MIB y * 2 ^ 20 < (s.bufSizes e).2, rBounds, 16)]

def rooted (op : Nat) : Bool := op == 0x23 || op == 0x24 || op == 0x26 || op == 0x27
def blockOp (op : Nat) : Bool := op == 0x21 || op == 0x22 || op == 0x25 || op == 0x26 || op == 0x27

/-- Formats, mode and slot of a collective (R124, R121, R26). -/
def formatBad (e : Entry) (s : State) : List (Bool × Nat × Nat) :=
  [(decide (8 < wIn e), rField, 32), (decide (8 < wOut e), rField, 33), (modeBad (wMode e) (wIn e), rField, 6),
   (!s.hasSlot (wTeam e) (eOp e), rState, 0)]

/-- Count, root, alignment and partition of a data collective (R89, R91, R125, Table 10.8). The block length b is a multiple of 64 B in the input and in
the output format where the two differ (DEDUCED: log entry 144). -/
def shapeBad (e : Entry) (s : State) : List (Bool × Nat × Nat) :=
  let op := eOp e
  let n := s.members (wTeam e)
  let c := wCount e
  [(c == 0 || decide (2 ^ 40 ≤ c), rField, 24), (rooted op && decide (n ≤ wRoot e), rBounds, 34), (!rooted op && wRoot e != 0, rField, 34)] ++
  s.fragBad e 44 ++
  [(wSrc e % 64 != 0, rBounds, 8), (wDst e % 64 != 0, rBounds, 16), ((wIn e == 8 || wOut e == 8) && c % 2 == 1, rBounds, 24),
   (blockOp op && (fmtBytes (wIn e) c % 64 != 0 || fmtBytes (wOut e) c % 64 != 0), rBounds, 24),
   (decide (2 ^ 32 ≤ chunkCount op (wIn e) c n (s.rf .TT_TEAM_CHUNK_LOG2 (wTeam e))), rBounds, 24)]

/-- The buffers of a command and their overlaps (R94, R176). -/
def bufBad (e : Entry) (s : State) : List (Bool × Nat × Nat) :=
  let y := s.rf .TT_TEAM_YARD (wTeam e)
  s.regionBad y e 8 (s.bufSizes e).1 false ++ s.regionBad y e 16 (s.bufSizes e).2 true ++ [(s.overlapBad e, rBounds, 16)]

/-- Checks of opcodes 0x20–0x27 after those of the team. -/
def collBad (e : Entry) (s : State) : List (Bool × Nat × Nat) := formatBad e s ++ shapeBad e s ++ bufBad e s ++ epochBad e s

/-- Checks of BARRIER (Table 10.8, R254). -/
def barrierBad (e : Entry) (s : State) : List (Bool × Nat × Nat) :=
  formatBad e s ++
  [(decide (2 ^ 14 ≤ wSrc e), rField, 8), (wDst e != 0, rField, 16), (wCount e != 0, rField, 24), (wRoot e != 0, rField, 34),
   (!s.on .SYN_BAR_VALID (wTeam e) || s.rf .SYN_BAR_OBJ (wTeam e) != wSrc e, rState, 8)]

/-! ## Groom commands (Tables 6.7, 6.8, 10.9) -/

def gD (e : Entry) : Nat := ent e 34 2
def gT (e : Entry) : Nat := ent e 40 2
def gTables (e : Entry) : Nat := ent e 56 8

/-- Field of descriptor d, and of tensor entry t, of the table at a. -/
def State.descAt (s : State) (a d o k : Nat) : Nat := rdLe s.host (a + 128 * d + o) k
def State.tensAt (s : State) (a nd t o k : Nat) : Nat := rdLe s.host (a + 128 * nd + 16 * t + o) k

/-- First element and element count of this member's shard of e elements: that of R150 for RCUG, all of them for UPDATE (R166). -/
def State.groomShard (s : State) (op t e : Nat) : Nat × Nat :=
  if op = 0x30 then
    let n := max 1 (s.members t)
    let k := s.teamRank t
    (k * (e / n) + min k (e % n), e / n + b2n (decide (k < e % n)))
  else (0, e)

/-- The part of tensor t, of nt tensors of a command of `count` elements, that lies in a shard: first element and element count. -/
def State.tensPart (s : State) (a nd nt count : Nat) (sh : Nat × Nat) (t : Nat) : Nat × Nat :=
  let x := max (s.tensAt a nd t 0 8) sh.1
  let z := if t + 1 < nt then s.tensAt a nd (t + 1) 0 8 else count
  (x, min z (sh.1 + sh.2) - x)

/-- Elements of this member's shard that belong to group d of command e (R164). -/
def State.groupSize (s : State) (e : Entry) (d : Nat) : Nat :=
  let sh := s.groomShard (eOp e) (wTeam e) (wCount e)
  (List.range (gT e)).foldl (fun n t =>
    if s.tensAt (gTables e) (gD e) t 12 2 = d then n + (s.tensPart (gTables e) (gD e) (gT e) (wCount e) sh t).2 else n) 0

/-- The address fields of a descriptor that its rule uses, with the element size of each: parameters, first moments, second moments. -/
def State.groupAddrs (s : State) (a d : Nat) : List (Nat × Nat) :=
  let f (o k : Nat) : Nat := s.descAt a d o k
  [(f 48 8, fmtBytes (f 2 1) 1)] ++ (if f 0 1 = 0 then [] else [(f 56 8, fmtBytes (f 3 1) 1)]) ++
    (if f 0 1 = 2 then [(f 64 8, fmtBytes (f 4 1) 1)] else [])

/-- Local address checks of n elements of z bytes at a: aligned to the element, in host space or in the yard's quarter (R146, R163). -/
def State.gAddrBad (s : State) (y a z n : Nat) : Bool :=
  a % z != 0 || 2 ^ 48 ≤ a || (isDepot a && !s.inQuarter y (offsetOf a) (z * max 1 n))

/-- A group of command e reaches into the incoming mirror region (R309). -/
def State.groupMirror (s : State) (e : Entry) (d : Nat) : Bool :=
  (s.groupAddrs (gTables e) d).any fun x => isDepot x.1 && s.inMirror (offsetOf x.1) (x.2 * s.groupSize e d)

/-- An FP32 code that is a positive number; +∞ is one (Table 6.7). -/
def positive32 (x : Nat) : Bool := 0 < x && x ≤ 0x7F800000

/-- Descriptor d of command e breaks Table 6.7 or an alignment of R163. -/
def State.descBad (s : State) (y : Nat) (e : Entry) (d : Nat) : Bool :=
  let f (o k : Nat) : Nat := s.descAt (gTables e) d o k
  let rule := f 0 1
  3 < rule || 2 < f 1 1 || 1 < f 2 1 || (rule != 0 && 1 < f 3 1) || (rule == 2 && 1 < f 4 1)
    || !([0, 1, 4].contains (f 5 1)) || f 6 2 &&& 0xFFC4 != 0 || (rule == 2 && f 8 8 == 0)
    || !positive32 (f 36 4) || 7 < f 72 4 || (List.range 20).any (fun k => f (76 + k) 1 != 0)
    || (s.groupAddrs (gTables e) d).any fun x => s.gAddrBad y x.1 x.2 (s.groupSize e d)

/-- The tensor table breaks Table 6.8 or R163. -/
def State.tensBad (s : State) (a nd nt count : Nat) : Bool :=
  let f (t : Nat) : Nat := s.tensAt a nd t 0 8
  f 0 != 0 || count ≤ f (nt - 1) || (List.range nt).any (fun t =>
    2 ^ 40 ≤ f t || (nd != 0 && nd ≤ s.tensAt a nd t 12 2) || s.tensAt a nd t 14 2 != 0 || (t + 1 < nt && f (t + 1) ≤ f t))

/-- The mirrored descriptors hold different STEPs (R303). -/
def State.mirStepBad (s : State) (a nd : Nat) : Bool :=
  let m := (List.range nd).filter fun d => bitAt (s.descAt a d 72 4) 0
  match m with
  | [] => false
  | d :: t => t.any fun k => s.descAt a k 8 8 != s.descAt a d 8 8

/-- Checks of RCUG, UPDATE and NORM after those of the team. -/
def groomBad (e : Entry) (s : State) : List (Bool × Nat × Nat) :=
  let y := s.rf .TT_TEAM_YARD (wTeam e)
  let upd := eOp e == 0x31
  [(decide (8 < wIn e), rField, 32), (modeBad (wMode e) (wIn e), rField, 6), (!s.hasSlot (wTeam e) (eOp e), rState, 0),
   (wCount e == 0 || decide (2 ^ 40 ≤ wCount e), rField, 24),
   (if eOp e = 0x32 then gD e != 0 else gD e == 0 || decide (256 < gD e), rField, 34), (gT e == 0 || decide (4096 < gT e), rField, 40),
   (!upd && wSrc e % 64 != 0, rBounds, 8), (!upd && wDst e % 64 != 0, rBounds, 16), (wIn e == 8 && wCount e % 2 == 1, rBounds, 24)] ++
  s.regionBad y e 8 (s.bufSizes e).1 false ++ s.regionBad y e 16 (s.bufSizes e).2 (!upd) ++ [(s.overlapBad e, rBounds, 16)] ++
  [((List.range (gD e)).any (s.descBad y e), rDescriptor, 56), ((List.range (gD e)).any (s.groupMirror e), rBounds, 56), (s.tensBad (gTables e) (gD e) (gT e) (wCount e), rDescriptor, 56),
   (s.mirStepBad (gTables e) (gD e), rDescriptor, 56)] ++ epochBad e s

/-! ## OFFLOAD, FETCH, COPY -/

def oLink (e : Entry) : Nat := ent e 32 1
def oDepot (e : Entry) : Nat := ent e 16 8

/-- Endpoint at the far end of link l (R282, R300): one step along it, modulo the slice. -/
def State.farEnd (s : State) (l : Nat) : Option Nat :=
  let a := axisOf l
  let m := max 1 (s.extent a)
  let c := if dirOf l then (s.here a + m - 1) % m else (s.here a + 1) % m
  s.epAt (if a = 0 then c else s.here 0) (if a = 1 then c else s.here 1) (if a = 2 then c else s.here 2)

/-- DEPOT does not name the depot that LINK reaches (R169, R282). -/
def moveTargetBad (e : Entry) (s : State) : Bool :=
  let ep := oDepot e / 2 ^ 48
  let y := s.rf .TT_TEAM_YARD (wTeam e)
  !isDepot (oDepot e % 2 ^ 48) ||
    if oLink e = 7 then ep != s.self || !s.inQuarter y (offsetOf (oDepot e)) (oLen e)
        || (eOp e == 0x48 && s.inMirror (offsetOf (oDepot e)) (oLen e))
    else s.farEnd (oLink e) != some ep || 32 * 2 ^ 30 < offsetOf (oDepot e) + oLen e

/-- Checks of OFFLOAD and FETCH after those of the team: HOST is a host offset, no depot's (R169, Table 10.11). -/
def moveBad (e : Entry) (s : State) : List (Bool × Nat × Nat) :=
  let y := s.rf .TT_TEAM_YARD (wTeam e)
  [(!s.hasSlot (wTeam e) (eOp e), rState, 0), (decide (5 < oLink e) && oLink e != 7, rField, 32),
   (oLen e == 0 || oLen e % 64 != 0, rBounds, 24), (!s.depotReady, rState, 16)] ++ s.fragBad e 44 ++
  [(!eFrag e && isDepot (wSrc e), rField, 8)] ++ s.regionBad y e 8 (oLen e) (eOp e == 0x49) ++
  [(moveTargetBad e s, rBounds, 16), (s.overlapBad e, rBounds, 16)]

def copyBad (e : Entry) (s : State) : List (Bool × Nat × Nat) :=
  let dep (a : Nat) : Bool := !eFrag e && isDepot a
  formatBad e s ++
  [(wCount e == 0 || decide (2 ^ 40 ≤ wCount e), rField, 24), (wRoot e != 0, rField, 34),
   ((wIn e == 8 || wOut e == 8) && wCount e % 2 == 1, rBounds, 24),
   ((dep (wSrc e) || dep (wDst e)) && !s.depotReady, rState, if dep (wSrc e) then 8 else 16)] ++ s.fragBad e 44 ++ bufBad e s

/-! ## Counting (R26, R283) -/

/-- The team-wide number of the c-th instance of opcode op, counted from the slots that the period still brings; none for
an instance that has already started. -/
def State.instanceOf (s : State) (t op c : Nat) : Option Nat :=
  let l := s.slotList t
  let r := s.team t
  let done := sget (fun _ => 0) r.started op
  let rot := l.drop r.slotPos ++ l.take r.slotPos
  let at_ := ((List.range rot.length).filter fun j => match rot[j]? with
    | some x => x.op == op
    | none => false)
  if c < done || at_.isEmpty then none
  else
    let k := c - done
    some (s.rf .TT_TEAM_INSTANCE t + k / at_.length * rot.length + at_.getD (k % at_.length) 0)

/-- Count a validated command of team t and bind it to its instance: its record waits to be written (R26, R83, R283). One whose instance has
started completes ABORTED (R82). A command that validation turns away, INVALID or STALE_GEN, is not counted (DEDUCED: log entry 142). -/
def State.bind (s : State) (ft : Fetched) (t : Nat) : State :=
  let op := eOp ft.e
  let r := s.team t
  let c := sget (fun _ => 0) r.cmds op
  let s1 := s.setTeam t { r with cmds := sset (fun _ => 0) r.cmds op (c + 1) }
  match s.instanceOf t op c with
  | none => s1.finish ft.q (eId ft.e) op 1
  | some n =>
    let s2 := s1.adopt ft (.work t n)
    { s2 with insts := s2.insts ++ [{ team := t, gen := s.rf .TT_TEAM_GEN t, n := n, op := op, cmd := some (ft.q, eId ft.e),
                                      entry := ft.e, idx := c, epoch := eEpoch ft.e }] }

/-- Bring the instance numbers of team t's commands up to date after slots that a disabled window has passed over: a command moves to the instance
that the coming slots give it, and its record is written anew (R61; log entry 51). -/
def State.renumber (s : State) (t : Nat) : State :=
  let mine (i : Inst) : Bool := i.team == t && (i.st == .waiting || i.st == .bound) && !i.due && i.cmd.isSome
  (s.insts.filter mine).foldl (fun (s : State) (i : Inst) =>
    match s.instanceOf t i.op i.idx, i.cmd with
    | some n, some (q, id) =>
      if n = i.n then s
      else
        let s1 := (s.clearRec t i.n).updInst (fun j => mine j && j.cmd == i.cmd) fun j => { j with n := n, st := .waiting, stageBase := 0, stageLen := 0 }
        { s1 with qs := { s1.qs with cmds := updWhere (fun c => c.q == q && c.id == id) (fun c => { c with phase := .work t n }) s1.qs.cmds } }
    | _, _ => s) s

/-- Start a team command: the common checks, the generation (R282), its own checks, and the binding. -/
def State.teamCmd (s : State) (q op : Nat) (e : Entry) (fs : List (Nat × Nat)) (bad : State → List (Bool × Nat × Nat)) : State :=
  s.startCmd q op e fs true fun s ft =>
    match firstBad (teamBad q e s) with
    | some (r, d) => s.invalid q e r d
    | none =>
      if wGen e != s.rf .TT_TEAM_GEN (wTeam e) then s.finish q (eId e) op 8
      else match firstBad (bad s) with
        | some (r, d) => s.invalid q e r d
        | none => s.bind ft (wTeam e)

/-- Parameter fields of Table 10.8, Table 10.9 and Table 10.11. -/
def collFields : List (Nat × Nat) :=
  [(4, 1), (5, 1), (6, 2), (8, 8), (16, 8), (24, 8), (32, 1), (33, 1), (34, 2), (36, 4), (40, 4), (44, 2), (48, 8), (56, 8)]
def groomFields : List (Nat × Nat) :=
  [(4, 1), (5, 1), (6, 2), (8, 8), (16, 8), (24, 8), (32, 1), (34, 2), (36, 4), (40, 2), (48, 8), (56, 8)]
def moveFields : List (Nat × Nat) := [(4, 1), (5, 1), (8, 8), (16, 8), (24, 8), (32, 1), (44, 2), (56, 8)]

end Sys2Proof.Machine
end

