-- ==== Sys2Proof/Machine/Operands.lean ====
section
/-! DEFINITION. The operand forms of datapath operations: marked bytes, the places of Table 5.3 and of the 32 B descriptors, hitch and
depot requests, and what is withheld from memory (R28, R91, R108–R110, R115, R118, R191, R342–R346). -/

namespace Sys2Proof.Machine

/-! ## Marks -/

/-- Granules of n bytes. -/
def granCount (n : Nat) : Nat := (n + 63) / 64

/-- Nothing is to be noted of the granule. -/
def Mark.plain (m : Mark) : Bool := m.deps.isEmpty && m.flags == {} && !m.void && m.car == 0 && m.op == 0

/-- Items of both lists, each once. -/
def union (a b : List Nat) : List Nat := a ++ b.filter fun x => !a.contains x

/-- What is known of bytes made from both. -/
def Mark.join (a b : Mark) : Mark := { deps := union a.deps b.deps, flags := a.flags.or b.flags, void := a.void || b.void }

/-- Mark of granule j. -/
def Blob.mark (b : Blob) (j : Nat) : Mark := ((b.marks.find? fun x => x.1 == j).map (·.2)).getD {}

/-- Everything known of the blob's granules lo .. lo + n − 1. -/
def Blob.joined (b : Blob) (lo n : Nat) : Mark :=
  (b.marks.filter fun x => lo ≤ x.1 && x.1 < lo + n).foldl (fun (m : Mark) x => m.join x.2) {}

/-- The part of a blob from granule g on, k bytes long. -/
def Blob.slice (b : Blob) (g k : Nat) : Blob :=
  { data := (b.data.drop (64 * g)).take k,
    marks := (b.marks.filter fun x => g ≤ x.1 && 64 * (x.1 - g) < k).map fun x => (x.1 - g, x.2) }

/-- Keep the marks that say something. -/
def Blob.tidy (b : Blob) : Blob := { b with marks := b.marks.filter fun x => !x.2.plain }

/-- Every carriage a blob derives from that is not confirmed. -/
def Blob.deps (b : Blob) : List Nat := (b.joined 0 (granCount b.data.length + 1)).deps

/-- The flags of everything in the blob. -/
def Blob.flags (b : Blob) : Flags3 := (b.joined 0 (granCount b.data.length + 1)).flags

/-- A blob of a missing member: zeros, every granule void (R109). -/
def voidBlob (n : Nat) : Blob :=
  { data := List.replicate n 0, marks := (List.range (granCount n)).map fun j => (j, { void := true, flags := { absent := true } }) }

/-- Bytes that are unavailable: zeros that count as lost (R108, R346). -/
def lostBlob (n : Nat) : Blob :=
  { data := List.replicate n 0, marks := (List.range (granCount n)).map fun j => (j, { flags := { poison := true } }) }

/-- The bytes of a blob became unavailable: zeros that count as lost, with what else is known of them. -/
def Blob.lose (b : Blob) : Blob :=
  let l := lostBlob b.data.length
  { l with marks := l.marks.map fun x => (x.1, { b.mark x.1 with flags := (b.mark x.1).flags.or x.2.flags }) }

/-! ## Scratchpad -/

/-- Read k bytes of yard y's bank at offset o, with their marks. -/
def State.rdScr (s : State) (y o k : Nat) : Blob :=
  let g := scrAddr y o / 64
  { data := rdBytes s.scratch (scrAddr y o) k,
    marks := (s.arr.marks.filter fun x => g ≤ x.1 && 64 * (x.1 - g) < k).map fun x => (x.1 - g, x.2) }

/-- Write a blob into yard y's bank at offset o. -/
def State.wrScr (s : State) (y o : Nat) (b : Blob) : State :=
  let g := scrAddr y o / 64
  let n := granCount b.data.length
  let kept := s.arr.marks.filter fun x => !(g ≤ x.1 && x.1 < g + n)
  { s.wrScratch (scrAddr y o) b.data with
    arr := { s.arr with marks := kept ++ (b.tidy.marks.filter fun x => x.1 < n).map fun x => (g + x.1, x.2) } }

/-! ## Buffers and streams -/

/-- A buffer address: its low 28 bits (Table 5.3). -/
def bufAddr (a : Nat) : Nat := a % 2 ^ 28

def State.rxBuf (s : State) (row a : Nat) : Option Buf := s.arr.rxbuf.find? fun b => b.row == row && b.addr == bufAddr a
def State.txBuf (s : State) (row a : Nat) : Option Buf := s.arr.txbuf.find? fun b => b.row == row && b.addr == bufAddr a

def State.dropRx (s : State) (row a : Nat) : State :=
  { s with arr := { s.arr with rxbuf := s.arr.rxbuf.filter fun b => !(b.row == row && b.addr == bufAddr a) } }
def State.putRx (s : State) (row a : Nat) (b : Blob) : State :=
  { s.dropRx row a with arr := { (s.dropRx row a).arr with rxbuf := (s.dropRx row a).arr.rxbuf ++ [{ row := row, addr := bufAddr a, blob := b }] } }
def State.putTx (s : State) (row a : Nat) (b : Blob) (op : Nat) : State :=
  let others := s.arr.txbuf.filter fun x => !(x.row == row && x.addr == bufAddr a)
  { s with arr := { s.arr with txbuf := others ++ [{ row := row, addr := bufAddr a, blob := b, op := op }] } }

def State.stream (s : State) (row col tag : Nat) : Option Stream :=
  s.arr.streams.find? fun x => x.row == row && x.col == col && x.tag == tag
def State.dropStream (s : State) (row col tag : Nat) : State :=
  { s with arr := { s.arr with streams := s.arr.streams.filter fun x => !(x.row == row && x.col == col && x.tag == tag) } }

/-! ## Tags -/

/-- The operation that holds a tag. -/
def Post.tagOp (x : Post) (tag : Nat) : Option TagOp := x.tags.find? fun t => t.tag == tag

/-- Change the operation of a tag. -/
def State.updTag (s : State) (p tag serial : Nat) (f : TagOp → TagOp) : State :=
  let x := s.post p
  s.setPost p { x with tags := updWhere (fun t => t.tag == tag && t.serial == serial) f x.tags }

/-- The instance that the postilion's segment serves. -/
def State.instOf (s : State) (p : Nat) : Option Inst :=
  let x := s.post p
  match x.cur with
  | some g => s.insts.find? fun i => i.team == g.team && i.n == x.inst && i.st == .running
  | none => none

/-- The gate of the instance's groom job was a skip (R155). -/
def State.skipped (s : State) (p : Nat) : Bool :=
  match s.instOf p with
  | some i => i.skip.isSome
  | none => false

/-- Change the instance that the postilion's segment serves. -/
def State.updInstOf (s : State) (p : Nat) (f : Inst → Inst) : State :=
  let x := s.post p
  match x.cur with
  | some g => s.updInst (fun i => i.team == g.team && i.n == x.inst && i.st == .running) f
  | none => s

/-! ## Which chunk an output byte belongs to (R90, R91, R150) -/

/-- Chunk index of byte o of the output of an instance. -/
def State.chunkOf (s : State) (i : Inst) (o : Nat) : Nat :=
  let e := i.entry
  let n := max 1 (s.members i.team)
  let sig := sliceBytes (s.rf .TT_TEAM_CHUNK_LOG2 i.team) n
  let oi := o * fmtBits (wIn e) / fmtBits (wOut e)
  if i.op = 0x20 || i.op = 0x23 || i.op = 0x24 then
    let g := (fmtBytes (wIn e) (wCount e) + 63) / 64
    let q := g / n
    let r := g % n
    let k := oi / 64
    (if k < r * (q + 1) then k % (q + 1) else (k - r * (q + 1)) % max 1 q) * 64 / sig
  else if i.op = 0x22 || i.op = 0x25 || i.op = 0x26 then oi % max 1 (fmtBytes (wIn e) (wCount e)) / sig
  else if i.op = 0x30 then
    let m := wCount e / n
    let r := wCount e % n
    let k := o * 8 / fmtBits i.gfmt
    fmtBytes (wIn e) (if k < r * (m + 1) then k % (m + 1) else (k - r * (m + 1)) % max 1 m) / sig
  else oi / sig

/-- Note that output byte o of the instance is withheld because of a lost carriage, or because of ABSENT (R108, R110, R112). -/
def State.noteWithheld (s : State) (i : Inst) (o : Nat) (m : Mark) : State :=
  let k := s.chunkOf i o
  let add (l : List Nat) : List Nat := if l.contains k then l else l ++ [k]
  s.updInst (fun j => j.team == i.team && j.n == i.n && j.st == .running) fun j =>
    if m.flags.absent || m.void then { j with withAbsent := add j.withAbsent } else { j with withPoison := add j.withPoison }

/-! ## Hitch requests (R342, R344) -/

/-- Split n bytes from address a at 4 KiB boundaries: (address, length, offset). -/
def splitReq : Nat → Nat → Nat → Nat → List (Nat × Nat × Nat)
  | 0, _, _, _ => []
  | fuel + 1, a, n, o =>
    if n = 0 then []
    else
      let k := min n (4096 - a % 4096)
      (a, k, o) :: splitReq fuel (a + k) (n - k) (o + k)

/-- Pieces of a whole range. -/
def splitAll (a n o : Nat) : List (Nat × Nat × Nat) := splitReq (n / 4096 + 2) a n o

/-- Beats of n bytes. -/
def beatCount (n : Nat) : Nat := (granCount n + 3) / 4

/-- The next tag of a port's requests. -/
def State.nextHitchTag (s : State) : Nat := s.hitch.nextTag % 65536

/-- Issue one request: it takes a request credit; the beats of a write take the beat credits there are, the others follow (R342). -/
def State.issueReq (s : State) (r : HitchReq) : State :=
  let q := { r with tag := s.nextHitchTag, t := s.now }
  let h := s.hitch
  let c := sget (fun _ => 0) h.cred r.port
  let b := sget (fun _ => 0) h.beats r.port
  let k := if r.wr then min b (beatCount r.len) else 0
  let h' := { h with
    nextTag := h.nextTag + 1
    cred := sset (fun _ => 0) h.cred r.port (c - 1)
    beats := sset (fun _ => 0) h.beats r.port (b - k)
    reqs := h.reqs ++ [{ q with beats := if r.wr then k else 0 }] }
  let s1 : State := { s with hitch := h' }
  let y := r.yg / 16
  (s1.setYard y { s1.yard y with lastReq := s.now }).emit
    (if r.wr then .hitchWrite r.port q.tag r.yg r.addr r.len r.data else .hitchRead r.port q.tag r.yg r.addr r.len)

/-- The request belongs to the groom unit. -/
def HitchReq.grooms (r : HitchReq) : Bool := match r.use with
  | .tag _ => false
  | .groom _ _ => true

/-- The groom job has issued a write (R149, R158). -/
def State.groomWrote (s : State) (job : Nat) : State :=
  match s.groom.job with
  | some j =>
    if j.id = job then
      { (s.updInst (fun i => i.team == j.req.team && i.n == j.inst) fun i => { i with groomed := true }) with
        groom := { s.groom with job := some { j with wrote := true } } }
    else s
  | none => s

/-- Issue a request, noting the first write of a groom job. -/
def State.issueFor (s : State) (r : HitchReq) : State :=
  match r.use with
  | .groom job _ => if r.wr then (s.issueReq r).groomWrote job else s.issueReq r
  | .tag _ => s.issueReq r

/-- Issue what waits, in order, column 14's requests before the groom unit's (R146), while its port has a request credit. -/
def State.pumpHitch (s : State) : State :=
  ((s.hitch.waitq.filter fun r => !r.grooms) ++ s.hitch.waitq.filter HitchReq.grooms).foldl (fun (s : State) r =>
    if 0 < sget (fun _ => 0) s.hitch.cred r.port then s.issueFor r
    else { s with hitch := { s.hitch with waitq := s.hitch.waitq ++ [r] } }) { s with hitch := { s.hitch with waitq := [] } }

/-- Queue requests and issue what may go. -/
def State.hitchAdd (s : State) (rs : List HitchReq) : State :=
  ({ s with hitch := { s.hitch with waitq := s.hitch.waitq ++ rs } }).pumpHitch

/-- Queue depot requests. -/
def State.depotAdd (s : State) (rs : List DepotReq) : State :=
  { s with hitch := { s.hitch with dreqs := s.hitch.dreqs ++ rs } }

/-- Host pieces of a command's logical address a: its fragments where it has a table (R274). -/
def State.hostPieces (s : State) (i : Option Inst) (a n : Nat) : List (Nat × Nat) :=
  match i with
  | some j => match s.bufFrags j.entry 44 with
    | some fs => fragPieces fs a n
    | none => [(a % 2 ^ 47, n)]
  | none => [(a % 2 ^ 47, n)]

/-- What the requests of one operation share: its yard with the generation, its direction, its user, its instance. -/
structure ReqFor where
  yg : Nat
  wr : Bool
  use : HitchUse
  own : Option (Nat × Nat)

/-- Requests for the pieces of an operation's bytes, from offset o, on the ports that `port` gives. -/
def hitchReqs (q : ReqFor) (port : Nat → Nat) (data : List Byte) : List (Nat × Nat) → Nat → List HitchReq
  | [], _ => []
  | (a, n) :: t, o =>
    ((splitAll a n o).map fun x =>
      { port := port x.1
        tag := 0
        wr := q.wr
        yg := q.yg
        addr := x.1
        len := x.2.1
        off := x.2.2
        t := 0
        data := if q.wr then (data.drop x.2.2).take x.2.1 else []
        own := q.own
        use := q.use }) ++ hitchReqs q port data t (o + n)

/-- Depot requests of an operation, on the channels of its yard. -/
def depotReqs (q : ReqFor) (a n o : Nat) (data : List Byte) : List DepotReq :=
  (splitAll a n o).map fun x =>
    { ch := portFor (q.yg / 16) x.1
      wr := q.wr
      addr := x.1
      data := if q.wr then (data.drop (x.2.2 - o)).take x.2.1 else []
      len := x.2.1
      own := q.own
      use := match q.use with
        | .tag r => .tag r x.2.2
        | .groom job part => .groom job part (q.yg / 16) }

/-- Requests of a datapath operation of postilion p under a tag. -/
def State.reqFor (s : State) (p : Nat) (wr : Bool) (use : TagRef) : ReqFor :=
  { yg := s.yg (rowOf p), wr := wr, use := .tag use, own := (s.instOf p).map fun i => (i.team, i.n) }

/-! ## Held writes (R28, R108–R110, R333) -/

/-- Maximal runs of granules of a blob that may be written: (first granule, count), of n granules from j. -/
def writeRuns (b : Blob) : Nat → Nat → Option (Nat × Nat) → List (Nat × Nat)
  | 0, _, cur => match cur with
    | some c => [c]
    | none => []
  | k + 1, j, cur =>
    let m := b.mark j
    let ok := !m.flags.poison && !m.flags.absent && !m.void
    match ok, cur with
    | true, some (a, c) => writeRuns b k (j + 1) (some (a, c + 1))
    | true, none => writeRuns b k (j + 1) (some (j, 1))
    | false, some c => c :: writeRuns b k (j + 1) none
    | false, none => writeRuns b k (j + 1) none

/-- Offset in the destination of an output address, where the address lies in the destination of instance i. -/
def State.destOff (s : State) (i : Inst) (a : Nat) : Option Nat :=
  let d := wDst i.entry
  let n := (s.bufSizes i.entry).2
  if d ≤ a && a < d + n then some (a - d) else none

/-- Note the withheld granules of a write at address a. -/
def State.noteGranules (s : State) (i : Option Inst) (a : Nat) (b : Blob) : State :=
  match i with
  | none => s
  | some inst =>
    b.marks.foldl (fun (s : State) x =>
      if x.2.flags.poison || x.2.flags.absent || x.2.void then
        match s.destOff inst (a + 64 * x.1) with
        | some o => s.noteWithheld inst o x.2
        | none => s
      else s) s

/-- The parts of bytes d .. d + n − 1 of an RCUG's gather destination that are written: those of elements whose descriptor has GATHER set (R157). -/
def State.gathSpans (s : State) (i : Inst) (d n : Nat) : List (Nat × Nat) :=
  let e := i.entry
  let at_ (x : Nat) : Nat := x * fmtBits i.gfmt / 8
  (List.range (gT e)).filterMap fun t =>
    let lo := max d (at_ (s.tensAt (gTables e) (gD e) t 0 8))
    let hi := min (d + n) (at_ (if t + 1 < gT e then s.tensAt (gTables e) (gD e) (t + 1) 0 8 else wCount e))
    if lo < hi && bitAt (s.descAt (gTables e) (s.tensAt (gTables e) (gD e) t 12 2) 72 4) 1 then some (lo - d, hi - lo) else none

/-- The byte ranges of a write that go to memory, of n bytes from offset o of a write to address a. -/
def State.writeSpans (s : State) (a : Nat) (i : Option Inst) (o n : Nat) : List (Nat × Nat) :=
  match i with
  | some j => match (if j.op = 0x30 then s.destOff j (a + o) else none) with
    | some d => (s.gathSpans j d n).map fun x => (o + x.1, x.2)
    | none => [(o, n)]
  | none => [(o, n)]

/-- The requests of one range of a hitch or depot write of tag operation t on postilion p: offset and length. -/
def State.writeRun (s : State) (p : Nat) (t : TagOp) (i : Option Inst) (bytes : List Byte) (run : Nat × Nat) : State :=
  let y := rowOf p
  let o := run.1
  let n := run.2
  let a := t.desc.addr + o
  let q := s.reqFor p true { row := rowOf p, col := colOf p, tag := t.tag, serial := t.serial }
  let stage : Option (Nat × Inst) := match i with
    | some j => if j.epoch then (s.destOff j a).map fun d => (d, j) else none
    | none => none
  let cut := (bytes.drop o).take n
  match stage with
  | some (d, j) =>
    let rs := depotReqs q (j.stageBase + d) n o cut
    let s1 := s.updInstOf p fun k => { k with staged := k.staged ++ [{ stage := j.stageBase + d, dst := a, len := n }] }
    (s1.depotAdd rs).updTag p t.tag t.serial fun u => { u with parts := u.parts + rs.length }
  | none =>
    if t.kind == .dwr then
      let rs := depotReqs q (offsetOf a) n o cut
      (s.depotAdd rs).updTag p t.tag t.serial fun u => { u with parts := u.parts + rs.length }
    else
      let rs := hitchReqs q (portFor y) bytes (s.hostPieces i a n) o
      let s1 := s.updTag p t.tag t.serial fun u => { u with parts := u.parts + rs.length }
      let s2 := if (i.bind fun j => s.destOff j a).isSome then s1.updInstOf p fun j => { j with wrote := true } else s1
      s2.hitchAdd rs

/-- Make the requests of a write whose bytes are all there and confirmed; withheld granules are left out; with none left the tag completes. A missing
member writes nothing (R109). -/
def State.issueWrite (s : State) (p : Nat) (t : TagOp) (b : Blob) : State :=
  let i := s.instOf p
  let s1 := s.updTag p t.tag t.serial fun u => { u with issued := true }
  let grans := if (s.post p).missing || s.skipped p then [] else writeRuns b (granCount b.data.length) 0 none
  let runs := (grans.map fun g => s.writeSpans t.desc.addr i (64 * g.1) (min (64 * g.2) (b.data.length - 64 * g.1))).flatten
  let s2 := runs.foldl (fun (s : State) r => s.writeRun p t i b.data r) (s1.noteGranules i t.desc.addr b)
  if runs.isEmpty then s2.tagDone p t.tag t.serial else s2

/-- The writes of postilion p that may go now. -/
def State.pumpPostWrites (s : State) (p : Nat) : State :=
  (s.post p).tags.foldl (fun (s : State) t =>
    match t.blob with
    | some b => if (t.kind == .hwr || t.kind == .dwr) && !t.issued && b.deps.isEmpty then s.issueWrite p t b else s
    | none => s) s

/-- Every held write that may go now. -/
def State.pumpWrites (s : State) : State := (List.range 4).foldl (fun (s : State) y => (s.pumpPostWrites (16 * y + 14)).pumpPostWrites (16 * y + 15)) s

end Sys2Proof.Machine
end

