-- ==== Sys2Proof/Machine/PostData.lean ====
section
/-! DEFINITION. The datapath instructions of a postilion: XMIT, RECV, AOP, HRD, HWR, DRD, DWR (Table 3.6, R77, R114, R115). -/

namespace Sys2Proof.Machine

/-- Address of a descriptor: g[a] + imm14[13:3] × 8 (R77). -/
def descAddr (x : Post) (a : GReg) (imm : BitVec 14) : Word := x.reg a + imm14 (imm &&& 0x3FF8#14)

/-- Issue of a datapath instruction: the column check, the data-RAM check, the wait for a tag still held, then `f` with the bytes of the
descriptor and the tag. -/
def State.dataOp (s : State) (p : PostId) (i : Instr) (a : GReg) (imm : BitVec 14) (own : Nat → Bool)
    (f : State → Post → List Byte → Nat → State) : State :=
  s.postRun p i fun s x =>
    let ad := descAddr x a imm
    let tag := imm.toNat % 8
    if !own (colOf p) then s.postFault p 2
    else if !ramOk ad 32 then s.postFault p 3
    else if (x.tagOp tag).isSome then s.setPost p { x with wait := .tagStall }
    else f s x (x.rdRam ad.toNat 32) tag

/-- The descriptor of Table 3.6's instructions other than AOP. A length outside 64 B to 8 KiB is taken as the nearest of the two (DESIGN CHOICE: log
entry 20). -/
def descOf (bs : List Byte) : Desc :=
  { addr := leNat (bs.take 8)
    len := min 8192 (max 64 (leNat ((bs.drop 8).take 4)))
    seq := leNat ((bs.drop 12).take 2)
    spec := bitAt (leNat ((bs.drop 14).take 1)) 0
    mcast := bitAt (leNat ((bs.drop 14).take 1)) 1
    axis := leNat ((bs.drop 15).take 1) }

/-- The tag is taken by an operation, and the postilion goes on. -/
def State.takeTag (s : State) (p : Nat) (x : Post) (t : TagOp) : State :=
  { s.setPost p { x.next with tags := x.tags ++ [t] } with serial := s.serial + 1 }

/-- A new tag operation. -/
def State.newTag (s : State) (tag : Nat) (k : OpKind) (bs : List Byte) : TagOp :=
  { tag := tag, kind := k, desc := descOf bs, serial := s.serial + 1 }

/-! ## XMIT and RECV -/

/-- The column's link is live and divided without a lane group for the yard's tenant (R298). -/
def State.foreignLink (s : State) (p : Nat) : Bool :=
  let l := colLink (colOf p)
  s.live l && (s.subGroups l (s.yardTenant (rowOf p))).isEmpty

/-- The bytes that an XMIT names: a transmit buffer, a receive buffer forwarded unchanged, or the yard's scratchpad (DESIGN CHOICE: log entry 21). -/
def State.xmitBytes (s : State) (row : Nat) (d : Desc) : Blob :=
  match s.txBuf row d.addr with
  | some b => b.blob.slice 0 d.len
  | none => match s.rxBuf row d.addr with
    | some b => b.blob.slice 0 d.len
    | none => s.rdScr row (bufAddr d.addr / 64 * 64) d.len

/-- They are those of a receive buffer, which the member forwards. -/
def State.xmitsRx (s : State) (row : Nat) (d : Desc) : Bool := (s.txBuf row d.addr).isNone && (s.rxBuf row d.addr).isSome

/-- The mirror staging area of yard y that the XMIT's bytes lie in: their offset in the copy (R303). -/
def State.mirPlace (s : State) (y l : Nat) (d : Desc) : Option Nat :=
  if s.on .GRM_MIR_CFG_OUT_EN && s.rf .GRM_MIR_CFG_LINK == l then
    (s.groom.mirStage.find? fun m => m.1 == y && m.2.1 ≤ bufAddr d.addr && bufAddr d.addr + d.len ≤ m.2.1 + (m.2.2.1 + 63) / 64 * 64).map fun m =>
      m.2.2.2 + (bufAddr d.addr - m.2.1)
  else none

/-- The XMIT's bytes lie in its instance's mirror staging area, and nothing is staged there: a skipped step sends nothing (R165). -/
def State.mirUnstaged (s : State) (p : Nat) (d : Desc) : Bool :=
  match s.instOf p with
  | some i => i.mirArea.1 ≤ bufAddr d.addr && bufAddr d.addr < i.mirArea.1 + i.mirArea.2 && (s.mirPlace (rowOf p) (colLink (colOf p)) d).isNone
  | none => false

/-- The mirror's outgoing link has failed: it has no retry buffer to go on with (R229, R308). -/
def State.mirDown (s : State) (l : Nat) : Bool :=
  let st := s.linkSt l
  [0, 1, 10, 11].contains st || ([2, 3, 4, 5, 8].contains st && !(s.link l).step)

/-- Mirror data bytes that an XMIT of postilion p sends. -/
def mirBytesOf (d : Desc) : Nat := min 8128 d.len

/-- An XMIT of mirror bytes on a link that has failed: its carriage is lost (R308). -/
def State.loseMirXmit (s : State) (p : Nat) (t : TagOp) : State :=
  let n := mirBytesOf t.desc
  ({ s.sat .GRM_MIR_OUTSTAT_LOST 0 with groom := { s.groom with mirSent := s.groom.mirSent + n } }).tagDone p t.tag t.serial

/-- XMIT: the carriage waits for its link. -/
def execXmit (p : PostId) (a : GReg) (imm : BitVec 14) (s : State) : Out :=
  event s fun s => s.dataOp p (.xmit p a imm) a imm (fun c => c < 12 && c % 2 == 0) fun s x bs tag =>
    let t := s.newTag tag .xmit bs
    if s.foreignLink p then s.postFault p 2
    else
      let u := { t with blob := some (s.xmitBytes (rowOf p) t.desc), fwd := s.xmitsRx (rowOf p) t.desc }
      let s1 := s.takeTag p x u
      if s.mirUnstaged p t.desc then s1.tagDone p t.tag t.serial
      else if (s.mirPlace (rowOf p) (colLink (colOf p)) t.desc).isSome && s.mirDown (colLink (colOf p)) then s1.loseMirXmit p u
      else s1

/-- Carriage id is received and neither confirmed nor lost. -/
def State.unconfirmed (s : State) (id : Nat) : Bool := s.net.arriving.any (fun a => a.id == id) || s.net.vecs.any (fun v => v.id == id)

/-- The payload of a received carriage with its marks; one that was lost counts as zeros (R108). -/
def State.carBlob (s : State) (id : Nat) (c : Carriage) : Blob :=
  let n := c.payload.length
  let lost := s.net.lostIds.contains id
  let m (j : Nat) : Mark :=
    { car := id + 1
      gi := j
      deps := if s.unconfirmed id then [id] else []
      flags := if lost then { tFlags c with poison := true } else tFlags c }
  { data := if lost then List.replicate n 0 else c.payload, marks := (List.range (granCount n)).map fun j => (j, m j) }

/-- The scheduled carriage that RECV t of postilion p is to accept: its link, the segment's team, its sequence number. -/
def State.rxFor (s : State) (p : Nat) (t : TagOp) : Option RxCar :=
  match (s.post p).cur with
  | none => none
  | some g => s.net.rx.find? fun r => r.l == colLink (colOf p) && cTeam r.c == g.team && cSeq r.c == t.desc.seq % 65536

/-- A RECV whose carriage has arrived takes it into its buffer and completes. -/
def State.tryRecv (s : State) (p : Nat) (t : TagOp) : State :=
  match s.rxFor p t with
  | none => s
  | some r =>
    let s1 := s.putRx (rowOf p) t.desc.addr ((s.carBlob r.id r.c).slice 0 t.desc.len)
    let s2 : State := { s1 with net := { s1.net with rx := s1.net.rx.erase r } }
    s2.tagDone p t.tag t.serial

/-- RECV: the buffer is emptied, and filled by the next carriage of its link, team and sequence number. -/
def execRecv (p : PostId) (a : GReg) (imm : BitVec 14) (s : State) : Out :=
  event s fun s => s.dataOp p (.recv p a imm) a imm (fun c => c < 12 && c % 2 == 1) fun s x bs tag =>
    let t := s.newTag tag .recv bs
    if s.foreignLink p then s.postFault p 2 else ((s.takeTag p x t).dropRx (rowOf p) t.desc.addr).tryRecv p t

/-! ## AOP -/

/-- Field of an array descriptor (Table 5.1). -/
def dAt (d : List Byte) (o k : Nat) : Nat := leNat ((d.drop o).take k)
def dOpc (d : List Byte) : Nat := dAt d 0 1
def dCtl (d : List Byte) : Nat := dAt d 1 1
def dMode (d : List Byte) : Nat := dAt d 4 2
def dPoint (d : List Byte) : Nat := dAt d 6 2
def dA (d : List Byte) : Nat := dAt d 8 4
def dB (d : List Byte) : Nat := dAt d 12 4
def dC (d : List Byte) : Nat := dAt d 16 4
def dDst (d : List Byte) : Nat := dAt d 20 4
def dIndex (d : List Byte) : Nat := dAt d 24 5
def dCount (d : List Byte) : Nat := dAt d 29 3

/-- Kind and location of a source or destination word (Table 5.3). -/
def wKind (w : Nat) : Nat := w / 2 ^ 28
def wLoc (w : Nat) : Nat := w % 2 ^ 28

/-- The format that a code stands for in an operation: 15 the bound input format, 14 the output format. -/
def opFmt (o : ArrOp) (c : Nat) : Nat := if c = 15 then o.infmt else if c = 14 then o.outfmt else c

/-- Formats of A, B, C (the accumulator's) and the destination. -/
def ArrOp.fA (o : ArrOp) : Nat := opFmt o (dAt o.desc 2 1 % 16)
def ArrOp.fB (o : ArrOp) : Nat := opFmt o (dAt o.desc 2 1 / 16)
def ArrOp.fC (o : ArrOp) : Nat := opFmt o (dAt o.desc 3 1 % 16)
def ArrOp.fD (o : ArrOp) : Nat := opFmt o (dAt o.desc 3 1 / 16)
/-- The mode: the bound one with INHERIT. -/
def ArrOp.md (o : ArrOp) : Nat := if bitAt (dMode o.desc) 15 then o.mode else dMode o.desc
/-- The operation reads sources B and C. -/
def ArrOp.reads (o : ArrOp) : Bool := dOpc o.desc != 5 && dOpc o.desc != 6 && dOpc o.desc != 8

/-- NORMACC's word is FP64 where A is (R119). -/
def ArrOp.normBytes (o : ArrOp) : Nat := if o.fA = 3 then 8 else 4

/-- Bytes of the destination. -/
def ArrOp.dstBytes (o : ArrOp) : Nat := if dOpc o.desc = 8 then o.normBytes else elemBytes o.fD (dCount o.desc)

/-- The scratchpad word of an offset (Table 5.3). -/
def scrWord (o : Nat) : Nat := 2 * 2 ^ 28 + o

/-- The sources the operation reads: word and byte length. Of an UPDATE operation, the staged gradient. -/
def ArrOp.sources (o : ArrOp) : List (Nat × Nat) :=
  let n := dCount o.desc
  match o.upd with
  | some u => u.stage.toList.map fun a => (scrWord a, 4 * u.count)
  | none => (dA o.desc, elemBytes o.fA n) :: (if o.reads then [(dB o.desc, elemBytes o.fB n), (dC o.desc, elemBytes o.fC n)] else [])

/-- A scratchpad word that R114 refuses, or that leaves the bank (DESIGN CHOICE: log entry 22). -/
def State.scrBad (s : State) (w n : Nat) : Bool := wKind w == 2 && (wLoc w % 64 != 0 || decide (s.bankSize < wLoc w + n))

/-- A stream word that no read of the row serves, or whose length differs (R115). -/
def State.streamBad (s : State) (row w n : Nat) : Bool :=
  let col := if wKind w = 3 then 14 else 15
  let tag := wLoc w % 8
  if wKind w = 3 || wKind w = 4 then
    match s.stream row col tag with
    | some x => x.blob.data.length != n
    | none => match (s.post (16 * row + col)).tagOp tag with
      | some t => (t.kind != .hrd && t.kind != .drd) || t.desc.len != n
      | none => true
  else false

/-- The same of a write stream. -/
def State.sinkBad (s : State) (row w n : Nat) : Bool :=
  let col := if wKind w = 6 then 14 else 15
  if wKind w = 6 || wKind w = 7 then
    match (s.post (16 * row + col)).tagOp (wLoc w % 8) with
    | some t => (t.kind != .hwr && t.kind != .dwr) || t.desc.len != n || t.blob.isSome
    | none => true
  else false

/-- The checks of R114 and R115. -/
def State.aopBad (s : State) (o : ArrOp) : Bool :=
  let d := o.desc
  let opc := dOpc d
  (opc == 0 || decide (8 < opc)) || [o.fA, o.fB, o.fC, o.fD].any (fun f => 8 < f) || [dA d, dB d, dC d].any (fun w => 4 < wKind w) ||
    wKind (dA d) == 0 || dCount d == 0 || !([2, 5, 6, 7].contains (wKind (dDst d))) || (opc == 8 && wKind (dDst d) != 2) ||
    o.sources.any (fun x => s.scrBad x.1 x.2 || s.streamBad o.row x.1 x.2) || s.scrBad (dDst d) o.dstBytes ||
    s.sinkBad o.row (dDst d) o.dstBytes || [dA d, dB d, dC d].any (fun w => wKind w == 2 && wLoc w % 64 != 0)

/-- The tensors that elements lo .. hi − 1 of an RCUG belong to, with what R157 takes from their descriptors. The step is that of the update: the
descriptor's before its write-back. -/
def State.gathRuns (s : State) (i : Inst) (lo hi : Nat) : List GathRun :=
  let e := i.entry
  let a := gTables e
  (List.range (gT e)).filterMap fun t =>
    let f := s.tensAt a (gD e) t 0 8
    let z := if t + 1 < gT e then s.tensAt a (gD e) (t + 1) 0 8 else wCount e
    let d := s.tensAt a (gD e) t 12 2
    if max lo f < min hi z then
      some { lo := max lo f, hi := min hi z, tensor := s.tensAt a (gD e) t 8 4, step := (s.descAt a d 8 8 + 2 ^ 64 - 1) % 2 ^ 32,
             mode := s.descAt a d 6 2, scale := s.descAt a d 44 4, gather := bitAt (s.descAt a d 72 4) 1, amax := bitAt (s.descAt a d 72 4) 2 }
    else none

/-- The operation is one of an RCUG's gather: a SCALE or CONVERT at point 1,027 (R157; DEDUCED: log entry 157). -/
def gathers (bs : List Byte) : Bool := (dOpc bs == 5 || dOpc bs == 6) && dPoint bs == 1027

/-- The operation that a descriptor asks for, with what it takes from the binding record at g2 (Table 3.7). -/
def State.arrOp (s : State) (p : Nat) (x : Post) (bs : List Byte) (tag : Nat) : ArrOp :=
  let r := (x.reg 2).toNat % 16384
  let at_ (o k : Nat) : Nat := leNat (x.rdRam (r + o) k)
  { row := rowOf p
    col := colOf p
    tag := tag
    serial := s.serial + 1
    desc := bs
    team := match x.cur with
      | some g => g.team
      | none => 0xFF
    inst := x.inst
    infmt := at_ 36 1
    outfmt := at_ 37 1
    mode := at_ 38 2
    scale := at_ 40 4
    tensor := at_ 44 4
    seed := at_ 48 8
    missing := x.missing
    t := s.mtc
    gath := match s.instOf p with
      | some i => if i.op = 0x30 && gathers bs then s.gathRuns i (dIndex bs) (dIndex bs + dCount bs) else []
      | none => [] }

/-! ## Hitch and depot -/

/-- Source word w of an operation of the row names the stream of column col and tag. -/
def wNames (row col tag w : Nat) (o : ArrOp) : Bool := row == o.row && wKind w == col - 11 && (col == 14 || col == 15) && wLoc w % 8 == tag

/-- The running operation takes a stream that it has begun to read and whose last data have now come; none where it does not wait for it. -/
def ArrCur.feed (c : ArrCur) (row col tag : Nat) (b : Blob) : Option ArrCur :=
  let hit (x : (Nat × Nat) × Option Blob) : Bool := x.2.isNone && wNames row col tag x.1.1 c.op
  let xs := c.op.sources.zip c.srcs
  if c.discard || !xs.any hit then none
  else some { c with srcs := (xs.map fun x => if hit x then some b else x.2) ++ c.srcs.drop xs.length }

/-- A read whose bytes are all there: the stream is handed over and the tag completes. -/
def State.streamReady (s : State) (p : Nat) (t : TagOp) (b : Blob) : State :=
  match s.arr.cur.bind fun c => c.feed (rowOf p) (colOf p) t.tag b with
  | some c => ({ s with arr := { s.arr with cur := some c } }).tagDone p t.tag t.serial
  | none =>
    let s1 := s.dropStream (rowOf p) (colOf p) t.tag
    let x : Stream := { row := rowOf p, col := colOf p, tag := t.tag, blob := b }
    ({ s1 with arr := { s1.arr with streams := s1.arr.streams ++ [x] } }).tagDone p t.tag t.serial

/-- The place of a datapath operation in the hitch and depot queues. -/
def tagRef (p : Nat) (t : TagOp) : TagRef := { row := rowOf p, col := colOf p, tag := t.tag, serial := t.serial }

/-- A read of the postilion's stream; a missing member reads nothing (R109), and a skipped one contributes zeros (R155). -/
def State.readOp (s : State) (p : Nat) (x : Post) (t : TagOp) : State :=
  let y := rowOf p
  let n := t.desc.len
  let s1 := (s.takeTag p x t).dropStream y (colOf p) t.tag
  if x.missing then s1.streamReady p t (voidBlob n)
  else if s.skipped p then s1.streamReady p t { data := List.replicate n 0 }
  else
    let k (s : State) (parts : Nat) : State :=
      s.updTag p t.tag t.serial fun u => { u with parts := parts, blob := some { data := List.replicate n 0 }, issued := true }
    if t.kind == .drd then
      let rs := depotReqs (s.reqFor p false (tagRef p t)) (offsetOf t.desc.addr) n 0 []
      (k s1 rs.length).depotAdd rs
    else
      let rs := hitchReqs (s.reqFor p false (tagRef p t)) (portFor y) [] (s.hostPieces (s.instOf p) t.desc.addr n) 0
      (k s1 rs.length).hitchAdd rs

/-- HRD. -/
def execHrd (p : PostId) (a : GReg) (imm : BitVec 14) (s : State) : Out :=
  event s fun s => s.dataOp p (.hrd p a imm) a imm (fun c => c == 14) fun s x bs tag => s.readOp p x (s.newTag tag .hrd bs)
/-- DRD. -/
def execDrd (p : PostId) (a : GReg) (imm : BitVec 14) (s : State) : Out :=
  event s fun s => s.dataOp p (.drd p a imm) a imm (fun c => c == 15) fun s x bs tag => s.readOp p x (s.newTag tag .drd bs)
/-- HWR: an array operation brings the bytes, and the write goes out when all are confirmed (R28, R118). -/
def execHwr (p : PostId) (a : GReg) (imm : BitVec 14) (s : State) : Out :=
  event s fun s => s.dataOp p (.hwr p a imm) a imm (fun c => c == 14) fun s x bs tag => s.takeTag p x (s.newTag tag .hwr bs)
/-- DWR. -/
def execDwr (p : PostId) (a : GReg) (imm : BitVec 14) (s : State) : Out :=
  event s fun s => s.dataOp p (.dwr p a imm) a imm (fun c => c == 15) fun s x bs tag => s.takeTag p x (s.newTag tag .dwr bs)

/-! ## Issue of an array operation -/

/-- Scratchpad ranges that an operation addresses: start and end, in whole granules. -/
def ArrOp.scrRanges (o : ArrOp) : List (Nat × Nat) :=
  (((dDst o.desc, o.dstBytes) :: o.sources).filter fun x => wKind x.1 == 2).map fun x => (wLoc x.1 / 64 * 64, (wLoc x.1 + x.2 + 63) / 64 * 64)

/-- An instance's region widened by a range (R329); no region is the range 0 .. 0. -/
def Inst.widen (i : Inst) (r : Nat × Nat) : Inst :=
  { i with scrLo := if i.scrHi = 0 then r.1 else min i.scrLo r.1, scrHi := max i.scrHi r.2 }

/-- The array's queue with a new operation: in the order of issue, and in that of rows and columns among those issued in one cycle (R24, 5.1). -/
def ArrOp.join (o : ArrOp) (q : List ArrOp) : List ArrOp :=
  let later (x : ArrOp) : Bool := x.t == o.t && decide (16 * o.row + o.col < 16 * x.row + x.col)
  (q.filter fun x => !later x) ++ o :: q.filter later

/-- The operation joins the array's queue, and ARR_LASTOP keeps its descriptor (R24, R144). -/
def State.issueAop (s : State) (p : Nat) (x : Post) (bs : List Byte) (o : ArrOp) : State :=
  let s1 := s.takeTag p x { s.newTag o.tag .aop bs with issued := true }
  let s2 : State := { (s1.updInst (fun i => i.team == o.team && i.n == o.inst && i.st == .running) fun i => o.scrRanges.foldl Inst.widen i) with
    arr := { s1.arr with queue := o.join s1.arr.queue } }
  nat4.foldl (fun (s : State) w => s.setf .ARR_LASTOP_DESC (4 * rowOf p + w) (dAt bs (8 * w) 8)) s2

/-- AOP. -/
def execAop (p : PostId) (a : GReg) (imm : BitVec 14) (s : State) : Out :=
  event s fun s => s.dataOp p (.aop p a imm) a imm (fun c => c == 12 || c == 13) fun s x bs tag =>
    let o := s.arrOp p x bs tag
    if s.aopBad o then s.postFault p 6 else s.issueAop p x bs o

end Sys2Proof.Machine
end

