-- ==== Sys2Proof/Machine/ArrayEvents.lean ====
section
/-! DEFINITION. The array: starting and completing an operation, keeping what depends on unconfirmed carriages, re-execution, and the slew governor
(5.1, 5.2, 7.5, 13.7). -/

namespace Sys2Proof.Machine

/-! ## Execution -/

/-- Granule of byte offset of element i of an operand of format f. -/
def elemGran (f i : Nat) : Nat := i * fmtBits f / 512

/-- The elements of an operand; those of void granules are not there (R109). -/
def elems (b : Option Blob) (f n : Nat) : List (Option Nat) :=
  match b with
  | none => List.replicate n none
  | some x => if x.marks.any (fun m => m.2.void) then
      ((unpack f n x.data).zip (List.range n)).map fun c => if (x.mark (elemGran f c.2)).void then none else some c.1
    else (unpack f n x.data).map some

/-- What is known of the operands of elements lo .. lo + n − 1 of format f of a source. -/
def Blob.elemMark (b : Blob) (f lo n : Nat) : Mark :=
  let g := elemGran f lo
  let k := elemGran f (lo + n - 1) - g + 1
  let all := (List.range k).all fun j => (b.mark (g + j)).void
  { b.joined g k with void := all, flags := (b.joined g k).flags.or { absent := (b.joined g k).void } }

/-- Mark of a result from the marks of its operands: void only where each of them is (R109, R110, R191). -/
def resultMark (serial j : Nat) (nonf : Bool) (ms : List Mark) : Mark :=
  let m := ms.foldl Mark.join {}
  { car := 0
    op := if m.deps.isEmpty then 0 else serial
    gi := j
    deps := m.deps
    flags := m.flags.or { nonfinite := nonf }
    void := !ms.isEmpty && ms.all (fun x => x.void) }

/-- What the operation's elements share. -/
def ArrOp.ctx (o : ArrOp) : OpCtx :=
  { opc := dOpc o.desc, scaleOn := bitAt (dCtl o.desc) 0, amaxOn := bitAt (dCtl o.desc) 1, fa := o.fA, fb := o.fB, acc := o.fC,
    dst := o.fD, mode := o.md, point := dPoint o.desc, seed := o.seed, tensor := o.tensor, step := 0, scale := o.scale }

/-- The operands A, B, C that are there, with their formats. -/
def ArrOp.operands (o : ArrOp) (srcs : List (Option Blob)) : List (Nat × Blob) :=
  ([o.fA, o.fB, o.fC].zip srcs).filterMap fun x => x.2.map fun b => (x.1, b)

/-- Marks of the n granules of a result. -/
def ArrOp.marks (o : ArrOp) (srcs : List (Option Blob)) (nonf : Bool) (bytes : Nat) : List (Nat × Mark) :=
  let per := 512 / fmtBits o.fD
  (List.range (granCount bytes)).map fun j =>
    (j, resultMark o.serial j nonf ((o.operands srcs).map fun x => x.2.elemMark x.1 (per * j) (min per (dCount o.desc - per * j))))

/-- One element of an RCUG's gather: zero where GATHER is clear; carried as stored where the formats agree, else multiplied by GATHER_SCALE for F8V
and rounded once at point 1,027 (R157, R141). -/
def GathRun.element (g : GathRun) (seed src dst i c : Nat) : ElOut :=
  if !g.gather then { code := 0, sat := false, flush := false, nonf := false, amax := 0 }
  else
    let v0 := decodeVal src c
    let v := if dst = 4 then mulVal v0 (decodeVal 0 g.scale) else v0
    let r := roundTo dst g.mode (if mSr g.mode then srg seed i g.tensor g.step 1027 else 0) v
    let am := if g.amax then amaxBits g.mode v else 0
    if dst = src then { code := c, sat := false, flush := false, nonf := v0.nonfinite, amax := am }
    else { code := r.code, sat := r.sat, flush := r.flush, nonf := (decodeVal dst r.code).nonfinite, amax := am }

/-- Elements of an RCUG's gather from index i: codes in format src to results in format dst. -/
def gathRun (gs : List GathRun) (seed src dst : Nat) : Nat → List Nat → OpOut
  | _, [] => {}
  | i, c :: t =>
    let r := gathRun gs seed src dst (i + 1) t
    let e := match gs.find? fun g => g.lo ≤ i && i < g.hi with
      | some g => g.element seed src dst i c
      | none => { code := 0, sat := false, flush := false, nonf := false, amax := 0 }
    { codes := e.code :: r.codes, sat := satAdd r.sat (b2n e.sat), flush := satAdd r.flush (b2n e.flush), nonf := e.nonf || r.nonf,
      amax := max r.amax e.amax }

/-- The results of an operation on its operands (R116, R119, R120). `fresh` names the free value of the half byte after an odd INT4 count (log entry 5). -/
def ArrOp.execute (o : ArrOp) (srcs : List (Option Blob)) (fresh : Nat) : ArrRes :=
  let n := dCount o.desc
  let b (k : Nat) : Option Blob := (srcs[k]?).join
  if dOpc o.desc = 8 then
    let w := leNat ((b 3).getD {}).data
    let r := normAcc o.fA ((elems (b 0) o.fA n).map fun x => x.getD 0) w
    let word := (b 3).toList.map fun x => x.elemMark (if o.normBytes = 8 then 3 else 0) 0 1
    let m := resultMark o.serial 0 r.2 (((o.operands srcs).map fun x => x.2.elemMark x.1 0 n) ++ word)
    { blob := ({ data := leBytes o.normBytes r.1, marks := [(0, m)] } : Blob).tidy, nonf := r.2 }
  else
    let r := if !o.gath.isEmpty then gathRun o.gath o.seed o.fA o.fD (dIndex o.desc) ((elems (b 0) o.fA n).map fun x => x.getD 0)
      else o.ctx.run (dIndex o.desc) ((elems (b 0) o.fA n).zip ((elems (b 1) o.fB n).zip (elems (b 2) o.fC n)))
    let half := (Config.freeByte fresh n).toNat
    let bytes := pack o.fD half r.codes
    { blob := ({ data := bytes, marks := o.marks srcs r.nonf bytes.length } : Blob).tidy
      nonf := r.nonf
      sat := r.sat
      flush := r.flush
      amax := r.amax }

/-- The bytes of an operand word; a shorter buffer is filled with zeros. -/
def State.operand (s : State) (row w n : Nat) : Option Blob :=
  let full (b : Blob) : Blob := { (b.slice 0 n) with data := (b.data ++ List.replicate (n - b.data.length) 0).take n }
  match wKind w with
  | 1 => (s.rxBuf row (wLoc w)).map fun b => full b.blob
  | 2 => some (s.rdScr row (wLoc w) n)
  | 3 => (s.stream row 14 (wLoc w % 8)).map fun x => full x.blob
  | 4 => (s.stream row 15 (wLoc w % 8)).map fun x => full x.blob
  | _ => none

/-- Operands A, B, C and the word that NORMACC adds to. -/
def State.operandsOf (s : State) (o : ArrOp) : List (Option Blob) :=
  o.sources.map (fun x => s.operand o.row x.1 x.2) ++ (if o.reads then [] else [none, none])
    ++ [if dOpc o.desc = 8 then some (s.rdScr o.row (wLoc (dDst o.desc)) o.normBytes) else none]

/-! ## Readiness (R116, R117, R194) -/

/-- The operation still holds its tag. One of an aborted segment does not; it still runs, its results discarded (R15; DEDUCED: log entry 23). -/
def State.opHeld (s : State) (o : ArrOp) : Bool :=
  match o.upd with
  | some u => s.groom.job.any fun j => j.id == u.job && !j.dead
  | none => (s.post (16 * o.row + o.col)).tags.any fun t => t.tag == o.tag && t.serial == o.serial

/-- The scratchpad range of a word overlaps, by granule, the range that an operation writes. -/
def rangeMeets (row w n : Nat) (o : ArrOp) : Bool :=
  wKind w == 2 && wKind (dDst o.desc) == 2 && row == o.row && decide (wLoc w / 64 < (wLoc (dDst o.desc) + o.dstBytes + 63) / 64) &&
    decide (wLoc (dDst o.desc) / 64 < (wLoc w + n + 63) / 64)

/-- The operation reads scratchpad bytes that the running operation, or one recalled, has still to write (R117, R194). -/
def State.hazard (s : State) (o : ArrOp) : Bool :=
  let reads := o.sources ++ (if dOpc o.desc = 8 then [(dDst o.desc, o.normBytes)] else [])
  let ws := ((s.arr.kept.filter fun k => k.stale).map fun k => k.op) ++ (match s.arr.cur with
    | some c => [c.op]
    | none => [])
  ws.any fun w => reads.any fun x => rangeMeets o.row x.1 x.2 w

/-- The first data of a stream word have come (R116). -/
def State.streamBegun (s : State) (row w : Nat) : Bool :=
  (wKind w == 3 || wKind w == 4) && match (s.post (16 * row + wKind w + 11)).tagOp (wLoc w % 8) with
    | some t => t.begun
    | none => false

/-- A stream that the running operation reads has not come to its end: the array stalls (R116). -/
def State.stalls (s : State) (c : ArrCur) : Bool :=
  !c.discard && match c.op.upd with
    | some u => s.groom.job.any fun j => j.id == u.job && j.reads != 0
    | none => (c.op.sources.zip c.srcs).any fun x => x.2.isNone && wKind x.1.1 != 0

/-- The first data of every operand that an UPDATE operation reads have come (R147, R116). -/
def State.updBegun (s : State) (o : ArrOp) : Bool :=
  match o.upd with
  | some u => s.groom.job.any fun j => j.id == u.job && j.need.all fun k => j.begun.contains k
  | none => true

/-- Carriages not confirmed that the operands derive from. -/
def srcDeps (srcs : List (Option Blob)) : List Nat := srcs.foldl (fun (l : List Nat) b => match b with
  | some x => union l x.deps
  | none => l) []

/-- The recall shadow of the yard has room (R194). -/
def State.shadowFits (s : State) (o : ArrOp) : Bool :=
  let used := (s.arr.kept.filter fun k => k.op.row == o.row).foldl (fun n k => n + k.shadow.length) 0
  wKind (dDst o.desc) != 2 || (srcDeps (s.operandsOf o)).isEmpty || decide (used + 64 * granCount o.dstBytes ≤ 2 ^ 20)

/-- The operation may start now. -/
def State.opReady (s : State) (o : ArrOp) : Bool :=
  o.sources.all (fun x => wKind x.1 == 0 || (s.operand o.row x.1 x.2).isSome || s.streamBegun o.row x.1) && s.updBegun o && !s.hazard o && s.shadowFits o

/-- The array is free for work of degraded mode: no scheduled operation runs, or could start now (R15, R24; DEDUCED: log entry 161). -/
def State.arrFree (s : State) : Bool :=
  s.arr.cur.isNone && match s.arr.queue with
    | o :: _ => s.opHeld o && !s.opReady o
    | [] => true

/-- The streams of an operation are consumed. -/
def State.eatStreams (s : State) (o : ArrOp) : State :=
  o.sources.foldl (fun (s : State) x => if wKind x.1 = 3 then s.dropStream o.row 14 (wLoc x.1 % 8)
    else if wKind x.1 = 4 then s.dropStream o.row 15 (wLoc x.1 % 8) else s) s

/-- What the array runs when an operation starts. -/
def State.arrCur (s : State) (o : ArrOp) : ArrCur :=
  if s.opHeld o then { op := o, srcs := s.operandsOf o } else { op := o, srcs := [], discard := true }

/-- The oldest operation of the queue starts when the array is free and every source has its first data ready (R15, R24, R116). -/
def State.arrStart (s : State) : State :=
  match s.arr.cur, s.arr.queue with
  | none, o :: t =>
    if s.opHeld o && !s.opReady o then s
    else
      let w := sget (fun _ => 0) s.arr.wait o.row + (s.mtc - o.t)
      let s1 : State := { s with
        arr := { s.arr with queue := t, cur := some (s.arrCur o), wait := sset (fun _ => 0) s.arr.wait o.row w }
        power := { s.power with lastOp := s.now } }
      (if s.opHeld o then s1.eatStreams o else s1).trace 1 (dOpc o.desc + 256 * o.row + 65536 * o.col + 2 ^ 32 * dCount o.desc)
  | _, _ => s

/-- What the running operation read from the scratchpad, the word it adds to included, counts as a lost contribution. -/
def ArrCur.loseScratch (c : ArrCur) : ArrCur :=
  { c with srcs := (c.srcs.zip ((c.op.sources.map (·.1)) ++ [0, 0, 0, 0])).map fun x => if wKind x.2 = 2 then x.1.map Blob.lose else x.1 }

/-- The results of a scratchpad read by the operation that has just started: a corrected word is only logged; an uncorrectable one makes the data read a
lost contribution (Table 12.1, R108; log entry 151). -/
def State.scrEcc (s : State) (r : EccResult) : State :=
  match r with
  | .good => s
  | .corrected | .chipkill => s.fault 22
  | .uncorrectable => { s with arr := { s.arr with cur := s.arr.cur.map ArrCur.loseScratch } }.fault 21

/-- The operation reads the scratchpad. -/
def ArrOp.readsScr (o : ArrOp) : Bool := o.sources.any fun x => wKind x.1 == 2

/-- ARRAY_OPERATION_START, with what its reads of the scratchpad find. -/
def execArrayOperationStart (s : State) (scr : EccResult := .good) : Out :=
  event s fun s =>
    let t := s.arrStart
    match s.arr.cur, t.arr.cur with
    | none, some c => if c.op.readsScr && !c.discard then t.scrEcc scr else t
    | _, _ => t

/-! ## Completion (R117, R118) -/

/-- Count an operation's results into its instance. -/
def State.countRes (s : State) (o : ArrOp) (r : ArrRes) : State :=
  s.updInst (fun i => i.team == o.team && i.n == o.inst && i.st == .running) fun i =>
    { i with
      sat := satAdd i.sat r.sat
      flush := satAdd i.flush r.flush
      amax := max i.amax r.amax
      own := i.own.or (r.blob.flags.or { nonfinite := r.nonf }) }

/-- Results into a hitch or depot write stream. -/
def State.fillSink (s : State) (o : ArrOp) (col : Nat) (b : Blob) : State :=
  let p := 16 * o.row + col
  match (s.post p).tagOp (wLoc (dDst o.desc) % 8) with
  | some t => (s.updTag p t.tag t.serial fun u => { u with blob := some b, src := o.serial }).pumpPostWrites p
  | none => s

/-- Results to their destination. -/
def State.storeRes (s : State) (o : ArrOp) (b : Blob) : State :=
  match wKind (dDst o.desc) with
  | 2 => s.wrScr o.row (wLoc (dDst o.desc)) b
  | 5 => s.putTx o.row (wLoc (dDst o.desc)) b o.serial
  | 6 => s.fillSink o 14 b
  | 7 => s.fillSink o 15 b
  | _ => s

/-- The scratchpad bytes that the results overwrite, by address. -/
def State.shadowOf (s : State) (o : ArrOp) : List (Nat × Byte) :=
  if wKind (dDst o.desc) = 2 then
    let a := scrAddr o.row (wLoc (dDst o.desc))
    (List.range o.dstBytes).map fun k => (a + k, sget byte0 s.scratch (a + k))
  else []

/-- The results of an operation in which the array found a parity error: they count as derived from a lost carriage, and contribute nothing to the
instance's counts (Table 12.1, R108; log entry 151). -/
def ArrRes.lose (r : ArrRes) : ArrRes := { blob := r.blob.lose }

/-- The running operation ends, unless it stalls for a stream: its results are stored, and it is kept while an operand is unconfirmed. A discarded one
stores nothing (R19). -/
def State.arrDone (s : State) (parity : Bool) : State :=
  match s.arr.cur with
  | none => s
  | some c => if s.stalls c then s else
    let o := c.op
    let r := if parity then (o.execute c.srcs s.fresh).lose else o.execute c.srcs s.fresh
    let s0 := if parity then s.fault 23 else s
    let s1 : State := ({ s0 with
      arr := { s0.arr with cur := none }
      fresh := s0.fresh + 1
      power := { s0.power with lastOp := s0.now } }).inc .ARR_OPCOUNT_COUNT 0
    if c.discard then s1
    else
      let deps := srcDeps c.srcs
      let s2 : State := if deps.isEmpty then s1.countRes o r
        else { s1 with arr := { s1.arr with kept := s1.arr.kept ++ [{ op := o, srcs := c.srcs, res := r, shadow := s1.shadowOf o }] } }
      (s2.storeRes o r.blob).tagDone (16 * o.row + o.col) o.tag o.serial

/-! ## Recall and re-execution (R193, R194) -/

/-- Granule j of a byte string. -/
def granAt (bs : List Byte) (j : Nat) : List Byte := (bs.drop (64 * j)).take 64

/-- Put bytes at granule j, within the string's length. -/
def putGran (bs : List Byte) (j : Nat) (g : List Byte) : List Byte :=
  bs.take (64 * j) ++ (g.take (bs.length - 64 * j)) ++ bs.drop (64 * j + g.length)

/-- Replace every granule whose mark passes the test by the named granule of src. -/
def Blob.splice (p : Mark → Bool) (src : Blob) (b : Blob) : Blob :=
  { data := b.marks.foldl (fun (d : List Byte) x => if p x.2 then putGran d x.1 (granAt src.data x.2.gi) else d) b.data
    marks := b.marks.map fun x => if p x.2 then (x.1, { x.2 with flags := (src.mark x.2.gi).flags, void := (src.mark x.2.gi).void }) else x }

/-- Apply a change to every blob of bytes that the block holds outside the scratchpad. -/
def State.mapBlobs (s : State) (f : Blob → Blob) : State :=
  let bufs (l : List Buf) : List Buf := l.map fun b => { b with blob := f b.blob }
  let srcs (l : List (Option Blob)) : List (Option Blob) := l.map fun b => b.map f
  { s with
    arr := { s.arr with
      rxbuf := bufs s.arr.rxbuf
      txbuf := bufs s.arr.txbuf
      kept := s.arr.kept.map fun k => { k with srcs := srcs k.srcs, res := { k.res with blob := f k.res.blob } }
      cur := s.arr.cur.map fun c => { c with srcs := srcs c.srcs } }
    net := { s.net with onward := s.net.onward.map fun o => { o with blob := f o.blob } }
    posts := s.posts.map fun x => (x.1, { x.2 with tags := x.2.tags.map fun t => { t with blob := t.blob.map f } }) }

/-- Replace the scratchpad granules whose mark passes the test. -/
def State.spliceScr (s : State) (p : Mark → Bool) (src : Blob) : State :=
  s.arr.marks.foldl (fun (s : State) x => if p x.2 then s.wrScratch (64 * x.1) (granAt src.data x.2.gi) else s)
    { s with arr := { s.arr with marks := s.arr.marks.map fun x => if p x.2 then (x.1, { x.2 with flags := (src.mark x.2.gi).flags }) else x } }

/-- Replace them everywhere. -/
def State.spliceAll (s : State) (p : Mark → Bool) (src : Blob) : State := (s.mapBlobs (Blob.splice p src)).spliceScr p src

/-- Re-execute kept operation `serial` with its operands as they are now, and put its new results where the old ones stand. -/
def State.reexec (s : State) (serial : Nat) : State :=
  match s.arr.kept.find? fun k => k.op.serial == serial with
  | none => s
  | some k =>
    let r := k.op.execute k.srcs s.fresh
    let s1 := s.spliceAll (fun m => m.op == serial) r.blob
    { s1 with arr := { s1.arr with kept := updWhere (fun x => x.op.serial == serial) (fun x => { x with res := r, stale := false }) s1.arr.kept } }

/-- Serial numbers of the kept operations that derive from a carriage, oldest first. -/
def State.keptOn (s : State) (id : Nat) : List Nat := (s.arr.kept.filter fun k => (srcDeps k.srcs).contains id).map fun k => k.op.serial

/-- The bytes of carriage id are new: they replace the old ones, and what was derived from them is computed again, in order. -/
def State.refresh (s : State) (id : Nat) (b : Blob) : State :=
  let s1 := s.spliceAll (fun m => m.car == id + 1) b
  (s1.keptOn id).foldl (fun (s : State) n => s.reexec n) s1

/-- Mark invalid what derives from carriage id: the shadowed granules come back until the replay arrives. -/
def State.stale (s : State) (id : Nat) : State :=
  let ns := s.keptOn id
  let s1 := ns.reverse.foldl (fun (s : State) n =>
    match s.arr.kept.find? fun k => k.op.serial == n && !k.stale with
    | none => s
    | some k =>
      let mine (a : Nat) : Bool := s.arr.marks.any fun m => m.1 == a / 64 && m.2.op == n
      k.shadow.foldl (fun (s : State) x => if mine x.1 then s.wrScratch x.1 [x.2] else s) s) s
  { s1 with arr := { s1.arr with kept := updWhere (fun k => ns.contains k.op.serial) (fun k => { k with stale := true }) s1.arr.kept } }

/-- Remove carriage id from what a granule waits for. -/
def Mark.settle (id : Nat) (m : Mark) : Mark :=
  let d := m.deps.filter (· != id)
  if d.isEmpty then { m with deps := [], op := 0, car := 0, gi := 0 } else { m with deps := d }

def Blob.settle (id : Nat) (b : Blob) : Blob :=
  ({ b with marks := b.marks.map fun x => if x.2.deps.contains id then (x.1, x.2.settle id) else x } : Blob).tidy

/-- Operations whose operands are all confirmed are kept no longer, and count (R118). -/
def State.dropKept (s : State) : State :=
  let ready := s.arr.kept.filter fun k => (srcDeps k.srcs).isEmpty
  let s1 := ready.foldl (fun (s : State) k => s.countRes k.op k.res) s
  { s1 with arr := { s1.arr with kept := s1.arr.kept.filter fun k => !(srcDeps k.srcs).isEmpty } }

/-- Carriage id's outcome is known: nothing waits for it any more, and held writes may go. -/
def State.settleMarks (s : State) (id : Nat) : State :=
  let s1 := s.mapBlobs (Blob.settle id)
  let ms := (s1.arr.marks.map fun x => if x.2.deps.contains id then (x.1, x.2.settle id) else x).filter fun x => !x.2.plain
  (({ s1 with arr := { s1.arr with marks := ms } }).dropKept).pumpWrites

/-! ## The slew governor (R364) -/

/-- Time of one step, ns. -/
def State.govStep (s : State) : Nat := 3000 / max 1 (s.rf .PWR_GOV_SLOPE)

/-- One step: a group more while the array has work, one less after 256 cycles without. The cycles lost in a step up are counted. -/
def State.governor (s : State) : State :=
  let busy := s.arr.cur.isSome || !s.arr.queue.isEmpty
  if s.now < s.power.lastStep + s.govStep then s
  else if busy && s.power.width < 16 then
    let w := s.power.width + 1
    ({ s with power := { s.power with width := w, lastStep := s.now } }).sat .PWR_GOV_BUBBLES 0 (s.govStep * 8 / 5 * (16 - w) / 16)
  else if !busy && 0 < s.power.width && decide (s.power.lastOp + 160 ≤ s.now) then
    { s with power := { s.power with width := s.power.width - 1, lastStep := s.now } }
  else s

/-- GOVERNOR_STEP. -/
def execGovernorStep (s : State) : Out := event s fun s => s.governor

end Sys2Proof.Machine
end

