-- ==== Sys2Proof/Machine/GroomRules.lean ====
section
/-! DEFINITION. The arithmetic of the groom unit: scalars, clip factors, optimiser rules and stores (6.2, 6.3). -/

namespace Sys2Proof.Machine

/-- FP32 constants. -/
def one32 : Nat := 0x3F800000
def neg32 (x : Nat) : Nat := (x + 2 ^ 31) % 2 ^ 32

/-- a × b + c: the product rounded to FP32, then the sum (R159). -/
def pair32 (a b c : Nat) : Nat := fAdd 0 (fMul 0 a b) c

/-- An FP32 code as an FP64 code, and back, rounded to nearest even. -/
def up64 (x : Nat) : Nat := rnd0 3 0 (decodeVal 0 x)
def down32 (x : Nat) : Nat := rnd0 0 0 (decodeVal 3 x)

/-- 1 in FP64, and 1 − x in FP64. -/
def one64 : Nat := 0x3FF0000000000000
def oneMinus (x : Nat) : Nat := fAdd 3 one64 ((x + 2 ^ 63) % 2 ^ 64)

/-- b^t in FP64 by square-and-multiply from the most significant bit of t: bits k − 1 .. 0 (R160). -/
def powBits (b t : Nat) : Nat → Nat → Nat
  | 0, x => x
  | k + 1, x => powBits b t k (if bitAt t k then fMul 3 (fMul 3 x x) b else fMul 3 x x)

/-- b^t, t at least 1. -/
def pow64 (b t : Nat) : Nat := if t = 0 then one64 else powBits b t (Nat.log2 t) b

/-- What a descriptor fixes for its elements (R160, Table 6.7). -/
structure Scalars where
  rule : Nat
  w : Nat
  lr : Nat
  be1 : Nat
  be2 : Nat
  d1 : Nat
  d2 : Nat
  b1 : Nat
  b2 : Nat
  eps : Nat
  alpha : Nat
  deriving DecidableEq, Repr

/-- The scalars of a descriptor, each computed in FP64 and rounded to FP32. -/
def scalars (rule lr be1 be2 eps wd alpha step : Nat) : Scalars :=
  { rule := rule
    w := down32 (oneMinus (fMul 3 (up64 lr) (up64 wd)))
    lr := lr
    be1 := be1
    be2 := be2
    d1 := down32 (oneMinus (up64 be1))
    d2 := down32 (oneMinus (up64 be2))
    b1 := down32 (fDiv 3 one64 (oneMinus (pow64 (up64 be1) step)))
    b2 := down32 (fDiv 3 one64 (oneMinus (pow64 (up64 be2) step)))
    eps := eps
    alpha := alpha }

/-- The sign function: ±0 gives +0, a NaN the canonical NaN (R148). -/
def sign32 (x : Nat) : Nat :=
  match decodeVal 0 x with
  | .nan => 0x7FC00000
  | .inf s => if s then neg32 one32 else one32
  | .fin s m _ => if m = 0 then 0 else if s then neg32 one32 else one32
  | .int _ => 0

/-- One element of a rule: gradient, exact as loaded, clip factor, p, m, v to p′, m′, v′ (Table 6.5). -/
def optimise (k : Scalars) (g : Val) (c p m v : Nat) : Nat × Nat × Nat :=
  let gc := fAdd 0 (rnd0 0 0 (mulVal g (decodeVal 0 c))) 0
  match k.rule with
  | 0 => (pair32 k.alpha gc p, m, v)
  | 1 =>
    let m' := pair32 k.be1 m gc
    let p1 := pair32 k.w p 0
    (pair32 (neg32 k.lr) m' p1, m', v)
  | 2 =>
    let t1 := pair32 k.be1 m 0
    let m' := pair32 k.d1 gc t1
    let t2 := pair32 k.be2 v 0
    let s := pair32 gc gc 0
    let v' := pair32 k.d2 s t2
    let mh := pair32 m' k.b1 0
    let vh := pair32 v' k.b2 0
    let e := pair32 (fSqrt 0 vh) one32 k.eps
    let q := fDiv 0 one32 e
    let d := pair32 mh q 0
    let p1 := pair32 k.w p 0
    (pair32 (neg32 k.lr) d p1, m', v')
  | _ =>
    let t1 := pair32 k.be1 m 0
    let u := pair32 k.d1 gc t1
    let p1 := pair32 k.w p 0
    let p' := pair32 (neg32 k.lr) (sign32 u) p1
    let t2 := pair32 k.be2 m 0
    (p', pair32 k.d2 gc t2, v)

/-- The clip factor min(1, θ ÷ norm); 1 where the norm is 0 (R156). -/
def clipFactor (thr norm : Nat) : Nat :=
  if norm % 2 ^ 31 = 0 then one32 else rnd0 0 0 (minVal (decodeVal 0 one32) (decodeVal 0 (fDiv 0 thr norm)))

/-- A loaded value, exact, with FTZ; whether it was flushed (R128, R131, R159). An integer is taken in the internal form. -/
def loadVal (fmt mode x : Nat) : Val × Bool :=
  let fl := mFtz mode && subnormal fmt x
  let v := decodeVal fmt x
  (if fl then (match v with
    | .fin s _ _ => Val.fin s 0 0
    | y => y) else internal (mRnd mode) v, fl)

/-- A stored value of FP32 or BF16 as an FP32 code, which holds it exactly. -/
def loadState (fmt mode x : Nat) : Nat × Bool := (rnd0 0 0 (loadVal fmt mode x).1, (loadVal fmt mode x).2)

/-- The rounding of a store: exact into FP32 for a finite value; a value that is not finite is stored under SAT (R159, R162). -/
def storeState (fmt mode word x : Nat) : Rounded :=
  if fmt = 0 && !(decodeVal 0 x).nonfinite then { code := x } else roundTo fmt mode word (decodeVal 0 x)

end Sys2Proof.Machine
end

