-- ==== Sys2Proof/Machine/GroomEvents.lean ====
section
/-! DEFINITION. Groom jobs: the gate, the clip factors, the update of a shard, mirror staging, the norm finish, and the end of a job
(6.1, 6.2, 6.4–6.6). -/

namespace Sys2Proof.Machine

/-! ## What a job reads -/

/-- Field of the binding record that the job names, in column 14's data RAM (R145). -/
def State.jobRec (s : State) (r : GroomReq) (o k : Nat) : Nat := leNat ((s.post (16 * r.y + 14)).rdRam (128 * r.team + 64 * (r.rec_ % 2) + o) k)

/-- Descriptors D, tensors T, tables, elements E of the job's command. -/
def State.jobD (s : State) (r : GroomReq) : Nat := s.jobRec r 44 2
def State.jobT (s : State) (r : GroomReq) : Nat := s.jobRec r 46 2
def State.jobTables (s : State) (r : GroomReq) : Nat := s.jobRec r 56 8
def State.jobCount (s : State) (r : GroomReq) : Nat := s.jobRec r 24 8

/-- First element and element count of the job's shard: that of R150 for RCUG, all of the command's elements for UPDATE (R166). -/
def State.jobShard (s : State) (r : GroomReq) : Nat × Nat := s.groomShard (if r.kind = 1 then 0x30 else 0x31) r.team (s.jobCount r)

/-- Bytes of the job's norm result block (Table 6.3). -/
def State.blockAt (s : State) (r : GroomReq) (o k : Nat) : Nat := rdLe s.scratch (scrAddr r.y r.resultOff + o) k
def State.blockSum (s : State) (r : GroomReq) (t : Nat) : Nat := s.blockAt r (8 + 16 * (if r.kind = 3 then 0 else s.jobD r) + 4 * t) 4

/-- Field of descriptor d, and tensor t's first element, end, id and descriptor. -/
def State.jDesc (s : State) (r : GroomReq) (d o k : Nat) : Nat := s.descAt (s.jobTables r) d o k
def State.jTens (s : State) (r : GroomReq) (t : Nat) : Nat × Nat × Nat × Nat :=
  let f (u o k : Nat) : Nat := s.tensAt (s.jobTables r) (s.jobD r) u o k
  (f t 0 8, if t + 1 < s.jobT r then f (t + 1) 0 8 else s.jobCount r, f t 8 4, f t 12 2)

/-- Elements of the shard with their tensor, descriptor and place in the descriptor's group: (index, tensor, id, descriptor, place) (R164). -/
def State.jobElems (s : State) (r : GroomReq) : List (Nat × Nat × Nat × Nat × Nat) :=
  let (lo, n) := s.jobShard r
  ((List.range (s.jobT r)).foldl (fun (acc : List (Nat × Nat × Nat × Nat × Nat) × List (Nat × Nat)) t =>
    let (a, b, id, d) := s.jTens r t
    let x := max a lo
    let k := min b (lo + n) - x
    let j := sget (fun _ => 0) acc.2 d
    (acc.1 ++ (List.range k).map (fun i => (x + i, t, id, d, j + i)), sset (fun _ => 0) acc.2 d (j + k))) ([], [])).1

/-! ## Gate and factors -/

/-- An FP32 code that is a NaN or an infinity. -/
def bad32 (x : Nat) : Bool := (decodeVal 0 x).nonfinite

/-- What has come of operand `part` for local address a: the bytes from a on, and whether they are unavailable. -/
def GroomJob.come (j : GroomJob) (part a : Nat) : List Byte × Bool :=
  match j.got.find? fun c => c.1 == part && c.2.1 ≤ a && a < c.2.1 + c.2.2.1.length with
  | some c => (c.2.2.1.drop (a - c.2.1), bitAt c.2.2.2 ((a - c.2.1) / 64))
  | none => ([], true)

/-- Operand `part`, k bytes at a; and whether it is unavailable. -/
def GroomJob.operand (j : GroomJob) (part a k : Nat) : Nat × Bool := (leNat ((j.come part a).1.take k), (j.come part a).2)

/-- The code of element i of an UPDATE's gradient, in the command's input format (R166). -/
def State.gradCode (s : State) (j : GroomJob) (i : Nat) : Nat × Bool :=
  let r := j.req
  let b := fmtBits (s.jobRec r 36 1)
  let a := s.jobRec r 8 8 + i * b / 8
  if b = 4 then ((j.operand 3 a 1).1 / 2 ^ (4 * (i % 2)) % 16, (j.operand 3 a 1).2) else j.operand 3 a (b / 8)

/-- Its value, scaled where the format takes a scale (R139, R159; log entry 156), and whether it was flushed. -/
def State.gradVal (s : State) (j : GroomJob) (i mode : Nat) : Val × Bool :=
  let f := s.jobRec j.req 36 1
  let (x, fl) := loadVal f mode (s.gradCode j i).1
  (if f = 4 || f = 5 || f = 7 || f = 8 then decodeVal 0 (rnd0 0 0 (mulVal x (decodeVal 0 (s.jobRec j.req 40 4)))) else x, fl)

/-- Tensors of descriptor d. -/
def State.tensorsOf (s : State) (r : GroomReq) (d : Nat) : List Nat := (List.range (s.jobT r)).filter fun t => (s.jTens r t).2.2.2 == d

/-- Sums folded in order, FP32, nearest even. -/
def foldSums (xs : List Nat) : Nat := match xs with
  | [] => 0
  | x :: t => t.foldl (fAdd 0) x

/-- Clip factor of tensor t (R156, R166). -/
def State.clipOf (s : State) (j : GroomJob) (t : Nat) : Nat :=
  let r := j.req
  let d := (s.jTens r t).2.2.2
  if r.kind = 2 then (if s.jobRec r 16 8 = 0 then one32 else (j.operand 4 (s.jobRec r 16 8 + 4 * t) 4).1)
  else match s.jDesc r d 1 1 with
    | 0 => one32
    | 1 => clipFactor (s.jDesc r d 36 4) (fSqrt 0 (s.blockSum r t))
    | _ => clipFactor (s.jDesc r d 36 4) (fSqrt 0 (foldSums ((List.range (s.jobT r)).map (s.blockSum r))))

/-- The gate: the status of a skip, none to go on (Table 6.4, R166). -/
def State.gate (s : State) (j : GroomJob) : Option Nat :=
  let r := j.req
  if r.kind = 1 then
    let fl := s.blockAt r 0 1
    if !bitAt fl 3 then some 4
    else if bitAt fl 2 then some 2
    else if (List.range (s.jobD r)).any (fun d => s.blockAt r (8 + 16 * d) 8 != s.blockAt r (16 + 16 * d) 8) then some 6
    else if bitAt fl 0 || (List.range (s.jobT r)).any (fun t => bad32 (s.blockSum r t)) then some 9
    else none
  else if (List.range (s.jobCount r)).any fun i => !(s.gradCode j i).2 && (decodeVal (s.jobRec r 36 1) (s.gradCode j i).1).nonfinite then some 9
  else none

/-! ## Requests of a job (R146) -/

/-- Change the job that runs. -/
def State.setJob (s : State) (j : GroomJob) : State := { s with groom := { s.groom with job := some j } }

/-- The instance that a job serves. -/
def State.jobInst (s : State) (j : GroomJob) (f : Inst → Inst) : State :=
  s.updInst (fun i => i.team == j.req.team && i.n == j.inst && i.st == .running) f

/-- What the requests of a job share. -/
def State.groomFor (s : State) (j : GroomJob) (wr : Bool) (part : Nat) : ReqFor :=
  { yg := s.yg j.req.y, wr := wr, use := .groom j.id part, own := some (j.req.team, j.inst) }

/-- Hitch port of the groom unit for an address: all 16 in turn by 4 KiB. -/
def groomPort (a : Nat) : Nat := a / 4096 % 16

/-- Read n bytes of operand `part` at local address a. -/
def State.groomRead (s : State) (j : GroomJob) (part a n : Nat) : State × GroomJob :=
  let q := s.groomFor j false part
  if n = 0 then (s, j)
  else if isDepot a then
    let rs := depotReqs q (offsetOf a) n 0 []
    (s.depotAdd rs, { j with reads := j.reads + rs.length, need := j.need ++ [part] })
  else
    let rs := hitchReqs q groomPort [] [(a, n)] 0
    (s.hitchAdd rs, { j with reads := j.reads + rs.length, need := j.need ++ [part] })

/-- Read several operands: part, address, bytes. -/
def State.groomReads (s : State) (j : GroomJob) (xs : List (Nat × Nat × Nat)) : State :=
  let (s1, k) := xs.foldl (fun (p : State × GroomJob) x => p.1.groomRead p.2 x.1 x.2.1 x.2.2) (s.setJob j, j)
  s1.setJob k

/-- Writes that follow one another in memory, as one. -/
def joinWrites : List (Nat × List Byte) → List (Nat × List Byte)
  | [] => []
  | x :: t => match joinWrites t with
    | y :: u => if x.1 + x.2.length = y.1 then (x.1, x.2 ++ y.2) :: u else x :: y :: u
    | [] => [x]

/-- Issue one write of the job that runs. -/
def State.groomWrite (s : State) (w : Nat × List Byte) : State :=
  match s.groom.job with
  | none => s
  | some j =>
    let q := s.groomFor j true 5
    if isDepot w.1 then
      let rs := depotReqs q (offsetOf w.1) w.2.length 0 w.2
      ((s.setJob { j with writes := j.writes + rs.length }).depotAdd rs).groomWrote j.id
    else
      let rs := hitchReqs q groomPort w.2 [(w.1, w.2.length)] 0
      (s.setJob { j with writes := j.writes + rs.length }).hitchAdd rs

/-- A write of job `id` is acknowledged. -/
def State.groomAck (s : State) (id : Nat) : State :=
  match s.groom.job with
  | some j => if j.id = id then s.setJob { j with writes := j.writes - 1 } else s
  | none => s

/-- The first data of an operand of job `id` have come. -/
def State.groomBegun (s : State) (id part : Nat) : State :=
  match s.groom.job with
  | some j => if j.id = id then s.setJob { j with begun := union j.begun [part] } else s
  | none => s

/-! ## The update -/

/-- The scalars of descriptor d. -/
def State.jobScalars (s : State) (r : GroomReq) (d : Nat) : Scalars :=
  let f (o k : Nat) : Nat := s.jDesc r d o k
  scalars (f 0 1) (f 16 4) (f 20 4) (f 24 4) (f 28 4) (f 32 4) (f 40 4) (f 8 8)

/-- One element of an UPDATE operation, whose staged gradient starts at place `first` of the shard: load, optimise, store. It is held back where a lost
carriage or an absent member entered its gradient (R108, R110), or an operand is unavailable (R346). -/
def State.groomEl (s : State) (j : GroomJob) (ks : List Scalars) (stage : Option Blob) (lost : Bool) (x : (Nat × Nat × Nat × Nat × Nat) × Nat) : GEl :=
  let ((i, t, id, d, n), k) := x
  let r := j.req
  let f (o k : Nat) : Nat := s.jDesc r d o k
  let mode := f 6 2
  let c := ks.getD d (s.jobScalars r d)
  let raw (part o fm : Nat) : Nat × Bool := j.operand part (f o 8 + n * fmtBytes fm 1) (fmtBytes fm 1)
  let p0 := raw 0 48 (f 2 1)
  let m0 := if c.rule = 0 then (0, false) else raw 1 56 (f 3 1)
  let v0 := if c.rule = 2 then raw 2 64 (f 4 1) else (0, false)
  let (g, g1, gm) := match stage with
    | some b => let (v, fl) := loadVal 0 mode (leNat ((b.data.drop (4 * k)).take 4)); (v, fl, b.mark (4 * k / 64))
    | none => let (v, fl) := s.gradVal j i mode; (v, fl, ({ flags := { poison := (s.gradCode j i).2 } } : Mark))
  let clipLost := r.kind == 2 && s.jobRec r 16 8 != 0 && (j.operand 4 (s.jobRec r 16 8 + 4 * t) 4).2
  let (p, p1) := loadState (f 2 1) mode p0.1
  let (m, m1) := loadState (f 3 1) mode m0.1
  let (v, v1) := loadState (f 4 1) mode v0.1
  let o := optimise c g (s.clipOf j t) p m v
  let w (pt : Nat) : Nat := if mSr mode then srg (s.jobRec r 48 8) i id (f 8 8 % 2 ^ 32) pt else 0
  let sp := storeState (f 2 1) mode (w 1024) o.1
  let sm := if c.rule = 0 then { code := 0 } else storeState (f 3 1) mode (w 1025) o.2.1
  let sv := if c.rule = 2 then storeState (f 4 1) mode (w 1026) o.2.2 else { code := 0 }
  if lost || p0.2 || m0.2 || v0.2 || clipLost || gm.flags.poison || gm.flags.absent || gm.void then
    { d := d, j := n, i := i, p := p0.1, m := m0.1, v := v0.1, held := true }
  else
    { d := d, j := n, i := i, p := sp.code, m := sm.code, v := sv.code, sat := b2n (sp.sat || sm.sat || sv.sat)
      flush := b2n (g1 || p1 || m1 || v1 || sp.flush || sm.flush || sv.flush)
      nonf := bad32 o.1 || bad32 o.2.1 || bad32 o.2.2 || (decodeVal (f 2 1) sp.code).nonfinite || (c.rule != 0 && (decodeVal (f 3 1) sm.code).nonfinite)
        || (c.rule == 2 && (decodeVal (f 4 1) sv.code).nonfinite) }

/-- The stores of some elements, address and bytes: all p, all m, all v (R164). -/
def State.elWrites (s : State) (r : GroomReq) (els : List GEl) : List (Nat × List Byte) :=
  let w (e : GEl) (o fo x : Nat) : Nat × List Byte :=
    let z := fmtBytes (s.jDesc r e.d fo 1) 1
    (s.jDesc r e.d o 8 + e.j * z, leBytes z x)
  let rule (e : GEl) : Nat := s.jDesc r e.d 0 1
  (els.map fun e => w e 48 2 e.p) ++ ((els.filter fun e => rule e != 0).map fun e => w e 56 3 e.m)
    ++ ((els.filter fun e => rule e == 2).map fun e => w e 64 4 e.v)

/-- Elements of the shard in descriptor d's group, and the bytes of their parameters and moments. -/
def State.groupBytes (s : State) (r : GroomReq) (d : Nat) : Nat :=
  ((s.jobElems r).filter fun x => x.2.2.2.1 == d).length * ((s.groupAddrs (s.jobTables r) d).foldl (fun n x => n + x.2) 0)

/-- Descriptors that are mirrored, and the bytes that they stage (R165). -/
def State.mirrored (s : State) (r : GroomReq) : List Nat := (List.range (s.jobD r)).filter fun d => bitAt (s.jDesc r d 72 4) 0
def State.mirSizeOf (s : State) (r : GroomReq) : Nat := (s.mirrored r).foldl (fun n d => n + s.groupBytes r d) 0

/-- The mirror bytes of descriptor d: its parameters, first moments, second moments, those that stand in memory now (R165). -/
def State.mirBytes (s : State) (r : GroomReq) (els : List GEl) (d : Nat) : List Byte :=
  let f (o k : Nat) : Nat := s.jDesc r d o k
  let mine := els.filter fun e => e.d == d
  (mine.map fun e => leBytes (fmtBytes (f 2 1) 1) e.p).flatten ++
    (if f 0 1 = 0 then [] else (mine.map fun e => leBytes (fmtBytes (f 3 1) 1) e.m).flatten) ++
    (if f 0 1 = 2 then (mine.map fun e => leBytes (fmtBytes (f 4 1) 1) e.v).flatten else [])

/-- Stage mirror bytes for an epoch (R165, R303): a new epoch first clears the counts. Their offset in the copy is the bytes staged before
(DESIGN CHOICE: log entry 26). -/
def State.stageMirror (s : State) (r : GroomReq) (epoch : Nat) (bs : List Byte) : State :=
  let s1 : State := if s.rf .GRM_MIR_OUT_EPOCH_EPOCH = epoch then s
    else { s.setfs [(.GRM_MIR_OUT_EPOCH_EPOCH, 0, epoch), (.GRM_MIR_OUT_STAGED, 0, 0), (.GRM_MIR_OUT_ACKED, 0, 0), (.GRM_MIR_OUTSTAT_LOST, 0, 0)] with
      groom := { s.groom with mirStage := [], mirSent := 0, mirOpen := 0 } }
  let at_ := s1.rf .GRM_MIR_OUT_STAGED
  let s2 := (s1.wrScr r.y r.mirrorOff { data := bs }).inc .GRM_MIR_OUT_STAGED 0 bs.length
  { s2 with groom := { s2.groom with mirStage := s2.groom.mirStage ++ [(r.y, r.mirrorOff, bs.length, at_)] } }

/-- Mirror staging of a job, where it is asked for and configured. -/
def State.mirrorJob (s : State) (j : GroomJob) : State :=
  if !s.on .GRM_MIR_CFG_OUT_EN || j.req.mirrorOff == 0 then s
  else match s.mirrored j.req with
    | [] => s
    | d :: t => s.stageMirror j.req (s.jDesc j.req d 8 8) ((d :: t).map (s.mirBytes j.req j.els)).flatten

/-- The area that the job's mirror bytes would take is its instance's; what an earlier job staged there is not sent any more. -/
def State.takeMirArea (s : State) (j : GroomJob) : State :=
  let r := j.req
  let n := if r.mirrorOff = 0 then 0 else s.mirSizeOf r
  let hit (m : Nat × Nat × Nat × Nat) : Bool := m.1 == r.y && m.2.1 < r.mirrorOff + n && r.mirrorOff < m.2.1 + m.2.2.1
  let s1 : State := { s with groom := { s.groom with mirStage := s.groom.mirStage.filter fun m => !hit m } }
  s1.jobInst j fun i => { i with mirArea := (r.mirrorOff, n) }

/-! ## UPDATE operations (R147) -/

/-- Operands that elements of the shard read: part, address, bytes; of each group the range from its first to its last element. -/
def State.opReads (s : State) (r : GroomReq) (xs : List (Nat × Nat × Nat × Nat × Nat)) : List (Nat × Nat × Nat) :=
  ((List.range (s.jobD r)).map fun d =>
    match (xs.filter fun x => x.2.2.2.1 == d).map fun x => x.2.2.2.2 with
    | [] => []
    | n :: t => (s.groupAddrs (s.jobTables r) d).zip (List.range 3) |>.map fun a => (a.2, a.1.1 + n * a.1.2, (t.length + 1) * a.1.2)).flatten

/-- The next UPDATE operation of the job joins the array's queue and its reads go out; after the last one the mirror bytes are staged, and the job waits for
the acknowledgement of its writes. -/
def State.nextUpd (s : State) (j : GroomJob) : State :=
  let r := j.req
  let n := (s.jobShard r).2
  if n ≤ j.next then (s.mirrorJob j).setJob { j with step := .ending }
  else
    let k := min 65536 (n - j.next)
    let stage := if r.kind = 1 then some (r.stageOff + 4 * j.next) else none
    let o : ArrOp := { row := r.y, col := 14, tag := 8, serial := s.serial + 1, desc := [], team := r.team, inst := j.inst, infmt := 0, outfmt := 0,
                       mode := 0, scale := 0, tensor := 0, seed := 0, t := s.mtc, upd := some ⟨j.id, j.next, k, stage⟩ }
    let s1 : State := { s with serial := s.serial + 1, arr := { s.arr with queue := o.join s.arr.queue } }
    s1.groomReads { j with step := .update, next := j.next + k, need := [], begun := [], got := j.got.filter fun c => 3 ≤ c.1 }
      (s.opReads r (((s.jobElems r).drop j.next).take k))

/-- A skip: its status goes to the instance, nothing is updated, staged or sent (R154, R165). -/
def State.groomSkip (s : State) (j : GroomJob) (st : Nat) : State :=
  let s1 := (s.jobInst j fun i => { i with skip := some st }).setJob { j with skip := some st, step := .ending }
  if st = 9 then s1.sat .GRM_COUNTS_SKIP_NF 0 else if st = 6 then s1.sat .GRM_COUNTS_SKIP_STEP 0 else s1

/-- The gate of a job of KIND 1 or 2. -/
def State.groomGate (s : State) (j : GroomJob) : State :=
  match s.gate j with
  | some st => s.groomSkip j st
  | none => s.nextUpd j

/-- Bytes at local address a of operand `part` of job `id` have come, the 64 B words of the mask `bad` unavailable (R170, R346); with the last of those that the gate needs, it decides. -/
def State.groomGot (s : State) (id part a : Nat) (bs : List Byte) (bad : Nat) : State :=
  match s.groom.job with
  | some j =>
    if j.id = id then
      let k := { j with reads := j.reads - 1, begun := union j.begun [part], got := j.got ++ [(part, a, bs, bad)] }
      if k.step = .gate && k.reads = 0 then s.groomGate k else s.setJob k
    else s
  | none => s

/-- Note the elements whose results are withheld. -/
def State.noteHeld (s : State) (j : GroomJob) (els : List GEl) : State :=
  (els.filter GEl.held).foldl (fun (s : State) e =>
    match s.insts.find? fun i => i.team == j.req.team && i.n == j.inst && i.st == .running with
    | some i => s.noteWithheld i (e.i * fmtBits i.gfmt / 8) { flags := { poison := true } }
    | none => s) s

/-- The running UPDATE operation ends, unless it stalls for its operands: its results are written, and the next operation is issued behind those that wait
(R147). One whose job was cut writes nothing (R149, R59). -/
def State.updDone (s : State) (c : ArrCur) (parity : Bool) : State :=
  if s.stalls c then s
  else
    let s0 := if parity then s.fault 23 else s
    let s1 : State := ({ s0 with
      arr := { s0.arr with cur := none }
      power := { s0.power with lastOp := s0.now } }).inc .ARR_OPCOUNT_COUNT 0
    match c.op.upd, s1.groom.job with
    | some u, some j =>
      if c.discard || j.id != u.job || j.dead then s1
      else
        let ks := (List.range (s1.jobD j.req)).map (s1.jobScalars j.req)
        let stage := if u.stage.isSome then (c.srcs.headD none) else none
        let xs := ((s1.jobElems j.req).drop u.first).take u.count
        let els := (xs.zip (List.range u.count)).map (s1.groomEl j ks stage parity)
        let go := els.filter fun e => !e.held
        let s2 := ((s1.jobInst j fun i => { i with
          sat := go.foldl (fun n e => satAdd n e.sat) i.sat
          flush := go.foldl (fun n e => satAdd n e.flush) i.flush
          own := i.own.or { nonfinite := go.any GEl.nonf, poison := els.any GEl.held } }).noteHeld j els).setJob { j with els := j.els ++ els }
        let s3 := (joinWrites (s2.elWrites j.req go)).foldl State.groomWrite s2
        match s3.groom.job with
        | some k => s3.nextUpd k
        | none => s3
    | _, _ => s1

/-- The running operation of the array ends (R117, R118, R147). -/
def State.arrEnd (s : State) (parity : Bool) : State :=
  match s.arr.cur with
  | some c => if c.op.upd.isSome then s.updDone c parity else s.arrDone parity
  | none => s

/-! ## Jobs -/

/-- A job of KIND 3: T square roots to the destination; the block's flags join the instance's (R167). -/
def State.normJob (s : State) (j : GroomJob) : State :=
  let r := j.req
  let bs := ((List.range (s.jobT r)).map fun t => leBytes 4 (fSqrt 0 (s.blockSum r t))).flatten
  let fl := s.blockAt r 0 1
  let f : Flags3 := { nonfinite := bitAt fl 0, poison := bitAt fl 1, absent := bitAt fl 2 }
  let s1 := (s.setJob { j with step := .ending }).jobInst j fun i => { i with own := i.own.or f }
  if f.poison || f.absent then
    match s1.insts.find? fun i => i.team == r.team && i.n == j.inst && i.st == .running with
    | some i => s1.noteWithheld i 0 { flags := f }
    | none => s1
  else s1.groomWrite (s.jobRec r 16 8, bs)

/-- Bytes of the scratchpad that the job reads: offset and length. -/
def State.jobScratch (s : State) (r : GroomReq) : List (Nat × Nat) :=
  (if r.kind = 1 then [(r.stageOff, 4 * (s.jobShard r).2)] else []) ++
    (if r.kind = 2 then [] else [(r.resultOff, 8 + 16 * (if r.kind = 3 then 0 else s.jobD r) + 4 * s.jobT r)])

/-- They are all confirmed (R149, Table 7.6), and no operation issued before has still to write them (R117). -/
def State.jobConfirmed (s : State) (r : GroomReq) : Bool :=
  let ws := s.arr.queue ++ ((s.arr.kept.filter fun k => k.stale).map fun k => k.op) ++ (match s.arr.cur with
    | some c => if c.discard then [] else [c.op]
    | none => [])
  (s.jobScratch r).all fun x => (s.rdScr r.y (x.1 / 64 * 64) (x.2 + 64)).deps.isEmpty && !ws.any fun w => rangeMeets r.y (scrWord x.1) x.2 w

/-- An area that the request names leaves the yard's bank (R151; DEDUCED: log entry 154). -/
def State.jobOut (s : State) (r : GroomReq) : Bool :=
  (s.jobScratch r ++ (if r.mirrorOff = 0 || r.kind = 3 then [] else [(r.mirrorOff, s.mirSizeOf r)])).any fun x => decide (s.bankSize < x.1 + x.2)

/-- The job's first step: the norm finish, the gate of an RCUG, the reads that the gate of an UPDATE needs. -/
def State.groomBegin (s : State) (j : GroomJob) : State :=
  let r := j.req
  if s.jobOut r then s.groomSkip j 6
  else if r.kind = 3 then s.normJob j
  else if r.kind = 1 then (s.takeMirArea j).groomGate j
  else
    let n := s.jobCount r
    let c := s.jobRec r 16 8
    (s.takeMirArea j).groomReads j ((3, s.jobRec r 8 8, (n * fmtBits (s.jobRec r 36 1) + 7) / 8) :: (if c = 0 then [] else [(4, c, 4 * s.jobT r)]))

/-- The next request's job starts when none runs and its bytes are confirmed; a request of a yard in reset, or of a KIND that
Table 6.1 does not have, is dropped. None starts in the safe state (R320). -/
def State.groomStart (s : State) : State :=
  match s.groom.job, s.groom.queue with
  | none, r :: t =>
    if s.rf .YRD_STATE_STATE r.y = 1 || s.rf .YRD_STATE_STATE r.y = 3 || r.kind = 0 || 3 < r.kind then { s with groom := { s.groom with queue := t } }
    else if s.safe || !s.jobConfirmed r then s
    else
      let n := match s.insts.find? fun i => i.team == r.team && i.st == .running && i.n % 2 == r.rec_ % 2 with
        | some i => i.n
        | none => s.jobRec r 4 4
      let j : GroomJob := { req := r, id := s.groom.jobs + 1, inst := n }
      let s1 : State := { s with groom := { s.groom with queue := t, job := some j, jobs := s.groom.jobs + 1 } }
      let s2 := (s1.setfs [(.GRM_STATUS_BUSY, 0, 1), (.GRM_STATUS_KIND, 0, r.kind), (.GRM_STATUS_YARD, 0, r.y), (.GRM_STATUS_TEAM, 0, r.team),
        (.GRM_STATUS_CUT, 0, 0)]).trace 4 (r.team + 256 * r.kind + 65536 * r.y)
      s2.groomBegin j
  | _, _ => s

def execGroomJobStart (s : State) : Out := event s fun s => s.groomStart

/-! ## The end of a job (R145, R154, R162) -/

/-- Status of an instance that was not aborted: a skip first (R155), a far carriage refused (R170, R309), then Table 4.3. -/
def Inst.outcome (i : Inst) : Nat :=
  match i.skip with
  | some st => st
  | none =>
    if i.blocked then 7
    else if !i.withAbsent.isEmpty then 2
    else if !i.withPoison.isEmpty || i.bad then 4
    else if i.replay then 0xE
    else if i.degraded then 0xD
    else 0

/-- The norm that a descriptor reports: S_t folded in order, then the root. UPDATE has none, so a free value (DESIGN CHOICE: log entry 5). -/
def State.lastNorm (s : State) (r : GroomReq) (d : Nat) : Nat :=
  if r.kind = 2 then (Config.freeWord s.fresh d).toNat % 2 ^ 32
  else fSqrt 0 (foldSums ((s.tensorsOf r d).map (s.blockSum r)))

/-- The status that the job's descriptors take: of a skip its own, else what Table 4.3 gives the instance now. -/
def State.jobStatus (s : State) (j : GroomJob) : Nat :=
  match j.skip, s.insts.find? fun i => i.team == j.req.team && i.n == j.inst && i.st == .running with
  | some st, _ => st
  | none, some i => i.outcome
  | none, none => 0

/-- What is written back into the descriptors (R154, R162); nothing by NORM, nor for an aborted team (R59). -/
def State.backWrites (s : State) (j : GroomJob) : List (Nat × List Byte) :=
  let r := j.req
  if r.kind = 3 || j.dead then []
  else ((List.range (s.jobD r)).map fun d =>
    let a := s.jobTables r + 128 * d
    let clipped := ((s.tensorsOf r d).filter fun t => ltVal (decodeVal 0 (s.clipOf j t)) (decodeVal 0 one32)).length
    let norm := [(a + 96, leBytes 4 (s.lastNorm r d))]
    let status := [(a + 104, leBytes 1 (s.jobStatus j))]
    if j.skip.isSome then norm ++ status else (a + 8, leBytes 8 (s.jDesc r d 8 8 + 1)) :: norm ++ (a + 100, leBytes 4 clipped) :: status).flatten

/-- Every write of the job is acknowledged, and nothing of it is left to do; a job of an aborted team waits for nothing. -/
def GroomJob.over (j : GroomJob) : Bool := j.dead || (j.step == .ending && j.writes == 0)

/-- The job ends: descriptors are written back, and the yard's done object takes 1 (R145, R162). -/
def State.groomEnd (s : State) : State :=
  match s.groom.job with
  | none => s
  | some j =>
    if !j.over || s.safe then s
    else
      let ws := s.backWrites j
      let s0 := if ws.isEmpty then s else s.groomWrote j.id
      let s1 := ws.foldl (fun (s : State) w => s.wrHost w.1 w.2) { s0 with groom := { s0.groom with job := none }, fresh := s0.fresh + 1 }
      let s2 := (s1.setfs [(.GRM_STATUS_BUSY, 0, 0), (.GRM_STATUS_KIND, 0, 0), (.GRM_STATUS_YARD, 0, 0), (.GRM_STATUS_TEAM, 0, 0)]).inc .GRM_COUNTS_JOBS 0
      if s2.on .GRM_START_VALID j.req.y then s2.localAdd (s2.rf .GRM_START_DONE_OBJ j.req.y) 1 else s2

/-- The yard's job stops: what it has not written is discarded, what a port has accepted stands (R149). -/
def State.groomCut (s : State) (y : Nat) : State :=
  let s1 : State := { s with groom := { s.groom with queue := s.groom.queue.filter fun r => r.y != y } }
  match s1.groom.job with
  | some j => if j.req.y = y then
      let s2 := ({ s1 with
        groom := { s1.groom with job := none }
        hitch := { s1.hitch with waitq := s1.hitch.waitq.filter fun r => !r.grooms } }).setfs
        [(.GRM_STATUS_BUSY, 0, 0), (.GRM_STATUS_KIND, 0, 0), (.GRM_STATUS_YARD, 0, 0), (.GRM_STATUS_TEAM, 0, 0), (.GRM_STATUS_CUT, 0, b2n j.wrote)]
      if j.wrote then s2.fault 44 else s2
    else s1
  | none => s1

end Sys2Proof.Machine
end

