-- ==== Sys2Proof/Machine/Remote.lean ====
section
/-! DEFINITION. Remote operations: PUT, GET, ATOMIC, SIGNAL, their receive sides and responses, cancellation (7.6, 7.7, R282). -/

namespace Sys2Proof.Machine

/-! ## Fields of Table 10.10 -/

def rAop (e : Entry) : Nat := ent e 4 1
def rNotify (e : Entry) : Bool := bitAt (ent e 5 1) 0
def rLocal (e : Entry) : Nat := ent e 8 8
def rRemote (e : Entry) : Nat := ent e 16 8
def rLen (e : Entry) : Nat := ent e 24 4
def rOp1 (e : Entry) : Nat := ent e 32 8
def rEp (e : Entry) : Nat := rRemote e / 2 ^ 48
def rOff (e : Entry) : Nat := rRemote e % 2 ^ 48

def remoteFields : List (Nat × Nat) := [(4, 1), (5, 1), (6, 2), (8, 8), (16, 8), (24, 4), (32, 8), (40, 8), (48, 2), (56, 8)]

/-- Bytes of the local buffer. -/
def localLen (e : Entry) : Nat := if eOp e = 0x42 then 8 else if eOp e = 0x43 then 0 else rLen e

/-- Checks of a remote operation on pair q (Table 10.10, R282, R177). -/
def remoteBad (q : Nat) (e : Entry) (s : State) : List (Bool × Nat × Nat) :=
  let op := eOp e
  let data := op == 0x40 || op == 0x41
  [(!s.sliceSet, rState, 0), (decide (1 < ent e 5 1) || (rNotify e && op != 0x40), rField, 5),
   ((op == 0x42 && decide (3 < rAop e)) || (op == 0x43 && decide (1 < rAop e)), rField, 4),
   (if data then decide (rLen e < 1 || 2 ^ 31 < rLen e) else rLen e != 0, rField, 24), (op == 0x43 && rLocal e != 0, rField, 8),
   (rNotify e && decide (s.nsync ≤ ent e 6 2), rBounds, 6), (op == 0x43 && decide (s.nsync ≤ rOff e), rBounds, 16),
   (decide (s.nep ≤ rEp e), rBounds, 16), (op == 0x42 && rLocal e % 8 != 0, rBounds, 8), (op == 0x42 && rOff e % 8 != 0, rBounds, 16)] ++
  s.fragBad e 48 ++ s.regionBad (s.qYard q) e 8 (localLen e) (op != 0x40) 48 ++ [(!s.on .RTE_EP_LO_VALID (rEp e), rBounds, 16)]

/-! ## Sending -/

/-- Data bytes of one carriage of the operation. -/
def pieceMax (op : Nat) : Nat := if op = 0x40 then 8128 else 8192

/-- Kind, class and payload of the carriage for the bytes o .. o + n − 1 of command e (Table 7.7, R257). -/
def State.remoteCar (s : State) (e : Entry) (o n : Nat) : Nat × Nat × List Byte :=
  match eOp e with
  | 0x40 => (1, 1, granule (rOff e + o) n 0 (b2n (rNotify e)) (ent e 6 2) 0 s.epochNow
      ++ s.rdPieces (pieces (s.bufFrags e 48) (rLocal e + o) n))
  | 0x41 => (2, 1, granule (rOff e + o) n 0 0 0 0 0)
  | 0x42 => (4, 1, granule (rOff e) 0 (rAop e) 0 0 (rOp1 e) (ent e 40 8))
  | _ => (6, 2, granule (rRemote e % 2 ^ 14) 0 (rAop e) 0 0 (rOp1 e) s.epochNow)

/-- Replace the remote record of command (q, id). -/
def State.setRemote (s : State) (q id : Nat) (r : Remote) : State :=
  { s with qs := { s.qs with cmds := updWhere (fun c => c.q == q && c.id == id) (fun c => { c with phase := .remote r }) s.qs.cmds } }

/-- Send one carriage of a remote operation if its window has a credit. -/
def State.sendPiece (s : State) (c : Cmd) (r : Remote) (y o n : Nat) : Option (State × Remote) :=
  match s.takeCredit r.ep r.tenant 64 with
  | none => none
  | some (s1, w) =>
    let (kind, cls, bs) := s1.remoteCar c.e o n
    let s2 := s1.owe r.ep r.tenant 64 w.seq c.q c.id
    let car := mkCarriage { cls := cls, kind := kind, dst := r.ep, src := s.self, tenant := r.tenant, yard := y, ygen := s.rf .YRD_STATE_GEN y,
                            gen := w.gen, seq := w.seq, dgen := s.rf .RTE_EP_LO_GEN r.ep } bs
    let r' := { r with out := r.out ++ [(w.seq, o, n)], sent := r.sent + 1 }
    some ((s2.setRemote c.q c.id r').inject car 8 3, r')

/-- Send as many carriages of the operation as credits allow, at most `fuel`. -/
def State.sendPieces : Nat → State → Cmd → Remote → Nat → State
  | 0, s, _, _, _ => s
  | fuel + 1, s, c, r, y =>
    match r.todo with
    | [] => s
    | (o, n) :: _ =>
      let k := min n (pieceMax (eOp c.e))
      match s.sendPiece c { r with todo := if n - k = 0 then [] else [(o + k, n - k)] } y o k with
      | none => s
      | some (s1, r1) => State.sendPieces fuel s1 c r1 y

/-- Continue every remote operation that has carriages left, in the order of the commands. -/
def State.pumpRemotes (s : State) : State :=
  s.qs.cmds.foldl (fun (s : State) (c : Cmd) => match c.phase with
    | .remote r => State.sendPieces 64 s c r (s.qYard c.q)
    | _ => s) s

/-- Complete the operation when every carriage is accounted for (Table 7.8, R197, R198); a refusal counts before a cancel that came after it (R287). -/
def State.remoteDone (s : State) (q id : Nat) : State :=
  match s.cmd? q id with
  | some c => match c.phase with
    | .remote r =>
      if r.out.isEmpty && r.todo.isEmpty then s.finishCmd c (if r.blocked then 7 else if r.cancelled then 0x0C else 0) else s
    | _ => s
  | none => s

/-- Start a remote operation: a destination that does not admit the tenant completes TENANT_BLOCKED (R177). -/
def State.remoteCmd (s : State) (q op : Nat) (e : Entry) : State :=
  s.startCmd q op e remoteFields (q != 0) fun s ft =>
    match firstBad (remoteBad q e s) with
    | some (r, d) => s.invalid q e r d
    | none =>
      let tn := s.yardTenant (s.qYard q)
      if !bitAt (s.rf .RTE_EP_LO_TENANT_MASK (rEp e)) tn then s.finish q (eId e) op 7
      else
        let n := if op = 0x42 then 8 else if op = 0x43 then 1 else rLen e
        (s.adopt ft (.remote { kind := op, ep := rEp e, tenant := tn, todo := [(0, n)] })).pumpRemotes

/-- PUT. -/
def execPut (q : QP) (e : Entry) (s : State) : Out := event s fun s => s.remoteCmd q 0x40 e
/-- GET. -/
def execGet (q : QP) (e : Entry) (s : State) : Out := event s fun s => s.remoteCmd q 0x41 e
/-- ATOMIC. -/
def execAtomic (q : QP) (e : Entry) (s : State) : Out := event s fun s => s.remoteCmd q 0x42 e
/-- SIGNAL. -/
def execSignalCommand (q : QP) (e : Entry) (s : State) : Out := event s fun s => s.remoteCmd q 0x43 e

/-! ## Cancellation and timeout -/

/-- Cancel what the output arbitration has not yet granted of operation r; `status` is CANCELLED when nothing was sent (R198). -/
def State.cancelRemote (s : State) (c : Cmd) (r : Remote) : State :=
  let mine := s.net.outq.filter (r.owns s.self)
  let gone (q : Nat) : Bool := mine.any fun o => cSeq o.c == q
  let s1 := s.cancelOut fun o => mine.contains o
  let r' := { r with todo := [], out := r.out.filter (fun x => !gone x.1), sent := r.sent - mine.length, cancelled := true }
  if r'.sent = 0 then s1.finishCmd c 0x0B else (s1.setRemote c.q c.id r').remoteDone c.q c.id

/-- The remote operation outstanding on pair q with the id. -/
def State.remoteOf (s : State) (q id : Nat) : Option (Cmd × Remote) :=
  match s.cmd? q id with
  | some c => match c.phase with
    | .remote r => if r.cancelled then none else some (c, r)
    | _ => none
  | none => none

/-- The entry of a remote operation of pair q with the id, fetched and not yet started. -/
def State.fetchedRemote (s : State) (q id : Nat) : Option Fetched :=
  s.qs.fetched.find? fun f => f.q == q && eId f.e == id && 0x40 ≤ eOp f.e && eOp f.e ≤ 0x43

/-- DB_CANCEL (R285). An operation not yet started has sent nothing: it completes CANCELLED. -/
def State.dbCancel (s : State) (q id : Nat) : State :=
  match s.remoteOf q id with
  | some (c, r) => s.cancelRemote c r
  | none => match s.fetchedRemote q id with
    | some f => ({ s with qs := { s.qs with fetched := s.qs.fetched.erase f } }).finish q id (eOp f.e) 0x0B
    | none => s.sat .DB_STATUS_BAD_CANCEL q

/-- A remote operation reaches its timeout (R197): it and every other command with carriages outstanding in its window complete TIMEOUT; the
window's credits return and its generation advances, after the quarantine. -/
def State.remoteTimeout (s : State) (c : Cmd) (r : Remote) : State :=
  let same (d : Cmd) : Bool := match d.phase with
    | .remote x => x.ep == r.ep && x.tenant == r.tenant && !x.out.isEmpty
    | _ => false
  let hit := s.qs.cmds.filter fun d => same d || (d.q == c.q && d.id == c.id)
  let s1 := hit.foldl (fun (s : State) (d : Cmd) => s.finishCmd d 3) s
  match s1.win? r.ep r.tenant 64 with
  | none => s1
  | some w =>
    let g := (sget (fun _ => 0) s1.net.sendGens (r.ep * 4 + r.tenant) % 256 + 1) % 256
    let s2 := s1.setWin { w with credits := 64, gen := g, owed := [], quarEnd := max s.now w.last + s.quarantine }
    let s3 : State := { s2 with net := { s2.net with sendGens := sset (fun _ => 0) s2.net.sendGens (r.ep * 4 + r.tenant) (g + 256) } }
    s3.sat .RTE_WINSTAT_TIMEOUTS 0

/-! ## REIN -/

/-- A carriage of command (q, id) is answered by a REIN where it is accepted: no GET or ATOMIC (Table 7.8). -/
def State.reinAnswers (s : State) (q id : Nat) : Bool :=
  match s.cmd? q id with
  | some c => match c.phase with
    | .remote r => r.kind == 0x40 || r.kind == 0x43
    | _ => true
  | none => true

/-- One credit of a REIN reaches the window at the source: the oldest carriage that it can answer is accounted for, of a BLOCKED one any that is not yet
answered (log entry 13). -/
def State.reinOne (s : State) (ep tenant team : Nat) (blocked : Bool) : State :=
  match s.win? ep tenant team with
  | none => s
  | some w =>
    let s1 := s.giveCredit ep tenant team 1
    match w.owed.find? fun x => blocked || s.reinAnswers x.2.1 x.2.2 with
    | none => s1
    | some (seq, q, id) =>
      let s2 := (s1.unowe ep tenant team seq).queueTraffic q
      match s2.cmd? q id with
      | some c => match c.phase with
        | .remote r => (s2.setRemote q id { r with
            out := r.out.filter (fun x => x.1 != seq), blocked := r.blocked || (blocked && !r.cancelled) }).remoteDone q id
        | _ => s2
      | none => s2

/-- n credits. -/
def State.reinMany (s : State) (ep tenant team : Nat) (blocked : Bool) : Nat → State
  | 0 => s
  | n + 1 => (s.reinOne ep tenant team blocked).reinMany ep tenant team blocked n

/-- The far transfer that a BLOCKED REIN outside any window answers: a running OFFLOAD or FETCH to that endpoint (R170, R309; DEDUCED: log entry 91). -/
def State.farBlocked (s : State) (r : Rein) (i : Inst) : Bool :=
  i.st == .running && (i.op == 0x48 || i.op == 0x49) && oLink i.entry != 7 && oDepot i.entry / 2 ^ 48 == r.src && i.gen == r.gen &&
    s.yardTenant (s.rf .TT_TEAM_YARD i.team) == r.tenant

/-- A REIN for this chip (R185, R201): stale ones are dropped. Non-team windows first; class 1 DATA windows are keyed by team too (R183). -/
def State.reinHere (s : State) (r : Rein) : State :=
  if r.blocked && !(s.net.wins.any fun w => w.ep == r.src && w.tenant == r.tenant && w.gen == r.gen && !w.owed.isEmpty) && s.insts.any (s.farBlocked r) then
    s.updInst (s.farBlocked r) fun i => { i with blocked := true }
  else match s.net.wins.find? fun w => w.ep == r.src && w.tenant == r.tenant && w.gen == r.gen with
  | none => s.sat .RTE_DROPS_STALE 0
  | some w =>
    if s.now < w.quarEnd then s.sat .RTE_DROPS_STALE 0
    else (((s.reinMany w.ep w.tenant w.team r.blocked r.credits).freeReinStalls).pumpWaiting).pumpRemotes

/-! ## Receive sides -/

/-- Take an accepted carriage of port p. -/
def State.takeAccepted (s : State) (p : Nat) (c : Carriage) (kinds : List Nat) : Option State :=
  if s.net.accepted.any (fun a => a.port == p && a.c == c) && kinds.contains (cKind c) then
    let rec drop1 : List Accepted → List Accepted
      | [] => []
      | a :: t => if a.port == p && a.c == c then t else a :: drop1 t
    some { s with net := { s.net with accepted := drop1 s.net.accepted } }
  else none

/-- The misuse of a carriage's operation on object n, if any (R261, Table 9.6): `set` with operand v. -/
def State.carMisuse (s : State) (tenant n : Nat) (set : Bool) (v : Nat) : Option Nat :=
  match s.objYard n with
  | none => some 2
  | some y =>
    if s.yardTenant y != tenant then some 1
    else if !s.on .SYN_FLAG_ALLOC n then some 2
    else if s.rf .SYN_FLAG_KIND n = 1 then some 3
    else if set && 2 ^ 63 ≤ v then some 3 else none

/-- Drop a carriage for misuse: row 5 of Table 7.4 (R261). -/
def State.dropMisuse (s : State) (c : Carriage) (cause n : Nat) : State :=
  ((s.sat .RTE_DROPS_TENANT 0).misuse cause n (cSrc c)).reinFor c true

/-- An add that a carriage carries to a pair object under an old epoch (R259). -/
def State.lateEpoch (s : State) (n stamp : Nat) : Bool := 2 ≤ s.rf .SYN_FLAG_KIND n && stamp % 65536 != s.epochNow

/-- Add k to object n for a carriage from an endpoint, with its saturation misuse. -/
def State.carAdd (s : State) (n k stamp ep : Nat) : State :=
  if s.lateEpoch n stamp then s.sat .SYN_MISUSE1_LATE_EPOCH 0
  else
    let v := s.rf .SYN_OBJ_VALUE n + k
    if v < 2 ^ 63 then s.setObj n v 1 else ((s.setObj n (2 ^ 63 - 1) 1).setf .SYN_FLAG_OVF n 1).misuse 4 n ep

/-- PUT at its target (R195), not in the safe state (R320): data written with byte enables, NOTIFY adds 1, the credit returns. A NOTIFY that is misuse drops the whole PUT. -/
def State.putArrive (s : State) (c : Carriage) : State :=
  let n := gObj c % 2 ^ 14
  match (if gNotify c then s.carMisuse (cTenant c) n false 0 else none) with
  | some m => s.dropMisuse c m n
  | none =>
    let s1 := s.wrLocal (s.aperture (cTenant c) (gTarget c)) ((c.payload.drop 64).take (gLen c))
    (if gNotify c then s1.carAdd n 1 (gOp2 c) (cSrc c) else s1).reinFor c false

def execPutReceive (p : Port) (c : Carriage) (_s : State) : Out :=
  event _s fun s => match (if s.safe then none else s.takeAccepted p c [1]) with
    | some s1 => s1.putArrive c
    | none => s

/-- A response to a request: same window generation, SEQ and yard, no credit (R186). -/
def State.respond (s : State) (c : Carriage) (kind : Nat) (bs : List Byte) : State :=
  s.inject (mkCarriage { cls := 1, kind := kind, dst := cSrc c, src := s.self, tenant := cTenant c, yard := cYard c, ygen := cYgen c,
                         gen := cGen c, seq := cSeq c, dgen := s.rf .RTE_EP_LO_GEN (cSrc c) } bs) 8 3

/-- GET_REQ at its target. -/
def execGetReqReceive (p : Port) (c : Carriage) (s : State) : Out :=
  event s fun s => match s.takeAccepted p c [2] with
    | some s1 => s1.respond c 3 (s1.rdLocal (s1.aperture (cTenant c) (gTarget c)) (gLen c))
    | none => s

/-- The new word of an atomic (Table 7.8): ADD, SWAP, CAS, signed MAX. -/
def atomicWord (aop : Nat) (w op1 op2 : Word) : Word :=
  match aop with
  | 0 => w + op1
  | 1 => op1
  | 2 => if w == op2 then op1 else w
  | _ => if w.slt op1 then op1 else w

/-- ATOM_REQ at its target (R196). -/
def State.atomArrive (s : State) (c : Carriage) : State :=
  let a := s.aperture (cTenant c) (gTarget c)
  let w := w64 (leNat (s.rdLocal a 8))
  let v := atomicWord (gAop c) w (w64 (gOp1 c)) (w64 (gOp2 c))
  (s.wrLocal a (leBytes 8 v.toNat)).respond c 5 (leBytes 8 w.toNat)

def execAtomReqReceive (p : Port) (c : Carriage) (s : State) : Out :=
  event s fun s => match (if s.safe then none else s.takeAccepted p c [4]) with
    | some s1 => s1.atomArrive c
    | none => s

/-- The outstanding request that a response answers: window generation, yard generation and SEQ (R186, Table 7.9). -/
def State.requestOf (s : State) (c : Carriage) (op : Nat) : Option (Cmd × Remote × (Nat × Nat × Nat)) :=
  let genOk := match s.win? (cSrc c) (cTenant c) 64 with
    | some w => w.gen == cGen c && w.quarEnd ≤ s.now
    | none => false
  if !genOk || s.rf .YRD_STATE_GEN (cYard c) != cYgen c then none
  else s.qs.cmds.findSome? fun d => match d.phase with
    | .remote r =>
      if r.kind == op && r.ep == cSrc c && r.tenant == cTenant c then
        (r.out.find? fun x => x.1 == cSeq c).map fun x => (d, r, x)
      else none
    | _ => none

/-- A response: its bytes are written locally and the credit of its request returns; else it is dropped as stale. -/
def State.responseHere (s : State) (c : Carriage) (op : Nat) : State :=
  match s.requestOf c op with
  | none => s.sat .RTE_DROPS_STALE 0
  | some (d, r, x) =>
    let n := if op = 0x42 then 8 else x.2.2
    let s1 := s.wrPieces (pieces (s.bufFrags d.e 48) (rLocal d.e + (if op = 0x42 then 0 else x.2.1)) n) (c.payload.take n)
    let s2 := (((s1.giveCredit r.ep r.tenant 64 1).unowe r.ep r.tenant 64 x.1).queueTraffic d.q).setRemote d.q d.id { r with out := r.out.filter fun z => z.1 != x.1 }
    (((s2.remoteDone d.q d.id).freeReinStalls).pumpWaiting).pumpRemotes

/-- GET_RSP at the source. -/
def execGetRspReceive (p : Port) (c : Carriage) (s : State) : Out :=
  event s fun s => match (if s.safe then none else s.takeAccepted p c [3]) with
    | some s1 => s1.responseHere c 0x41
    | none => s

/-- ATOM_RSP at the source. -/
def execAtomRspReceive (p : Port) (c : Carriage) (s : State) : Out :=
  event s fun s => match (if s.safe then none else s.takeAccepted p c [5]) with
    | some s1 => s1.responseHere c 0x42
    | none => s

/-- SIGNAL at its target (R259, R261). -/
def State.signalArrive (s : State) (c : Carriage) : State :=
  let n := gTarget c % 2 ^ 14
  let set := gAop c == 1
  match s.carMisuse (cTenant c) n set (gOp1 c) with
  | some m => s.dropMisuse c m n
  | none => (if set then s.setObj n (gOp1 c) 0 else s.carAdd n (gOp1 c) (gOp2 c) (cSrc c)).reinFor c false

def execSignalReceive (p : Port) (c : Carriage) (s : State) : Out :=
  event s fun s => match s.takeAccepted p c [6] with
    | some s1 => s1.signalArrive c
    | none => s

/-- PHASE, level, sense and ABSENT of a barrier carriage (Table 9.4). -/
def bPhase (c : Carriage) : Nat := gran c 0 1
def bLevel (c : Carriage) : Nat := gran c 1 1
def bSense (c : Carriage) : Bool := bitAt (gran c 2 1) 0
def bAbsent (c : Carriage) : Bool := bitAt (gran c 2 1) 1

/-- A barrier carriage of the phase: without a barrier object it is dropped as BAR_ORPHAN; the credit returns (R253). -/
def State.barrierHere (s : State) (c : Carriage) : State :=
  let t := cTeam c
  let s1 := s.reinFor c false
  if !s.on .SYN_BAR_VALID t then s1.misuse 6 0 (cSrc c)
  else if bPhase c = 0 then
    let levels := (s.teamAxes t).dropWhile (· != bLevel c)
    match levels with
    | [] => s1.misuse 6 (s.rf .SYN_BAR_OBJ t) (cSrc c)
    | a :: _ =>
      if ((s.bar t).node a).sense != bSense c then s1.misuse 5 (s.rf .SYN_BAR_OBJ t) (cSrc c)
      else (s1.onArrive t levels (bSense c) (bAbsent c)).heldArrive t
  else (s1.onRelease t (bLevel c) (bSense c) (bAbsent c)).heldArrive t

/-- ARRIVE. -/
def execBarrierArrive (p : Port) (c : Carriage) (s : State) : Out :=
  event s fun s => match (if bPhase c = 0 then s.takeAccepted p c [7] else none) with
    | some s1 => s1.barrierHere c
    | none => s

/-- RELEASE. -/
def execBarrierRelease (p : Port) (c : Carriage) (s : State) : Out :=
  event s fun s => match (if bPhase c != 0 then s.takeAccepted p c [7] else none) with
    | some s1 => s1.barrierHere c
    | none => s

end Sys2Proof.Machine
end

