-- ==== Sys2Proof/Machine/Ports.lean ====
section
/-! DEFINITION. The hitch ports, the vector-engine handoff, the depot channels, the far windows and the buddy's mirror copies
(13.1, 13.3, 6.7, 11.4, 14.3). -/

namespace Sys2Proof.Machine

/-! ## Handoff window (R351, R352) -/

/-- Bytes of a handoff tile. -/
def State.tileSize (s : State) : Nat := if s.on .HCH_VEH_CTL_LAYOUT then 131072 else 65536

/-- Tile of a host address in the handoff window, and the offset in it. -/
def State.vehAt (s : State) (a : Nat) : Option (Nat × Nat) :=
  let b := s.rf .HCH_VEH_BASE_ADDR * 65536
  if s.on .HCH_VEH_CTL_EN && decide (b ≤ a) && decide (a < b + s.rf .HCH_VEH_CTL_TILES * s.tileSize) then
    some ((a - b) / s.tileSize, (a - b) % s.tileSize)
  else none

/-- Where LAYOUT 1 stores byte o of a tile: word j at 4,096 × (j mod 32) + 4 × ⌊j ÷ 32⌋. -/
def interleave (o : Nat) : Nat := 4096 * (o / 4 % 32) + 4 * (o / 128) + o % 4

/-- Write bytes of a tile, from offset o, in the interleave. -/
def State.wrTile (s : State) (base o : Nat) : List Byte → State
  | [] => s
  | b :: t => (s.wrHost (base + interleave o) [b]).wrTile base (o + 1) t

/-- The hitch write path: bytes to host memory, through the interleave in a handoff window of LAYOUT 1. -/
def State.wrHitch (s : State) (a : Nat) (bs : List Byte) : State :=
  match s.vehAt a with
  | some (_, o) => if s.on .HCH_VEH_CTL_LAYOUT then s.wrTile (a - o) o bs else s.wrHost a bs
  | none => s.wrHost a bs

/-- Count n bytes written in a tile by yard y; a full tile waits to be reported. -/
def State.vehCount (s : State) (y a n : Nat) : State :=
  match s.vehAt a with
  | none => s
  | some (t, _) =>
    let v := sset (fun _ => 0) s.hitch.veh (t * 4 + y) (sget (fun _ => 0) s.hitch.veh (t * 4 + y) + n)
    let sum := nat4.foldl (fun k z => k + sget (fun _ => 0) v (t * 4 + z)) 0
    if s.tileSize ≤ sum then
      { s with hitch := { s.hitch with veh := skeep (fun k => k / 4 != t) v, vehDone := s.hitch.vehDone ++ [t] } }
    else { s with hitch := { s.hitch with veh := v } }

/-- VEH_TILE_COMPLETE: the doorbell message of the oldest full tile. -/
def State.vehReport (s : State) (tile : Nat) : State :=
  match s.hitch.vehDone with
  | t :: rest =>
    if t = tile then
      (({ s with hitch := { s.hitch with vehDone := rest } }).message (s.rf .HCH_VEH_DB_ADDR * 4)
        (t % 65536 * 65536 + s.rf .HCH_VEH_SEQ_SEQ % 65536)).inc .HCH_VEH_SEQ_SEQ 0
    else s
  | [] => s

def execVehTileComplete (tile : BitVec 16) (s : State) : Out := event s fun s => s.vehReport tile.toNat

/-! ## Hitch responses (R323, R342–R347) -/

/-- The outstanding request that a response names. -/
def State.reqOf (s : State) (port tag : Nat) (wr : Bool) : Option HitchReq :=
  s.hitch.reqs.find? fun r => r.port == port && r.tag == tag && r.wr == wr

def State.dropReq (s : State) (r : HitchReq) : State :=
  { s.touch (r.yg / 16) with hitch := { s.hitch with reqs := s.hitch.reqs.filter fun x => !(x.port == r.port && x.tag == r.tag) } }

def State.updReq (s : State) (r : HitchReq) (f : HitchReq → HitchReq) : State :=
  { s with hitch := { s.hitch with reqs := updWhere (fun x => x.port == r.port && x.tag == r.tag) f s.hitch.reqs } }

/-- The completion bound of a request has passed. -/
def State.pastBound (s : State) (r : HitchReq) : Bool := r.t + s.rf .HCH_BOUND_BOUND_US * 1000 < s.now

/-- A response past the bound is counted, and latches HITCH_BOUND (R323, R345). -/
def State.lateResponse (s : State) (r : HitchReq) : State :=
  if s.pastBound r then (s.sat .HCH_ERR_LATE r.port).fault 27 (.yard (r.yg / 16)) else s

/-- The yard-and-generation field is not the yard's current one (R323). -/
def State.ygStale (s : State) (r : HitchReq) (yg : Nat) : Bool := yg != r.yg || yg != s.yg (r.yg / 16)

/-- Drop a response of an earlier generation. -/
def State.staleResponse (s : State) (r : HitchReq) : State := (s.sat .HCH_ERR_STALE r.port).fault 28 (.yard (r.yg / 16))

/-- Postilion of a datapath operation. -/
def TagRef.post (r : TagRef) : Nat := 16 * r.row + r.col

/-- An access of an instance has failed: its command completes POISONED, one that has ended but is not posted too (R346; Table 4.3). -/
def State.ownBad (s : State) (own : Option (Nat × Nat)) : State :=
  match own with
  | none => s
  | some (t, n) =>
    let s1 := s.updInst (fun i => i.team == t && i.n == n) fun i => { i with bad := true }
    let late (d : Done) : Bool := d.inst == some (t, n) && [0, 0xD, 0xE].contains d.status
    { s1 with qs := { s1.qs with dones := updWhere late (fun d => { d with status := 4 }) s1.qs.dones } }

/-- A mask of all the 64 B words of n bytes. -/
def allWords (n : Nat) : Nat := 2 ^ granCount n - 1

/-- The bytes with the words of a mask as zeros. -/
def zeroWords (ue : Nat) (d : List Byte) : List Byte :=
  if ue = 0 then d else (d.zip (List.range d.length)).map fun x => if bitAt ue (x.2 / 64) then 0 else x.1

/-- Bytes d at offset o of a read operation have come, the 64 B words of the mask `bad` unavailable (R170, R346); the last part hands the stream over. -/
def State.readPart (s : State) (u : TagRef) (o : Nat) (d : List Byte) (bad : Nat) : State :=
  let lost := ((List.range (granCount d.length)).filter (bitAt bad)).map fun j => (o / 64 + j, ({ flags := { poison := true } } : Mark))
  let put (b : Blob) : Blob := { data := b.data.take o ++ zeroWords bad d ++ b.data.drop (o + d.length), marks := b.marks ++ lost }
  let s1 := s.updTag u.post u.tag u.serial fun t => { t with parts := t.parts - 1, begun := true, blob := t.blob.map put }
  match (s1.post u.post).tagOp u.tag with
  | some t => if t.serial == u.serial && t.parts == 0 then s1.streamReady u.post t (t.blob.getD {}) else s1
  | none => s1

/-- A part of a write operation is acknowledged; the last one completes the tag. -/
def State.writePart (s : State) (u : TagRef) : State :=
  let s1 := s.updTag u.post u.tag u.serial fun t => { t with parts := t.parts - 1 }
  match (s1.post u.post).tagOp u.tag with
  | some t => if t.serial == u.serial && t.parts == 0 then s1.tagDone u.post u.tag u.serial else s1
  | none => s1

/-- The whole response of a read request has come. -/
def State.readDone (s : State) (r : HitchReq) : State :=
  let d := r.data.take r.len ++ List.replicate (r.len - r.data.length) 0
  let s1 := (if r.err then s.ownBad r.own else s).dropReq r
  match r.use with
  | .tag u => s1.readPart u r.off d (if r.err then allWords d.length else 0)
  | .groom job part => s1.groomGot job part r.addr d (if r.err then allWords d.length else 0)

/-- The first data of a read have come. -/
def State.readBegins (s : State) (u : HitchUse) : State :=
  match u with
  | .tag u => s.updTag u.post u.tag u.serial fun t => { t with begun := true }
  | .groom job part => s.groomBegun job part

/-- A read-data beat. -/
def State.readBeat (s : State) (port tag yg : Nat) (last : Bool) (err : Nat) (data : List Byte) : State :=
  match s.reqOf port tag false with
  | none => s.fault 7
  | some r =>
    if s.ygStale r yg then (if last then ((s.dropReq r).staleResponse r).lateResponse r else s.staleResponse r)
    else
      let r1 : HitchReq := { r with beats := r.beats + 1, data := r.data ++ data, err := r.err || err != 0 }
      let s1 := (if err != 0 then s.sat .HCH_ERR_RD_ERR port else s).updReq r fun _ => r1
      let full := beatCount r.len
      if last then
        let s2 := s1.lateResponse r
        if r1.beats = full then s2.readDone r1 else (s2.fault 7).readDone { r1 with err := true }
      else if full ≤ r1.beats then s1.fault 7
      else s1.readBegins r.use

def execHitchReadResponse (port : Fin 16) (tag : BitVec 16) (yg : BitVec 6) (last : Bool) (err : BitVec 2)
    (data : BitVec 2048) (s : State) : Out :=
  event s fun s => s.readBeat port tag.toNat yg.toNat last err.toNat (leBytes 256 data.toNat)

/-- A write response: the bytes are visible to the host, unless it reports an error. -/
def State.writeResponse (s : State) (port tag yg err : Nat) : State :=
  match s.reqOf port tag true with
  | none => s.fault 7
  | some r =>
    let s1 := s.dropReq r
    let s2 := if err = 0 then s1.wrHitch r.addr r.data else s1
    if s.ygStale r yg then (s2.staleResponse r).lateResponse r
    else
      let s3 := s2.lateResponse r
      let s4 := if err = 0 then s3.vehCount (r.yg / 16) r.addr r.len
        else (s3.sat .HCH_ERR_WR_ERR port).ownBad r.own
      match r.use with
      | .tag u => s4.writePart u
      | .groom job _ => s4.groomAck job

def execHitchWriteResponse (port : Fin 16) (tag : BitVec 16) (yg : BitVec 6) (err : BitVec 2) (s : State) : Out :=
  event s fun s => s.writeResponse port tag.toNat yg.toNat err.toNat

/-- The oldest write of a port that still lacks beats sends one. -/
def State.sendBeat (s : State) (port : Nat) : State :=
  match s.hitch.reqs.find? fun r => r.port == port && r.wr && decide (r.beats < beatCount r.len) with
  | none => s
  | some r =>
    let s1 := s.updReq r fun x => { x with beats := x.beats + 1 }
    { s1 with hitch := { s1.hitch with beats := sset (fun _ => 0) s1.hitch.beats port (sget (fun _ => 0) s1.hitch.beats port - 1) } }

/-- A credit comes back; one beyond the limits of R342 is a protocol error. -/
def State.hitchCredit (s : State) (port : Nat) (beat : Bool) : State :=
  let h := s.hitch
  if beat then
    let n := sget (fun _ => 0) h.beats port
    if 256 ≤ n then s.fault 7
    else ({ s with hitch := { h with beats := sset (fun _ => 0) h.beats port (n + 1) } }).sendBeat port
  else
    let n := sget (fun _ => 0) h.cred port
    if 64 ≤ n then s.fault 7
    else ({ s with hitch := { h with cred := sset (fun _ => 0) h.cred port (n + 1) } }).pumpHitch

def execHitchCreditReturn (port : Fin 16) (beat : Bool) (s : State) : Out := event s fun s => s.hitchCredit port beat

/-- HITCH_BOUND_EXPIRY: a request is unanswered past the bound. -/
def State.boundExpiry (s : State) (port tag : Nat) : State :=
  match s.hitch.reqs.find? fun r => r.port == port && r.tag == tag with
  | some r => if s.pastBound r && !r.late then (s.updReq r fun x => { x with late := true }).fault 27 (.yard (r.yg / 16)) else s
  | none => s

def execHitchBoundExpiry (port : Fin 16) (tag : BitVec 16) (s : State) : Out := event s fun s => s.boundExpiry port tag.toNat

/-! ## Far windows (R169, R170, R309) -/

/-- Channel of a depot address: its quarter's four channels by 4 KiB (log entry 14). -/
def State.channelOf (s : State) (a : Nat) : Nat := portFor (a / s.quarter % 4) a

/-- FAR_WR: the router writes the depot; a refused one is counted. -/
def execFarWrReceive (l : Link) (c : Carriage) (s : State) : Out :=
  event s fun s => match s.takeAccepted l c [10] with
    | none => s
    | some s1 =>
      if s1.farBad l c true then s1.refuse l c
      else
        let a := offsetOf (gTarget c)
        s1.depotAdd [{ ch := s1.channelOf a, wr := true, addr := a, data := (c.payload.drop 64).take (gLen c), len := gLen c, use := .farWrite }]

/-- FAR_RDREQ: the depot is read for the neighbour. -/
def execFarRdreqReceive (l : Link) (c : Carriage) (s : State) : Out :=
  event s fun s => match s.takeAccepted l c [11] with
    | none => s
    | some s1 =>
      if s1.farBad l c false then s1.refuse l c
      else
        let a := offsetOf (gTarget c)
        s1.depotAdd [{ ch := s1.channelOf a, wr := false, addr := a, data := [], len := gLen c, use := .farRead l c }]

/-- Every RECV that waits for a carriage now received takes it. -/
def State.pumpRecv (s : State) : State :=
  (s.posts.map (·.1)).foldl (fun (s : State) p => (s.post p).tags.foldl (fun (s : State) t => if t.kind == .recv then s.tryRecv p t else s) s) s

/-- FAR_RDRSP: the data are handed to the receive side of link l, where the FETCH's RECV of that sequence number takes them (DESIGN CHOICE: log
entry 24). -/
def State.farRsp (s : State) (l : Nat) (c : Carriage) : State :=
  let x : RxCar := { l := l, id := s.net.nextId, c := c }
  let s2 : State := { s with net := { s.net with rx := s.net.rx ++ [x], nextId := s.net.nextId + 1 } }
  s2.pumpRecv

/-- The answer to a FAR_RDREQ goes back on its link as a scheduled carriage; uncorrectable bytes are zeros with POISON (R170). -/
def State.farAnswer (s : State) (l : Nat) (c : Carriage) (bs : List Byte) (ue : Bool) : State :=
  let x := mkCarriage { cls := 0, kind := 12, dst := cSrc c, src := s.self, tenant := cTenant c, yard := cYard c, ygen := cYgen c,
                        team := cTeam c, gen := cGen c, seq := cSeq c, dgen := s.rf .RTE_EP_LO_GEN (cSrc c), flags := { poison := ue } } bs
  { s with net := { s.net with outq := s.net.outq ++ [{ l := l, cls := 2, port := 7, adv := false, key := rrKey c, c := x }] } }

/-! ## Mirror carriages at the buddy (Table 11.2) -/

/-- The copy that mirror carriages write: the one that is not CURRENT, copy A where neither is (R302). -/
def State.mirTarget (s : State) : Nat := if s.on .GRM_MIR_COPY_CURRENT 0 then 1 else 0

/-- A CURRENT copy exists and its epoch is not below e. -/
def State.mirStale (s : State) (e : Nat) : Bool :=
  [0, 1].any fun k => s.on .GRM_MIR_COPY_CURRENT k && decide (e ≤ s.rf .GRM_MIR_COPY_EPOCH_EPOCH k)

/-- MIRROR_RECEIVE: the first row of Table 11.2 that holds. -/
def State.mirrorHere (s : State) (l : Nat) (c : Carriage) : State :=
  let e := gOp1 c
  let k := s.mirTarget
  let writing := s.rf .GRM_MIR_COPY_STATE k == 1
  let here := s.rf .GRM_MIR_COPY_EPOCH_EPOCH k
  if !s.on .GRM_MIR_CFG_IN_EN || l != s.mirIn then s.sat .GRM_MIR_IN_DROPS_DISABLED 0
  else if s.mirSize / 2 < gTarget c + gLen c then s.sat .GRM_MIR_IN_DROPS_OVERSIZE 0
  else if s.mirStale e then s.sat .GRM_MIR_IN_DROPS_STALE_EPOCH 0
  else if writing && decide (e < here) then s.sat .GRM_MIR_IN_DROPS_STALE_EPOCH 0
  else
    let s1 := if writing && here == e then s
      else s.setfs [(.GRM_MIR_COPY_STATE, k, 1), (.GRM_MIR_COPY_EPOCH_EPOCH, k, e), (.GRM_MIR_COPY_BYTES, k, 0)]
    let a := s1.copyBase k + gTarget c
    s1.depotAdd [{ ch := s1.channelOf a, wr := true, addr := a, data := (c.payload.drop 64).take (gLen c), len := gLen c,
                   use := .mirror k e (gLen c) }]

def execMirrorReceive (l : Link) (c : Carriage) (s : State) : Out :=
  event s fun s => match s.takeAccepted l c [13] with
    | some s1 => s1.mirrorHere l c
    | none => s

/-! ## Depot channels -/

/-- The n granules of a depot access from granule g of the operation on, those of the mask `ue` unavailable, as runs: first granule, count. -/
def goodRuns (ue : Nat) : Nat → Nat → List (Nat × Nat)
  | _, 0 => []
  | g, n + 1 =>
    let t := goodRuns ue (g + 1) n
    if bitAt ue g then t
    else match t with
      | (a, k) :: u => if a = g + 1 then (g, k + 1) :: u else (g, 1) :: t
      | [] => [(g, 1)]

/-- An uncorrectable word is found (R379, Table 12.1). -/
def State.depotUe (s : State) (ch addr : Nat) : State :=
  ((s.sat .DEP_ECC_UE 0).setfs [(.DEP_UE_LAST_CHANNEL, 0, ch), (.DEP_UE_LAST_ADDR, 0, addr / 64)]).fault 5

/-- The yard that a depot access works for; none for the far windows and the mirror. -/
def DepotUse.yard? : DepotUse → Option Nat
  | .tag u _ => some u.row
  | .groom _ _ y => some y
  | .move _ _ y _ => some y
  | _ => none

/-- A part of a degraded OFFLOAD or FETCH with the local depot is done: of a FETCH the words that could be read go to host memory (R170). -/
def State.moveDone (s : State) (r : DepotReq) (t n off ue : Nat) : State :=
  match s.insts.find? fun i => i.team == t && i.n == n && i.st == .running with
  | none => s
  | some i =>
    let bs := rdBytes s.depot r.addr r.len
    let s1 := if r.wr then s
      else (goodRuns ue 0 (granCount r.len)).foldl (fun (s : State) g =>
        s.wrPieces (pieces (s.bufFrags i.entry 44) (wSrc i.entry + off + 64 * g.1) (64 * g.2)) ((bs.drop (64 * g.1)).take (64 * g.2))) s
    s1.updInst (fun j => j.team == t && j.n == n && j.st == .running) fun j => { j with outDone := j.outDone + 1, wrote := j.wrote || !r.wr }

/-- What a completed depot access gives its user; `ue` names the 64 B words of it that are unavailable. -/
def State.depotUser (s0 : State) (r : DepotReq) (ue : Nat) : State :=
  let s := if ue != 0 && !r.wr then s0.ownBad r.own else s0
  match r.use with
  | .tag u o =>
    let s := s.touch u.row
    if r.wr then s.writePart u else s.readPart u o (rdBytes s.depot r.addr r.len) ue
  | .groom job part y =>
    let s := s.touch y
    if r.wr then s.groomAck job else s.groomGot job part (2 ^ 47 + r.addr) (rdBytes s.depot r.addr r.len) ue
  | .move t n y off => (s.touch y).moveDone r t n off ue
  | .farWrite => s
  | .farRead l c => s.farAnswer l c (zeroWords ue (rdBytes s.depot r.addr r.len)) (ue != 0)
  | .mirror k e n =>
    if s.rf .GRM_MIR_COPY_STATE k = 1 && s.rf .GRM_MIR_COPY_EPOCH_EPOCH k == e then s.inc .GRM_MIR_COPY_BYTES k n else s

/-- The oldest access of a channel completes; its uncorrectable words are counted. One past the depot's end stores nothing and reads as unavailable
(DESIGN CHOICE: log entry 25). -/
def State.depotDone (s : State) (ch ue : Nat) : State :=
  match s.hitch.dreqs.find? fun r => r.ch == ch with
  | none => s
  | some r =>
    let out := decide (s.depotSize < r.addr + r.len)
    let s1 : State := { s with hitch := { s.hitch with dreqs := s.hitch.dreqs.erase r } }
    let bad := if r.wr then [] else (List.range (granCount r.len)).filter (bitAt ue)
    let s2 := bad.foldl (fun (s : State) k => s.depotUe ch (r.addr + 64 * k)) s1
    let s3 := if r.wr && !out then s2.wrDepot r.addr r.data else s2
    s3.depotUser r (if out then allWords r.len else if r.wr then 0 else ue % 2 ^ granCount r.len)

/-- PATROL_SCRUB_READ of the 64 B word that the address names (R379). -/
def State.scrub (s : State) (a : Nat) (r : EccResult) : State :=
  if !s.on .DEP_SCRUB_EN || decide (s.depotSize ≤ 64 * a) then s
  else match r with
    | .good => s
    | .corrected => (s.sat .DEP_ECC_CE 0).fault 24
    | .chipkill => (s.sat .DEP_ECC_CHIPKILL 0).fault 24
    | .uncorrectable => s.depotUe (s.channelOf (64 * a)) (64 * a)

def execPatrolScrubRead (addr : BitVec 29) (r : EccResult) (s : State) : Out := event s fun s => s.scrub addr.toNat r

end Sys2Proof.Machine
end

