-- ==== Sys2Proof/Machine/Geometry.lean ====
section
/-! DEFINITION. The geometry of a collective: shards, granules, segments, halves, chains and trees (4.1–4.6). -/

namespace Sys2Proof.Machine

/-- Coordinate on axis a of the member of team rank r in a box of extents e (R86). -/
def rankCoord (e : Nat × Nat × Nat) (r a : Nat) : Nat :=
  if a = 0 then r % max 1 e.1 else if a = 1 then r / max 1 e.1 % max 1 e.2.1 else r / max 1 (e.1 * e.2.1)

/-- Slice position of a member: X outermost (R91). -/
def slicePos (e : Nat × Nat × Nat) (r : Nat) : Nat := rankCoord e r 2 + e.2.2 * (rankCoord e r 1 + e.2.1 * rankCoord e r 0)

/-- Slice positions of a segment of the level on axis a. -/
def segSpan (e : Nat × Nat × Nat) (a : Nat) : Nat := if a = 0 then e.2.1 * e.2.2 else if a = 1 then e.2.2 else 1

/-- Granules of a slice of team t. -/
def State.sliceGrans (s : State) (t : Nat) : Nat := sliceBytes (s.rf .TT_TEAM_CHUNK_LOG2 t) (s.members t) / 64

/-- Granule o of shard r lies in the far half at the level on axis a: of its segment on a CHAIN team, of its chunk on a SPAN team (R96, R99). -/
def State.isFar (s : State) (t r o a : Nat) : Bool :=
  let e := (s.team t).ext
  let sg := max 1 (s.sliceGrans t)
  if s.on .TT_TEAM_ALG t then
    decide ((s.members t * sg + 1) / 2 ≤ slicePos e r * sg + o % sg)
  else
    let span := segSpan e a
    decide ((span * sg + 1) / 2 ≤ slicePos e r % span * sg + o % sg)

/-- Elements of a granule in the input format. -/
def Inst.perGran (i : Inst) : Nat := 512 / fmtBits (wIn i.entry)

/-- Data divided into shards of whole granules (R90). -/
def granOp (op : Nat) : Bool := op == 0x20 || op == 0x23 || op == 0x24

/-- First element and element count of shard r (R90, R150). -/
def State.shardOf (s : State) (i : Inst) (r : Nat) : Nat × Nat :=
  let n := max 1 (s.members i.team)
  let e := wCount i.entry
  if granOp i.op then
    let g := (e + i.perGran - 1) / i.perGran
    let a := (r * (g / n) + min r (g % n)) * i.perGran
    let k := (g / n + b2n (decide (r < g % n))) * i.perGran
    (a, min k (e - a))
  else if i.op = 0x30 then (r * (e / n) + min r (e % n), e / n + b2n (decide (r < e % n)))
  else (r * e, e)

/-- Granules of shard r. -/
def State.shardGrans (s : State) (i : Inst) (r : Nat) : Nat := ((s.shardOf i r).2 + i.perGran - 1) / i.perGran

/-- First element and element count of granule o of shard r; the rest of the granule is padding (R92). -/
def State.granElems (s : State) (i : Inst) (r o : Nat) : Nat × Nat :=
  let (a, k) := s.shardOf i r
  (a + o * i.perGran, min i.perGran (k - o * i.perGran))

/-- Shard and granule of an element of the logical buffer. -/
def State.granOf (s : State) (i : Inst) (x : Nat) : Option (Nat × Nat) :=
  (List.range (s.members i.team)).findSome? fun r =>
    let (a, k) := s.shardOf i r
    if a ≤ x ∧ x < a + k then some (r, (x - a) / i.perGran) else none

/-- Chunk of granule o of a shard (R91). -/
def State.granChunk (s : State) (t o : Nat) : Nat := o / max 1 (s.sliceGrans t)

/-- Granules of shard r in chunk k. -/
def State.inChunk (s : State) (i : Inst) (r k : Nat) : List Nat := (List.range (s.shardGrans i r)).filter fun o => s.granChunk i.team o == k

/-- Number of chunks. -/
def State.chunks (s : State) (i : Inst) : Nat :=
  (List.range (s.members i.team)).foldl (fun m r => max m (s.granChunk i.team (s.shardGrans i r - 1) + 1)) 0

/-- Every granule of the logical buffer, chunk after chunk. -/
def State.allGrans (s : State) (i : Inst) : List (Nat × Nat) :=
  ((List.range (s.chunks i)).map fun k =>
    ((List.range (s.members i.team)).map fun r => (s.inChunk i r k).map fun o => (r, o)).flatten).flatten

/-- This member's coordinate, and a rank's, on axis a. -/
def State.myCoord (s : State) (t a : Nat) : Nat := rankCoord (s.team t).ext (s.teamRank t) a
def State.rCoord (s : State) (t r a : Nat) : Nat := rankCoord (s.team t).ext r a
def State.axisExt (s : State) (t a : Nat) : Nat := axisVal (s.team t).ext a

/-! ## Chains (R96, R97) -/

/-- Position of rank i in the chain of segment j: near visits j + 1, …, j; far j − 1, …, j. -/
def chainPos (n i j : Nat) (far : Bool) : Nat := if far then (j + n - 1 + n - i) % n else (i + n - j + n - 1) % n

/-- The next rank of the reduction chain, across + edges near, − edges far; the gather runs the other way. -/
def chainNext (n i : Nat) (far : Bool) : Nat := if far then (i + n - 1) % n else (i + 1) % n

/-! ## Trees (R98) -/

/-- Position of rank r in tree A, or B when far; and the rank of a position. -/
def treePos (n r : Nat) (far : Bool) : Nat := if far then (n / 2 + n - r) % n else r
def treeRank (n u : Nat) (far : Bool) : Nat := if far then (n / 2 + n - u) % n else u

/-- Depth of position u: its number of set bits. -/
def treeDepth (u : Nat) : Nat := ((List.range 8).filter fun k => bitAt u k).length

/-- Ranks of the children of rank r in ascending edge length, and of its parent. -/
def treeKids (n r : Nat) (far : Bool) : List Nat := (spanChildren n (treePos n r far)).map fun u => treeRank n u far
def treeUp (n r : Nat) (far : Bool) : Nat := treeRank n (spanParent (treePos n r far)) far

/-- Position u is position v, or above it in its tree. -/
def treeAbove (u v : Nat) : Bool := (List.range 8).any fun j => v / 2 ^ j * 2 ^ j == u

/-! ## Levels (Table 4.1, R99–R102) -/

/-- What a level does. -/
inductive LvKind where
  | reduce | climb | gather | cast | exchange
  deriving DecidableEq, Repr

/-- Axes of an exchange: SCATTER runs them from Z to X. -/
def State.exAxes (s : State) (i : Inst) : List Nat := if i.op = 0x27 then (s.teamAxes i.team).reverse else s.teamAxes i.team

/-- The levels of an instance in their order; on a SPAN team a gather descends, after a reduction or a climb (R99). -/
def State.levelsOf (s : State) (i : Inst) : List (LvKind × Nat) :=
  let ax := s.teamAxes i.team
  let red := ax.map fun a => (LvKind.reduce, a)
  let gat := ax.reverse.map fun a => (LvKind.gather, a)
  let ex := (s.exAxes i).map fun a => (LvKind.exchange, a)
  let down := if s.on .TT_TEAM_ALG i.team then gat else []
  let up := if s.on .TT_TEAM_ALG i.team then ax.map fun a => (LvKind.climb, a) else []
  match i.op with
  | 0x20 => red ++ gat
  | 0x21 => red ++ down
  | 0x22 => up ++ gat
  | 0x23 => ax.map fun a => (.cast, a)
  | 0x24 => red ++ down ++ ex
  | 0x25 | 0x26 | 0x27 => ex
  | 0x30 => red ++ down ++ up ++ gat
  | _ => []

/-- Number of a level; a gather of RCUG's parameters is the last of its kind. -/
def State.levelNo (s : State) (i : Inst) (kind : LvKind) (a : Nat) : Nat :=
  let l := s.levelsOf i
  if i.op = 0x30 && i.phase = 3 then l.length - 1 - l.reverse.idxOf (kind, a) else l.idxOf (kind, a)

/-- This member and rank q stand at the same coordinate on axis a. -/
def State.sameOn (s : State) (t q a : Nat) : Bool := s.myCoord t a == s.rCoord t q a

/-- Granule o of shard r passes this member at the level on axis a. -/
def State.handles (s : State) (i : Inst) (kind : LvKind) (a r o : Nat) : Bool :=
  let t := i.team
  let before := (s.teamAxes t).filter fun b => b < a
  let after := (s.teamAxes t).filter fun b => a < b
  let pos (b q : Nat) : Nat := treePos (s.axisExt t b) q (s.isFar t r o b)
  let root (b : Nat) : Bool := pos b (s.myCoord t b) == 0
  match kind with
  | .reduce | .gather => before.all fun b => if s.on .TT_TEAM_ALG t then root b else s.sameOn t r b
  | .climb => before.all root && after.all (s.sameOn t r) && treeAbove (pos a (s.myCoord t a)) (pos a (s.rCoord t r a))
  | .cast => after.all (s.sameOn t (wRoot i.entry))
  | .exchange => false

/-- Source and destination of what an exchange moves. -/
def State.exPairs (s : State) (i : Inst) : List (Nat × Nat) :=
  let rs := List.range (s.members i.team)
  if i.op = 0x25 then (rs.map fun q => rs.map fun d => (q, d)).flatten
  else if i.op = 0x27 then rs.map fun d => (wRoot i.entry, d) else rs.map fun q => (q, wRoot i.entry)

/-- The shard of the logical buffer that goes from source q to destination d. -/
def exShard (i : Inst) (q d : Nat) : Nat := if i.op = 0x25 || i.op = 0x27 then d else q

/-- What goes from q to d is held, at the exchange level on axis a, by members at d's coordinates on the axes before and q's on those after. -/
def State.exLine (s : State) (i : Inst) (a q d : Nat) : Bool :=
  let ax := s.exAxes i
  (ax.take (ax.idxOf a)).all (s.sameOn i.team d) && (ax.drop (ax.idxOf a + 1)).all (s.sameOn i.team q)

/-- Granules of chunk k that pass this member at a level. -/
def State.levelNeed (s : State) (i : Inst) (kind : LvKind) (a k : Nat) : Nat :=
  match kind with
  | .exchange => ((s.exPairs i).filter fun p => s.exLine i a p.1 p.2 && (s.sameOn i.team p.1 a || s.sameOn i.team p.2 a)).foldl
      (fun n p => n + (s.inChunk i (exShard i p.1 p.2) k).length) 0
  | _ => (List.range (s.members i.team)).foldl (fun n r => n + ((s.inChunk i r k).filter fun o => s.handles i kind a r o).length) 0

/-- Level number st of chunk k has ended on the member. -/
def State.levelEnded (s : State) (i : Inst) (k st : Nat) : Bool :=
  match (s.levelsOf i)[st]? with
  | some (kind, a) => decide (s.levelNeed i kind a k ≤ sget (fun _ => 0) i.levels (16 * k + st))
  | none => true

/-- Level number st of chunk k may start: the levels before it have ended for this chunk and those before it (R100). -/
def State.levelOpen (s : State) (i : Inst) (k st : Nat) : Bool :=
  (List.range (k + 1)).all fun j => (List.range st).all fun u => s.levelEnded i j u

end Sys2Proof.Machine
end

