-- ==== Sys2Proof/Machine/Collective.lean ====
section
/-! DEFINITION. Collectives that the block itself runs: degraded mode and replay carry the same shards, chains, trees and folds in unscheduled
carriages (R69, R70, R93–R106). Each granule is handled by itself; what goes to one peer in one step of one chunk is put together into carriages of at
most 8 KiB. -/

namespace Sys2Proof.Machine

/-! ## Sending -/

/-- The order in which what may leave at once leaves: chunks first (R100). -/
def Send.key (x : Send) : List Nat := [x.k, x.st, x.a, x.peer, x.src, x.elem]

/-- The first list does not come after the second. -/
def keyLe : List Nat → List Nat → Bool
  | [], _ => true
  | _, [] => false
  | a :: t, b :: u => a < b || (a == b && keyLe t u)

def insertSend (x : Send) : List Send → List Send
  | [] => [x]
  | y :: t => if keyLe x.key y.key then x :: y :: t else y :: insertSend x t

def sortSends (xs : List Send) : List Send := xs.foldr insertSend []

/-- y travels in the carriage of x: one peer, one level of one chunk, at most 8 KiB. Blocks of an exchange for one peer are put together, other data where
they are consecutive (R100, R102). Elements marked POISON or ABSENT keep to carriages of their own. -/
def Send.joins (x y : Send) : Bool :=
  x.a == y.a && x.peer == y.peer && x.k == y.k && x.st == y.st && x.mc == y.mc && x.minus == y.minus && x.fmt == y.fmt && x.ex == y.ex
    && decide (elemBytes x.fmt (x.vals.length + y.vals.length) ≤ 8192)
    && (if x.vals.length * fmtBits x.fmt % 512 = 0 then x.flags.absent == y.flags.absent && x.flags.poison == y.flags.poison else x.ex)
    && (x.ex || x.elem + x.vals.length == y.elem)

/-- Carriages of a list of runs whose first is x. -/
def mergeFrom (x : Send) : List Send → List Send
  | [] => [x]
  | y :: t => if x.joins y then mergeFrom { x with vals := x.vals ++ y.vals, flags := x.flags.or y.flags } t else x :: mergeFrom y t

def mergeSends : List Send → List Send
  | [] => []
  | x :: t => mergeFrom x t

/-- Send one run as a class 1 DATA carriage of the team (R183). -/
def State.sendRun (s : State) (t gen : Nat) (own : Flags3) (x : Send) : State :=
  let y := s.rf .TT_TEAM_YARD t
  match s.peerEp t x.a x.peer with
  | none => s
  | some ep => s.sendCredited { ep := ep, tenant := s.yardTenant y, team := t, cls := 1, kind := 0, yard := y, idTeam := t, idGen := gen,
                                payload := pack x.fmt 0 x.vals, flags := x.flags.or own, maxis := if x.mc then x.a + 1 else 0, minus := x.minus }

/-! ## Arithmetic of a step -/

/-- Accumulator and link formats (R121, R122). -/
def Inst.acc (i : Inst) : Nat := accFmt (wIn i.entry) (wMode i.entry)
def Inst.linkFmt (i : Inst) : Nat := if mWide (wMode i.entry) then i.acc else wIn i.entry
/-- Format of the final value: FP32 for the staged shard of RCUG (Table 6.2). -/
def Inst.finFmt (i : Inst) : Nat := if i.op = 0x30 then 0 else wOut i.entry
/-- The command carries a scale (R139). -/
def Inst.scaled (i : Inst) : Bool := [wIn i.entry, wOut i.entry].any fun f => f == 4 || f == 5 || f == 7 || f == 8

/-- What the elements of a step share; `last` is the owner's last operation. -/
def Inst.ctx (i : Inst) (opc fa fb dst point : Nat) (last : Bool) : OpCtx :=
  { opc := opc, scaleOn := last && i.scaled, amaxOn := last && mAmax (wMode i.entry), fa := fa, fb := fb, acc := i.acc, dst := dst,
    mode := wMode i.entry, point := point % 65536, seed := ent i.entry 48 8, tensor := ent i.entry 40 4, step := 0, scale := ent i.entry 36 4 }

/-- Rounding point of level a at chain position or depth m (R123). -/
def stepPoint (a m : Nat) : Nat := 4 * (1 + 64 * a + m)

/-- Count an operation's results into the running instance of its team. -/
def State.countOut (s : State) (i : Inst) (o : OpOut) : State :=
  s.updInst (fun j => j.team == i.team && j.n == i.n && j.st == .running) fun j =>
    { j with sat := satAdd j.sat o.sat, flush := satAdd j.flush o.flush, amax := max j.amax o.amax, own := j.own.or { nonfinite := o.nonf } }

/-- One fold of the own value (left) with partials in order; the last fold rounds to `dst`. Without partials the value is converted. -/
def Inst.foldRun (i : Inst) (x point dst : Nat) (last : Bool) (fa : Nat) (own : List (Option Nat)) : List (List Nat) → OpOut
  | [] => (i.ctx 6 fa fa dst point last).run x (own.map fun a => (a, none, none))
  | [v] => (i.ctx 1 fa i.linkFmt dst point last).run x ((own.zip v).map fun c => (c.1, some c.2, none))
  | v :: rest =>
    let o := (i.ctx 1 fa i.linkFmt i.acc point false).run x ((own.zip v).map fun c => (c.1, some c.2, none))
    let r := i.foldRun x (point + 1) dst last i.acc (o.codes.map some) rest
    { r with sat := satAdd r.sat o.sat, flush := satAdd r.flush o.flush, nonf := r.nonf || o.nonf }

/-! ## What an instance holds -/

/-- The part of a granule at a level from a source. -/
def Inst.part (i : Inst) (r o lv src : Nat) : Option DegPart := i.deg.find? fun p => p.r == r && p.o == o && p.lv == lv && p.src == src

/-- The running instance as it is now. -/
def State.instNow (s : State) (i : Inst) : Inst := (s.insts.find? fun j => j.team == i.team && j.n == i.n && j.st == .running).getD i

def State.updNow (s : State) (i : Inst) (f : Inst → Inst) : State :=
  s.updInst (fun j => j.team == i.team && j.n == i.n && j.st == .running) f

/-- Granules of chunk k are done at the levels on the axes given. -/
def State.levelDone (s : State) (i : Inst) (kind : LvKind) (axes : List Nat) (k : Nat) : State :=
  s.updNow i fun j => { j with
    levels := axes.foldl (fun m a => sset (fun _ => 0) m (16 * k + s.levelNo i kind a) (sget (fun _ => 0) m (16 * k + s.levelNo i kind a) + 1)) j.levels }

def State.putPart (s : State) (i : Inst) (p : DegPart) : State := s.updNow i fun j => { j with deg := j.deg ++ [p] }

/-- Source elements x .. x + k − 1 of this member; a missing member has none (R109). -/
def State.srcElems (s : State) (i : Inst) (x k : Nat) : List Nat :=
  let f := wIn i.entry
  let o := x * fmtBits f / 8
  unpack f k (s.rdPieces (pieces (s.bufFrags i.entry 44) (wSrc i.entry + o) (elemBytes f k)))

/-- Own value of a granule at level a: the source at the first level, the partial kept from the level before otherwise. Its format, its elements. -/
def State.ownAt (s : State) (i : Inst) (first : Bool) (r o a : Nat) : Option (Nat × List (Option Nat) × Flags3) :=
  let (x, k) := s.granElems i r o
  if first then
    some (if i.missing then (wIn i.entry, List.replicate k none, { absent := true }) else (wIn i.entry, (s.srcElems i x k).map some, {}))
  else ((s.instNow i).part r o a 0).map fun p => (i.acc, p.vals.map some, p.flags)

/-! ## Output -/

/-- Withheld (R108, R110). -/
def held (f : Flags3) : Bool := f.poison || f.absent

/-- Write output elements, from index x of the destination, in the output format: to the staging area with EPOCH, else to their place. -/
def State.putBytes (s : State) (i : Inst) (o : Nat) (bs : List Byte) (f : Flags3) : State :=
  if i.missing then s
  else if held f then s.noteWithheld i o { flags := f }
  else if i.epoch then
    (s.wrDepot (i.stageBase + o) bs).updNow i fun j => { j with staged := j.staged ++ [{ stage := i.stageBase + o, dst := wDst i.entry + o, len := bs.length }] }
  else (s.wrPieces (pieces (s.bufFrags i.entry 44) (wDst i.entry + o) bs.length) bs).updNow i fun j => { j with wrote := true }

/-- Put final codes, in the output format, at element x of the destination. -/
def State.putCodes (s : State) (i : Inst) (x : Nat) (codes : List Nat) (f : Flags3) : State :=
  let s1 := s.putBytes i (x * fmtBits (wOut i.entry) / 8) (pack (wOut i.entry) 0 codes) f
  s1.updNow i fun j => { j with outDone := j.outDone + 1, own := j.own.or f }

/-- Elements that move are converted: the formats differ or a scale applies (R95, R139). -/
def Inst.converts (i : Inst) : Bool := wIn i.entry != wOut i.entry || i.scaled

/-- Put elements that moved without arithmetic, in the input format: one CONVERT of those that the member writes (R95). -/
def State.putMoved (s : State) (i : Inst) (x : Nat) (codes : List Nat) (f : Flags3) : State :=
  if !i.converts || i.missing || held f then s.putCodes i x codes f
  else
    let o := (i.ctx 6 (wIn i.entry) (wIn i.entry) (wOut i.entry) 0 true).run x (codes.map fun c => (some c, none, none))
    (s.countOut i o).putCodes i x o.codes { f with nonfinite := f.nonfinite || o.nonf }

/-! ## Exchange (R102) -/

/-- The member an element of an exchange is for. -/
def State.exDest (s : State) (i : Inst) (x : Nat) : Nat :=
  if i.op = 0x25 || i.op = 0x27 then x / max 1 (wCount i.entry) % max 1 (s.members i.team) else wRoot i.entry

/-- Place of an exchanged element at its destination: src is the member it came from. -/
def exIndex (i : Inst) (src x : Nat) : Nat :=
  if i.op = 0x25 then src * wCount i.entry + x % max 1 (wCount i.entry)
  else if i.op = 0x27 then x % max 1 (wCount i.entry) else x

/-- Chunk of an element of the logical buffer. -/
def State.elemChunk (s : State) (i : Inst) (x : Nat) : Nat := s.granChunk i.team (((s.granOf i x).map (·.2)).getD 0)

/-- Elements from member src that this member holds at the first of these axes: put, or sent on over the next axis on which their destination lies
elsewhere. REDUCE moves final values. -/
def State.exchange (s : State) (i : Inst) (src x : Nat) (vals : List Nat) (f : Flags3) (axes : List Nat) : State × List Send :=
  let d := s.exDest i x
  let k := s.elemChunk i x
  match axes.dropWhile (s.sameOn i.team d) with
  | a :: _ => (s.levelDone i .exchange (axes.takeWhile (s.sameOn i.team d) ++ [a]) k,
      [{ a := a, peer := s.rCoord i.team d a, k := k, st := s.levelNo i .exchange a, src := src, ex := true, elem := x,
         fmt := if i.op = 0x24 then wOut i.entry else wIn i.entry, vals := vals, flags := f }])
  | [] => ((if i.op = 0x24 then s.putCodes i (exIndex i src x) vals f else s.putMoved i (exIndex i src x) vals f).levelDone i .exchange axes k, [])

/-- What the member of rank q on axis a sends to the one of rank p of its line at the exchange level of that axis, in order: source, first element,
element count of each granule of chunk k. -/
def State.exStream (s : State) (i : Inst) (a q p k : Nat) : List (Nat × Nat × Nat) :=
  (((s.exPairs i).filter fun w => s.exLine i a w.1 w.2 && s.rCoord i.team w.1 a == q && s.rCoord i.team w.2 a == p).map fun w =>
    (s.inChunk i (exShard i w.1 w.2) k).map fun o => (w.1, s.granElems i (exShard i w.1 w.2) o)).flatten

/-- The values of a carriage by the granules of its stream. -/
def cutStream : List (Nat × Nat × Nat) → List Nat → List (Nat × Nat × List Nat)
  | [], _ => []
  | g :: t, vals => if g.2.2 = 0 || vals.length < g.2.2 then [] else (g.1, g.2.1, vals.take g.2.2) :: cutStream t (vals.drop g.2.2)

/-! ## Gather and descent (R97, R99) -/

/-- Format that the values of a gather travel in. -/
def Inst.gatFmt (i : Inst) : Nat := if i.op = 0x22 then wIn i.entry else if i.op = 0x30 then (if i.phase = 3 then i.gfmt else 0) else wOut i.entry

/-- Where a degraded RCUG or NORM of yard y keeps its norm result block and its staged shard: at the end of the yard's bank (DESIGN CHOICE: log entry
28). -/
def Inst.blockLen (i : Inst) : Nat := 8 + 16 * gD i.entry + 4 * gT i.entry
def State.degBlock (s : State) (i : Inst) : Nat := s.bankSize - (i.blockLen + 63) / 64 * 64
def State.degStage (s : State) (i : Inst) : Nat := s.degBlock i - (4 * (s.shardOf i (s.teamRank i.team)).2 + 63) / 64 * 64

/-- Stage reduced gradient elements of this member's shard, from index x, in FP32 (Table 6.2 step 1). -/
def State.stageGrad (s : State) (i : Inst) (x : Nat) (vals : List Nat) (f : Flags3) : State :=
  let y := s.rf .TT_TEAM_YARD i.team
  let o := s.degStage i + 4 * (x - (s.shardOf i (s.teamRank i.team)).1)
  let b : Blob := { data := pack 0 0 vals, marks := (List.range (granCount (4 * vals.length))).map fun j => (j, ({ flags := f } : Mark)) }
  (s.wrScr y o b).updNow i fun j => { j with outDone := j.outDone + 1, own := j.own.or f }

/-- The destination takes the parameters of descriptors with GATHER set; the other positions, and all of a skipped member, stay (R154, R157). -/
def State.putParams (s : State) (i : Inst) (x : Nat) (vals : List Nat) (f : Flags3) : State :=
  let a := gTables i.entry
  let nd := gD i.entry
  let w := fmtBits i.gfmt / 8
  let descOf (e : Nat) : Nat := (List.range (gT i.entry)).foldl (fun d t => if s.tensAt a nd t 0 8 ≤ e then s.tensAt a nd t 12 2 else d) 0
  let old := s.rdPieces (pieces (s.bufFrags i.entry 44) (wDst i.entry + x * w) (w * vals.length))
  let bs := ((List.range vals.length).map fun k =>
    if bitAt (s.descAt a (descOf (x + k)) 72 4) 1 then leBytes w (vals.getD k 0) else (old.drop (k * w)).take w).flatten
  let s1 := if i.skip.isSome then s else s.putBytes i (x * w) bs f
  s1.updNow i fun j => { j with outDone := j.outDone + 1, own := j.own.or f }

/-- This member keeps a gathered granule of shard r: all of them, or its own shard after a SPAN reduction (R99). -/
def State.keepGath (s : State) (i : Inst) (r x : Nat) (vals : List Nat) (f : Flags3) : State :=
  if i.op = 0x22 then s.putMoved i x vals f
  else if i.op = 0x20 then s.putCodes i x vals f
  else if i.op = 0x30 && i.phase = 3 then s.putParams i x vals f
  else if r = s.teamRank i.team && i.op = 0x21 then s.putCodes i (x - r * wCount i.entry) vals f
  else if r = s.teamRank i.team && i.op = 0x30 then s.stageGrad i x vals f
  else s.updNow i fun j => { j with outDone := j.outDone + 1 }

/-- The sends by which granule (r, o) starts the levels `axes` of a gather from this member. -/
def State.gathSends (s : State) (i : Inst) (r o : Nat) (axes : List Nat) (x : Nat) (vals : List Nat) (f : Flags3) : List Send :=
  let t := i.team
  let mk (a peer : Nat) : Send :=
    { a := a, peer := peer, k := s.granChunk t o, st := s.levelNo i .gather a, elem := x, fmt := i.gatFmt, vals := vals, flags := f }
  (axes.map fun a =>
    let n := s.axisExt t a
    let far := s.isFar t r o a
    let me := s.myCoord t a
    if s.on .TT_TEAM_ALG t then (treeKids n me far).map (mk a)
    else if me = s.rCoord t r a then [mk a (chainNext n me (!far))] else []).flatten

/-- A gathered granule comes in at level a: kept, handed on along its chain or tree, and started on the later levels. -/
def State.gathHere (s : State) (i : Inst) (r o a x : Nat) (vals : List Nat) (f : Flags3) : State × List Send :=
  let t := i.team
  let n := s.axisExt t a
  let far := s.isFar t r o a
  let me := s.myCoord t a
  let j := s.rCoord t r a
  let on : List Send := if s.on .TT_TEAM_ALG t then []
    else if chainNext n me (!far) = j then []
      else [{ a := a, peer := chainNext n me (!far), k := s.granChunk t o, st := s.levelNo i .gather a, elem := x, fmt := i.gatFmt, vals := vals, flags := f }]
  let axes := (s.teamAxes t).reverse.filter fun b => b < a || (s.on .TT_TEAM_ALG t && b == a)
  let s1 := (s.keepGath i r x vals f).levelDone i .gather ((s.teamAxes t).filter fun b => b ≤ a) (s.granChunk t o)
  let (s2, ex) := if i.op = 0x24 && s.on .TT_TEAM_ALG t && r = s.teamRank t then s1.exchange i r x vals f (s1.exAxes i) else (s1, [])
  (s2, on ++ s.gathSends i r o axes x vals f ++ ex)

/-- This member is the root of the granule's tree on axis a. -/
def State.treeRoot (s : State) (t r o a : Nat) : Bool := treePos (s.axisExt t a) (s.myCoord t a) (s.isFar t r o a) == 0

/-- A granule that is here at the first of these axes climbs its trees on a SPAN allgather, then descends from the last root (R99). -/
def State.climb (s : State) (i : Inst) (r o : Nat) (axes : List Nat) (x : Nat) (vals : List Nat) (f : Flags3) : State × List Send :=
  let t := i.team
  let k := s.granChunk t o
  match axes.dropWhile (s.treeRoot t r o) with
  | a :: _ => (s.levelDone i .climb (axes.takeWhile (s.treeRoot t r o) ++ [a]) k,
      [{ a := a, peer := treeUp (s.axisExt t a) (s.myCoord t a) (s.isFar t r o a), k := k, st := s.levelNo i .climb a, elem := x, fmt := i.gatFmt,
         vals := vals, flags := f }])
  | [] => (((s.keepGath i r x vals f).levelDone i .climb axes k).levelDone i .gather (s.teamAxes t) k,
      s.gathSends i r o (s.teamAxes t).reverse x vals f)

/-- The member's own granule starts an allgather. -/
def State.gathBegin (s : State) (i : Inst) (r o x : Nat) (vals : List Nat) (f : Flags3) : State × List Send :=
  let t := i.team
  if s.on .TT_TEAM_ALG t then s.climb i r o (s.teamAxes t) x vals f
  else ((s.keepGath i r x vals f).levelDone i .gather (s.teamAxes t) (s.granChunk t o), s.gathSends i r o (s.teamAxes t).reverse x vals f)

/-! ## Reduction (R96, R98, R104) -/

/-- The final value of a granule is here: at its owner on a CHAIN team, at the last root on a SPAN team. -/
def State.redEnd (s : State) (i : Inst) (r o x : Nat) (vals : List Nat) (f : Flags3) : State × List Send :=
  let t := i.team
  if s.on .TT_TEAM_ALG t then
    let s1 := (s.keepGath i r x vals f).levelDone i .gather (s.teamAxes t) (s.granChunk t o)
    let (s2, ex) := if i.op = 0x24 && r = s.teamRank t then s1.exchange i r x vals f (s1.exAxes i) else (s1, [])
    (s2, s.gathSends i r o (s.teamAxes t).reverse x vals f ++ ex)
  else if i.op = 0x24 then s.exchange i r x vals f (s.exAxes i)
  else if i.op = 0x20 then
    ((s.keepGath i r x vals f).levelDone i .gather (s.teamAxes t) (s.granChunk t o), s.gathSends i r o (s.teamAxes t).reverse x vals f)
  else (s.keepGath i r x vals f, [])

/-- Position m of R123 of this member for a granule at level a. -/
def State.redPos (s : State) (t r o a : Nat) : Nat :=
  let n := s.axisExt t a
  let far := s.isFar t r o a
  if s.on .TT_TEAM_ALG t then treeDepth (treePos n (s.myCoord t a) far) else chainPos n (s.myCoord t a) (s.rCoord t r a) far

/-- Peer that this member's result of level a goes to; none where it stays. -/
def State.redNext (s : State) (t r o a : Nat) : Option Nat :=
  let n := s.axisExt t a
  let far := s.isFar t r o a
  let me := s.myCoord t a
  if s.on .TT_TEAM_ALG t then (if treePos n me far = 0 then none else some (treeUp n me far))
  else if me = s.rCoord t r a then none else some (chainNext n me far)

/-- Ranks whose partials this member folds at level a, in order. -/
def State.redFrom (s : State) (t r o a : Nat) : List Nat :=
  let n := s.axisExt t a
  let far := s.isFar t r o a
  let me := s.myCoord t a
  if s.on .TT_TEAM_ALG t then treeKids n me far
  else if chainPos n me (s.rCoord t r a) far = 0 then [] else [if far then (me + 1) % n else (me + n - 1) % n]

/-- Fold what is there of a granule at level a and pass the result on: to the next rank, to the next level, or to the end. -/
def State.redStep (s : State) (i : Inst) (first : Bool) (r o a : Nat) (rest : List Nat) : State × List Send × Option (List Nat × Flags3) :=
  let t := i.team
  let (x, _) := s.granElems i r o
  let parts := (s.redFrom t r o a).filterMap fun q => (s.instNow i).part r o a (q + 1)
  match s.ownAt i first r o a with
  | none => (s, [], none)
  | some (fa, own, fo) =>
    let f := parts.foldl (fun (g : Flags3) p => g.or p.flags) fo
    let stay := (s.redNext t r o a).isNone
    let last := stay && rest.isEmpty
    let dst := if last then i.finFmt else if stay then i.acc else i.linkFmt
    let raw := parts.isEmpty && fa == dst && !last
    let out : OpOut := if raw then { codes := own.map fun c => c.getD 0 }
      else i.foldRun x (stepPoint a (s.redPos t r o a)) dst last fa own (parts.map fun p => p.vals)
    let s1 := ((s.countOut i out).updNow i fun j => { j with deg := j.deg.filter fun p => !(p.r == r && p.o == o && p.lv == a) }).levelDone i .reduce [a]
      (s.granChunk t o)
    let f1 := { f with nonfinite := f.nonfinite || out.nonf }
    match s.redNext t r o a with
    | some q => (s1, [{ a := a, peer := q, k := s.granChunk t o, st := s.levelNo i .reduce a, elem := x, fmt := i.linkFmt, vals := out.codes, flags := f1 }], none)
    | none => (s1, [], some (out.codes, f1))

/-- A granule begins its levels: at the first the own value is the source, later the value given, which is kept. A member that awaits nothing folds at
once, but no earlier than the level starts (R100). -/
def State.redBegin (s : State) (i : Inst) (r o : Nat) : List Nat → Bool → Option (List Nat × Flags3) → State × List Send
  | [], _, v => match v with
    | some (c, f) => s.redEnd i r o (s.granElems i r o).1 c f
    | none => (s, [])
  | a :: rest, first, v =>
    let s1 := match v with
      | some (c, f) => s.putPart i { r := r, o := o, lv := a, src := 0, vals := c, flags := f }
      | none => s
    let k := s.granChunk i.team o
    let st := s.levelNo i .reduce a
    if !first && !s1.levelOpen (s1.instNow i) k st then
      (if v.isSome then s1.updNow i fun j => { j with folds := j.folds ++ [(k, st, r, o)] } else s1, [])
    else if (s.redFrom i.team r o a).all fun q => ((s1.instNow i).part r o a (q + 1)).isSome then
      let (s2, xs, out) := s1.redStep i first r o a rest
      match out with
      | some w =>
        let (s3, ys) := s2.redBegin i r o rest false (some w)
        (s3, xs ++ ys)
      | none => (s2, xs)
    else (s1, [])

/-- A partial of a granule comes in at level a from rank q. -/
def State.redHere (s : State) (i : Inst) (r o a q : Nat) (vals : List Nat) (f : Flags3) : State × List Send :=
  let axes := s.teamAxes i.team
  let s1 := s.putPart i { r := r, o := o, lv := a, src := q + 1, vals := vals, flags := f }
  s1.redBegin i r o (axes.filter fun b => a ≤ b) (axes.headD 0 == a) none

/-- This member takes part in the reduction of a granule at its first level: every member does on its own lines (R96, R99). -/
def State.redStart (s : State) (i : Inst) (g : Nat × Nat) : State × List Send := s.redBegin i g.1 g.2 (s.teamAxes i.team) true none

/-! ## Multicast (R101) -/

/-- Line multicasts of a granule from this member on the axes given: near half along − edges, far along +, to the last member before it. -/
def State.castSends (s : State) (i : Inst) (r o : Nat) (axes : List Nat) (x : Nat) (vals : List Nat) (f : Flags3) : List Send :=
  axes.map fun a =>
    let n := s.axisExt i.team a
    let me := s.myCoord i.team a
    let far := s.isFar i.team r o a
    { a := a, peer := if far then (me + n - 1) % n else (me + 1) % n, k := s.granChunk i.team o, st := s.levelNo i .cast a, mc := true, minus := !far,
      elem := x, fmt := wIn i.entry, vals := vals, flags := f }

/-! ## Levels in order (R100) -/

/-- Do one granule after another, and collect what they send. -/
def State.eachGran {α : Type} (s : State) (f : State → α → State × List Send) (gs : List α) : State × List Send :=
  gs.foldl (fun (acc : State × List Send) g => let (s1, xs) := f acc.1 g; (s1, acc.2 ++ xs)) (s, [])

/-- Fold the granules whose level may start by now. -/
def State.openFolds (s : State) (i : Inst) : State :=
  let j := s.instNow i
  let go (f : Nat × Nat × Nat × Nat) : Bool := s.levelOpen j f.1 f.2.1
  let (s1, xs) := (s.updNow i fun j => { j with folds := j.folds.filter fun f => !go f }).eachGran
    (fun s f => s.redBegin i f.2.2.1 f.2.2.2 ((s.teamAxes i.team).drop f.2.1) false none) (j.folds.filter go)
  s1.updNow i fun j => { j with sends := j.sends ++ xs }

/-- Send what belongs to levels that have started, chunks in ascending order. A carriage carries the flags of what it derives from and the member's own
NONFINITE (4.8). -/
def State.openSends (s : State) (i : Inst) : State :=
  let j := s.instNow i
  let go (x : Send) : Bool := s.levelOpen j x.k x.st
  (mergeSends (sortSends (j.sends.filter go))).foldl (fun (s : State) x => s.sendRun i.team i.gen { nonfinite := j.own.nonfinite } x)
    (s.updNow i fun j => { j with sends := j.sends.filter fun x => !go x })

/-- What a step sends waits until its level starts; each level that the step ended lets the next one start. -/
def State.sendRuns (s : State) (i : Inst) (xs : List Send) : State :=
  ((List.range 16).foldl (fun (s : State) _ => s.openFolds i) (s.updNow i fun j => { j with sends := j.sends ++ xs })).openSends i

/-! ## Starting -/

/-- Own source elements of a granule, with ABSENT where the member is missing. -/
def State.ownRaw (s : State) (i : Inst) (x k : Nat) : List Nat × Flags3 :=
  if i.missing then (List.replicate k 0, { absent := true }) else (s.srcElems i x k, {})

/-- What this member originates at the start of a degraded instance or a replay. -/
def State.degBegin (s : State) (i : Inst) : State × List Send :=
  let t := i.team
  let me := s.teamRank t
  let mine := (List.range (s.shardGrans i me)).map fun o => (me, o)
  match i.op with
  | 0x20 | 0x21 | 0x24 | 0x30 => s.eachGran (fun s g => s.redStart i g) (s.allGrans i)
  | 0x22 => s.eachGran (fun s g =>
      let (x, k) := s.granElems i g.1 g.2
      let (v, f) := s.ownRaw i (x - me * wCount i.entry) k
      s.gathBegin i g.1 g.2 x v f) mine
  | 0x23 => if me = wRoot i.entry then s.eachGran (fun s g =>
      let (x, k) := s.granElems i g.1 g.2
      let (v, f) := s.ownRaw i x k
      ((s.putMoved i x v f).levelDone i .cast (s.teamAxes t) (s.granChunk t g.2), s.castSends i g.1 g.2 (s.teamAxes t) x v f)) (s.allGrans i) else (s, [])
  | 0x25 => s.eachGran (fun s g =>
      let (x, k) := s.granElems i g.1 g.2
      let (v, f) := s.ownRaw i x k
      s.exchange i me x v f (s.exAxes i)) (s.allGrans i)
  | 0x26 => s.eachGran (fun s g =>
      let (x, k) := s.granElems i g.1 g.2
      let (v, f) := s.ownRaw i (x - me * wCount i.entry) k
      s.exchange i me x v f (s.exAxes i)) mine
  | 0x27 => if me = wRoot i.entry then s.eachGran (fun s g =>
      let (x, k) := s.granElems i g.1 g.2
      let (v, f) := s.ownRaw i x k
      s.exchange i me x v f (s.exAxes i)) (s.allGrans i) else (s, [])
  | _ => (s, [])

/-- Granules that reach this member in all: those it puts in place (Table 4.1) and those a SPAN reduction brings past it (R99). -/
def State.outWanted (s : State) (i : Inst) : Nat :=
  let n := s.members i.team
  let root := s.teamRank i.team == wRoot i.entry
  let all := (s.allGrans i).length
  let own := s.shardGrans i (s.teamRank i.team)
  let span := s.on .TT_TEAM_ALG i.team
  match i.op with
  | 0x20 | 0x22 | 0x23 => all
  | 0x21 => if span then all else own
  | 0x27 => own
  | 0x24 => (if span then all else 0) + (if root then all else 0)
  | 0x25 => n * own
  | 0x26 => if root then all else 0
  | 0x30 => (if span then all else own) + (if 3 ≤ i.phase then all else 0)
  | _ => 0

/-! ## Receiving -/

/-- One granule of a received run: its elements from index x. What an allgather on a SPAN team exchanges climbs its trees (R99). -/
def State.dataGran (s : State) (i : Inst) (d : DataPlace) (x : Nat) (vals : List Nat) (f : Flags3) : State × List Send :=
  let a := d.level.val
  let on := (s.teamAxes i.team).filter fun b => a ≤ b
  match s.granOf i x with
  | none => (s, [])
  | some (r, o) => match d.kind with
    | .reduce => s.redHere i r o a d.fromRank vals f
    | .gather => s.gathHere i r o a x vals f
    | .exchange => s.climb i r o on x vals f
    | .multicast => ((s.putMoved i x vals f).levelDone i .cast on (s.granChunk i.team o), s.castSends i r o (on.drop 1) x vals f)
    | _ => (s, [])

/-- The granules of a run of n elements from index x in format f: start and length, none crossing a granule of the logical buffer. A granule that does
not fill its last 64 B ends the run: padding follows it (R92). -/
def State.runGrans (s : State) (i : Inst) (f : Nat) : Nat → Nat → Nat → List (Nat × Nat)
  | 0, _, _ => []
  | fuel + 1, x, n =>
    if n = 0 then []
    else match s.granOf i x with
      | none => []
      | some (r, o) =>
        let (a, k) := s.granElems i r o
        let m := min n (a + k - x)
        (x, m) :: if k * fmtBits f % 512 = 0 then s.runGrans i f fuel (x + m) (n - m) else []

/-- Format that a carriage's elements travel in. -/
def Inst.wireFmt (i : Inst) (k : DataKind) : Nat :=
  match k with
  | .reduce => i.linkFmt
  | .gather => i.gatFmt
  | .exchange => if i.op = 0x24 then wOut i.entry else if i.op = 0x30 then i.gfmt else wIn i.entry
  | _ => wIn i.entry

/-- The array takes part when a carriage of this kind is applied: in a fold, or in a conversion at the destination. -/
def Inst.usesArray (i : Inst) (k : DataKind) : Bool :=
  match k with
  | .reduce => true
  | .gather => i.op == 0x22 && i.converts
  | .multicast => i.converts
  | .exchange => i.op != 0x24 && i.op != 0x30 && i.converts
  | _ => false

/-- The granules of a carriage of an exchange, in the order of the stream between the two members of the line. -/
def State.exGrans (s : State) (i : Inst) (d : DataPlace) (vals : List Nat) : List (Nat × Nat × List Nat) :=
  let a := d.level.val
  cutStream ((s.exStream i a d.fromRank (s.myCoord i.team a) (s.elemChunk i d.elem)).dropWhile fun g => !(g.1 == d.seg && g.2.1 == d.elem)) vals

/-- Apply a run of received elements. -/
def State.dataRun (s : State) (i : Inst) (d : DataPlace) (c : Carriage) : State :=
  let f := i.wireFmt d.kind
  let n := c.payload.length * 8 / fmtBits f
  let vals := unpack f n c.payload
  let (s1, xs) :=
    if d.kind = .exchange && !(i.op = 0x22 || i.op = 0x30) then
      s.eachGran (fun s g => s.exchange i g.1 g.2.1 g.2.2 (tFlags c) ((s.exAxes i).dropWhile fun a => a != d.level.val)) (s.exGrans i d vals)
    else s.eachGran (fun s (g : Nat × Nat) => s.dataGran i d g.1 ((vals.drop (g.1 - d.elem)).take g.2) (tFlags c)) (s.runGrans i f 128 d.elem n)
  s1.sendRuns i xs

end Sys2Proof.Machine
end

