-- ==== Sys2Proof/Machine/Closing.lean ====
section
/-! DEFINITION. The exchanges over tree A: the norm exchange of a degraded RCUG or NORM (R152, R153, R167) and the closing exchange (R111, R141); how
an instance starts without a timetable and ends, the epoch decision and its copy (R112, R333–R335), and DATA_RECEIVE. -/

namespace Sys2Proof.Machine

/-! ## The tree -/

/-- The axis on which the member sends up: the first on which it is not rank 0. -/
def State.upAxis (s : State) (t : Nat) : Option Nat := (s.teamAxes t).find? fun a => s.rank t a != 0

/-- The axes on which it hears children, in the order X, Y, Z. -/
def State.hearAxes (s : State) (t : Nat) : List Nat :=
  match s.upAxis t with
  | some a => (s.teamAxes t).filter fun b => b ≤ a
  | none => s.teamAxes t

/-- Its children: axis and rank. -/
def State.exKids (s : State) (t : Nat) (axes : List Nat) : List (Nat × Nat) :=
  (axes.map fun a => (spanChildren (s.axisExt t a) (s.rank t a)).map fun r => (a, r)).flatten

/-- Rank of its parent on axis a. -/
def State.exParent (s : State) (t a : Nat) : Nat := spanParent (s.rank t a)

/-- Sequence number of a closing carriage (DESIGN CHOICE: log entry 29). -/
def exSeq (up : Bool) : Nat := if up then 0xFFFE else 0xFFFF

/-- Send a carriage of an exchange to a rank on an axis: class 1 in degraded mode, else a scheduled carriage on the link toward it, − upward and +
downward. -/
def State.sendEx (s : State) (i : Inst) (a r : Nat) (up : Bool) (f : Flags3) (bs : List Byte) : State :=
  let t := i.team
  let y := s.rf .TT_TEAM_YARD t
  match s.peerEp t a r with
  | none => s
  | some ep =>
    if i.degraded then
      s.sendCredited { ep := ep, tenant := s.yardTenant y, team := t, cls := 1, kind := 0, yard := y, idTeam := t, idGen := i.gen, payload := bs, flags := f }
    else
      let c := mkCarriage { cls := 0, kind := 0, dst := ep, src := s.self, tenant := s.yardTenant y, yard := y, ygen := s.rf .YRD_STATE_GEN y,
                            team := t, gen := i.gen, seq := exSeq up, dgen := s.rf .RTE_EP_LO_GEN ep, flags := f } bs
      { s with net := { s.net with outq := s.net.outq ++ [{ l := linkOf a up, cls := 2, port := 6, adv := false, key := t, c := c }] } }

/-! ## The end of an instance -/

/-- Take an instance out of the block. -/
def State.dropInst (s : State) (i : Inst) : State :=
  { s with insts := s.insts.filter fun j => !(j.team == i.team && j.n == i.n) }

/-- Change instance i wherever it stands. -/
def State.setInst (s : State) (i : Inst) (f : Inst → Inst) : State := s.updInst (fun j => j.team == i.team && j.n == i.n) f

/-- An EPOCH instance ends (R334, R335): a COMMIT waits for its copy, a DISCARD frees the staging, without a decision it becomes UNKNOWN. -/
def State.endEpoch (s : State) (i : Inst) : State :=
  match i.decision with
  | 1 => s.setInst i fun j => { j with st := .ended }
  | 2 => (s.finishInst i i.outcome).dropInst i
  | _ =>
    let s1 := (s.finishInst i 4).setfs [(.TT_EPOCH_INSTANCE, i.team, i.n), (.TT_EPOCH_DECISION, i.team, 3)]
    (s1.setInst i fun j => { j with st := .ended, decision := 3, cmd := none }).fault 50

/-- The copies of an instance's record that do not show it done do so now (R83). -/
def State.closeRec (s : State) (i : Inst) : State :=
  let y := s.rf .TT_TEAM_YARD i.team
  (List.range 16).foldl (fun (s : State) c =>
    let x := s.post (16 * y + c)
    if x.recInst i.team i.n == i.n && (x.recState i.team i.n == 1 || x.recState i.team i.n == 2) then
      s.setPost (16 * y + c) (x.setRecState i.team i.n 3)
    else s) s

/-- A running instance ends on this member: it is counted (Table 4.4) and its command completes. A BARRIER stays until its release. -/
def State.endInst (s0 : State) (i : Inst) : State :=
  let t := i.team
  let s := s0.closeRec i
  if i.op = 0x28 then (if i.arrived then s.setInst i fun j => { j with st := .ended } else s.dropInst i)
  else
    let s1 := if i.skip.isNone && !i.withAbsent.isEmpty then s.sat .TT_TEAMCNT_PEER_ABSENT t else s
    let s2 := if !i.withPoison.isEmpty then s1.sat .TT_TEAMCNT_POISONED t else s1
    let s3 := if i.epoch && i.cmd.isSome then s2.endEpoch i else (s2.finishInst i i.outcome).dropInst i
    s3.retireCheck t

/-- EPOCH_COPY_COMPLETE: once all are staged, the staged bytes are at their destination, and the command completes (R334); not in the safe state (R320). -/
def State.epochCopy (s : State) (t : Nat) : State :=
  match s.insts.find? fun i => i.team == t && i.st == .ended && i.decision == 1 with
  | none => s
  | some i =>
    if s.safe || s.unacked (some (i.team, i.n)) then s else
    let s1 := i.staged.foldl (fun (s : State) w =>
      s.wrPieces (pieces (s.bufFrags i.entry 44) w.dst w.len) (rdBytes s.depot w.stage w.len)) s
    (s1.finishInst i i.outcome).dropInst i

def execEpochCopyComplete (t : TeamSlot) (s : State) : Out := event s fun s => s.epochCopy t

/-! ## The norm exchange (R152, R153) -/

/-- Add the sum of squares of n elements, codes of format f, to S_t of the block at scratch address a. FP64 squares are summed in FP64 and rounded. -/
def State.addNorm (s : State) (a f : Nat) (vals : List Nat) : State × Bool :=
  let w := rdLe s.scratch a 4
  let r := if f = 3 then (let x := normAcc 3 vals (up64 w); (down32 x.1, x.2)) else normAcc f vals w
  (s.wrScratch a (leBytes 4 r.1), r.2)

/-- Elements x .. x + n − 1 for the norm: staged FP32 for RCUG, the source in the input format for NORM. -/
def State.normElems (s : State) (i : Inst) (x n : Nat) : List Nat :=
  if i.op = 0x30 then
    let o := s.degStage i + 4 * (x - (s.shardOf i (s.teamRank i.team)).1)
    unpack 0 n (rdBytes s.scratch (scrAddr (s.rf .TT_TEAM_YARD i.team) o) (4 * n))
  else s.srcElems i x n

/-- First element and end of tensor t of the command. -/
def State.tensorSpan (s : State) (i : Inst) (t : Nat) : Nat × Nat :=
  let f (u : Nat) : Nat := s.tensAt (gTables i.entry) (gD i.entry) u 0 8
  (f t, if t + 1 < gT i.entry then f (t + 1) else wCount i.entry)

/-- The runs that NORMACC takes: tensor, first element, count. RCUG: each slice of the shard in turn, cut at tensors (R152). NORM: each tensor from its
start, 65,536 elements at a time (R167). -/
def State.normRuns (s : State) (i : Inst) : List (Nat × Nat × Nat) :=
  let ts := List.range (gT i.entry)
  let cut (lo hi : Nat) : List (Nat × Nat × Nat) := ts.filterMap fun t =>
    let (a, b) := s.tensorSpan i t
    let x := max a lo
    let z := min b hi
    if x < z then some (t, x, z - x) else none
  if i.op = 0x30 then
    let (a, k) := s.shardOf i (s.teamRank i.team)
    let n := max 1 (s.sliceGrans i.team * i.perGran)
    ((List.range ((k + n - 1) / n)).map fun j => cut (a + j * n) (min (a + k) (a + (j + 1) * n))).flatten
  else
    (ts.map fun t =>
      let (a, b) := s.tensorSpan i t
      (List.range ((b - a + 65535) / 65536)).map fun j => (t, a + 65536 * j, min 65536 (b - a - 65536 * j))).flatten

/-- Scratch address of the block, and of its sum S_t. -/
def State.blockAddr (s : State) (i : Inst) : Nat := scrAddr (s.rf .TT_TEAM_YARD i.team) (s.degBlock i)

/-- Fill the member's own result block (Table 6.3); a missing member's is padding zeros with ABSENT (R109). -/
def State.normOwn (s : State) (i : Inst) : State :=
  let a := s.blockAddr i
  let steps := ((List.range (gD i.entry)).map fun d => leBytes 8 (s.descAt (gTables i.entry) d 8 8) ++ leBytes 8 (s.descAt (gTables i.entry) d 8 8)).flatten
  let s1 := s.wrScratch a (if i.missing then List.replicate i.blockLen 0 else List.replicate 8 0 ++ steps ++ List.replicate (4 * gT i.entry) 0)
  let (s2, bad) := (if i.missing then [] else s.normRuns i).foldl (fun (acc : State × Bool) (r : Nat × Nat × Nat) =>
    let (s3, b) := acc.1.addNorm (a + 8 + 16 * gD i.entry + 4 * r.1) (if i.op = 0x30 then 0 else wIn i.entry) (s.normElems i r.2.1 r.2.2)
    (s3, acc.2 || b)) (s1, false)
  let f := (i.own.or { nonfinite := bad, absent := i.missing })
  (s2.wrScratch a (leBytes 1 f.num)).updNow i fun j => { j with own := j.own.or f }

/-- Field-by-field combination of two blocks of D descriptors and T tensors, the first one being the running result (R104, Table 6.3). -/
def combineBlock (d t : Nat) (x y : List Byte) : List Byte :=
  let at_ (b : List Byte) (o k : Nat) : Nat := leNat ((b.drop o).take k)
  leBytes 1 ((at_ x 0 1 ||| at_ y 0 1) % 8) ++ List.replicate 7 0 ++
    ((List.range d).map fun j => leBytes 8 (min (at_ x (8 + 16 * j) 8) (at_ y (8 + 16 * j) 8)) ++
      leBytes 8 (max (at_ x (16 + 16 * j) 8) (at_ y (16 + 16 * j) 8))).flatten ++
    ((List.range t).map fun j => leBytes 4 (fAdd 0 (at_ x (8 + 16 * d + 4 * j) 4) (at_ y (8 + 16 * d + 4 * j) 4))).flatten

/-- What the child of rank r on axis a has sent: the bytes in order and the flags; none until all of it is here. -/
def Inst.kidBlock (i : Inst) (a r : Nat) : Option (List Byte × Flags3) :=
  let ps := i.norm.filter fun p => p.1 == a && p.2.1 == r
  let f := ps.foldl (fun (g : Flags3) p => g.or p.2.2.2.2) {}
  let n := ps.foldl (fun k p => k + p.2.2.2.1.length) 0
  if i.blockLen ≤ n then
    some (ps.foldl (fun (b : List Byte) p => b.take p.2.2.1 ++ p.2.2.2.1 ++ b.drop (p.2.2.1 + p.2.2.2.1.length)) (List.replicate i.blockLen 0), f)
  else none

/-- Parts of at most 8 KiB of a byte string. -/
def partsOf (bs : List Byte) : List (Nat × List Byte) :=
  (List.range ((bs.length + 8191) / 8192)).map fun k => (8192 * k, (bs.drop (8192 * k)).take 8192)

/-- Ask the groom unit for a job of a degraded instance; its mirror staging area lies below the staged shard (DESIGN CHOICE: log entry 28). -/
def State.groomAsk (s : State) (i : Inst) (kind : Nat) : State :=
  let r : GroomReq := { y := s.rf .TT_TEAM_YARD i.team, team := i.team, rec_ := i.n % 2, kind := kind,
                        stageOff := if kind = 1 then s.degStage i else 0, resultOff := if kind = 2 then 0 else s.degBlock i, mirrorOff := 0 }
  let n := if kind = 3 || !s.on .GRM_MIR_CFG_OUT_EN then 0 else s.mirSizeOf r
  let top := if kind = 1 then s.degStage i else s.bankSize
  let q := if n = 0 then r else { r with mirrorOff := top - (n + 63) / 64 * 64 }
  { s with groom := { s.groom with queue := s.groom.queue ++ [q] } }

/-! ## The gather of parameters (R157) -/

/-- The elements of the job's shard in GATHER_FMT, each with its index, and what their conversion counts (R157, R133, R141); zeros where the member
skipped. -/
def State.gathParams (s : State) (i : Inst) (r : GroomReq) : List Nat × OpOut :=
  let xs := s.jobElems r
  let lo := (s.jobShard r).1
  let code (x : Nat × Nat × Nat × Nat × Nat) : Nat × Nat :=
    let pf := s.jDesc r x.2.2.2.1 2 1
    (pf, leNat (s.rdLocal (s.jDesc r x.2.2.2.1 48 8 + x.2.2.2.2 * fmtBytes pf 1) (fmtBytes pf 1)))
  if i.skip.isSome then ((xs.map fun _ => 0), {})
  else
    let gs := s.gathRuns i lo (lo + xs.length)
    let o := xs.map fun x => (gathRun gs (s.jobRec r 48 8) (code x).1 i.gfmt x.1 [(code x).2])
    (o.map (fun e => e.codes.headD 0), o.foldl (fun (a : OpOut) e =>
      { a with sat := satAdd a.sat e.sat, flush := satAdd a.flush e.flush, nonf := a.nonf || e.nonf, amax := max a.amax e.amax }) {})

/-- After the groom job, the allgather of step 6 starts. -/
def State.gathStart (s : State) (i0 : Inst) (r : GroomReq) : State :=
  let i := { s.instNow i0 with phase := 3 }
  let me := s.teamRank i.team
  let (cs, o) := s.gathParams i r
  let lo := (s.jobShard r).1
  let s1 := s.updNow i fun j => { j with
    phase := 3
    sat := satAdd j.sat o.sat
    flush := satAdd j.flush o.flush
    own := j.own.or { nonfinite := o.nonf }
    amax := max j.amax o.amax }
  let (s2, xs) := s1.eachGran (fun s (g : Nat) =>
    let (x, k) := s.granElems i me g
    s.gathBegin i me g x ((cs.drop (x - lo)).take k) {}) (List.range (s1.shardGrans i me))
  s2.sendRuns i xs

/-- The whole block is here: VALID is set and the groom job is asked for; a missing member has no job. An update that this instance has applied already, before it
began again in degraded mode, is not applied twice: its gather follows, or waits for its job's end (R158; log entry 50). -/
def State.normValid (s : State) (i : Inst) : State :=
  let s1 := s.wrScratch (s.blockAddr i) (leBytes 1 (rdLe s.scratch (s.blockAddr i) 1 % 8 + 8))
  if i.missing then s.updNow i fun j => { j with phase := 4 }
  else if i.op = 0x30 && (s.instNow i).groomed then
    (if s.groom.job.any fun j => j.req.team == i.team then s1
    else s1.gathStart i { y := s.rf .TT_TEAM_YARD i.team, team := i.team, rec_ := i.n % 2, kind := 1, stageOff := 0, resultOff := 0, mirrorOff := 0 })
  else s1.groomAsk i (if i.op = 0x30 then 1 else 3)

/-- Hand a part of the final block down. -/
def State.normDown (s : State) (i : Inst) (f : Flags3) (bs : List Byte) : State :=
  (s.exKids i.team (s.hearAxes i.team).reverse).foldl (fun (s : State) k => s.sendEx i k.1 k.2 false f bs) s

/-- The norm exchange goes on: with the blocks of all children combined, the block goes up, or is final at the root. -/
def State.normPump (s : State) (i0 : Inst) : State :=
  let i := s.instNow i0
  let ks := s.exKids i.team (s.hearAxes i.team)
  if i.phase != 1 || !(ks.all fun k => (i.kidBlock k.1 k.2).isSome) then s
  else
    let a := s.blockAddr i
    let own := rdBytes s.scratch a i.blockLen
    let got := ks.filterMap fun k => i.kidBlock k.1 k.2
    let f := got.foldl (fun (g : Flags3) p => g.or p.2) { i.own with absent := i.own.absent || i.missing }
    let sum := got.foldl (fun (b : List Byte) p => combineBlock (gD i.entry) (gT i.entry) b p.1) own
    let all := leBytes 1 (leNat (sum.take 1) ||| f.num) ++ sum.drop 1
    let s1 := (s.wrScratch a all).updNow i fun j => { j with phase := 2, norm := [] }
    match s.upAxis i.team with
    | some ax => (partsOf all).foldl (fun (s : State) p => s.sendEx i ax (s.exParent i.team ax) true f p.2) s1
    | none => ((partsOf all).foldl (fun (s : State) p => s.normDown i f p.2) s1).normValid i

/-- A part of the final block comes down: kept, handed on; the last part completes it. -/
def State.normHere (s : State) (i0 : Inst) (o : Nat) (f : Flags3) (bs : List Byte) : State :=
  let i := s.instNow i0
  let d := bs.take (i.blockLen - o)
  let s1 := if i.missing then s else s.wrScratch (s.blockAddr i + o) d
  let s2 := (s1.normDown i f bs).updNow i fun j => { j with norm := j.norm ++ [(9, 0, o, d, f)] }
  let n := (s2.instNow i).norm.foldl (fun k p => k + p.2.2.2.1.length) 0
  if i.blockLen ≤ n then
    let a := s2.blockAddr i
    (s2.wrScratch a (leBytes 1 ((rdLe s2.scratch a 1 ||| f.num) % 8))).normValid i
  else s2

/-- The norm exchange starts where the member's own part is complete. -/
def State.normStart (s : State) (i0 : Inst) : State :=
  let i := s.instNow i0
  if i.degraded && i.phase = 0 && (i.op = 0x32 || (i.op = 0x30 && s.outWanted i ≤ i.outDone)) then
    ((s.normOwn i).updNow i fun j => { j with phase := 1 }).normPump i
  else s

/-! ## Starting without a timetable -/

/-- The member's arrival of a BARRIER instance at its start (R254). -/
def State.barStart (s : State) (i : Inst) : State :=
  let n := wSrc i.entry
  if i.missing then
    let s1 := s.dropInst i
    if s.on .SYN_BAR_VALID i.team then s1.localArrive (s.rf .SYN_BAR_OBJ i.team) true else s1
  else if s.on .SYN_FLAG_ALLOC n && s.rf .SYN_FLAG_KIND n = 1 then (s.setInst i fun j => { j with arrived := true }).localArrive n false
  else ((s.finishInst i 6 (invResult rState 8)).dropInst i).misuse 2 n s.self

/-- Sources of a COPY, converted where the formats differ or a scale applies (R95, R168). -/
def State.copyInst (s : State) (i : Inst) : State :=
  let n := wCount i.entry
  let v := s.srcElems i 0 n
  if wIn i.entry = wOut i.entry && !i.scaled then s.wrPieces (pieces (s.bufFrags i.entry 44) (wDst i.entry) (elemBytes (wOut i.entry) n)) (pack (wOut i.entry) 0 v)
  else
    let o := (i.ctx 6 (wIn i.entry) (wIn i.entry) (wOut i.entry) 0 true).run 0 (v.map fun c => (some c, none, none))
    (s.countOut i o).wrPieces (pieces (s.bufFrags i.entry 44) (wDst i.entry) (elemBytes (wOut i.entry) n)) (pack (wOut i.entry) 0 o.codes)

/-- Carriages of an OFFLOAD to, or requests of a FETCH from, the neighbour's depot: `m` data bytes each (R169, R170). -/
def State.moveFar (s : State) (i : Inst) : State :=
  let e := i.entry
  let y := s.rf .TT_TEAM_YARD i.team
  let wr := i.op == 0x48
  let m := if wr then 8128 else 8192
  (List.range ((oLen e + m - 1) / m)).foldl (fun (s : State) k =>
    let n := min m (oLen e - m * k)
    let body := granule ((oDepot e % 2 ^ 48) + m * k) n 0 0 0 0 0 ++
      (if wr then s.rdPieces (pieces (s.bufFrags e 44) (wSrc e + m * k) n) else [])
    let c := mkCarriage { cls := 0, kind := if wr then 10 else 11, dst := oDepot e / 2 ^ 48, src := s.self, tenant := s.yardTenant y, yard := y,
                          ygen := s.rf .YRD_STATE_GEN y, team := i.team, gen := i.gen, seq := k % 65536,
                          dgen := s.rf .RTE_EP_LO_GEN (oDepot e / 2 ^ 48) } body
    { s with net := { s.net with outq := s.net.outq ++ [{ l := oLink e, cls := 3, port := 7, adv := false, key := i.team, c := c }] } }) s

/-- Parts of a degraded OFFLOAD or FETCH: depot accesses of the local depot, carriages to the neighbour, requests to it. -/
def Inst.moveParts (i : Inst) : Nat :=
  let e := i.entry
  if oLink e = 7 then (splitAll (offsetOf (oDepot e)) (oLen e) 0).length
  else if i.op = 0x48 then (oLen e + 8127) / 8128 else (oLen e + 8191) / 8192

/-- An OFFLOAD or FETCH: accesses of the local depot, or carriages on the link that it names. It ends with the last part's answer. -/
def State.moveInst (s : State) (i : Inst) : State :=
  let e := i.entry
  if oLink e != 7 then s.moveFar i
  else
    let y := s.rf .TT_TEAM_YARD i.team
    let bs := if i.op = 0x48 then s.rdPieces (pieces (s.bufFrags e 44) (wSrc e) (oLen e)) else []
    s.depotAdd ((splitAll (offsetOf (oDepot e)) (oLen e) 0).map fun x =>
      { ch := portFor y x.1, wr := i.op == 0x48, addr := x.1, data := (bs.drop x.2.2).take x.2.1, len := x.2.1, own := some (i.team, i.n)
        use := .move i.team i.n y x.2.2 })

/-- What the member does at the start of a degraded instance or a replay. -/
def State.degNow (s : State) (i : Inst) : State :=
  match i.op with
  | 0x28 => s.barStart i
  | 0x31 => if i.missing then s.endInst i else s.groomAsk i 2
  | 0x32 => s.normStart i
  | 0x48 | 0x49 => if i.missing then s.endInst i else s.moveInst i
  | 0x50 =>
    if i.missing then s.endInst i
    else
      let s1 := s.copyInst i
      s1.endInst (s1.instNow i)
  | _ =>
    let (s1, xs) := s.degBegin i
    (s1.sendRuns i xs).normStart i

/-- The start takes the array. -/
def startsArray (op : Nat) : Bool := !(op == 0x28 || op == 0x31 || op == 0x48 || op == 0x49)

/-- Start a degraded instance or a replay: at once, or when the array is free for it (R15, R24). -/
def State.degRun (s : State) (i : Inst) : State :=
  if startsArray i.op && !s.arrFree then s.setInst i fun j => { j with hold := true } else s.degNow i

/-- The instances that wait for the array begin, where it is free for them. -/
def State.heldRuns (s : State) : State :=
  (s.insts.filter fun i => i.hold && i.st == .running).foldl (fun (s : State) i =>
    if s.arrFree then (s.setInst i fun j => { j with hold := false }).degNow { i with hold := false } else s) s

/-- ARRAY_OPERATION_COMPLETE, with what the array's parity finds; then the array may be free for degraded mode. -/
def execArrayOperationComplete (s : State) (parity : Bool := false) : Out := event s fun s => (s.arrEnd parity).heldRuns

/-! ## The closing exchange (R111) -/

/-- No postilion of the team's row has a segment of the team left in this stage. -/
def State.rowDone (s : State) (t : Nat) : Bool :=
  (List.range 16).all fun c =>
    let x := s.post (16 * s.rf .TT_TEAM_YARD t + c)
    (match x.cur with
      | some g => g.team != t
      | none => true) && x.rest.all fun g => g.team != t

/-- The member's own part of the instance is complete, so that its flags are. -/
def State.ownDone (s : State) (i : Inst) : Bool :=
  if i.degraded then
    !i.hold && i.sends.isEmpty && i.folds.isEmpty && i.deg.isEmpty && s.outWanted i ≤ i.outDone && (i.op != 0x30 || i.phase == 3 || i.missing) && (i.op != 0x32 || i.phase == 4)
  else 2 ≤ s.engSt && s.rf .TT_STATUS_STAGE_IDX == i.last && s.rowDone i.team

/-- The closing carriage's bytes: the amax as FP32 bits (DESIGN CHOICE: log entry 29). -/
def closeBytes (amax : Nat) : List Byte := leBytes 4 amax ++ List.replicate 60 0

/-- The team-wide flags reach the member: it keeps them, fixes its epoch decision (R334), and hands them down. -/
def State.closeDown (s : State) (i : Inst) (f : Flags3) (amax : Nat) : State :=
  let dec := if f.absent || f.poison then 2 else 1
  let keep (j : Inst) : Inst := { j with
    teamFlags := some f
    teamAmax := if mAmax (wMode j.entry) || j.op == 0x30 then some amax else j.teamAmax
    decision := if j.epoch && j.cmd.isSome then dec else j.decision }
  let s1 := s.updNow i keep
  let s2 := if i.epoch && i.cmd.isSome then s1.setfs [(.TT_EPOCH_INSTANCE, i.team, i.n), (.TT_EPOCH_DECISION, i.team, dec)] else s1
  (s2.exKids i.team (s2.hearAxes i.team).reverse).foldl (fun (s : State) k => s.sendEx i k.1 k.2 false f (closeBytes amax)) s2

/-- Send the member's OR upward, or close at the root, once its own part and its children's are there. -/
def State.closeUp (s : State) (i0 : Inst) : State :=
  let i := s.instNow i0
  let ks := s.exKids i.team (s.hearAxes i.team)
  let has (k : Nat × Nat) : Bool := i.kids.any fun x => x.1 == k.1 && x.2.1 == k.2
  if i.st != .running || i.sentUp || !closes i.op || !s.ownDone i || !ks.all has then s
  else
    let f := i.kids.foldl (fun (g : Flags3) x => g.or x.2.2.1) (i.own.or { absent := i.missing })
    let am := i.kids.foldl (fun m x => max m x.2.2.2) i.amax
    let s1 := s.updNow i fun j => { j with sentUp := true }
    match s.upAxis i.team with
    | some a => s1.sendEx i a (s.exParent i.team a) true f (closeBytes am)
    | none => s1.closeDown i f am

/-- The due instance of team t begins. -/
def State.startDue (s : State) (t : Nat) : State :=
  if (s.running t).isSome then s
  else match s.insts.find? fun i => i.team == t && i.due with
    | some i =>
      let j : Inst := { i with due := false, st := .running, t0 := s.now }
      (s.setInst i fun _ => j).degRun j
    | none => s

/-- Close what can be closed of instance i. A degraded instance ends when the team-wide flags are here, and the next one begins. -/
def State.closePump (s : State) (i0 : Inst) : State :=
  let s1 := s.closeUp i0
  let i := s1.instNow i0
  if i.st == .running && i.degraded && closes i.op && i.teamFlags.isSome then (s1.endInst i).startDue i.team else s1

/-- Close what can be closed of every running instance. -/
def State.closeAll (s : State) : State := (s.insts.filter fun i => i.st == .running).foldl (fun (s : State) i => s.closePump i) s

/-! ## DATA_RECEIVE -/

/-- A confirmed class 0 carriage of this chip at link p: taken from the receive side. -/
def State.takeRx (s : State) (p : Nat) (c : Carriage) : Option State :=
  match s.net.rx.find? fun r => r.l == p && r.c == c && !s.unconfirmed r.id && !s.net.lostIds.contains r.id with
  | some r => some { s with net := { s.net with rx := s.net.rx.erase r } }
  | none => none

/-- Payload part of an exchange. -/
def closeAmax (c : Carriage) : Nat := leNat (c.payload.take 4)

/-- A carriage of the instance's team is applied: a run of elements, or a part of an exchange. -/
def State.dataHere (s : State) (i0 : Inst) (d : DataPlace) (c : Carriage) : State :=
  let i : Inst := if i0.op = 0x30 && d.seg != 1 then { i0 with phase := min i0.phase 2 } else i0
  match d.kind with
  | .flagsUp => (s.updNow i fun j => { j with kids := j.kids ++ [(d.level.val, d.fromRank, tFlags c, closeAmax c)] }).closePump i
  | .flagsDown => (s.closeDown i (tFlags c) (closeAmax c)).closePump i
  | .normUp => (s.updNow i fun j => { j with norm := j.norm ++ [(d.level.val, d.fromRank, d.elem, c.payload, tFlags c)] }).normPump i
  | .normDown => (s.normHere i d.elem (tFlags c) c.payload).closePump i
  | _ => ((s.dataRun (if i0.op = 0x30 && d.seg = 1 then { i with phase := 3 } else i) d c).normStart i).closePump i

/-- The carriage can be applied now: what it is combined with is here, and the array is free for it (R24). -/
def State.canTake (s : State) (i : Inst) (d : DataPlace) : Bool :=
  match d.kind with
  | .flagsUp => !i.sentUp
  | .flagsDown => i.sentUp && i.teamFlags.isNone
  | .normUp => i.degraded && i.phase ≤ 1
  | .normDown => i.degraded && i.phase == 2
  | k => i.degraded && !i.hold && (!i.usesArray k || s.arrFree)

/-- DATA_RECEIVE: in degraded mode an accepted class 1 carriage, whose credit the last chip of its way returns; of scheduled ones those of the closing
exchange. While its yard is reset the team takes none (R19). -/
def State.dataReceive (s : State) (p : Nat) (c : Carriage) (d : DataPlace) : State :=
  match s.running (cTeam c) with
  | none => s
  | some i =>
    if !s.canTake i d || s.rf .YRD_STATE_STATE (s.rf .TT_TEAM_YARD (cTeam c)) == 1 then s
    else if cClass c = 0 then
      if !i.degraded && (d.kind == .flagsUp || d.kind == .flagsDown) then
        match s.takeRx p c with
        | some s1 => s1.dataHere i d c
        | none => s
      else s
    else match s.takeAccepted p c [0] with
      | some s1 => (if cDst c = s.self then s1.reinFor c false else s1).dataHere i d c
      | none => s

def execDataReceive (p : Port) (c : Carriage) (d : DataPlace) (s : State) : Out := event s fun s => s.dataReceive p c d

/-! ## Groom jobs and fetches of degraded instances -/

/-- The mirror carriages of a degraded instance: the bytes its job has staged, 8,128 at a time, on the mirror's link (R165, R302; log entry 28). -/
def State.mirrorSend (s : State) (i : Inst) (r : GroomReq) : State :=
  match s.groom.mirStage.find? fun m => m.1 == r.y && m.2.1 == r.mirrorOff with
  | none => s
  | some (y, o, n, at_) =>
    (List.range ((n + 8127) / 8128)).foldl (fun (s : State) k =>
      let z := min 8128 (n - 8128 * k)
      let body := granule (at_ + 8128 * k) z 0 0 0 (s.rf .GRM_MIR_OUT_EPOCH_EPOCH) 0 ++ rdBytes s.scratch (scrAddr y (o + 8128 * k)) z
      let c := mkCarriage { cls := 0, kind := 13, dst := s.rf .GRM_MIR_CFG_BUDDY_EP, src := s.self, tenant := s.yardTenant y, yard := y,
                            ygen := s.rf .YRD_STATE_GEN y, team := i.team, gen := i.gen, seq := k % 65536,
                            dgen := s.rf .RTE_EP_LO_GEN (s.rf .GRM_MIR_CFG_BUDDY_EP) } body
      { s with net := { s.net with outq := s.net.outq ++ [{ l := s.rf .GRM_MIR_CFG_LINK, cls := 3, port := 7, adv := false, key := i.team, c := c }] } }) s

/-- What follows a groom job of a degraded instance: its mirror bytes go out; RCUG gathers, NORM closes, UPDATE ends. -/
def State.afterJob (s0 : State) (r : GroomReq) : State :=
  match s0.running r.team with
  | none => s0
  | some i =>
    if !i.degraded || i.n % 2 != r.rec_ % 2 then s0
    else
      let s := if i.skip.isSome || r.mirrorOff = 0 then s0 else s0.mirrorSend i r
      match i.op with
      | 0x30 => if i.phase = 2 then (s.gathStart i r).closePump i else s
      | 0x31 => (s.endInst i).startDue i.team
      | 0x32 => (s.updNow i fun j => { j with phase := 4 }).closePump i
      | _ => s

/-- GROOM_JOB_END. -/
def execGroomJobEnd (s : State) : Out :=
  event s fun s => match s.groom.job with
    | some j => if j.over && !s.safe then s.groomEnd.afterJob j.req else s
    | none => s

/-- The degraded OFFLOADs and FETCHes whose last part is answered end, and a FETCH whose request was refused (R170). -/
def State.movesDone (s : State) : State :=
  let ended (i : Inst) : Bool := i.st == .running && i.degraded && !i.missing && (i.op == 0x48 || i.op == 0x49) &&
    (decide (i.moveParts ≤ i.outDone) || (i.op == 0x49 && i.blocked))
  (s.insts.filter ended).foldl (fun (s : State) i => (s.endInst i).startDue i.team) s

/-- DEPOT_ACCESS_COMPLETE, with the 64 B words of the access that are uncorrectable. -/
def execDepotAccessComplete (ch : Fin 16) (ue : BitVec 128) (s : State) : Out := event s fun s => (s.depotDone ch ue.toNat).movesDone

/-- An answer to a FETCH of a degraded instance is written at its place; the last one ends it (R170). -/
def State.fetchHere (s : State) (i : Inst) (c : Carriage) : State :=
  let e := i.entry
  let o := 8192 * cSeq c
  let n := min 8192 (oLen e - o)
  let s1 := if (tFlags c).poison then s.updNow i fun j => { j with bad := true }
    else (s.wrPieces (pieces (s.bufFrags e 44) (wSrc e + o) n) (c.payload.take n)).updNow i fun j => { j with wrote := true }
  (s1.updNow i fun j => { j with outDone := j.outDone + 1 }).movesDone

/-- FAR_RDRSP_RECEIVE: to a degraded FETCH of the team, else to the receive side of the link. -/
def execFarRdrspReceive (l : Link) (c : Carriage) (s : State) : Out :=
  event s fun s => match s.takeAccepted l c [12] with
    | none => s
    | some s1 => match s1.running (cTeam c) with
      | some i => if i.degraded && i.op = 0x49 then s1.fetchHere i c else s1.farRsp l c
      | none => s1.farRsp l c

end Sys2Proof.Machine
end

