-- ==== Sys2Proof/Machine/Router.lean ====
section
/-! DEFINITION. The router: link time, sending scheduled and unscheduled carriages, arrival, the CRC verdict, confirmation and recall
(1.5, 2.5, 7.2–7.5, 11.3). -/

namespace Sys2Proof.Machine

/-! ## Link time (R22, R46–R49, R205, R209) -/

/-- Symbol time of a rung, in 1/64 ns (Table 8.1). -/
def colTime (rung : Nat) : Nat := if rung = 0 then 160 else if rung = 1 then 40 else if rung = 2 then 20 else 10

/-- Columns of a carriage with n payload bytes on w lanes: SOC, data columns, EOC. -/
def carCols (w n : Nat) : Nat := (24 + n + w - 1) / max 1 w + 2

/-- Time that a carriage of n payload bytes takes on the sub-link of tenant t of link l, in 1/64 ns. -/
def State.carTime (s : State) (l t n : Nat) : Nat := carCols (16 * (s.subGroups l t).length) n * colTime (s.rf .LNK_RUNG_RUNG l)

/-- Offset of now in its stage, and the length of a stage, in 1/64 ns. -/
def State.inStage64 (s : State) : Nat := s.t64 - s.tickAt * 64
def State.stage64 (s : State) : Nat := s.stageLen * 64

/-- The last 200 ns of the stage (R20). -/
def State.inGuard (s : State) : Bool := decide (s.stage64 ≤ s.inStage64 + 12800)

/-- Reserved window of a segment, in 1/64 ns. -/
def State.window64 (s : State) : Nat := s.rf .TT_UNSCHED_SHARE_SIXTEENTHS * 4000

/-- Scheduled time of link direction l is empty now (R22, R49): no segment on its transmit column is left in any row. -/
def State.linkEmpty (s : State) (l : Nat) : Bool :=
  nat4.all fun y => let x := s.post (16 * y + 2 * l); x.cur.isNone && x.rest.isEmpty

/-- A MARK is due on a sub-link: one after every 4,096 columns from entry into ACTIVE (R213). -/
def State.markDue (s : State) (l t : Nat) : Bool :=
  decide ((s.sub l t).marks < (s.now - (s.link l).active) * 64 / (4096 * colTime (s.rf .LNK_RUNG_RUNG l)))

/-- A carriage of duration d may start now on link l, unscheduled: whole inside a reserved window after the TICK and a MARK that is due (R48), or in
empty scheduled time, ending before the reserved window of the next stage does, or of the engine's first stage while it is ARMED (R22, R49). -/
def State.mayStart (s : State) (l t d : Nat) : Bool :=
  let o := s.inStage64
  let p := o % 64000
  let col := colTime (s.rf .LNK_RUNG_RUNG l)
  let from_ := max p (2 * col) + (if s.markDue l t then col else 0)
  let fits := decide (from_ + d ≤ s.window64)
  let next := s.tickAt + s.stageLen
  let first := if s.engSt = 1 then max next (s.rf .TT_START_MTC_START) else next
  let free := s.linkEmpty l && (s.engSt == 0 || decide (s.t64 + d ≤ 64 * first + s.window64))
  !s.inGuard && (fits || free)

/-! ## Sending on a sub-link (R187) -/

/-- Bytes of a sub-link's retry buffer share, and those in use. -/
def State.retryShare (s : State) (l t : Nat) : Nat := 65536 * (s.subGroups l t).length
def SubLink.used (x : SubLink) : Nat := x.retry.foldl (fun n e => n + 24 + e.c.payload.length) 0

/-- The retry buffer takes a new carriage of n payload bytes. -/
def State.retryRoom (s : State) (l t n : Nat) : Bool :=
  let x := s.sub l t
  x.retry.length < 1024 && decide (x.used + 24 + n ≤ s.retryShare l t)

/-- The sub-link exists and sends nothing now; without RTE_SLICE no carriage is sent (R291). -/
def State.subFree (s : State) (l t : Nat) : Bool := s.live l && s.sliceSet && !(s.subGroups l t).isEmpty && !s.safe && decide ((s.sub l t).busy ≤ s.t64)

/-- Note traffic of a carriage's team (R202), and of its yard where this chip issued it (R263). -/
def State.noteTraffic (s : State) (c : Carriage) : State :=
  let s1 := if cSrc c = s.self then s.touch (cYard c) else s
  if cTeam c < 64 then s1.setTeam (cTeam c) { s1.team (cTeam c) with lastTraffic := s.now } else s1

/-- Send a new carriage under the next LSN (R173, R187). `mirror` is its mirror data, in bytes. -/
def State.sendOn (s : State) (l t : Nat) (c : Carriage) (mirror : Nat) : State :=
  let x := s.sub l t
  let c1 := setHop c x.next 0 (cDphase c) (cRev c) (cRdir c)
  let d := s.carTime l t c.payload.length
  let e : RetryEnt := { lsn := x.next, c := c1, t := (s.t64 + d + 63) / 64, mirror := mirror }
  let x1 : SubLink := { x with
    next := (x.next + 1) % 2048
    retry := x.retry ++ [e]
    busy := s.t64 + d
    busySched := cClass c == 0
    busyLsn := x.next }
  (((((s.flushUnits l t).setSub l t x1).emit (.carriage l t c1)).trace (6 + l) (carTrace c1)).noteTraffic c).winTraffic c

/-! ## REIN units (R185) -/

/-- A REIN leaves the queue of its port: to this chip's window, on the link, or to the port that its way now leads to. -/
def State.reinLeave (s : State) (r : Rein) : State :=
  if r.dst = s.self then s.reinHere r
  else match s.reinHop r with
    | .send k _ _ => if k = r.port then s.unit k r.tenant kRein (reinFields r) else s.queueRein r
    | _ => s.sat .RTE_DROPS_MISROUTE 0

/-- The REIN units for link l, and those for this chip, leave their queue, outside the guard; those that waited for room come up (R185). -/
def State.pumpReins (s : State) (l : Nat) : State :=
  let go (r : Rein) : Bool := r.port == 8 || (r.port == l && !s.inGuard)
  let out := s.net.reinq.filter go
  let s1 : State := { s with net := { s.net with reinq := s.net.reinq.filter fun r => !go r } }
  let s2 := out.foldl (fun (s : State) r => s.reinLeave r) s1
  s2.net.reinWait.foldl (fun (s : State) r => s.queueRein r) { s2 with net := { s2.net with reinWait := [] } }

/-! ## Scheduled carriages (R192, Table 7.6, R302) -/

/-- Endpoint an XMIT goes to: the one its address names, else the next member in the link's direction; of a multicast the last member before the
origin (R101; DESIGN CHOICE: log entry 30). -/
def State.xmitDst (s : State) (l t : Nat) (d : Desc) : Nat :=
  let a := axisOf l
  let n := max 1 (s.axisExt t a)
  let me := s.myCoord t a
  let prev := (me + n - 1) % n
  let next := (me + 1) % n
  if d.addr / 2 ^ 48 != 0 then d.addr / 2 ^ 48
  else (s.peerEp t a (if dirOf l == d.mcast then next else prev)).getD s.self

/-- What an XMIT sends: kind, destination, payload, and its mirror bytes (R169, R302; DESIGN CHOICE: log entry 30). -/
def State.xmitBody (s : State) (p : Nat) (t : TagOp) (b : Blob) : Nat × Nat × List Byte × Nat :=
  let l := colLink (colOf p)
  let y := rowOf p
  let d := t.desc
  let op := match s.instOf p with
    | some i => i.op
    | none => 0
  let team := match (s.post p).cur with
    | some g => g.team
    | none => 0
  let n := mirBytesOf d
  match s.mirPlace y l d with
  | some o => (13, s.rf .GRM_MIR_CFG_BUDDY_EP, granule o n 0 0 0 (s.rf .GRM_MIR_OUT_EPOCH_EPOCH) 0 ++ b.data.take n, n)
  | none =>
    if isDepot d.addr && op == 0x48 then (10, d.addr / 2 ^ 48, granule (d.addr % 2 ^ 48) n 0 0 0 0 0 ++ b.data.take n, 0)
    else if isDepot d.addr && op == 0x49 then (11, d.addr / 2 ^ 48, granule (d.addr % 2 ^ 48) d.len 0 0 0 0 0, 0)
    else (0, s.xmitDst l team d, b.data, 0)

/-- Verdicts: carriage id is bad and its replay has not arrived. -/
def State.idBad (s : State) (id : Nat) : Bool := !(s.net.arriving.any fun a => a.id == id) && s.net.vecs.any fun v => v.id == id && !v.crcOk

/-- The unconfirmed contributors allow the XMIT to leave now (Table 7.6, R192). -/
def State.xmitOk (s : State) (p : Nat) (t : TagOp) (b : Blob) : Bool :=
  let deps := b.deps
  let spec := match (s.post p).cur with
    | some g => g.spec && t.desc.spec && s.rf .YRD_STATE_STATE (rowOf p) != 2
    | none => false
  deps.isEmpty || (spec && deps.length ≤ 7 && !deps.any s.idBad)

/-- XMITs of link l that wait, over the rows. -/
def State.xmits (s : State) (l : Nat) : List (Nat × TagOp) :=
  (nat4.map fun y => ((s.post (16 * y + 2 * l)).tags.filter fun t => t.kind == .xmit).map fun t => (16 * y + 2 * l, t)).flatten

/-- XMITs of mirror bytes that wait for a link that has failed are lost (R308). -/
def State.loseMirXmits (s : State) : State :=
  let l := s.rf .GRM_MIR_CFG_LINK
  if !s.on .GRM_MIR_CFG_OUT_EN || !s.mirDown l then s
  else ((s.xmits l).filter fun x => (s.mirPlace (rowOf x.1) l x.2.desc).isSome).foldl (fun (s : State) x => s.loseMirXmit x.1 x.2) s

/-- Mirror bytes have been sent (R303). -/
def State.noteMirror (s : State) (n : Nat) : State :=
  if n = 0 then s else { s with groom := { s.groom with mirOpen := s.groom.mirOpen + 1, mirSent := s.groom.mirSent + n } }

/-- The carriage of an XMIT: the flags of its bytes, the member's NONFINITE, and ABSENT where a missing member originates it (R108–R110; DEDUCED: log
entry 149); the multicast axis of its descriptor, in the link's direction (R77, R101; its
codes DEDUCED: log entry 141). -/
def State.xmitCar (s : State) (p : Nat) (t : TagOp) (b : Blob) : Carriage × Nat :=
  let x := s.post p
  let y := rowOf p
  let team := match x.cur with
    | some g => g.team
    | none => 0
  let (kind, dst, bs, mir) := s.xmitBody p t b
  let own := match s.instOf p with
    | some i => i.own
    | none => {}
  let deps := b.deps
  let c := mkCarriage { cls := 0, kind := kind, spec := !deps.isEmpty, dst := dst, src := s.self, tenant := s.yardTenant y, yard := y,
                        maxis := if t.desc.mcast && kind = 0 then t.desc.axis % 4 else 0, ygen := s.rf .YRD_STATE_GEN y, team := team,
                        gen := s.rf .TT_TEAM_GEN team, seq := t.desc.seq, dgen := s.rf .RTE_EP_LO_GEN dst, cv := 0, ncon := deps.length,
                        flags := b.flags.or { nonfinite := own.nonfinite, absent := x.missing && !t.fwd } } bs
  (setHop c 0 0 false false (dirOf (colLink (colOf p))), mir)

/-- Send XMIT t of postilion p: its tag completes; with unconfirmed contributors its bits are kept for a recall. -/
def State.sendXmit (s : State) (p : Nat) (t : TagOp) (b : Blob) : State :=
  let l := colLink (colOf p)
  let tn := s.yardTenant (rowOf p)
  let (c, mir) := s.xmitCar p t b
  let lsn := (s.sub l tn).next
  let s1 := s.sendOn l tn c mir
  let s2 : State := if b.deps.isEmpty then s1
    else { s1 with net := { s1.net with onward := s1.net.onward ++ [{ l := l, t := tn, lsn := lsn, c := c, blob := b, contrib := b.deps }] } }
  (s2.noteMirror mir).tagDone p t.tag t.serial

/-- The oldest of the XMITs by issue. -/
def oldest : List (Nat × TagOp) → Option (Nat × TagOp)
  | [] => none
  | x :: r => match oldest r with
    | none => some x
    | some y => if y.2.serial < x.2.serial then some y else some x

/-- Send a downstream ACK for contributor index j of LSN n, and again 64 ns later. -/
def State.ackDown (s : State) (l t n j : Nat) : State :=
  let s1 := s.unit l t kAck (fieldsOf [(0, 1), (1, n), (3, j)])
  s1.setSub l t { s1.sub l t with repeats := (s1.sub l t).repeats ++ [(n, j, s.now + 64)] }

/-- Contributors that the trailer shows unconfirmed. -/
def openContribs (c : Carriage) : List Nat := ((List.range (tNcon c)).filter fun j => !bitAt (tCv c) j).map (· + 1)

/-- A scheduled carriage that the router forwards or that an exchange sends. A forwarded one whose own bits are unconfirmed has them as contributor. -/
def State.sendFwd (s : State) (o : OutCar) : State :=
  let tn := cTenant o.c
  let s0 : State := { s with net := { s.net with outq := s.net.outq.erase o } }
  let lsn := (s0.sub o.l tn).next
  let open_ := match s0.net.vecs.find? fun v => v.id == o.key with
    | some v => v.missing
    | none => []
  let mir := if cKind o.c = 13 && !o.adv then gLen o.c else 0
  let s1 := if !o.adv then (s0.sendOn o.l tn o.c mir).noteMirror mir
    else ((openContribs o.c).filter fun j => !open_.contains j).foldl (fun (s : State) j => s.ackDown o.l tn lsn j) (s0.sendOn o.l tn o.c 0)
  if o.adv && s0.unconfirmed o.key then
    { s1 with net := { s1.net with onward := s1.net.onward ++ [{ l := o.l, t := tn, lsn := lsn, c := o.c, blob := {}, contrib := [o.key], fwd := true }] } }
  else s1

/-- One class 0 carriage leaves link l: first those forwarded or of an exchange, then the oldest XMIT that may go, then one of a team in degraded mode
in unscheduled link time (R22). A forwarded one whose bits are bad waits for its replay (R193). -/
def State.schedSend (s0 : State) (l : Nat) : State :=
  let s := (s0.closeAll.loseMirXmits).pumpReins l
  if !s.live l || s.safe || s.inGuard then s
  else
    let free (t n : Nat) : Bool := s.subFree l t && s.retryRoom l t n
    match s.net.outq.find? fun o => o.l == l && o.cls == 2 && !(o.adv && s.idBad o.key) && free (cTenant o.c) o.c.payload.length with
    | some o => s.sendFwd o
    | none =>
      let ready (x : Nat × TagOp) : Bool := match x.2.blob with
        | some b => free (s.yardTenant (rowOf x.1)) (s.xmitBody x.1 x.2 b).2.2.1.length && s.xmitOk x.1 x.2 b
        | none => false
      match oldest ((s.xmits l).filter ready) with
      | some x => (match x.2.blob with
        | some b => s.sendXmit x.1 x.2 b
        | none => s)
      | none =>
        match s.net.outq.find? fun o => o.l == l && o.cls == 3 && free (cTenant o.c) o.c.payload.length
            && s.mayStart l (cTenant o.c) (s.carTime l (cTenant o.c) o.c.payload.length) with
        | some o => s.sendFwd o
        | none => s

def execScheduledCarriageSend (l : Link) (s : State) : Out := event s fun s => s.schedSend l

/-! ## Unscheduled carriages (R23, R180) -/

/-- The bubble rule: enough free buffers downstream for the carriage's class. -/
def State.bubble (s : State) (o : OutCar) : Bool :=
  let x := s.sub o.l (cTenant o.c)
  let free := if o.cls = 1 then x.free1 else x.free0
  if o.adv then 1 ≤ free else 2 ≤ free

/-- Count a cycle in which only the bubble rule holds a carriage back, on the port whose buffer it holds (R203). -/
def State.blocked (s : State) (port : Nat) : State :=
  let g := sget (fun _ => {}) s.net.cong port
  { s with net := { s.net with cong := sset (fun _ => {}) s.net.cong port { g with blocked := g.blocked + 1 } } }

/-- An unscheduled carriage could go now but for the bubble rule. -/
def State.grantable (s : State) (o : OutCar) : Bool :=
  let t := cTenant o.c
  let n := o.c.payload.length
  o.cls < 2 && s.subFree o.l t && s.retryRoom o.l t n && !((s.sub o.l t).retry.any fun e => e.replay) && s.mayStart o.l t (s.carTime o.l t n)

/-- One core cycle of the router: the ports whose carriages R180 holds back count it (R203), and units go that waited for a scheduled carriage's end
(R214). -/
def State.routerCycle (s : State) : State :=
  let held := s.net.outq.filter fun o => s.grantable o && !s.bubble o
  let s1 := (List.range 9).foldl (fun (s : State) p => if held.any fun o => o.port == p then s.blocked p else s) s
  s1.net.unitq.foldl (fun (s : State) u => if s.sendsSched u.1 u.2.1 then s else s.flushUnits u.1 u.2.1) s1

/-- Round-robin key of output l. -/
def drrKey (o : OutCar) : Nat := 1024 * o.l + o.key

/-- Put a key into a rising list. -/
def insKey (k : Nat) : List Nat → List Nat
  | [] => [k]
  | x :: t => if k < x then k :: x :: t else if k = x then x :: t else x :: insKey k t

/-- The first carriage of each round-robin key, keys ascending. -/
def heads (cs : List OutCar) : List OutCar :=
  ((cs.map drrKey).foldl (fun l k => insKey k l) []).filterMap fun k => cs.find? fun o => drrKey o == k

/-- Deficit round robin (R23): the first head whose key has the deficit; with none, every key gains 8 KiB. `fuel` rounds. -/
def drrPick (d : List (Nat × Nat)) (hs : List OutCar) : Nat → List (Nat × Nat) × Option OutCar
  | 0 => (d, none)
  | fuel + 1 =>
    match hs.find? fun o => o.c.payload.length ≤ sget (fun _ => 0) d (drrKey o) with
    | some o => (d, some o)
    | none => drrPick (hs.foldl (fun d o => sset (fun _ => 0) d (drrKey o) (sget (fun _ => 0) d (drrKey o) + 8192)) d) hs fuel

/-- Grant carriage o: it leaves its buffer. -/
def State.grant (s : State) (o : OutCar) : State :=
  let s1 : State := { s with net := { s.net with outq := s.net.outq.erase o } }
  s1.sendOn o.l (cTenant o.c) o.c 0

/-- One grant of link l: priority sync, management, the rest by deficit round robin. -/
def State.unschedGrant (s0 : State) (l : Nat) : State :=
  let s := s0.pumpReins l
  let go := s.net.outq.filter fun o => o.l == l && s.grantable o && s.bubble o
  match go.find? fun o => cClass o.c == 2 with
  | some o => s.grant o
  | none => match go.find? fun o => cClass o.c == 3 with
    | some o => s.grant o
    | none =>
      let (d, o) := drrPick s.net.deficit (heads go) 2
      match o with
      | none => s
      | some o =>
        let k := drrKey o
        let more := (s.net.outq.filter fun x => drrKey x == k && x.cls < 2).length
        let left := if more ≤ 1 then 0 else sget (fun _ => 0) d k - o.c.payload.length
        ({ s with net := { s.net with deficit := sset (fun _ => 0) d k left } }).grant o

def execUnscheduledCarriageGrant (l : Link) (s : State) : Out := event s fun s => s.unschedGrant l

/-! ## Confirmation (R191, R192, R211) -/

/-- Indices, from 1, of an id in a list of contributors. -/
def idxOf (id : Nat) (cs : List Nat) : List Nat := ((List.range cs.length).filter fun k => cs.getD k 0 == id).map (· + 1)

/-- Contributor id is confirmed: downstream ACKs for the carriages sent on with it, each index once; a carriage with none left is forgotten. -/
def State.ackOnward (s : State) (id : Nat) : State :=
  let s1 := s.net.onward.foldl (fun (s : State) o =>
    if o.fwd || !o.contrib.contains id then s else (idxOf id o.contrib).foldl (fun (s : State) j => s.ackDown o.l o.t o.lsn j) s) s
  let next := (s1.net.onward.map fun o => if o.contrib.contains id then { o with acked := union o.acked [id] } else o).filter fun o =>
    !(o.contrib.all fun k => o.acked.contains k) || o.recalled
  { s1 with net := { s1.net with onward := next } }

/-- Remove the first item equal to x. -/
def State.dropHeld (s : State) (id : Nat) : State := { s with net := { s.net with held := s.net.held.filter fun a => a.id != id } }

/-- Carriage id is confirmed, or its outcome is known: what waited for it goes on. -/
def State.settle (s : State) (id : Nat) : State :=
  let s1 : State := { s with net := { s.net with vecs := s.net.vecs.filter fun v => v.id != id } }
  let s2 := (s1.ackOnward id).settleMarks id
  let mine := s2.net.held.filter fun a => a.id == id
  mine.foldl (fun (s : State) a => s.receiveAt a.c a.port a.id) (s2.dropHeld id)

/-- Settle a carriage whose vector is full. -/
def State.checkVec (s : State) (id : Nat) : State :=
  match s.net.vecs.find? fun v => v.id == id with
  | some v => if v.crcOk && v.missing.isEmpty then s.settle id else s
  | none => s

/-! ## Recall (R193, R194) -/

/-- Recall every carriage sent on with contributor id: in the EOC position where it is still being sent, else by name. -/
def State.recallOnward (s : State) (id : Nat) : State :=
  let s1 := s.net.onward.foldl (fun (s : State) o =>
    if !o.contrib.contains id || o.recalled then s
    else
      let x := s.sub o.l o.t
      let s1 := if s.t64 < x.busy && x.busyLsn = o.lsn then s.emit (.eoc o.l o.t true) else s.unit o.l o.t kRecall (fieldsOf [(0, o.lsn)])
      s1.sat .RTE_RECALL_SENT 0) s
  { s1 with net := { s1.net with onward := s1.net.onward.map fun o => if o.contrib.contains id then { o with recalled := true } else o } }

/-- The bits of carriage id are bad: what was derived from it is invalid, and it is recalled onward. -/
def State.invalidate (s : State) (id : Nat) : State :=
  let s1 : State := { s with net := { s.net with
    vecs := updWhere (fun v => v.id == id) (fun v => { v with crcOk := false }) s.net.vecs } }
  (s1.stale id).recallOnward id

/-- Rebuild a recalled carriage from its bytes as they are now: same place and SEQ, flags and CV renewed. -/
def State.rebuilt (s : State) (o : Onward) : Carriage :=
  let c := o.c
  let conf := (List.range o.contrib.length).foldl (fun n j => if s.unconfirmed (o.contrib.getD j 0) then n else n + 2 ^ j) 0
  mkCarriage { cls := 0, kind := cKind c, spec := o.contrib.any s.unconfirmed, dst := cDst c, src := cSrc c, tenant := cTenant c, yard := cYard c,
               maxis := cMaxis c, ygen := cYgen c, team := cTeam c, gen := cGen c, seq := cSeq c, dgen := cDgen c, cv := conf, ncon := o.contrib.length,
               flags := (tFlags c).or o.blob.flags } o.blob.data

/-- What stands in place of a lost carriage that was passed on: its header, zeros, POISON (R194). -/
def zeroCar (c : Carriage) : Carriage :=
  mkCarriage { cls := 0, kind := cKind c, spec := false, dst := cDst c, src := cSrc c, tenant := cTenant c, yard := cYard c, maxis := cMaxis c,
               ygen := cYgen c, team := cTeam c, gen := cGen c, seq := cSeq c, dgen := cDgen c,
               flags := (tFlags c).or { poison := true } } (List.replicate (64 * (cLen c + 1)) 0)

/-- Change the bits of received carriage id where it waits to be forwarded. -/
def State.mapFwd (s : State) (id : Nat) (f : Carriage → Carriage) : State :=
  { s with net := { s.net with outq := updWhere (fun o => o.cls == 2 && o.adv && o.key == id) (fun o => { o with c := f o.c }) s.net.outq } }

/-- Put a carriage into the retry buffer for a replay under its LSN. -/
def State.sendAgain (s : State) (l t lsn : Nat) (c : Carriage) : State :=
  let x := s.sub l t
  let c1 := setHop c lsn 0 (cDphase c) (cRev c) (cRdir c)
  let here := x.retry.any fun e => e.lsn == lsn
  let es := if here then updWhere (fun e => e.lsn == lsn) (fun e => { e with c := c1, replay := true, again := true }) x.retry
    else x.retry ++ [{ lsn := lsn, c := c1, t := s.now, replay := true, again := true }]
  s.setSub l t { x with retry := es }

/-- After new bytes of carriage id: every recalled carriage none of whose contributors is still bad goes out again under its LSN. -/
def State.resend (s : State) (id : Nat) (c : Carriage) : State :=
  let pass (o : Onward) : Carriage := if s.net.lostIds.contains id then zeroCar o.c else c
  let due (o : Onward) : Bool := o.recalled && o.contrib.contains id && !o.contrib.any s.idBad
  let s1 := (s.net.onward.filter due).foldl (fun (s : State) o => s.sendAgain o.l o.t o.lsn (if o.fwd then pass o else s.rebuilt o)) s
  let next := s1.net.onward.map fun o => if due o then { o with recalled := false, c := if o.fwd then pass o else s1.rebuilt o } else o
  { s1 with net := { s1.net with onward := next.filter fun o => o.contrib.any s1.unconfirmed } }

/-- Carriage id is lost: zeros and POISON stand in its place from now on (R108, R190, R194). -/
def State.loseCar (s : State) (id : Nat) : State :=
  let s0 : State := { s with net := { s.net with
    lostIds := union s.net.lostIds [id], arriving := s.net.arriving.filter (fun a => a.id != id), held := s.net.held.filter (fun a => a.id != id) } }
  let n := match s0.net.rx.find? fun r => r.id == id with
    | some r => r.c.payload.length
    | none => 8192
  let s1 := (s0.refresh id (lostBlob n)).mapFwd id zeroCar
  (s1.settle id).resend id (mkCarriage { cls := 0, kind := 0, dst := s.self, src := s.self, tenant := 0 } [])

/-! ## CARRIAGE_ARRIVE (R178, R181, R189) -/

/-- LSNs from a, n of them. -/
def lsns (a n : Nat) : List Nat := (List.range n).map fun k => (a + k) % 2048

/-- Send a NAK (R189). -/
def State.nak (s : State) (l t n reason : Nat) : State := (s.unit l t kNak (fieldsOf [(0, n), (2, reason)])).sat .RTE_RETRY_NAKS l

/-- The carriage's payload length is what LEN says. -/
def lenOk (c : Carriage) : Bool := c.payload.length == 64 * (cLen c + 1)

/-- Fenced source (R312). -/
def State.fenced (s : State) (ep : Nat) : Bool := s.net.fences.any fun f => f.ep == ep && decide (s.now < f.until_)

/-- A copy of the carriage stays here: DST, or a multicast on its axis (R181). -/
def State.forMe (s : State) (c : Carriage) : Bool := cDst c == s.self || cMaxis c != 0

/-- It goes on along its line. -/
def State.goesOn (s : State) (c : Carriage) : Bool := cDst c != s.self

/-- Rows 2 to 6 of Table 7.4; a multicast copy on the way is not held against DST's own number and generation (DESIGN CHOICE: log entry 32). -/
def State.rowOfCar (s : State) (l : Nat) (c : Carriage) : Nat :=
  if cDst c != s.self && cMaxis c != 0 then
    (if !kindOk (cKind c) (cClass c) || reservedSet c then 2
     else if !bitAt (s.rf .RTE_EP_LO_TENANT_MASK s.self) (cTenant c) then 5
     else if s.genStale c then 6 else 7)
  else s.acceptRow l c

/-- A scheduled DATA carriage enters the receive side at once, or takes the place of its earlier bits. -/
def State.rxPut (s : State) (l id : Nat) (c : Carriage) : State :=
  if s.net.rx.any fun r => r.id == id then { s with net := { s.net with rx := updWhere (fun r => r.id == id) (fun r => { r with c := c }) s.net.rx } }
  else { s with net := { s.net with rx := s.net.rx ++ [{ l := l, id := id, c := c }] } }

/-- New bits of carriage id: a copy that a RECV has not taken is replaced. -/
def State.rxFix (s : State) (id : Nat) (c : Carriage) : State :=
  { s with net := { s.net with rx := updWhere (fun r => r.id == id) (fun r => { r with c := c }) s.net.rx } }

/-- What happens to a scheduled carriage at its arrival: its vector opens, its data become usable, and it is forwarded in the same direction, but for one
of a fenced source (R312) and a mirror carriage (R302). -/
def State.classZero (s : State) (l id : Nat) (c : Carriage) (again : Bool) : State :=
  let t := cTenant c
  let heldIdx := (s.net.heldAcks.filter fun h => h.1 == l && h.2.1 == t && h.2.2.1 == cLsn c).map fun h => h.2.2.2
  let v : Vec := { id := id, l := l, t := t, lsn := cLsn c, crcOk := false, missing := (openContribs c).filter (fun j => !heldIdx.contains j), mine := s.forMe c }
  let s1 : State := { s with net := { s.net with
    vecs := (s.net.vecs.filter fun x => x.id != id) ++ [v]
    heldAcks := s.net.heldAcks.filter fun h => !(h.1 == l && h.2.1 == t && h.2.2.1 == cLsn c) } }
  let good := s1.forMe c && cKind c == 0 && s1.rowOfCar l c == 7 && !s1.fenced (cSrc c)
  let s2 := if good then (if again then s1.rxFix id c else s1.rxPut l id c).pumpRecv else s1
  let on := s2.goesOn c && (cMaxis c == 0 || cMaxis c == axisOf l + 1) && !s2.fenced (cSrc c) && cKind c != 13
  let s3 : State := if on && !again then
      { s2 with net := { s2.net with outq := s2.net.outq ++ [{ l := l ^^^ 1, cls := 2, port := l, adv := true, key := id, c := c }] } }
    else s2
  if again then ((s3.mapFwd id fun _ => c).refresh id (s3.carBlob id c)).resend id c else s3

/-- A received carriage that passed HCHK: LSN order, then the verdict is awaited. -/
def State.arrive (s : State) (l : Nat) (c : Carriage) : State :=
  let t := cTenant c
  let x := s.sub l t
  let n := cLsn c
  let d := (n + 2048 - x.expect) % 2048
  let bad? := s.net.vecs.find? fun v => v.l == l && v.t == t && v.lsn == n && (!v.crcOk || (cRetry c = 0 && !v.missing.isEmpty)) && !(s.net.arriving.any fun a => a.id == v.id)
  if d < 1024 then
    let skipped := lsns x.expect d
    let s1 := skipped.foldl (fun (s : State) k => s.nak l t k 0) s
    let s2 := s1.setSub l t { s1.sub l t with expect := (n + 1) % 2048, missing := x.missing ++ skipped ++ [n], dirty := true }
    let id := s2.net.nextId
    let s3 : State := { s2 with net := { s2.net with nextId := id + 1, arriving := s2.net.arriving ++ [{ id := id, l := l, t := t, c := c, at_ := s.now }] } }
    let s4 := s3.noteTraffic c
    if cClass c = 0 then s4.classZero l id c false else s4
  else match bad? with
    | some v =>
      let s0 := if v.crcOk then s.invalidate v.id else s
      let s1 : State := { s0 with net := { s0.net with arriving := s0.net.arriving ++ [{ id := v.id, l := l, t := t, c := c, at_ := s.now }] } }
      if cClass c = 0 then s1.classZero l v.id c true else s1
    | none =>
      if x.missing.contains n && !(s.net.arriving.any fun a => a.l == l && a.t == t && cLsn a.c == n) then
        let id := s.net.nextId
        let late := cClass c == 0 && x.late.contains n
        let s1 : State := { s with net := { s.net with nextId := id + 1, arriving := s.net.arriving ++ [{ id := id, l := l, t := t, c := c, at_ := s.now, late := late }] } }
        if cClass c = 0 && !late then s1.classZero l id c false else s1
      else s.setSub l t { x with dirty := true }

/-- CARRIAGE_ARRIVE: a carriage has come in on link l. A header that fails HCHK is discarded (R178). -/
def State.carArrive (s : State) (l : Nat) (c : Carriage) : State :=
  if !s.live l || (s.subGroups l (cTenant c)).isEmpty || cHchk c != hchk (c.hdr.toNat % 2 ^ 120) then s else s.arrive l c

def execCarriageArrive (l : Link) (c : Carriage) (s : State) : Out := event s fun s => s.carArrive l c

/-! ## CRC_VERDICT (R188–R190, R193, Table 7.4) -/

/-- LSN n of the sub-link has an outcome. -/
def State.outcome (s : State) (l t n : Nat) : State :=
  let x := s.sub l t
  s.setSub l t { x with missing := x.missing.filter (fun k => k != n), late := x.late.filter (fun k => k != n), dirty := true }

/-- Drop a carriage under row r of Table 7.4; row 8 stands for the fence. -/
def State.dropRow (s : State) (l : Nat) (c : Carriage) (r : Nat) : State :=
  if r = 2 then s.sat .RTE_DROPS_MALFORMED 0
  else if r = 3 then s.sat .RTE_DROPS_MISROUTE 0
  else if r = 4 then (s.sat .RTE_DROPS_STALE 0).sat .RTE_EP_HI_STALE (cSrc c)
  else if r = 5 then s.refuse l c
  else s.sat .RTE_DROPS_STALE 0

/-- The copy of a multicast that stays at a chip on its line (R181). -/
def State.copyHere (s : State) (a : Arriving) : State :=
  if s.rowOfCar a.l a.c = 7 then
    State.touchFor { s with net := { s.net with accepted := s.net.accepted ++ [{ port := a.l, id := a.id, c := a.c }] } } a.c
  else s.dropRow a.l a.c (s.rowOfCar a.l a.c)

/-- A good unscheduled carriage: to this chip's receivers, or on (R179–R182). One of a fenced source goes nowhere (R312). -/
def State.routeOn (s : State) (a : Arriving) : State :=
  let c := a.c
  if s.fenced (cSrc c) then s.dropRow a.l c 6
  else if cDst c = s.self && (cMaxis c != 0 || s.routeTarget c = s.self) then s.receiveAt c a.l a.id
  else if cMaxis c != 0 then (s.copyHere a).inject (setHop c 0 0 (cDphase c) false (dirOf (a.l ^^^ 1))) a.l (axisOf a.l)
  else s.inject c a.l (axisOf a.l)

/-- A good scheduled carriage. DATA stays on the receive side; the kinds that the router itself delivers wait for their confirmation. Transit of a fenced
source counts as dropped (R312), a mirror carriage for another chip as misrouted (R302). -/
def State.schedGood (s : State) (a : Arriving) : State :=
  let c := a.c
  let s1 : State := { s with net := { s.net with vecs := updWhere (fun v => v.id == a.id) (fun v => { v with crcOk := true }) s.net.vecs } }
  let row := if s1.fenced (cSrc c) then 8 else s1.rowOfCar a.l c
  let s2 := if !s1.forMe c then (if row = 8 then s1.dropRow a.l c 8 else if cKind c = 13 then s1.dropRow a.l c 3 else s1)
    else if row != 7 then
      let d := s1.dropRow a.l c row
      ({ d with net := { d.net with rx := d.net.rx.filter fun r => r.id != a.id } } : State)
    else if cKind c = 0 then s1.touchFor c
    else { s1 with net := { s1.net with held := s1.net.held ++ [{ port := a.l, id := a.id, c := c }] } }
  s2.checkVec a.id

/-- A bad carriage, or a recalled one (which gets no NAK). With RETRY 3 it is lost (R190); one for this chip that its stage's end has cut off was
counted then. -/
def State.verdictBad (s : State) (a : Arriving) : State :=
  let c := a.c
  if a.late then
    (if cRetry c = 3 then
      ((if s.forMe c then s else s.sat .RTE_RETRY_LOST a.l).fault 16 (s.carOrigin a.l c)).outcome a.l a.t (cLsn c)
     else s.nak a.l a.t (cLsn c) 0)
  else if !a.recalled && cRetry c = 3 then
    let s1 := ((s.sat .RTE_RETRY_LOST a.l).fault 16 (s.carOrigin a.l c)).outcome a.l a.t (cLsn c)
    if cClass c = 0 then s1.loseCar a.id else s1
  else
    let s1 := if a.recalled then s else s.nak a.l a.t (cLsn c) (if lenOk c then 0 else 1)
    if cClass c = 0 then s1.invalidate a.id else s1

/-- The oldest carriage of link l whose verdict is due. -/
def State.verdict (s : State) (l : Nat) : State :=
  match s.net.arriving.find? fun a => a.l == l && decide (a.at_ + 30 ≤ s.now) with
  | none => s
  | some a =>
    let s1 : State := { s with net := { s.net with arriving := s.net.arriving.filter fun x => x.id != a.id } }
    if a.recalled || !lenOk a.c || !crcGood a.c then s1.verdictBad a
    else
      let s2 := s1.outcome l a.t (cLsn a.c)
      if a.late then s2 else if cClass a.c = 0 then s2.schedGood a else s2.routeOn a

def execCrcVerdict (l : Link) (s : State) : Out := event s fun s => s.verdict l

end Sys2Proof.Machine
end

