-- ==== Sys2Proof/Machine/Cycle.lean ====
section
/-! DEFINITION. What happens when nothing is commanded: a core cycle (R31, R203, R214). -/

namespace Sys2Proof.Machine

/-- Time passes: one core cycle, with the reference edge that falls in it; with the core domain off, one reference period (R31). -/
def cycle (s : State) : State :=
  if !s.coreOn then refEdge { s with time := { s.time with sub := 0 } }
  else if s.time.sub + 5 < 64 then { s with time := { s.time with sub := nextSub s.time.sub } }
  else refEdge { s with time := { s.time with sub := nextSub s.time.sub } }

/-- Nothing is commanded: time passes, and with it a cycle of the router (the model's own idle step, log entry 1). -/
def idle (s : State) : State := cycle (if s.coreOn then s.routerCycle.heldRuns.movesDone else s)

end Sys2Proof.Machine
end

