-- ==== Sys2Proof/Machine/Replay.lean ====
section
/-! DEFINITION. Suspects and their replay, aborts that HALTs bring, and the marks a received HALT leaves (12.4, 12.5). -/

namespace Sys2Proof.Machine

/-! ## Replayable instances (R330) -/

/-- The instance may be run again from its start: no groom job of it has written (R158), no destination that overlaps its source was written through a
hitch port, and no epoch decision is recorded. -/
def State.replayable (s : State) (i : Inst) : Bool :=
  !(i.groomed && i.op != 0x32) && i.decision == 0 && !(i.wrote && !i.epoch && i.cmd.isSome && overlap (s.destPieces i.entry) (s.srcPieces i.entry))

/-- The instance as at its start, in degraded mode, as a replay; an arrival made stays made. -/
def Inst.again (i : Inst) (now : Nat) : Inst :=
  { i with
    st := .running
    t0 := now
    degraded := true
    replay := true
    sat := 0
    flush := 0
    amax := 0
    teamAmax := none
    own := {}
    teamFlags := none
    withPoison := []
    withAbsent := []
    staged := []
    wrote := false
    bad := false
    skip := none
    deg := []
    levels := []
    sends := []
    folds := []
    hold := false
    kids := []
    sentUp := false
    outDone := 0
    phase := 0
    norm := [] }

/-- What team t still has in the array and the groom unit is dropped. -/
def State.dropWork (s : State) (t : Nat) : State :=
  let s1 : State := { s with
    arr := { s.arr with
      cur := s.arr.cur.map fun c => if c.op.team = t then { c with discard := true } else c }
    hitch := s.hitch.dropTeam t
    groom := { s.groom with queue := s.groom.queue.filter fun r => r.team != t } }
  match s1.groom.job with
  | some j => if j.req.team = t then s1.groomCut j.req.y else s1
  | none => s1

/-- Run instance i again from its start in degraded mode, its command's timer started afresh (R330, R331, R106). -/
def State.rerun (s : State) (i : Inst) : State :=
  let s1 := (s.endSegs i.team).dropWork i.team
  let j := i.again s1.now
  let s2 := s1.setInst i fun _ => j
  let s3 : State := match i.cmd with
    | some (q, id) => { s2 with qs := { s2.qs with cmds := updWhere (fun c => c.q == q && c.id == id) (fun c => { c with t0 := s1.now }) s2.qs.cmds } }
    | none => s2
  s3.degRun j

/-! ## HALT (R231, R326, R327, R331) -/

/-- A unit is discarded: counted and latched (R210, R326). -/
def State.badUnit (s : State) (l : Nat) : State := (s.sat .LNK_EVENTS_BAD_UNITS l).fault 17 (.link l)

/-- Endpoint ep lies inside the box of team t (R85). -/
def State.inBox (s : State) (t ep : Nat) : Bool :=
  let r := s.team t
  [0, 1, 2].all fun a => decide ((s.coord ep a + s.extent a - axisVal r.origin a) % max 1 (s.extent a) < axisVal r.ext a)

/-- A HALT HANG reaches a member (R331). A BARRIER is no suspect: its wait ends by R254. -/
def State.hangHalt (s : State) (t : Nat) : State :=
  if (s.yards.any fun y => y.2.suspects.any fun x => x.inst.team == t) then s
  else match s.running t with
    | some i =>
      if i.op = 0x28 then s
      else if s.replayable i then s.rerun i
      else s.abortWithHalt t 3
    | none => s

/-- Apply a team HALT (R327). -/
def State.applyHalt (s : State) (t gen reason ep : Nat) : State :=
  if s.rf .TT_TEAM_STATE t != 1 || s.rf .TT_TEAM_GEN t != gen || !s.inBox t ep then s
  else if reason = 7 then s.hangHalt t
  else s.abortTeam t 2

/-- The unit is a HALT whose check holds. -/
def haltOk (v : Slot) : Bool := slotAt v 0 1 == kHalt && slotOk v

/-- Team reasons and link reasons of Table 8.7. -/
def teamReason (r : Nat) : Bool := [1, 2, 3, 4, 7].contains r
def linkReason (r : Nat) : Bool := [3, 4, 5, 6].contains r

/-- A team HALT on link l. -/
def State.halt (s : State) (l : Nat) (v : Slot) : State :=
  let t := slotAt v 1 1
  let g := slotAt v 2 1
  let ep := slotAt v 4 2
  if !haltOk v || !teamReason (slotAt v 3 1) then s.badUnit l
  else
    let s1 := if s.haltSeen t g ep then s else s.haltAll l t g (slotAt v 3 1) ep
    (s1.noteHalt t g ep).applyHalt t g (slotAt v 3 1) ep

/-- HALT_RECEIVE: a HALT that names a team slot. -/
def execHaltReceive (l : Link) (slot : Slot) (s : State) : Out :=
  event s fun s => if s.live l.val && slotAt slot 1 1 != 0xFF then s.halt l.val slot else s

end Sys2Proof.Machine
end

