-- ==== Sys2Proof/Machine/LinkUnits.lean ====
section
/-! DEFINITION. Link control units: acknowledgements, NAKs and replays, RECALL, REIN, link-level HALT, MARK columns (7.4, 7.5, 8.2, 8.6). -/

namespace Sys2Proof.Machine

/-! ## Upstream ACK (R188) -/

/-- Free buffers of class c (0: four, 1: two) that link l's port has for tenant t (R21, R180). -/
def State.freeBufs (s : State) (l t c : Nat) : Nat :=
  let queued := s.net.outq.filter fun o => o.port == l && cTenant o.c == t && o.cls == c
  let coming := s.net.arriving.filter fun a => a.l == l && a.t == t && cClass a.c != 0 && b2n (cDphase a.c) == c
  (if c = 0 then 4 else 2) - (queued.length + coming.length)

/-- The highest LSN up to which every carriage has an outcome. -/
def SubLink.ackLsn (x : SubLink) : Nat := (x.missing.headD x.expect + 2047) % 2048

/-- The upstream ACK of sub-link (l, t). -/
def State.ackUp (s : State) (l t : Nat) : State :=
  let x := s.sub l t
  let n := x.ackLsn
  let s1 := s.unit l t kAck (fieldsOf [(0, 0), (1, n), (3, s.freeBufs l t 0 + 8 * s.freeBufs l t 1)])
  s1.setSub l t { x with lastAck := n, ackAt := s.now, dirty := !x.missing.isEmpty }

/-- ACK_UPSTREAM_SEND: something received is not yet acknowledged. REIN units leave first. -/
def execAckUpstreamSend (l : Link) (t : Tenant) (s : State) : Out :=
  event s fun s =>
    if s.live l.val && (s.sub l.val t.val).dirty && !s.safe then (s.pumpReins l.val).ackUp l.val t.val else s

/-- A unit with K-code k whose check holds. -/
def unitOk (k : Nat) (v : Slot) : Bool := slotAt v 0 1 == k && slotOk v

/-- LSN a lies at or before n, half the number range back at most. -/
def lsnLe (a n : Nat) : Bool := decide ((n + 2048 - a) % 2048 < 1024)

/-- Count acknowledged mirror carriages (R303). -/
def State.ackMirror (s : State) (es : List RetryEnt) : State :=
  let m := es.filter fun e => 0 < e.mirror
  if m.isEmpty then s
  else
    let bytes := m.foldl (fun n e => n + e.mirror) 0
    { s.inc .GRM_MIR_OUT_ACKED 0 bytes with groom := { s.groom with mirOpen := s.groom.mirOpen - m.length } }

/-- Carriages of degraded OFFLOADs to a neighbour are acknowledged: parts of them are done (R170). -/
def State.ackMoves (s : State) (es : List RetryEnt) : State :=
  (es.filter fun e => cKind e.c == 10 && cSrc e.c == s.self).foldl (fun (s : State) e =>
    s.updInst (fun i => i.team == cTeam e.c && i.gen == cGen e.c && i.st == .running && i.degraded && i.op == 0x48) fun i =>
      { i with outDone := i.outDone + 1 }) s

/-- An upstream ACK up to LSN n: the retry buffer is released, but for a recalled carriage that has still to go out again. -/
def State.ackedUp (s : State) (l t n f0 f1 : Nat) : State :=
  let x := s.sub l t
  let gone (e : RetryEnt) : Bool := lsnLe e.lsn n && !(e.again && e.replay)
  let s1 := (s.ackMirror (x.retry.filter gone)).ackMoves (x.retry.filter gone)
  (s1.setSub l t { x with retry := x.retry.filter fun e => !gone e, free0 := f0, free1 := f1 }).movesDone

/-- ACK_UPSTREAM_RECEIVE. -/
def execAckUpstreamReceive (l : Link) (t : Tenant) (slot : Slot) (s : State) : Out :=
  event s fun s =>
    if !s.live l.val then s
    else if !unitOk kAck slot || slotAt slot 1 1 != 0 then s.badUnit l.val
    else s.ackedUp l.val t.val (slotAt slot 2 2 % 2048) (slotAt slot 4 1 % 8) (slotAt slot 4 1 / 8 % 4)

/-! ## Downstream ACK (R191, R211) -/

/-- The carriage passed on with these bits unconfirmed hears of contributor j too. -/
def State.ackPass (s : State) (id j : Nat) : State :=
  s.net.onward.foldl (fun (s : State) o => if o.fwd && o.contrib.contains id then s.ackDown o.l o.t o.lsn j else s) s

/-- A downstream ACK for contributor j of LSN n: applied, or held for a carriage that has not yet ended, or that comes again because its bits were bad
or recalled (R191). -/
def State.ackedDown (s : State) (l t n j : Nat) : State :=
  let hold : State := if s.net.heldAcks.contains (l, t, n, j) then s
    else { s with net := { s.net with heldAcks := s.net.heldAcks ++ [(l, t, n, j)] } }
  match s.net.vecs.find? fun v => v.l == l && v.t == t && v.lsn == n with
  | none => if (n + 2048 - (s.sub l t).expect) % 2048 < 1024 || (s.sub l t).missing.contains n then hold else s
  | some v =>
    if s.idBad v.id then hold
    else if !v.missing.contains j then s
    else
      let s1 : State := { s with net := { s.net with
        vecs := updWhere (fun w => w.id == v.id) (fun w => { w with missing := w.missing.filter fun k => k != j }) s.net.vecs } }
      (s1.ackPass v.id j).checkVec v.id

/-- ACK_DOWNSTREAM_RECEIVE. -/
def execAckDownstreamReceive (l : Link) (t : Tenant) (slot : Slot) (s : State) : Out :=
  event s fun s =>
    if !s.live l.val then s
    else if !unitOk kAck slot || slotAt slot 1 1 != 1 then s.badUnit l.val
    else s.ackedDown l.val t.val (slotAt slot 2 2 % 2048) (slotAt slot 4 1)

/-- ACK_DOWNSTREAM_REPEAT: the second copy of the oldest downstream ACK that is due. -/
def State.ackAgain (s : State) (l t : Nat) : State :=
  let x := s.sub l t
  match x.repeats with
  | (n, j, at_) :: rest => if at_ ≤ s.now then (s.unit l t kAck (fieldsOf [(0, 1), (1, n), (3, j)])).setSub l t { x with repeats := rest } else s
  | [] => s

def execAckDownstreamRepeat (l : Link) (t : Tenant) (s : State) : Out :=
  event s fun s => if s.live l.val && !s.safe then s.ackAgain l.val t.val else s

/-! ## NAK and replay (R189, R190) -/

/-- Schedule the replay of LSN n; a recalled carriage whose bits went astray is rebuilt. -/
def State.naked (s : State) (l t n : Nat) : State :=
  let x := s.sub l t
  if x.retry.any fun e => e.lsn == n then
    s.setSub l t { x with retry := updWhere (fun e => e.lsn == n) (fun e => { e with replay := true }) x.retry }
  else s

/-- NAK_RECEIVE. -/
def execNakReceive (l : Link) (t : Tenant) (slot : Slot) (s : State) : Out :=
  event s fun s =>
    if !s.live l.val then s
    else if !unitOk kNak slot then s.badUnit l.val
    else s.naked l.val t.val (slotAt slot 1 2 % 2048)

/-- REPLAY_TIMEOUT: 2 µs after its EOC neither ACK nor NAK has covered the LSN. -/
def execReplayTimeout (l : Link) (t : Tenant) (lsn : BitVec 11) (s : State) : Out :=
  event s fun s =>
    if (s.sub l.val t.val).retry.any fun e => e.lsn == lsn.toNat && decide (e.t + 2000 ≤ s.now) then s.naked l.val t.val lsn.toNat else s

/-- Send the oldest scheduled replay: same LSN, RETRY one higher, at most 3. A recalled carriage goes out again with the RETRY it had. -/
def State.sendReplay (s : State) (l t : Nat) : State :=
  let x := s.sub l t
  match x.retry.find? fun e => e.replay with
  | none => s
  | some e =>
    let r := if e.again then e.retry else min 3 (e.retry + 1)
    let c := setHop e.c e.lsn r (cDphase e.c) (cRev e.c) (cRdir e.c)
    let d := s.carTime l t c.payload.length
    let e1 : RetryEnt := { e with c := c, retry := r, replay := false, again := false, t := (s.t64 + d + 63) / 64 }
    let s1 := s.setSub l t { x with
      retry := updWhere (fun y => y.lsn == e.lsn) (fun _ => e1) x.retry
      busy := s.t64 + d
      busySched := cClass c == 0
      busyLsn := e.lsn }
    ((s1.emit (.carriage l t c)).trace (6 + l) (carTrace c)).sat .RTE_RETRY_REPLAYS l (if e.again then 0 else 1)

/-- REPLAY_SEND: the sub-link sends nothing now, and the stage is not in its guard (R50). -/
def execReplaySend (l : Link) (t : Tenant) (s : State) : Out :=
  event s fun s => if s.subFree l.val t.val && !s.inGuard then s.sendReplay l.val t.val else s

/-! ## RECALL (R193) -/

/-- LSN n has no outcome any more: it comes again. -/
def State.lsnOpen (s : State) (l t n : Nat) : State :=
  let x := s.sub l t
  if x.missing.contains n then s
  else
    let back (k : Nat) : Nat := (k + 2048 - x.expect) % 2048
    let m := x.missing
    s.setSub l t { x with missing := m.filter (fun k => back k < back n) ++ [n] ++ m.filter (fun k => !(back k < back n)) }

/-- A RECALL by name. -/
def State.recallName (s : State) (l t n : Nat) : State :=
  let s1 := s.sat .RTE_RECALL_RECEIVED 0
  match s1.net.vecs.find? fun v => v.l == l && v.t == t && v.lsn == n with
  | none => s1
  | some v =>
    let s2 : State := { s1 with net := { s1.net with
      arriving := s1.net.arriving.filter fun a => a.id != v.id
      held := s1.net.held.filter fun a => a.id != v.id } }
    (s2.lsnOpen l t n).invalidate v.id

/-- A RECALL in the EOC position: the carriage that ends now is recalled; where its header was lost it takes its LSN with it. -/
def State.recallEoc (s : State) (l t : Nat) : State :=
  let s1 := s.sat .RTE_RECALL_RECEIVED 0
  match s1.net.arriving.reverse.find? fun a => a.l == l && a.t == t && a.at_ == s.now && !a.recalled with
  | some a => { s1 with net := { s1.net with arriving := updWhere (fun x => x.id == a.id) (fun x => { x with recalled := true }) s1.net.arriving } }
  | none =>
    let x := s1.sub l t
    s1.setSub l t { x with expect := (x.expect + 1) % 2048, missing := x.missing ++ [x.expect], dirty := true }

/-- RECALL_RECEIVE. -/
def execRecallReceive (l : Link) (t : Tenant) (slot : Option Slot) (s : State) : Out :=
  event s fun s =>
    if !s.live l.val || (s.subGroups l.val t.val).isEmpty then s
    else match slot with
      | none => s.recallEoc l.val t.val
      | some v => if unitOk kRecall v then s.recallName l.val t.val (slotAt v 1 2 % 2048) else s.badUnit l.val

/-! ## REIN (R185) -/

/-- A REIN unit's record (Table 8.3). -/
def reinOf (v : Slot) : Rein :=
  { dst := slotAt v 1 2, src := slotAt v 3 2, tenant := slotAt v 5 1 % 4, blocked := bitAt (slotAt v 5 1) 2, gen := slotAt v 6 1, credits := slotAt v 7 1 }

/-- REIN_RECEIVE: credits of this chip return to their window, others are merged and sent on. -/
def execReinReceive (l : Link) (slot : Slot) (s : State) : Out :=
  event s fun s =>
    if !s.live l.val then s
    else if !unitOk kRein slot then s.badUnit l.val
    else
      let r := reinOf slot
      if r.dst = s.self then s.reinHere r else nat6.foldl (fun (s : State) k => s.pumpReins k) (s.sendRein r)

/-! ## Link-level HALT (R231, R232) -/

/-- A link-level HALT on link l by its reason (Table 8.7). -/
def State.linkHalt (s : State) (l reason : Nat) : State :=
  let x := s.link l
  if reason = 5 then s.leave l 10
  else if reason = 6 then s.setLink l { x with attribHold := true }
  else s.setLink l { x with attrib := s.now + 100000000 }

/-- LINK_HALT_RECEIVE: a HALT with team slot 0xFF, to an end in ACTIVE or in a step. -/
def execLinkHaltReceive (l : Link) (slot : Slot) (s : State) : Out :=
  event s fun s =>
    if !(s.live l.val || s.linkSt l.val == 7) || slotAt slot 1 1 != 0xFF then s
    else if !haltOk slot || !linkReason (slotAt slot 3 1) then s.badUnit l.val
    else s.linkHalt l.val (slotAt slot 3 1)

/-- ATTRIBUTION_PERIOD_END: the 100 ms are over. -/
def execAttributionPeriodEnd (l : Link) (s : State) : Out :=
  event s fun s =>
    let x := s.link l.val
    if x.attrib != 0 && x.attrib ≤ s.now then s.setLink l.val { x with attrib := 0 } else s

end Sys2Proof.Machine
end

