-- ==== Sys2Proof/Machine/Fibre.lean ====
section
/-! DEFINITION. Fibre groups: lasers, open-fibre control, light, losses and their attribution, leaving ACTIVE for DARK or a quick retrain (8.4–8.6). -/

namespace Sys2Proof.Machine

/-! ## Groups -/

def State.group (s : State) (l g : Nat) : GroupRec := sget (fun _ => {}) (s.link l).groups g
def State.setGroup (s : State) (l g : Nat) (x : GroupRec) : State :=
  s.setLink l { s.link l with groups := sset (fun _ => {}) (s.link l).groups g x }

def State.accessible (s : State) (l g : Nat) : Bool := bitAt (s.rf .LNK_FIBRE_ACCESSIBLE l) g
def State.lightAt (s : State) (l g : Nat) : Bool := bitAt (s.rf .LNK_FIBRE_LIGHT l) g
def State.laserAt (s : State) (l g : Nat) : Bool := bitAt (s.rf .LNK_FIBRE_LASER_ON l) g
def State.faultAt (s : State) (l g : Nat) : Bool := bitAt (s.rf .LNK_FIBRE_LASER_FAULT l) g

/-- A number with bit g set or cleared. -/
def putBit (n g : Nat) (b : Bool) : Nat := if bitAt n g == b then n else if b then n + 2 ^ g else n - 2 ^ g

/-- A mask of the groups that pass the test. -/
def maskOf (p : Nat → Bool) : Nat := (nat4.filter p).foldl (fun m g => m + 2 ^ g) 0

/-- Turn a group's laser on or off. -/
def State.laser (s : State) (l g : Nat) (b : Bool) : State :=
  if s.laserAt l g = b then s
  else
    let m := putBit (s.rf .LNK_FIBRE_LASER_ON l) g b
    (s.setf .LNK_FIBRE_LASER_ON l m).emit (.lasers l m)

/-- Its laser is lit for good, not for a probe (Table 8.6, DARK). -/
def State.lit (s : State) (l g : Nat) : Bool :=
  s.laserAt l g && (!s.accessible l g || (s.group l g).st == .lit || (s.group l g).st == .litWait)

/-- Groups with light whose own laser is lit. -/
def State.litMask (s : State) (l : Nat) : Nat := maskOf fun g => s.lightAt l g && s.lit l g

/-- The block drives lasers: not in Off, not in the safe state for an accessible group (R222, Table 8.5). -/
def State.laserAllowed (s : State) (l g : Nat) : Bool :=
  s.linkSt l != 0 && s.rf .PWR_STATE_CUR != 3 && !s.faultAt l g && !(s.accessible l g && s.safe)

/-- A link is enabled: enclosed lasers on, accessible groups from OFF to PROBE with a first pulse. Fault returns are taken as released (DESIGN
CHOICE: log entry 36). -/
def State.startFibre (s : State) (l : Nat) : State :=
  nat4.foldl (fun (s : State) g =>
    let x := s.group l g
    if !s.laserAllowed l g then s
    else if s.accessible l g then
      (if x.st == .off then (s.setGroup l g { x with st := .probe, t := s.now }).laser l g true else s)
    else s.laser l g true) (s.setf .LNK_FIBRE_LASER_FAULT l 0)

/-! ## Transitions -/

/-- Bridle loops stop in DISABLED: every ring's state is off, its code kept. -/
def State.ringsOff (s : State) (l : Nat) : State :=
  let s1 := (List.range 128).foldl (fun (s : State) k => s.setf .LNK_RING_STATE (128 * l + k) 0) s
  s1.setLink l { s1.link l with rings := [] }

/-- Change a link's record. -/
def State.updLink (s : State) (l : Nat) (f : LinkRec → LinkRec) : State := s.setLink l (f (s.link l))

/-- The link runs at a rung: at a change every lane's DFE taps are set to zero (R217). -/
def State.setRung (s : State) (l rung : Nat) : State :=
  if s.rf .LNK_RUNG_RUNG l = rung then s else (s.setf .LNK_RUNG_RUNG l rung).updLink l fun x => { x with dfe := [] }

/-- Enter DARK: Walk, no groups in use, the cap of R226 and R228 forgotten. -/
def State.toDark (s : State) (l : Nat) : State :=
  (((s.leave l 1).setRung l 0).setfs [(.LNK_RUNG_CAP, l, 0), (.LNK_RUNG_GROUPS, l, 0)]).updLink l fun x =>
    { x with lowCap := 3, step := false, stepAt := none, asked := false }

/-- Fail training: the cause, then DARK. -/
def State.failDark (s : State) (l why : Nat) : State := (s.setf .LNK_STATE_LAST_FAIL l why).toDark l

/-- Unlock every lane. -/
def State.unlock (s : State) (l : Nat) : State :=
  (List.range 64).foldl (fun (s : State) k => s.setf .LNK_LANE_LOCK (64 * l + k) 0) (s.updLink l fun x => { x with locked := 0 })

/-- Start LOCK at a rung with groups `keep` (Table 8.6). -/
def State.toLock (s : State) (l rung keep : Nat) (step : Bool) : State :=
  (((s.leave l 2).unlock l).setRung l rung).updLink l fun x => { x with keep := keep, target := rung, step := step }

/-- A quick retrain at a rung with groups `keep` (R227–R229). -/
def State.quick (s : State) (l rung keep why : Nat) : State :=
  (((((((s.sat .LNK_EVENTS_QUICK l).leave l 9).unlock l).setRung l rung).setfs
    [(.LNK_STATE_LAST_FAIL, l, why), (.LNK_RUNG_GROUPS, l, keep)]).setfs
    [(.SYN_LINK_DELAY_VALID, l, 0), (.SYN_LINK_OFFSET_VALID, l, 0)])).updLink l fun x =>
      { x with keep := keep, target := rung, step := false, stepAt := none, asked := false, part := 0, rtAsked := 0, rtGot := 0, rtSum := 0 }

/-- A link in service or in a quick retrain or step: its groups in use are those of LNK_RUNG. -/
def inService (st : Nat) : Bool := st == 6 || st == 7 || st == 9

/-- Group g is lost to the link for cause `why`: R227 in service, one candidate less in training. -/
def State.dropGroup (s : State) (l g why : Nat) : State :=
  let st := s.linkSt l
  if inService st then
    let u := s.rf .LNK_RUNG_GROUPS l
    if !bitAt u g then s
    else
      let rest := putBit u g false
      if rest = 0 then s.failDark l why
      else if st = 9 then ((s.setf .LNK_RUNG_GROUPS l rest).setf .LNK_STATE_LAST_FAIL l why).updLink l fun x => { x with keep := rest }
      else s.quick l (s.rf .LNK_RUNG_RUNG l) rest why
  else if 2 ≤ st && st ≤ 8 && bitAt (s.link l).keep g then
    let rest := putBit (s.link l).keep g false
    if rest = 0 then s.failDark l why else s.updLink l fun x => { x with keep := rest, prevGroups := putBit x.prevGroups g false }
  else s

/-! ## Losses (R232) -/

/-- A loss on the link is attributed now. -/
def State.attributed (s : State) (l : Nat) : Bool :=
  s.linkSt l == 0 || s.linkSt l == 10 || (s.link l).attribHold || decide (s.now < (s.link l).attrib) ||
    s.masked (.link l) 1

/-- Count a loss of group g where the link used it, or is in REAIM or DISABLED. Inside a shadow window of the link it leaves a masked record (R325). -/
def State.loss (s : State) (l g : Nat) : State :=
  let used := bitAt (s.rf .LNK_RUNG_GROUPS l) g || s.linkSt l == 0 || s.linkSt l == 10
  if !used then s
  else
    let b := if s.accessible l g then 1 else 12
    if s.attributed l then
      let s1 := s.sat .LNK_EVENTS_LOSS_ATTRIB l
      if s.masked (.link l) b then s1.latch b (.link l) else s1
    else (s.sat .LNK_EVENTS_LOSS_UNATTRIB l).fault b (.link l)

/-! ## Light -/

/-- Received light as the always-on comparators see it. -/
def State.setPresent (s : State) (l g : Nat) (b : Bool) : State :=
  s.setf .AON_LIGHT_PRESENT 0 (putBit (s.rf .AON_LIGHT_PRESENT) (4 * l + g) b)

/-- Light is there: it rises, or is still there later. Open-fibre control goes on (Table 8.5, R223). -/
def State.openFibre (s : State) (l g : Nat) : State :=
  let x := s.group l g
  if !s.accessible l g || !s.laserAllowed l g then s
  else match x.st with
    | .probe =>
      if x.lightT + 100000 ≤ s.now then
        (if s.laserAt l g then s.setGroup l g { x with st := .lit, t := s.now }
         else (s.setGroup l g { x with st := .litWait, t := s.now }).laser l g true)
      else s
    | _ => s

/-- Light rises: since when. Return light ends the wait of a group lit by a probe. -/
def State.rise (s : State) (l g : Nat) : State :=
  if s.lightAt l g then s
  else
    let x := s.group l g
    (s.setf .LNK_FIBRE_LIGHT l (putBit (s.rf .LNK_FIBRE_LIGHT l) g true)).setGroup l g
      { x with light := true, lightT := s.now, st := if x.st == .litWait then .lit else x.st }

/-- DARK goes to LOCK at Walk once a group has light with its own laser lit; more groups may join while the link is in that LOCK, in a
bring-up from REAIM only those that it may admit (R227). -/
def State.darkToLock (s : State) (l : Nat) : State :=
  let m := s.litMask l
  if s.safe || m = 0 then s
  else if s.linkSt l = 1 then s.toLock l 0 m false
  else if s.linkSt l = 2 && !(s.link l).step then s.updLink l fun x => { x with keep := m &&& x.aim }
  else s

/-- LIGHT_ON: received light rises, or is found there again; the comparators work without the core domain. -/
def execLightOn (l : Link) (g : Group) (s : State) : Out :=
  let s1 := s.setPresent l.val g.val true
  .next (s.keep <| if s.coreOn then ((s1.rise l.val g.val).openFibre l.val g.val).darkToLock l.val else s1)

/-- Light has been absent for 100 µs: the laser goes off but for the 2 ms wait of a group lit by a probe, and the loss is handled. -/
def State.lightGone (s : State) (l g : Nat) : State :=
  let x := s.group l g
  let s1 := s.setf .LNK_FIBRE_LIGHT l (putBit (s.rf .LNK_FIBRE_LIGHT l) g false)
  let s2 := if s.accessible l g && x.st == .lit then
      (s1.setGroup l g { x with light := false, lightT := s.now, st := .off, t := s.now }).laser l g false
    else s1.setGroup l g { x with light := false, lightT := s.now }
  (s2.loss l g).dropGroup l g 9

/-- LIGHT_LOSS. -/
def execLightLoss (l : Link) (g : Group) (s : State) : Out :=
  let s1 := s.setPresent l.val g.val false
  .next (s.keep <| if s.coreOn && s.lightAt l.val g.val then s1.lightGone l.val g.val else s1)

/-- A pulse begins: 100 ms after the last one, or after OFF. -/
def State.pulse (s : State) (l g : Nat) : State :=
  let x := s.group l g
  if s.accessible l g && s.laserAllowed l g && (x.st == .off || x.st == .probe) && x.t + 100000000 ≤ s.now then
    (s.setGroup l g { x with st := .probe, t := s.now }).laser l g true
  else s

/-- PROBE_PULSE. -/
def execProbePulse (l : Link) (g : Group) (s : State) : Out := event s fun s => s.pulse l.val g.val

/-- PROBE_PULSE_END: 1.5 ms after its start. -/
def execProbePulseEnd (l : Link) (g : Group) (s : State) : Out :=
  event s fun s =>
    let x := s.group l.val g.val
    if x.st == .probe && x.t + 1500000 ≤ s.now then s.laser l.val g.val false else s

/-- LIT_WAIT_EXPIRY: 2 ms without return light, or with it. -/
def execLitWaitExpiry (l : Link) (g : Group) (s : State) : Out :=
  event s fun s =>
    let x := s.group l.val g.val
    if x.st == .litWait && x.t + 2000000 ≤ s.now then
      (if s.lightAt l.val g.val then s.setGroup l.val g.val { x with st := .lit }
       else (s.setGroup l.val g.val { x with st := .off, t := s.now }).laser l.val g.val false)
    else s

/-- A laser-source fault return: the enable goes off, and the group is lost (R222). -/
def State.laserFaulted (s : State) (l g : Nat) : State :=
  let x := s.group l g
  let s1 := (s.setf .LNK_FIBRE_LASER_FAULT l (putBit (s.rf .LNK_FIBRE_LASER_FAULT l) g true)).laser l g false
  let s2 := s1.setGroup l g { x with st := .off, t := s.now }
  ((s2.fault 13 (.link l)).loss l g).dropGroup l g 8

/-- LASER_FAULT. -/
def execLaserFault (l : Link) (g : Group) (s : State) : Out :=
  event s fun s => if s.faultAt l.val g.val then s else s.laserFaulted l.val g.val

/-! ## REAIM (R233) -/

/-- REAIM_LIGHT: light for 1 ms on a group starts LOCK at Walk. A group left out before is admitted only from DARK (R227). -/
def execReaimLight (l : Link) (s : State) : Out :=
  event s fun s =>
    let m := maskOf fun g => s.lightAt l.val g && bitAt (s.link l.val).aim g && decide ((s.group l.val g).lightT + 1000000 ≤ s.now)
    if s.linkSt l.val = 10 && m != 0 && !s.safe then s.toLock l.val 0 m false else s

/-- REAIM_TIMEOUT: 50 ms without it. -/
def execReaimTimeout (l : Link) (s : State) : Out :=
  event s fun s =>
    if s.linkSt l.val = 10 && (s.link l.val).t + 50000000 ≤ s.now then (s.failDark l.val 11).fault 12 (.link l.val) else s

end Sys2Proof.Machine
end

