-- ==== Sys2Proof/Machine/LinkAdmin.lean ====
section
/-! DEFINITION. LINK_CONTROL (Table 10.7, R218, R224, R233, R293, R324, R369). -/

namespace Sys2Proof.Machine

/-- LINK and ACTION. -/
def lcLink (e : Entry) : Nat := ent e 4 1
def lcAct (e : Entry) : Nat := ent e 5 1

/-- ENABLE needs DISABLED or TEST, RETRAIN and REAIM an enabled link that is not in test (DEDUCED from Table 8.6: log entry 35). -/
def linkWrong (s : State) (e : Entry) : Bool :=
  let st := s.linkSt (lcLink e)
  match lcAct e with
  | 0 => st != 0 && st != 11
  | 2 => st == 0 || st == 11
  | 3 => st == 0 || st == 11
  | _ => false

/-- Checks that do not wait for the start-up. -/
def linkBad (e : Entry) (_ : State) : List (Bool × Nat × Nat) :=
  [(decide (5 < lcLink e), rField, 4), (decide (4 < lcAct e), rField, 5)]

/-- The action on link l. -/
def State.linkAct (s : State) (l act : Nat) : State :=
  match act with
  | 0 => ((s.toDark l).updLink l fun x => { x with attribHold := false, attrib := 0 }).startFibre l
  | 1 => ((((s.haltLink l 6).leave l 0).lasersOff l true).setRung l 0).setf .LNK_RUNG_CAP l 0 |>.ringsOff l
  | 2 =>
    let s1 := (s.haltLink l 3).toDark l
    if h : l < 6 then s1.shadow (.link ⟨l, h⟩) 100000000 else s1
  | 3 => ((s.haltLink l 5).leave l 10).updLink l fun x => { x with step := false, stepAt := none, asked := false }
  | _ =>
    (((s.haltLink l 6).leave l 11).setRung l (s.rf .LNK_PRBS_CTL_RUNG l)).startFibre l

/-- Carry out a started LINK_CONTROL. -/
def State.linkDo (s : State) (q id : Nat) (e : Entry) : State :=
  if linkWrong s e then s.invalid q e rState 5 else (s.linkAct (lcLink e) (lcAct e)).finish q id 0x0B 0

/-- It waits for the end of start-up step 6: it would take the link out of DISABLED, or an earlier command of the link waits (R369, R272). -/
def State.linkHeld (s : State) (e : Entry) : Bool :=
  s.boot.step < 7 && ((s.linkSt (lcLink e) == 0 && (lcAct e == 0 || lcAct e == 4)) || s.boot.held.any fun h => h.1 == lcLink e)

/-- LINK_CONTROL. -/
def State.linkControl (s : State) (q act : Nat) (e : Entry) : State :=
  if lcAct e != act then s
  else s.adminCmd q 0x0B e [(4, 1), (5, 1)] (linkBad e) fun s ft =>
    if s.linkHeld e then
      let s1 := s.adopt ft (.link (lcLink e) (lcAct e))
      { s1 with boot := { s1.boot with held := s1.boot.held ++ [(lcLink e, q, eId e)] } }
    else s.linkDo q (eId e) e

/-- The commands held until step 6 ends take effect in their order. -/
def State.releaseHeld (s : State) : State :=
  let hs := s.boot.held
  hs.foldl (fun (s : State) h => match s.cmd? h.2.1 h.2.2 with
    | some c => s.linkDo c.q c.id c.e
    | none => s) { s with boot := { s.boot with held := [] } }

/-- A reserved ACTION is refused by the row of ENABLE. -/
def State.linkOther (s : State) (q : Nat) (e : Entry) : State :=
  if 4 < lcAct e then s.adminCmd q 0x0B e [(4, 1), (5, 1)] (linkBad e) fun s _ => s else s

/-- LINK_CONTROL(ENABLE). -/
def execLinkEnable (q : QP) (e : Entry) (s : State) : Out := event s fun s => (s.linkControl q 0 e).linkOther q e
/-- LINK_CONTROL(DISABLE). -/
def execLinkDisable (q : QP) (e : Entry) (s : State) : Out := event s fun s => s.linkControl q 1 e
/-- LINK_CONTROL(RETRAIN). -/
def execLinkRetrain (q : QP) (e : Entry) (s : State) : Out := event s fun s => s.linkControl q 2 e
/-- LINK_CONTROL(REAIM). -/
def execLinkReaim (q : QP) (e : Entry) (s : State) : Out := event s fun s => s.linkControl q 3 e
/-- LINK_CONTROL(TEST). -/
def execLinkTest (q : QP) (e : Entry) (s : State) : Out := event s fun s => s.linkControl q 4 e

end Sys2Proof.Machine
end

