-- ==== Sys2Proof/Machine/Training.lean ====
section
/-! DEFINITION. Link training: lock, alignment, round trip, CAP, steps, PRBS, quick retrains, error windows and MARK columns (8.2, 8.3, 8.5). -/

namespace Sys2Proof.Machine

/-! ## Training units (8.5) -/

/-- Send a training unit of a type with its fields from byte 2 on. -/
def State.train (s : State) (l ty fields : Nat) : State := s.emit (.train l ty (mkSlot kComma (ty + 256 * fields)))

/-- A training unit of the type whose check holds. -/
def trainOk (ty : Nat) (v : Slot) : Bool := unitOk kComma v && slotAt v 1 1 == ty

/-- The link's part now: LOCK, ALIGN or ROUNDTRIP, as a state of its own or inside a quick retrain. -/
def State.inPart (s : State) (l st part : Nat) : Bool := s.linkSt l == st || (s.linkSt l == 9 && (s.link l).part == part)
def State.inLock (s : State) (l : Nat) : Bool := s.inPart l 2 0
def State.inAlign (s : State) (l : Nat) : Bool := s.inPart l 3 1
def State.inTrip (s : State) (l : Nat) : Bool := s.inPart l 4 2

/-- Go on to a part: to its state, or within the quick retrain, where its time starts again. -/
def State.toPart (s : State) (l st part : Nat) : State :=
  if s.linkSt l = 9 then s.updLink l fun x => { x with part := part, t := s.now } else s.setLinkSt l st

/-! ## ACTIVE -/

/-- The MARK count starts again on every sub-link. -/
def State.marksZero (s : State) (l : Nat) : State := nat4.foldl (fun (s : State) t => s.setSub l t { s.sub l t with marks := 0 }) s

/-- The DFE of lane k. -/
def State.dfe (s : State) (l k : Nat) : DfeRec := sget (fun _ => {}) (s.link l).dfe k
def State.setDfe (s : State) (l k : Nat) (x : DfeRec) : State :=
  s.updLink l fun r => { r with dfe := sset (fun _ => {}) r.dfe k x }

/-- A gain-range change is applied: the lane's DFE holds for 256 columns more (R217). -/
def State.setGain (s : State) (l k r : Nat) : State :=
  let i := 2 * l + k / 32
  let o := 4 ^ (k % 32)
  let v := s.rf .LNK_GAIN_RANGES i
  (s.setf .LNK_GAIN_RANGES i (v - v / o % 4 * o + r * o)).setDfe l k
    { s.dfe l k with hold := s.t64 + 256 * colTime (s.rf .LNK_RUNG_RUNG l) }

/-- Enter ACTIVE: MARKs and the error window are counted from here; a peer that had disabled the link has enabled it again (R231, R232). -/
def State.toActive (s : State) (l : Nat) : State :=
  (((((s.setLinkSt l 6).marksZero l).setf .LNK_BER_WINDOW_ERRORS l 0).updLink l fun x =>
    { x with active := s.now, berT := s.now, markMiss := 0, step := false, stepAt := none, asked := false, attribHold := false })).sourceUpdate.midChange l

/-! ## LOCK and ALIGN -/

/-- Lanes of group g among a mask of lanes. -/
def laneBits (m g : Nat) : Nat := m / 2 ^ (16 * g) % 65536

/-- Groups of the candidates all of whose lanes are in the mask. -/
def fullGroups (m keep : Nat) : Nat := maskOf fun g => bitAt keep g && laneBits m g == 65535

/-- Lanes of dark groups never lock (R362). -/
def State.lockable (s : State) (l m : Nat) : Nat := nat4.foldl (fun n g => if s.lightAt l g then n + laneBits m g * 2 ^ (16 * g) else n) 0

/-- LANE_LOCK: these lanes have locked too. Every lane of a group locked: ALIGN with the groups locked. -/
def State.laneLocked (s : State) (l m0 : Nat) : State :=
  let x := s.link l
  let m := x.locked ||| s.lockable l m0
  let s1 := ((List.range 64).foldl (fun (s : State) k => if bitAt m k then s.setf .LNK_LANE_LOCK (64 * l + k) 1 else s) s).updLink l fun x =>
    { x with locked := m }
  if s.inLock l && fullGroups m x.keep != 0 then (s1.toPart l 3 1).marksZero l else s1

def execLaneLock (l : Link) (lanes : BitVec 64) (s : State) : Out :=
  event s fun s => if s.inLock l.val || s.inAlign l.val then s.laneLocked l.val lanes.toNat else s

/-- Skews of the lanes of a set of groups. -/
def skewsOf (sk : List Nat) (m : Nat) : List Nat := ((List.range 64).filter fun k => bitAt m (k / 16)).map fun k => sk.getD k 0

def greatest : List Nat → Nat
  | [] => 0
  | x :: t => max x (greatest t)

/-- Every lane of the groups lies within 64 symbols. -/
def within (sk : List Nat) (m : Nat) : Bool := decide (greatest (skewsOf sk m) - leastOr 0 (skewsOf sk m) ≤ 64)

/-- Rank of a set of groups: more groups first, lower groups winning ties. -/
def groupRank (m : Nat) : Nat := 16 * groupCount m + (b2n (bitAt m 0) * 8 + b2n (bitAt m 1) * 4 + b2n (bitAt m 2) * 2 + b2n (bitAt m 3))

/-- The largest set of candidate groups that lie within 64 symbols (Table 8.6, ALIGN). -/
def bestGroups (sk : List Nat) (keep : Nat) : Nat :=
  (List.range 16).foldl (fun b m => if m &&& keep = m && within sk m && groupRank b < groupRank m then m else b) 0

/-- Deskew every lane of the groups to the latest. -/
def State.deskew (s : State) (l m : Nat) (sk : List Nat) : State :=
  let top := greatest (skewsOf sk m)
  (List.range 64).foldl (fun (s : State) k => if bitAt m (k / 16) then s.setf .LNK_LANE_SKEW (64 * l + k) (min 63 (top - sk.getD k 0)) else s) s

/-- ALIGN_COMPLETE: two consistent MARKs. -/
def State.aligned (s : State) (l : Nat) (sk : List Nat) : State :=
  let x := s.link l
  let m := bestGroups sk (fullGroups x.locked x.keep)
  if m = 0 then s
  else
    let s1 := (s.deskew l m sk).updLink l fun x => { x with keep := m, rtAsked := 0, rtGot := 0, rtSum := 0, resultOwn := none, resultPeer := none, prbsT := 0 }
    let s2 := if s.linkSt l = 9 then s1.setf .LNK_RUNG_GROUPS l m else s1
    if x.step && s.linkSt l = 3 then s2.setLinkSt l 8 else s2.toPart l 4 2

def execAlignComplete (l : Link) (skews : List (BitVec 8)) (s : State) : Out :=
  event s fun s => if s.inAlign l.val then s.aligned l.val (skews.map BitVec.toNat) else s

/-! ## ROUNDTRIP (R37) -/

/-- RT_REQ_SEND: sixteen requests 1 µs apart, each with the MTC and a sequence number. -/
def State.rtAsk (s : State) (l : Nat) : State :=
  let x := s.link l
  (s.train l 1 (s.now % 2 ^ 64 + x.rtAsked * 2 ^ 64)).updLink l fun x => { x with rtAsked := x.rtAsked + 1, rtAt := s.now }

def execRtReqSend (l : Link) (s : State) : Out :=
  event s fun s =>
    let x := s.link l.val
    if s.inTrip l.val && x.rtAsked < 16 && (x.rtAsked = 0 || x.rtAt + 1000 ≤ s.now) && !s.safe then s.rtAsk l.val else s

/-- RT_REQ_RECEIVE: answered with the hold time and the sequence number. -/
def execRtReqReceive (l : Link) (slot : Slot) (hold : BitVec 32) (s : State) : Out :=
  event s fun s =>
    if !s.inTrip l.val || s.safe then s
    else if !trainOk 1 slot then s.badUnit l.val
    else s.train l.val 2 (hold.toNat + slotAt slot 10 1 * 2 ^ 32)

/-- After the round trip: CAPS at a bring-up, ACTIVE after a step or a quick retrain. -/
def State.tripDone (s : State) (l : Nat) : State :=
  if s.linkSt l = 9 || (s.link l).step then s.toActive l
  else (s.setLinkSt l 5).updLink l fun x => { x with caps := 0, capMask := 0, capMax := 3 }

/-- The delay: half the mean of sixteen round trips. Which of its two neighbours DELAY shows when it is no multiple of 1/64 ns is a free value (log
entry 5). -/
def State.setDelay (s : State) (l sum : Nat) : State :=
  let up := if sum % 32 = 0 then 0 else (Config.freeWord s.fresh 0).toNat % 2
  { s.setfs [(.SYN_LINK_DELAY_VALID, l, 1), (.SYN_LINK_DELAY_DELAY, l, sum / 32 + up)] with fresh := s.fresh + 1 }

/-- RT_RSP_RECEIVE: one sample, from the request's departure to the response's column, `sub`/64 ns after the last edge. -/
def State.rtGot (s : State) (l : Nat) (v : Slot) (sub : Nat) : State :=
  let x := s.link l
  if slotAt v 6 1 + 1 != x.rtAsked || x.rtAsked ≤ x.rtGot then s
  else
    let trip := s.t64 + sub - x.rtAt * 64 - slotAt v 2 4
    let sum := x.rtSum + trip
    let s1 := s.updLink l fun x => { x with rtGot := x.rtGot + 1, rtSum := sum }
    if x.rtGot + 1 = 16 then (s1.setDelay l sum).tripDone l else s1

def execRtRspReceive (l : Link) (slot : Slot) (sub : Fin 512) (s : State) : Out :=
  event s fun s =>
    if !s.inTrip l.val then s
    else if !trainOk 2 slot then s.badUnit l.val
    else s.rtGot l.val slot sub.val

/-! ## CAPS -/

/-- One column of CAP units, one for each kept group. -/
def State.capColumn (s : State) (l : Nat) : State :=
  let x := s.link l
  let f (g : Nat) : Nat := g + 256 * s.rf .LNK_CTL_RUNG_MAX l + 65536 * s.rf .LNK_CTL_FFE_REQ l + 2 ^ 24 * s.fuses.conf.code
  let s1 := (nat4.filter (bitAt x.keep)).foldl (fun (s : State) g => s.train l 3 (f g)) s
  s1.updLink l fun x => { x with caps := x.caps + 1, capAt := s.now }

/-- Both CAPs are known: groups, cap, LSN 0, ACTIVE at Walk. -/
def State.capsDone (s : State) (l groups : Nat) : State :=
  let x := s.link l
  let cap := min (min (s.rf .LNK_CTL_RUNG_MAX l) x.capMax) x.lowCap
  let s1 := nat4.foldl (fun (s : State) t => s.setSub l t {}) s
  ((s1.setRung l 0).setfs [(.LNK_RUNG_GROUPS, l, groups), (.LNK_RUNG_CAP, l, cap)]).toActive l

/-- CAP_SEND: every 10 µs. A column sent after a CAP of the peer came acknowledges it; with an own column before that, the CAPs are settled (DESIGN
CHOICE: log entry 34). -/
def State.capOut (s : State) (l : Nat) : State :=
  let x := s.link l
  let s1 := s.capColumn l
  let g := x.keep &&& x.capMask
  if x.caps != 0 && g != 0 then s1.capsDone l g else s1

def execCapSend (l : Link) (s : State) : Out :=
  event s fun s =>
    let x := s.link l.val
    if s.linkSt l.val = 5 && (x.caps = 0 || x.capAt + 10000 ≤ s.now) && !s.safe then s.capOut l.val else s

/-- A CAP on group g: a crossed one fails the group, another settles it. -/
def State.capIn (s : State) (l g : Nat) (v : Slot) : State :=
  let x := s.link l
  if !bitAt x.keep g then s
  else if slotAt v 2 1 != g then (s.setf .LNK_STATE_LAST_FAIL l 5).dropGroup l g 5
  else
    let m := if bitAt x.capMask g then x.capMask else x.capMask + 2 ^ g
    let s1 := s.updLink l fun x => { x with capMask := m, capMax := slotAt v 3 1 % 4, ffe := slotAt v 4 1 % 8 }
    if x.caps != 0 && m &&& x.keep = x.keep then (s1.capColumn l).capsDone l x.keep else s1

def execCapReceive (l : Link) (g : Group) (slot : Slot) (s : State) : Out :=
  event s fun s =>
    if s.linkSt l.val != 5 then s
    else if !trainOk 3 slot then s.badUnit l.val
    else s.capIn l.val g.val slot

/-! ## Steps (R225, R228) -/

/-- The leader's end (R225). -/
def leader (l : Nat) : Bool := l % 2 == 0

/-- Ask for a rung: STEP_REQ, and the link is in STEP. -/
def State.askStep (s : State) (l rung : Nat) : State :=
  ((s.train l 4 (rung + 256 * s.rf .LNK_RUNG_GROUPS l)).leave l 7).updLink l fun x => { x with target := rung, asked := true, stepAt := none }

/-- STEP_START: the leader, 1 ms ACTIVE at a rung below the cap. -/
def execStepStart (l : Link) (s : State) : Out :=
  event s fun s =>
    let r := s.rf .LNK_RUNG_RUNG l.val
    if leader l.val && s.live l.val && r < s.rf .LNK_RUNG_CAP l.val && (s.link l.val).active + 1000000 ≤ s.now && !s.safe then s.askStep l.val (r + 1)
    else s

/-- Answer a STEP_REQ. -/
def State.ackStep (s : State) (l rung mask ok : Nat) : State := s.train l 5 (rung + 256 * mask + 65536 * ok)

/-- STEP_REQ_RECEIVE. A step of one rung, up to the cap or down, is accepted; while this end has asked, a request to go up is refused: one to lower
the rung takes precedence over any step up, and two of them agree (R225, R228). -/
def State.stepReq (s : State) (l rung mask : Nat) : State :=
  let x := s.link l
  let r := s.rf .LNK_RUNG_RUNG l
  let down := rung + 1 == r
  let up := rung == r + 1 && rung ≤ s.rf .LNK_RUNG_CAP l
  let busy := s.linkSt l == 7 && (x.stepAt.isSome || (x.asked && up))
  if busy || !(down || up) then s.ackStep l rung mask 0
  else
    let s1 := s.ackStep l rung mask 1
    (if s.linkSt l = 6 then s1.leave l 7 else s1).updLink l fun x => { x with target := rung, asked := false, stepAt := some (s.now + 1000) }

def execStepReqReceive (l : Link) (slot : Slot) (s : State) : Out :=
  event s fun s =>
    if !(s.live l.val || s.linkSt l.val = 7) || s.safe then s
    else if !trainOk 4 slot then s.badUnit l.val
    else s.stepReq l.val (slotAt slot 2 1) (slotAt slot 3 1)

/-- STEP_ACK_RECEIVE: accepted, both change rung 1 µs later; refused, the link is ACTIVE at its rung again. -/
def execStepAckReceive (l : Link) (slot : Slot) (s : State) : Out :=
  event s fun s =>
    let x := s.link l.val
    if s.linkSt l.val != 7 || !x.asked || x.stepAt.isSome then s
    else if !trainOk 5 slot then s.badUnit l.val
    else if slotAt slot 2 1 != x.target then s
    else if slotAt slot 4 1 = 1 then s.updLink l.val fun x => { x with stepAt := some (s.now + 1000) }
    else s.toActive l.val

/-- RUNG_CHANGE: down by a quick retrain, which sets the cap; up by LOCK at the target rung. -/
def State.rungChanged (s : State) (l : Nat) : State :=
  let x := s.link l
  let r := s.rf .LNK_RUNG_RUNG l
  let g := s.rf .LNK_RUNG_GROUPS l
  if x.target < r then ((s.setf .LNK_RUNG_CAP l x.target).updLink l fun x => { x with lowCap := x.target }).quick l x.target g 10
  else
    ((s.toLock l x.target g true).setfs [(.SYN_LINK_DELAY_VALID, l, 0), (.SYN_LINK_OFFSET_VALID, l, 0)]).updLink l fun y =>
      { y with prevRung := r, prevGroups := g, stepAt := none, asked := false }

def execRungChange (l : Link) (s : State) : Out :=
  event s fun s => match (s.link l.val).stepAt with
    | some t => if s.linkSt l.val = 7 && t ≤ s.now then s.rungChanged l.val else s
    | none => s

/-! ## PRBS (R218, R226) -/

/-- Length of the PRBS period at a rung, ns. -/
def prbsLen (rung : Nat) : Nat := if rung = 3 then 10000000 else 1000000

/-- Payload of a rung with a set of groups, in lanes of Walk. -/
def payload (rung mask : Nat) : Nat := groupCount mask * (if rung = 0 then 1 else if rung = 1 then 4 else if rung = 2 then 8 else 16)

/-- Back to the previous rung, which becomes the cap. -/
def State.keepRung (s : State) (l : Nat) : State :=
  let x := s.link l
  ((s.setf .LNK_RUNG_CAP l x.prevRung).updLink l fun x => { x with lowCap := x.prevRung }).quick l x.prevRung x.prevGroups 6

/-- With both results: the target rung with the groups that passed both ways, or the previous one. -/
def State.choose (s : State) (l : Nat) : State :=
  let x := s.link l
  match x.resultOwn, x.resultPeer with
  | some a, some b =>
    let m := a &&& b &&& x.keep
    let p := payload x.target m
    let q := payload x.prevRung x.prevGroups
    if q < p || (p = q && groupCount x.prevGroups < groupCount m) then
      ((s.setf .LNK_RUNG_GROUPS l m).setLinkSt l 4).updLink l fun x => { x with keep := m, rtAsked := 0, rtGot := 0, rtSum := 0 }
    else s.keepRung l
  | _, _ => s

/-- PRBS_END: groups without an erring lane pass; RESULT is sent. A lane errs if its checker counted an error here or in the report (R226). -/
def State.prbsEnded (s : State) (l errs : Nat) : State :=
  let x := s.link l
  let seen (g : Nat) : Bool := x.prbs.any fun p => p.1 / 16 == g && p.2.err
  let m := maskOf fun g => bitAt x.keep g && laneBits errs g == 0 && !seen g
  ((s.train l 6 (x.target + 256 * m)).updLink l fun x => { x with resultOwn := some m, prbsT := s.now }).choose l

def execPrbsEnd (l : Link) (errLanes : BitVec 64) (s : State) : Out :=
  event s fun s =>
    let x := s.link l.val
    if s.linkSt l.val = 8 && x.resultOwn.isNone && x.t + prbsLen x.target ≤ s.now && !s.safe then s.prbsEnded l.val errLanes.toNat else s

/-- RESULT_RECEIVE. -/
def execResultReceive (l : Link) (slot : Slot) (s : State) : Out :=
  event s fun s =>
    if s.linkSt l.val != 8 then s
    else if !trainOk 6 slot then s.badUnit l.val
    else if slotAt slot 2 1 != (s.link l.val).target then s
    else (s.updLink l.val fun x => { x with resultPeer := some (slotAt slot 3 1 % 16) }).choose l.val

/-- The two taps of a PRBS pattern: x^7 + x^6 + 1, x^15 + x^14 + 1, x^31 + x^28 + 1 (R218). -/
def prbsTaps (pattern : Nat) : Nat × Nat := if pattern = 1 then (7, 6) else if pattern = 2 then (15, 14) else (31, 28)

/-- The next bit of a pattern after the bits of the register, newest first. O.150 transmits PRBS15 and PRBS31 inverted (PRESUMED: log entry 152). -/
def prbsNext (pattern : Nat) (reg : List Bool) : Bool :=
  let t := prbsTaps pattern
  (reg.getD (t.1 - 1) false != reg.getD (t.2 - 1) false) != (1 < pattern)

/-- The pattern's generator: its register after n bits more, newest first (R218). -/
def prbsGen (pattern : Nat) : Nat → List Bool → List Bool
  | 0, reg => reg
  | n + 1, reg => prbsGen pattern n ((prbsNext pattern reg :: reg).take (prbsTaps pattern).1)

/-- A checker takes one received bit. Until 64 error-free bits its register follows the bits received, then its own prediction; an error counts only
while it is synchronised (R218). -/
def PrbsRec.take (pattern : Nat) (x : PrbsRec) (b : Bool) : PrbsRec × Bool :=
  let n := (prbsTaps pattern).1
  let want := prbsNext pattern x.reg
  if x.run < 64 then
    ({ x with reg := (b :: x.reg).take n, run := if x.reg.length == n && b == want then x.run + 1 else 0 }, false)
  else ({ x with reg := (want :: x.reg).take n, err := x.err || b != want }, b != want)

/-- A checker takes bits; the errors that it counts. -/
def PrbsRec.takeAll (pattern : Nat) : PrbsRec → List Bool → PrbsRec × Nat
  | x, [] => (x, 0)
  | x, b :: t =>
    let r := x.take pattern b
    let q := PrbsRec.takeAll pattern r.1 t
    (q.1, b2n r.2 + q.2)

/-- Bits received on a lane: the checker may synchronise, and in test mode its errors count in LNK_LANE. -/
def State.prbsBits (s : State) (l k : Nat) (bits : List Bool) : State :=
  let r := (sget (fun _ => {}) (s.link l).prbs k).takeAll (s.prbsPattern l (s.linkSt l)) bits
  let s1 := s.updLink l fun x => { x with prbs := sset (fun _ => {}) x.prbs k r.1 }
  let s2 := if 64 ≤ r.1.run then s1.setf .LNK_LANE_PRBS_SYNC (64 * l + k) 1 else s1
  if s.linkSt l = 11 then s2.sat .LNK_LANE_PRBS_ERR (64 * l + k) r.2 else s2

/-- PRBS_SYNC: bits of the pattern reach a lane's checker, in test mode with a pattern or in the PRBS state. -/
def execPrbsSync (l : Link) (lane : Fin 64) (s : State) (bits : List Bool := []) : Out :=
  event s fun s =>
    if prbsSt (s.linkSt l.val) && s.prbsPattern l.val (s.linkSt l.val) != 0 then s.prbsBits l.val lane.val bits else s

/-! ## Timeouts (Table 8.6) -/

/-- Time limit of the link's present state or part, ns. -/
def State.trainLimit (s : State) (l : Nat) : Option Nat :=
  let x := s.link l
  match s.linkSt l with
  | 2 => some (if x.step then 100000 else 2000000)
  | 3 => some (if x.step then 100000 else 1000000)
  | 4 => some 1000000
  | 5 => some 1000000
  | 7 => if x.stepAt.isNone then some 100000 else none
  | 8 => if x.resultOwn.isSome then some (x.prbsT + 1000000 - x.t) else none
  | 9 => some (if x.part = 2 then 1000000 else 100000)
  | _ => none

/-- What the timeout does. -/
def State.trainFail (s : State) (l : Nat) : State :=
  match s.linkSt l with
  | 2 => s.failDark l 1
  | 3 => s.failDark l 2
  | 4 => s.failDark l 3
  | 5 => s.failDark l 4
  | 7 => s.toActive l
  | 8 => s.keepRung l
  | 9 => s.failDark l ((s.link l).part + 1)
  | _ => s

/-- TRAINING_TIMEOUT. -/
def execTrainingTimeout (l : Link) (s : State) : Out :=
  event s fun s => match s.trainLimit l.val with
    | some d => if (s.link l.val).t + d ≤ s.now then s.trainFail l.val else s
    | none => s

/-! ## Error windows (R219, R228) -/

/-- Lanes in use times the rung's baud: line bits in a nanosecond. -/
def State.lineBits (s : State) (l : Nat) : Nat :=
  16 * groupCount (s.rf .LNK_RUNG_GROUPS l) * (match s.rf .LNK_RUNG_RUNG l with | 0 => 4 | 1 => 16 | 2 => 32 | _ => 64)

/-- The lanes carry the 8b/10b stream. -/
def State.coded (s : State) (l : Nat) : Bool := s.linkSt l != 0 && s.linkSt l != 10 && !prbsSt (s.linkSt l)

/-- Code violations (code groups in neither column, K-codes that Table 8.2 does not list) and disparity errors since the last report count per lane; while
the link is ACTIVE those of the lanes in use count in the window (R206, R207, R219; log entry 153). -/
def State.lineErrs (s : State) (l : Nat) (viol disp : List Nat) : State :=
  let s1 := (List.range 64).foldl (fun (s : State) k =>
    (s.sat .LNK_LANE_CODE_VIOL (64 * l + k) (viol.getD k 0)).sat .LNK_LANE_DISP_ERR (64 * l + k) (disp.getD k 0)) s
  let used := (List.range 64).filter fun k => bitAt (s.rf .LNK_RUNG_GROUPS l) (k / 16)
  if s.live l then s1.setf .LNK_BER_WINDOW_ERRORS l (satAdd (s.rf .LNK_BER_WINDOW_ERRORS l) (used.foldl (fun n k => n + viol.getD k 0 + disp.getD k 0) 0)) else s1

/-- The window has its line bits. -/
def State.berDue (s : State) (l : Nat) : Bool :=
  s.live l && decide ((s.link l).berT * s.lineBits l + 10240000000000 ≤ s.now * s.lineBits l)

/-- The window ends: more than 10 errors ask for a step down; at Walk the event is only counted. -/
def State.berEnd (s : State) (l : Nat) : State :=
  let s1 := (s.setf .LNK_BER_WINDOW_ERRORS l 0).updLink l fun x => { x with berT := s.now }
  let r := s.rf .LNK_RUNG_RUNG l
  if s.rf .LNK_BER_WINDOW_ERRORS l ≤ 10 then s1
  else if r = 0 then s1.sat .LNK_BER_LOWERINGS l
  else
    let s2 := (s1.sat .LNK_BER_LOWERINGS l).fault 15 (.link l)
    if !s.on .LNK_CTL_BER_LOWER_EN l || !s2.live l || s2.safe then s2 else s2.askStep l (r - 1)

/-- BER_WINDOW_END: the errors since the last report, and the end of the window where it is due. -/
def execBerWindowEnd (l : Link) (viol : List (BitVec 12)) (s : State) (disp : List (BitVec 12) := []) : Out :=
  event s fun s =>
    let s1 := if s.coded l.val then s.lineErrs l.val (viol.map BitVec.toNat) (disp.map BitVec.toNat) else s
    if s1.berDue l.val then s1.berEnd l.val else s1

/-! ## MARK (R213) -/

/-- Columns since ALIGN began hold more MARKs than were sent. -/
def State.alignMarkDue (s : State) (l t : Nat) : Bool :=
  decide ((s.sub l t).marks < (s.now - (s.link l).t) * 64 / (256 * colTime (s.rf .LNK_RUNG_RUNG l)))

/-- MARK_SEND. -/
def execMarkSend (l : Link) (t : Tenant) (s : State) : Out :=
  event s fun s =>
    let go := if s.live l.val then !(s.subGroups l.val t.val).isEmpty && s.markDue l.val t.val else s.inAlign l.val && s.alignMarkDue l.val t.val
    if go && !s.safe then
      (s.emit (.mark l.val t.val)).setSub l.val t.val { s.sub l.val t.val with marks := (s.sub l.val t.val).marks + 1 }
    else s

/-- MARK_RECEIVE on the sub-link of tenant t: its lanes that had a MARK are deskewed; one that misses a second in a row fails its group (R227, R296). -/
def State.markIn (s : State) (l t lanes : Nat) (sk : List Nat) : State :=
  let used := (List.range 64).filter fun k => (s.subGroups l t).contains (k / 16)
  let here := used.filter fun k => bitAt lanes k
  if here.isEmpty then s
  else
    let top := greatest (here.map fun k => sk.getD k 0)
    let s1 := here.foldl (fun (s : State) k => s.setf .LNK_LANE_SKEW (64 * l + k) (top - sk.getD k 0)) s
    let missed := used.filter fun k => !bitAt lanes k
    let twice := missed.filter fun k => bitAt (s.link l).markMiss k
    let keep := (List.range 64).filter fun k => bitAt (s.link l).markMiss k && !used.contains k
    let s2 := s1.updLink l fun x => { x with markMiss := (keep ++ missed).foldl (fun m k => m + 2 ^ k) 0 }
    (nat4.filter fun g => twice.any fun k => k / 16 == g).foldl (fun (s : State) g => (s.loss l g).dropGroup l g 2) s2

def execMarkReceive (l : Link) (lanes : BitVec 64) (skews : List (BitVec 6)) (s : State) (t : Tenant := 0) : Out :=
  event s fun s => if s.live l.val then s.markIn l.val t.val lanes.toNat (skews.map BitVec.toNat) else s

end Sys2Proof.Machine
end

