-- ==== Sys2Proof/Machine/Bridle.lean ====
section
/-! DEFINITION. Bridle loops and receiver gain ranges (8.7, 8.8, R234–R239). -/

namespace Sys2Proof.Machine

/-- Index of ring k of link l, and its heater code. -/
def ringIx (l k : Nat) : Nat := 128 * l + k
def State.heater (s : State) (l k : Nat) : Nat := s.rf .LNK_RING_HEATER (ringIx l k)

/-- A heater code kept within 0 and 4,095. -/
def clamp12 (i : Int) : Nat := min 4095 (max 0 i).toNat

/-- −d × XTALK / 32 rounded to nearest; which neighbour a tie takes is a free value (log entry 5). -/
def crossMove (fresh : Nat) (d : Int) (x : Nat) : Int :=
  let n : Int := -d * x
  let f := n / 32
  let r := n % 32
  if r < 16 then f else if 16 < r then f + 1 else f + ((Config.freeWord fresh 0).toNat % 2 : Nat)

/-- The loop sets ring k's code; its neighbours in the fibre and direction move against it (R237). -/
def State.setHeater (s : State) (l k h : Nat) : State :=
  let d : Int := (h : Int) - (s.heater l k : Int)
  if d = 0 then s
  else
    let m := crossMove s.fresh d (s.rf .LNK_BRIDLE_CTL_XTALK l)
    let side := (if k % 16 = 0 then [] else [k - 1]) ++ (if k % 16 = 15 then [] else [k + 1])
    let s1 := side.foldl (fun (s : State) j => s.setf .LNK_RING_HEATER (ringIx l j) (clamp12 ((s.heater l j : Int) + m))) s
    { s1.setf .LNK_RING_HEATER (ringIx l k) h with fresh := s.fresh + 1 }

def State.ring (s : State) (l k : Nat) : RingRec := sget (fun _ => {}) (s.link l).rings k
def State.setRing (s : State) (l k : Nat) (x : RingRec) : State :=
  s.updLink l fun r => { r with rings := sset (fun _ => {}) r.rings k x }

/-- A sweep begins at START (R238). -/
def State.sweep (s : State) (l k failed : Nat) : State :=
  let i := ringIx l k
  (((s.setHeater l k (s.rf .LNK_RING_START i)).setf .LNK_RING_STATE i 1).sat .LNK_RING_RELOCKS i).setRing l k
    { s.ring l k with phase := 0, n := 0, hi := 0, lo := 1023, sweeps := failed, run := 0, weak := 0 }

/-- Two sweeps have failed: the ring is FAILED, and its group is lost to the link (R227). -/
def State.ringFail (s : State) (l k : Nat) : State :=
  let g := k % 64 / 16
  (((s.setf .LNK_RING_STATE (ringIx l k) 3).fault 14 (.link l)).loss l g).dropGroup l g 7

/-- A service of the sweep: the first monitor swing above half of full scale is captured. -/
def State.sweepServe (s : State) (l k v : Nat) : State :=
  let x := s.ring l k
  let x1 : RingRec := { x with n := x.n + 1, hi := max x.hi v, lo := min x.lo v }
  if 511 < x1.hi - x1.lo then
    s.setRing l k { x1 with phase := 1, off := if k < 64 then x1.hi else x1.lo, base := s.heater l k, run := 0, sweeps := 0 }
  else if 1024 ≤ x1.n then (if 1 ≤ x.sweeps then s.ringFail l k else s.sweep l k (x.sweeps + 1))
  else (s.setRing l k x1).setHeater l k (min 4095 (s.heater l k + 4))

/-- Error of a sample: below the top of the scale for a filter ring, from the lock point for a modulator ring. -/
def State.ringErr (s : State) (l k v : Nat) : Nat :=
  if k < 64 then
    let t := s.rf .LNK_BRIDLE_CTL_MOD_TARGET l * (s.ring l k).off / 256
    (v - t) + (t - v)
  else 1023 - v

/-- The ring is no longer locked, and sweeps. -/
def State.unlockRing (s : State) (l k : Nat) : State := s.sweep l k 0

/-- Count a tracking service: locked after 64 within 4 codes (DESIGN CHOICE: log entry 37), unlocked by a weak monitor or a code at its end. -/
def State.lockServe (s : State) (l k v : Nat) : State :=
  let i := ringIx l k
  let x := s.ring l k
  let h := s.heater l k
  if s.rf .LNK_RING_STATE i = 2 then
    let w := if v < (x.peak + 1) / 2 then x.weak + 1 else 0
    if 16 ≤ w || h = 0 || h = 4095 then s.unlockRing l k else s.setRing l k { x with weak := w }
  else if h = 0 || h = 4095 then s.unlockRing l k
  else
    let near := decide (h - x.base ≤ 4 && x.base - h ≤ 4)
    let n := if near then x.run + 1 else 0
    let x1 : RingRec := { x with run := n, base := if near then x.base else h }
    if 64 ≤ n then (s.setf .LNK_RING_STATE i 2).setRing l k { x1 with peak := v, weak := 0, above := 0, below := 0, ranged := false }
    else s.setRing l k x1

/-- A tracking service: h + δ first, then h − δ and a move of one code in the direction of the smaller error (R236). -/
def State.trackServe (s : State) (l k v : Nat) : State :=
  let x := s.ring l k
  if x.phase = 1 then (s.setRing l k { x with phase := 2, prev := v }).lockServe l k v
  else
    let a := s.ringErr l k x.prev
    let b := s.ringErr l k v
    let h := s.heater l k
    let h1 := if a < b then min 4095 (h + 1) else if b < a then h - 1 else h
    ((s.setRing l k { x with phase := 1 }).setHeater l k h1).lockServe l k v

/-! ## Gain ranges (R234, R235) -/

/-- Gain range of lane k, and boundary r. -/
def State.gain (s : State) (l k : Nat) : Nat := s.rf .LNK_GAIN_RANGES (2 * l + k / 32) / 4 ^ (k % 32) % 4
def State.bound (s : State) (l r : Nat) : Nat :=
  if r = 0 then s.rf .LNK_GAIN_THR_B0 l else if r = 1 then s.rf .LNK_GAIN_THR_B1 l else s.rf .LNK_GAIN_THR_B2 l

/-- Range that a level falls in. -/
def State.rangeOf (s : State) (l v : Nat) : Nat := ([0, 1, 2].filter fun r => decide (s.bound l r < v)).length

/-- A new range: pending in ACTIVE, else applied at once. -/
def State.newRange (s : State) (l k r : Nat) : State :=
  if s.live l then s.updLink l fun x => { x with gains := sset (fun _ => 0) x.gains k (r + 1) } else s.setGain l k r

/-- A sample of lane k, whose filter ring is locked. -/
def State.gainServe (s : State) (l k v : Nat) : State :=
  let x := s.ring l (64 + k)
  let r := s.gain l k
  let h := s.rf .LNK_GAIN_THR_H l
  if !s.live l && !x.ranged then (s.setGain l k (s.rangeOf l v)).setRing l (64 + k) { x with ranged := true }
  else if sget (fun _ => 0) (s.link l).gains k != 0 then s
  else
    let up := if r < 3 && s.bound l r + h < v then x.above + 1 else 0
    let dn := if 0 < r && v + h < s.bound l (r - 1) then x.below + 1 else 0
    let s1 := s.setRing l (64 + k) { x with above := if 16 ≤ up then 0 else up, below := if 16 ≤ dn then 0 else dn }
    if 16 ≤ up then s1.newRange l k (r + 1) else if 16 ≤ dn then s1.newRange l k (r - 1) else s1

/-! ## The DFE (R217) -/

/-- The lane's six taps adapt on received data, but not while a gain-range change is pending or within 256 columns of one. What they become is a free
value (log entry 5); when they do, log entry 162. -/
def State.dfeServe (s : State) (l k : Nat) : State :=
  if !s.live l || sget (fun _ => 0) (s.link l).gains k != 0 || s.t64 < (s.dfe l k).hold then s
  else { s.setDfe l k { s.dfe l k with taps := (List.range 6).map fun i => Config.freeWord s.fresh i } with fresh := s.fresh + 1 }

/-! ## BRIDLE_SERVICE -/

/-- The code written at this service. -/
def State.written (s : State) (l k : Nat) : Nat :=
  let h : Int := s.heater l k
  let d : Int := s.rf .LNK_BRIDLE_CTL_DITHER l
  match (s.ring l k).phase with
  | 1 => clamp12 (h + d)
  | 2 => clamp12 (h - d)
  | _ => clamp12 h

/-- One service of ring k: its heater code goes out and its monitor sample comes back. -/
def State.bridle (s : State) (l k v : Nat) : State :=
  let i := ringIx l k
  match s.rf .LNK_RING_STATE i with
  | 0 =>
    let s1 := s.sweep l k 0
    s1.emit (.heater l k (s1.heater l k))
  | 3 => s
  | st =>
    let s1 := s.emit (.heater l k (s.written l k))
    let s2 := if (s.ring l k).phase = 0 then s1.sweepServe l k v else s1.trackServe l k v
    let s3 := if 64 ≤ k then s2.dfeServe l (k - 64) else s2
    if 64 ≤ k && st = 2 then s3.gainServe l (k - 64) v else s3

/-- The loops run in every state but DISABLED and Off (R239). -/
def execBridleService (l : Link) (ring : Fin 128) (sample : BitVec 10) (s : State) : Out :=
  event s fun s => if s.linkSt l.val != 0 && s.rf .PWR_STATE_CUR != 3 then s.bridle l.val ring.val sample.toNat else s

/-- GAIN_CHANGE_APPLY: in ACTIVE in the guard while no carriage is being received, 60 ns before the tick at the latest; in another state at once
(R234, R235). -/
def execGainChangeApply (l : Link) (lane : Fin 64) (s : State) (receiving : Bool := false) : Out :=
  event s fun s =>
    let p := sget (fun _ => 0) (s.link l.val).gains lane.val
    if p = 0 || (s.live l.val && (receiving || !s.inGuard || s.stage64 < s.inStage64 + 3840)) then s
    else (s.setGain l.val lane.val (p - 1)).updLink l.val fun x => { x with gains := sset (fun _ => 0) x.gains lane.val 0 }

end Sys2Proof.Machine
end

