-- ==== Sys2Proof/Machine/QueueEvents.lean ====
section
/-! DEFINITION. Events of the queues: fetching, binding records, completions, interrupt responses, quarantine and fence ends
(R81–R83, R202, R266–R271, R286, R312, R333, R350). -/

namespace Sys2Proof.Machine

/-! ## Rings (R267, R270) -/

def State.sqLog (s : State) (q : Nat) : Nat := if q = 0 then s.rf .ADM_CTL_SQ_LOG2 else s.rf .DB_STATUS_SQ_LOG2 q
def State.cqLog (s : State) (q : Nat) : Nat := if q = 0 then s.rf .ADM_CTL_CQ_LOG2 else s.rf .DB_STATUS_CQ_LOG2 q
def State.sqBase (s : State) (q : Nat) : Nat := if q = 0 then s.rf .ADM_SQ_BASE_ADDR * 4096 else (s.qp q).sqBase
def State.cqBase (s : State) (q : Nat) : Nat := if q = 0 then s.rf .ADM_CQ_BASE_ADDR * 4096 else (s.qp q).cqBase
def State.cqVector (s : State) (q : Nat) : Nat := if q = 0 then s.rf .ADM_CTL_VECTOR else s.rf .DB_STATUS_VECTOR q

/-- Submission queue q is in service. -/
def State.sqLive (s : State) (q : Nat) : Bool := if q = 0 then s.on .ADM_CTL_EN else s.on .DB_STATUS_SQ_LIVE q

/-- Items from index `hd` up to `tl` in a ring of 2^k. -/
def ringCount (k hd tl : Nat) : Nat := (tl + 2 ^ k - hd) % 2 ^ k

/-- Commands outstanding on pair q: fetched and their completion not posted (R268). -/
def State.outstanding (s : State) (q : Nat) : Nat :=
  (s.qs.fetched.filter fun f => f.q == q).length + (s.qs.cmds.filter fun c => c.q == q).length + (s.qs.dones.filter fun d => d.q == q).length

/-- Entries of pair q still to fetch, and how many the limit of R268 allows. -/
def State.unfetched (s : State) (q : Nat) : Nat := ringCount (s.sqLog q) (s.rf .DB_SQ_HEAD_HEAD q) (s.rf .DB_SQ_TAIL_TAIL q)
def State.fetchRoom (s : State) (q : Nat) : Nat :=
  2 ^ s.cqLog q - 1 - (s.outstanding q + ringCount (s.cqLog q) (s.rf .DB_CQ_HEAD_HEAD q) (s.rf .DB_CQ_TAIL_TAIL q))

/-! ## SUBMISSION_FETCH (R268) -/

/-- The coachman of yard y is at work: firmware runs (R369 step 5), or it is coachman 0 in Stable, and the rails are not to be removed. -/
def State.coachAt (s : State) (y : Nat) : Bool :=
  (if s.stable then y == 0 else 5 ≤ s.boot.step) && s.rf .PWR_STATE_CUR != 3 && s.rf .YRD_STATE_STATE y != 1 && !bitAt (s.rf .DBG_HOLD_COACHMAN) y

/-- Yard y serves pair q: its own pairs; pair 0 falls to the lowest yard not in reset. -/
def State.serves (s : State) (y q : Nat) : Bool :=
  if q = 0 then s.adminYard == some y
  else s.rf .DB_STATUS_YARD q == y && s.rf .YRD_STATE_STATE y != 3 && !(s.oos || s.stable)

/-- Pair q has an entry that yard y may fetch now. -/
def State.fetchable (s : State) (y q : Nat) : Bool :=
  s.sqLive q && s.serves y q && 0 < s.unfetched q && 0 < s.fetchRoom q

/-- Pairs that can hold unfetched entries: those whose tail or head stands off 0, in ascending order. -/
def State.pairsSeen (s : State) : List Nat := (List.range s.nq).filter fun q =>
  s.rf .DB_SQ_TAIL_TAIL q != 0 || s.rf .DB_SQ_HEAD_HEAD q != 0

/-- The next pair in round robin after the last one served. -/
def State.nextPair (s : State) (y : Nat) : Option Nat :=
  let ps := s.pairsSeen.filter (s.fetchable y)
  match ps.find? fun q => (s.yard y).rr ≤ q with
  | some q => some q
  | none => ps.head?

/-- The id is outstanding on pair q (R273). -/
def State.idTaken (s : State) (q id : Nat) : Bool :=
  s.qs.fetched.any (fun f => f.q == q && eId f.e == id) || s.qs.cmds.any (fun c => c.q == q && c.id == id)
    || s.qs.dones.any (fun d => d.q == q && d.id == id)

/-- Offset of a sub-operation code that no command of the opcode has: LOAD_TIMETABLE ACT, LINK_CONTROL ACTION, GET_LOG LOG. -/
def subOpBad (e : Entry) : Option Nat :=
  if eOp e = 0x07 && 1 < ent e 4 1 then some 4
  else if eOp e = 0x0B && 4 < ent e 5 1 then some (if 5 < ent e 4 1 then 4 else 5)
  else if eOp e = 0x0D && 1 < ent e 4 1 then some 4
  else none

/-- Parameter fields of the three opcodes with a sub-operation (Table 10.7). -/
def subOpFields (op : Nat) : List (Nat × Nat) :=
  if op = 0x07 then [(4, 1), (8, 8), (16, 4), (24, 8)] else if op = 0x0B then [(4, 1), (5, 1)] else [(4, 1), (8, 8), (16, 4), (20, 4)]

/-- Complete an entry at its fetch, without disturbing an earlier command of its id. -/
def State.doneAtFetch (s : State) (q : Nat) (e : Entry) (status result : Nat) : State :=
  { s with qs := { s.qs with dones := s.qs.dones ++
    [{ plainDone q (eId e) (eOp e) status result with qgen := s.rf .DB_STATUS_QGEN q }] } }

/-- A read that the coachman makes at host address a of yard y's row had an error (R346). -/
def State.readErr (s : State) (y a : Nat) : State := s.sat .HCH_ERR_RD_ERR (portFor y a)

/-- Take one entry into the block (R268, R273): a repeated id, an undefined opcode or sub-operation completes at once; any other waits for its start. -/
def State.takeEntry (s : State) (q : Nat) (e : Entry) (bad : Bool) : State :=
  if s.idTaken q (eId e) then s.doneAtFetch q e 6 (invResult rDuplicate 2)
  else
    let held := (s.oos || s.stable) && !oosAllowed (eOp e) e
    if !definedOp (eOp e) then
      if held then s.doneAtFetch q e 0xA 0 else s.doneAtFetch q e 6 (invResult rOpcode 0)
    else match subOpBad e with
      | some o =>
        if held then s.doneAtFetch q e 0xA 0
        else match formBad e (subOpFields (eOp e)) with
          | some (r, d) => s.doneAtFetch q e 6 (invResult r d)
          | none => s.doneAtFetch q e 6 (if q = 0 then invResult rField o else invResult rQueue 0)
      | none => { s with qs := { s.qs with fetched := s.qs.fetched ++ [{ q := q, e := e, t0 := s.now, bad := bad }] } }

/-- Fetch n entries of pair q in index order; k were taken before in this turn. Bit k of `ue` is a read error of that entry, which is then skipped, of
`tbl` one of its fragment table or descriptors (R346; that the row carries them DEDUCED: log entry 159). -/
def State.fetchN (s : State) (y q : Nat) (ue tbl : BitVec 8) (k : Nat) : Nat → State
  | 0 => s
  | n + 1 =>
    let h := s.rf .DB_SQ_HEAD_HEAD q
    let a := s.sqBase q + 64 * h
    let e : Entry := BitVec.ofNat 512 (rdLe s.host a 64)
    let s1 := s.setf .DB_SQ_HEAD_HEAD q ((h + 1) % 2 ^ s.sqLog q)
    (if ue.getLsbD k then s1.readErr y a else s1.takeEntry q e (tbl.getLsbD k)).fetchN y q ue tbl (k + 1) n

/-- Firmware sets CMR_BOOT_CTL.OK with its first turn (R369 step 5, R374): start-up goes on with step 6. -/
def State.firmwareOk (s : State) : State :=
  if s.boot.step = 5 && !s.stable then
    { (s.setf .CMR_BOOT_CTL_OK 0 1) with
      boot := { s.boot with step := 6, t := s.now, attempts := 0 }
      aon := { s.aon with windows := s.aon.windows.filter fun w => w.dom != .block } }
  else s

/-- One turn of yard y's coachman. -/
def State.fetchTurn (s0 : State) (y : Nat) (ue tbl : BitVec 8) : State :=
  if !s0.coachAt y || s0.safe then s0
  else
    let s := s0.firmwareOk
    match s.nextPair y with
    | none => s
    | some q => (s.setYard y { s.yard y with rr := q + 1, quietAt := s.now }).fetchN y q ue tbl 0 (min 8 (min (s.unfetched q) (s.fetchRoom q)))

/-- SUBMISSION_FETCH. -/
def execSubmissionFetch (y : Yard) (s : State) (ue tbl : BitVec 8 := 0) : Out := event s fun s => s.fetchTurn y ue tbl

/-! ## BINDING_RECORD_WRITE (R81–R83, R281, R333, R335) -/

/-- The record for instance n of team t is free on every postilion of row y: STATE 0, or 3. -/
def State.recFree (s : State) (y t n : Nat) : Bool :=
  (List.range 16).all fun c => let st := (s.post (16 * y + c)).recState t n; st == 0 || st == 3

/-- The 64 B of the record, STATE 1 (Table 3.7, R281). -/
def State.recBytes (s : State) (i : Inst) (id : Nat) : List Byte :=
  let e := i.entry
  let groom := i.op == 0x30 || i.op == 0x31 || i.op == 0x32
  let k := if i.op = 0x28 || i.op = 0x31 || i.op = 0x48 || i.op = 0x49 || i.op = 0x50 then 0
    else chunkCount i.op (wIn e) (wCount e) (s.members i.team) (s.rf .TT_TEAM_CHUNK_LOG2 i.team)
  leBytes 2 id ++ leBytes 1 i.gen ++ leBytes 1 1 ++ leBytes 4 i.n ++ leBytes 24 (ent e 8 24) ++ leBytes 4 k ++ leBytes 2 (ent e 32 2)
    ++ leBytes 2 (ent e 6 2) ++ leBytes 4 (ent e 36 4)
    ++ (if groom then leBytes 2 (gD e) ++ leBytes 2 (gT e) else leBytes 4 (ent e 40 4)) ++ leBytes 8 (ent e 48 8)
    ++ leBytes 8 (if groom || eFrag e then ent e 56 8 else 0)

/-- Staging regions of yard y in use: depot base and length. -/
def State.stagesHeld (s : State) (y : Nat) : List (Nat × Nat) :=
  (s.insts.filter fun i => i.epoch && i.stageLen != 0 && s.rf .TT_TEAM_YARD i.team == y).map fun i => (i.stageBase, i.stageLen)

/-- The lowest free place of n bytes in yard y's staging area. -/
def State.stagePlace (s : State) (y n : Nat) : Option Nat :=
  let b := s.rf .YRD_EPOCH_STAGE_BASE_MIB y * 2 ^ 20
  let z := b + s.rf .YRD_EPOCH_STAGE_SIZE_MIB y * 2 ^ 20
  let used := s.stagesHeld y
  let fits (a : Nat) : Bool := a + n ≤ z && used.all fun u => u.1 + u.2 ≤ a || a + n ≤ u.1
  (b :: used.map fun u => u.1 + u.2).find? fits

/-- An EPOCH instance of team t that waits for its DECISION. -/
def State.unknownHeld (s : State) (t : Nat) : Bool := s.insts.any fun i => i.team == t && i.st == .ended && i.decision == 3

/-- Write the record into every postilion of the row and mark the instance bound. -/
def State.writeRecord (s : State) (i : Inst) (id stage len : Nat) : State :=
  let y := s.rf .TT_TEAM_YARD i.team
  let bs := s.recBytes i id
  let s1 := (List.range 16).foldl (fun (s : State) c =>
    s.setPost (16 * y + c) ((s.post (16 * y + c)).wrRam (recAddr i.team i.n) bs)) s
  s1.updInst (fun j => j.team == i.team && j.n == i.n) fun j => { j with st := .bound, stageBase := stage, stageLen := len }

/-- The coachman writes the record of command (q, id)'s instance when it may. -/
def State.bindRecord (s : State) (q id : Nat) : State :=
  match s.insts.find? fun i => i.cmd == some (q, id) && i.st == .waiting with
  | none => s
  | some i =>
    let y := s.rf .TT_TEAM_YARD i.team
    if !s.coachOk q || s.safe || !s.recFree y i.team i.n then s
    else if !i.epoch then s.writeRecord i id 0 0
    else if s.unknownHeld i.team then s
    else
      let n := (s.bufSizes i.entry).2
      match s.stagePlace y n with
      | some a => s.writeRecord i id a n
      | none => s

/-- BINDING_RECORD_WRITE. -/
def execBindingRecordWrite (q : QP) (id : BitVec 16) (s : State) : Out := event s fun s => s.bindRecord q id.toNat

/-! ## COMPLETION_POST (R269, R286) -/

/-- The 32 B completion entry (Table 10.4). -/
def State.doneBytes (s : State) (d : Done) : List Byte :=
  leBytes 2 d.id ++ leBytes 1 d.status ++ leBytes 1 d.flags ++ leBytes 2 (s.rf .DB_SQ_HEAD_HEAD d.q) ++ leBytes 1 d.qgen
    ++ leBytes 1 d.op ++ leBytes 4 d.sat ++ leBytes 4 d.flush ++ leBytes 4 d.amax ++ leBytes 4 d.pchunks ++ leBytes 4 d.pfirst
    ++ leBytes 4 d.result

/-- Completion ring q is in service. -/
def State.cqLive (s : State) (q : Nat) : Bool := q == 0 || s.on .DB_STATUS_CQ_LIVE q

/-- Remove the first item that passes the test. -/
def dropFirst {α : Type} (p : α → Bool) : List α → List α
  | [] => []
  | x :: t => if p x then t else x :: dropFirst p t

/-- Steps 1 to 5 of R269. -/
def State.postDone (s : State) (d : Done) : State :=
  let q := d.q
  let t := s.rf .DB_CQ_TAIL_TAIL q
  let t' := (t + 1) % 2 ^ s.cqLog q
  let s1 := (s.wrHost (s.cqBase q + 32 * t) (s.doneBytes d)).setf .DB_CQ_TAIL_TAIL q t'
  let s2 := if q != 0 && (s.qp q).mirror != 0 then s1.wrHost (s.qp q).mirror (leBytes 8 t') else s1
  let s3 : State := { s2 with qs := { s2.qs with dones := dropFirst (fun x => x == d) s2.qs.dones } }
  let s4 := s3.trace 2 (q + 65536 * d.id + 2 ^ 32 * d.status)
  let s5 := match d.after with
    | some p => s4.destroyed p
    | none => s4
  if s5.on .DB_CQ_ARM_ARM q then (s5.setf .DB_CQ_ARM_ARM q 0).vector (s5.cqVector q) else s5

/-- COMPLETION_POST: the oldest finished command of the pair with the id. -/
def execCompletionPost (q : QP) (id : BitVec 16) (s : State) : Out :=
  event s fun s =>
    let q : Nat := q
    match s.qs.dones.find? fun d => d.q == q && d.id == id.toNat with
    | some d =>
      let held := match d.after with
        | some p => s.qs.dones.any fun x => x.q == p && x != d
        | none => false
      if s.cqLive q && !s.safe && !held && !s.unacked d.inst then s.postDone d else s
    | none => s

/-! ## INTERRUPT_RESPONSE (R350) -/

/-- The host answers an interrupt message; the next one that waits leaves. -/
def State.irqAnswer (s : State) (err : Bool) : State :=
  if s.aon.irqOut = 0 then s
  else
    let s1 : State := match s.aon.irqq with
      | [] => { s with aon := { s.aon with irqOut := s.aon.irqOut - 1 } }
      | (a, v) :: t => { (s.emit (.irq a v)) with aon := { s.aon with irqq := t } }
    if err then s1.fault 49 else s1

/-- INTERRUPT_RESPONSE. -/
def execInterruptResponse (err : Bool) (s : State) : Out := event s fun s => s.irqAnswer err

/-! ## QUARANTINE_END and FENCE_END (R202, R312) -/

/-- A window of the key is freed once the quarantine has passed since its last traffic (R184; log entry 47). -/
def State.winIdle (s : State) (ep tn : Nat) (w : Win) : Bool :=
  w.ep == ep && w.tenant == tn && w.quarEnd == 0 && decide (w.last + s.quarantine ≤ s.now)

/-- The quarantine of an identifier that has passed ends. -/
def State.quarantineOver (s : State) (what : QuarId) : State :=
  match what with
  | .team t =>
    let x := s.team t
    if s.rf .TT_TEAM_STATE t = 3 && max x.quarEnd (x.lastTraffic + s.quarantine) ≤ s.now then s.setf .TT_TEAM_STATE t 0 else s
  | .window ep tn =>
    let hit (w : Win) : Bool := w.ep == ep.toNat && w.tenant == tn && w.quarEnd != 0 && max w.quarEnd (w.last + s.quarantine) ≤ s.now
    if s.net.wins.any hit then
      let s1 : State := { s with net := { s.net with wins := updWhere hit (fun w => { w with quarEnd := 0 }) s.net.wins } }
      (s1.freeReinStalls.pumpWaiting).pumpRemotes
    else if s.net.wins.any (s.winIdle ep.toNat tn) then
      let ws := s.net.wins.filter fun w => !s.winIdle ep.toNat tn w
      let s1 : State := { s with net := { s.net with wins := ws } }
      ((s1.setf .RTE_WINSTAT_IN_USE 0 ws.length).freeReinStalls.pumpWaiting).pumpRemotes
    else s
  | .pair q =>
    let x := s.qp q
    if s.on .DB_STATUS_QUARANTINE q && !s.destroying q && max x.quarEnd (x.lastTraffic + s.quarantine) ≤ s.now then s.setf .DB_STATUS_QUARANTINE q 0 else s

/-- QUARANTINE_END. -/
def execQuarantineEnd (what : QuarId) (s : State) : Out := event s fun s => s.quarantineOver what

/-- An endpoint leaves the fence table. -/
def State.fenceOver (s : State) (ep : Nat) : State :=
  let past (f : Fence) : Bool := f.ep == ep && f.until_ ≤ s.now
  let fs := s.net.fences.filter fun f => !past f
  ({ s with net := { s.net with fences := fs } }).setf .RTE_FENCE_ACTIVE 0 fs.length

/-- FENCE_END. -/
def execFenceEnd (ep : BitVec 16) (s : State) : Out := event s fun s => s.fenceOver ep.toNat

end Sys2Proof.Machine
end

