-- ==== Sys2Proof/Machine/TimeEvents.lean ====
section
/-! DEFINITION. TICKs, corrections of the counter, the overrun rule, loss and return of the reference (2.2–2.4, 2.7,
R35–R43, R56, R58, R59, R212). -/

namespace Sys2Proof.Machine

/-! ## TICK_SEND (R35) -/

/-- The 1,000 ns instant at or before now. -/
def State.sendAt (s : State) : Nat := s.now / 1000 * 1000

/-- A slot of the value column: the counter value, its CRC-32C, PAD (R212). -/
def tickSlot (v : Nat) : Slot :=
  BitVec.ofNat 128 (v % 2 ^ 64 + crc32c (leBytes 8 v) % 2 ^ 32 * 2 ^ 64 + 0xF7F7F7F7 * 2 ^ 96)

/-- Send a TICK on every sub-link of every live link with a measured delay (R35, R296). -/
def State.sendTicks (s : State) : State :=
  nat6.foldl (fun (s : State) l =>
    if s.timeLink l then (s.subTenants l).foldl (fun (s : State) t => s.emit (.tick l t (tickSlot s.now))) s else s) s

/-- TICK_SEND: an instant not yet served. -/
def execTickSend (s : State) : Out :=
  event s fun s => if s.time.lastSend < s.sendAt && !s.safe then { s.sendTicks with time := { s.time with lastSend := s.sendAt } } else s

/-! ## TICK_RECEIVE (R36, R212) -/

/-- The counter value of the first slot of the value column whose CRC-32C matches. -/
def tickValue (slots : List Slot) : Option Nat :=
  (slots.find? fun v => slotAt v 8 4 == crc32c (leBytes 8 (slotAt v 0 8))).map fun v => slotAt v 0 8

/-- A signed number in w bits, as stored. -/
def toField (w : Nat) (i : Int) : Nat := (i % (2 ^ w : Nat)).toNat

/-- The offset of a TICK in 1/64 ns: its column came `sub`/64 ns after the instant that the counter shows. -/
def State.tickOffset (s : State) (l v sub : Nat) : Int :=
  ((v * 64 + s.rf .SYN_LINK_DELAY_DELAY l : Nat) : Int) - ((s.mtc / 1024 + sub : Nat) : Int)

/-- Store the offset of a TICK; one from the source link enters the mean. -/
def State.tickHere (s : State) (l : Nat) (slots : List Slot) (sub : Nat) : State :=
  match tickValue slots with
  | none => s
  | some v =>
    let o := s.tickOffset l v sub
    let s1 := s.setfs [(.SYN_LINK_OFFSET_VALID, l, 1), (.SYN_LINK_OFFSET_OFFSET, l, toField 32 o)]
    if s.rf .SYN_TIME_STATE_SOURCE_LINK = l then { s1 with time := { s1.time with samples := s1.time.samples ++ [o] } } else s1

/-- TICK_RECEIVE. -/
def execTickReceive (l : Link) (slots : List Slot) (sub : Fin 512) (s : State) : Out :=
  event s fun s => if s.timeLink l then s.tickHere l slots sub else s

/-! ## TIME_CORRECTION and SLEW_COMPLETE (R42) -/

/-- Act on a mean offset m in 1/65,536 ns. -/
def State.correct (s : State) (m : Int) : State :=
  if m.natAbs ≤ 64 * 65536 then
    ({ s with time := { s.time with slew := m, correcting := true, waitStep := none } }).setfs
      [(.AON_MTC_STATUS_SLEWING, 0, 1), (.AON_MTC_STATUS_STEP_PENDING, 0, 0)]
  else if s.engSt = 0 then s.correctStep m
  else
    (({ s with time := { s.time with slew := 0, waitStep := some m } }).setfs
      [(.AON_MTC_STATUS_SLEWING, 0, 0), (.AON_MTC_STATUS_STEP_PENDING, 0, 1)]).fault 11

/-- The mean of 16 offsets, summed in 1/64 ns, takes effect. Which of its two neighbours MEAN_OFFSET shows when it is no multiple of 1/64 ns is
not stated: a free value (log entry 5). -/
def State.applyMean (s : State) (sum : Int) : State :=
  let up : Int := if sum % 16 = 0 then 0 else ((Config.freeWord s.fresh 0).toNat % 2 : Nat)
  let s1 := (s.setf .SYN_TIME_STATE_MEAN_OFFSET 0 (toField 32 (sum / 16 + up))).setf .AON_MTC_STATUS_HOLDOVER_LINKS 0 0
  ({ s1 with fresh := s1.fresh + 1, time := { s1.time with samples := s1.time.samples.drop 16 } }).correct (sum * 64)

/-- TIME_CORRECTION: sixteen offsets of the source link are there; the root takes none. -/
def execTimeCorrection (s : State) : Out :=
  event s fun s =>
    if s.on .SYN_TIME_CTL_ROOT || s.time.samples.length < 16 then s
    else s.applyMean ((s.time.samples.take 16).foldl (· + ·) 0)

/-- SLEW_COMPLETE: the slew, or the freeze, has nothing left. -/
def execSlewComplete (s : State) : Out :=
  event s fun s => if s.time.correcting && s.time.slew == 0 && s.time.freeze == 0 then s.corrected else s

/-! ## Overruns (R58, R59) -/

/-- Team slots of the segments that postilion p has not finished. -/
def State.unfinished (s : State) (p : Nat) : List Nat :=
  let x := s.post p
  (match x.cur with
    | some g => [g.team]
    | none => []) ++ (x.rest.filter fun g => !s.skipSeg p g).map (·.team)

/-- The tags that a postilion waits for. -/
def Post.waitTags (x : Post) : List TagOp :=
  match x.wait with
  | .tags m => x.tags.filter fun t => bitAt m t.tag
  | .ending | .tagStall => x.tags
  | _ => []

/-- The tag waits for a scheduled carriage: a receive, or bytes whose confirmation is outstanding. -/
def TagOp.awaitsCar (t : TagOp) : Bool :=
  match t.kind with
  | .recv => true
  | .xmit | .hwr | .dwr => !t.issued && (match t.blob with
    | some b => !b.deps.isEmpty
    | none => false)
  | _ => false

/-- The exceptions of R58: a wait that action 2 resolves, and a wait that a missing member leaves open. -/
def Post.exempt (x : Post) : Bool := (!x.waitTags.isEmpty && x.waitTags.all TagOp.awaitsCar) || (x.missing && x.wait != .run)

/-- Postilions in stage overrun. Those of a yard in reset are not sampled. -/
def State.overPosts (s : State) : List Nat :=
  if s.engSt < 2 then []
  else (List.range 64).filter fun p =>
    let st := s.rf .YRD_STATE_STATE (rowOf p)
    st != 1 && st != 3 && !(s.unfinished p).isEmpty && !(s.post p).exempt

/-- Postilions that were not done accumulate in TT_OVR_POST. -/
def State.noteLate (s : State) (ps : List Nat) : State :=
  s.setf .TT_OVR_POST_POSTILIONS 0 (s.rf .TT_OVR_POST_POSTILIONS ||| ps.foldl (fun m p => m + 2 ^ p) 0)

/-- The overrun of team t in TT_OVR_INFO. -/
def State.noteOverrun (s : State) (t : Nat) : State :=
  (s.sat .TT_OVR_INFO_COUNT 0).setfs [(.TT_OVR_INFO_STAGE_IDX, 0, s.rf .TT_STATUS_STAGE_IDX), (.TT_OVR_INFO_TEAM, 0, t),
    (.TT_OVR_INFO_TEAM_GEN, 0, s.rf .TT_TEAM_GEN t)]

/-! ## Reference (R41) -/

/-- Teams whose slot instances the engine's stop ends mid-operation. Degraded ones and replays do not end with it; a BARRIER whose slot has passed
goes on waiting for its release (log entry 106). -/
def State.cutTeams (s : State) : List Nat :=
  (List.range 64).filter fun t => match s.running t with
    | some i => !i.degraded
    | none => false

/-- What the engine's stop ends is overrun, but no STAGE_OVERRUN is latched (R56, R59). -/
def State.cutInstances (s : State) : State :=
  let ts := s.cutTeams
  let ps := s.overPosts.filter fun p => (s.unfinished p).any ts.contains
  ts.foldl (fun (s : State) t => (s.noteOverrun t).abortWithHalt t 1) (if ps.isEmpty then s else s.noteLate ps)

/-- Stop the engine at once, cutting off what runs (R41, R56, R57). -/
def State.cutEngine (s : State) : State := if s.engSt = 0 then s else s.cutInstances.stopEngine

/-- The always-on island at the loss of the reference: the counter runs on the AON oscillator, 32 ns ahead. -/
def State.toOscillator (s : State) : State :=
  (({ s with time := { s.time with ref := .lost, samples := [] } }).setMtc (s.mtc + 32 * 65536)).setfs
    [(.AON_MTC_STATUS_HOLDOVER_REF, 0, 1), (.AON_MTC_STATUS_TRUSTED, 0, 0), (.AON_MTC_STATUS_SOURCE, 0, 1)]

/-- The loss with the core domain on: the fault, the engine's stop, and the links' going down besides. -/
def State.loseReference (s : State) : State :=
  nat6.foldl (fun (s : State) l => if s.linkSt l = 0 then s else s.leave l 1) (s.toOscillator.fault 10).cutEngine

/-- REFERENCE_LOSS. -/
def execReferenceLoss (s : State) : Out :=
  island s (fun s => if s.time.ref == .present then s.loseReference else s) fun s => if s.time.ref == .present then s.toOscillator else s

/-- REFERENCE_RETURN: the counter runs on the reference again; on the root the next tick restores TRUSTED. -/
def State.regainReference (s : State) : State :=
  ({ s with time := { s.time with ref := .present, rootRegain := s.on .SYN_TIME_CTL_ROOT } }).setfs
    [(.AON_MTC_STATUS_HOLDOVER_REF, 0, 0), (.AON_MTC_STATUS_SOURCE, 0, 0)]

def State.maybeRegain (s : State) : State := if s.time.ref == .lost then s.regainReference else s

def execReferenceReturn (s : State) : Out := island s State.maybeRegain State.maybeRegain

end Sys2Proof.Machine
end

