-- ==== Sys2Proof/Machine/Work.lean ====
section
/-! DEFINITION. The team work commands: validated, counted and bound (10.6, R26, R27). Their data move in the stages of
their instance. -/

namespace Sys2Proof.Machine

/-- ALLREDUCE. -/
def execAllreduce (q : QP) (e : Entry) (s : State) : Out := event s fun s => s.teamCmd q 0x20 e collFields (collBad e)
/-- REDUCE_SCATTER. -/
def execReduceScatter (q : QP) (e : Entry) (s : State) : Out := event s fun s => s.teamCmd q 0x21 e collFields (collBad e)
/-- ALLGATHER. -/
def execAllgather (q : QP) (e : Entry) (s : State) : Out := event s fun s => s.teamCmd q 0x22 e collFields (collBad e)
/-- BROADCAST. -/
def execBroadcast (q : QP) (e : Entry) (s : State) : Out := event s fun s => s.teamCmd q 0x23 e collFields (collBad e)
/-- REDUCE. -/
def execReduce (q : QP) (e : Entry) (s : State) : Out := event s fun s => s.teamCmd q 0x24 e collFields (collBad e)
/-- ALLTOALL. -/
def execAlltoall (q : QP) (e : Entry) (s : State) : Out := event s fun s => s.teamCmd q 0x25 e collFields (collBad e)
/-- GATHER. -/
def execGather (q : QP) (e : Entry) (s : State) : Out := event s fun s => s.teamCmd q 0x26 e collFields (collBad e)
/-- SCATTER. -/
def execScatter (q : QP) (e : Entry) (s : State) : Out := event s fun s => s.teamCmd q 0x27 e collFields (collBad e)
/-- BARRIER (R254). -/
def execBarrier (q : QP) (e : Entry) (s : State) : Out := event s fun s => s.teamCmd q 0x28 e collFields (barrierBad e)
/-- RCUG (R150, R163). -/
def execRcug (q : QP) (e : Entry) (s : State) : Out := event s fun s => s.teamCmd q 0x30 e groomFields (groomBad e)
/-- UPDATE (R166). -/
def execUpdate (q : QP) (e : Entry) (s : State) : Out := event s fun s => s.teamCmd q 0x31 e groomFields (groomBad e)
/-- NORM (R167). -/
def execNorm (q : QP) (e : Entry) (s : State) : Out := event s fun s => s.teamCmd q 0x32 e groomFields (groomBad e)

/-- OFFLOAD and FETCH: a far endpoint whose entry does not admit the tenant completes TENANT_BLOCKED (R177). -/
def State.moveCmd (s : State) (q op : Nat) (e : Entry) : State :=
  let ep := oDepot e / 2 ^ 48
  let refuse (s : State) : Bool := oLink e != 7 && !bitAt (s.rf .RTE_EP_LO_TENANT_MASK ep) (s.yardTenant (s.rf .TT_TEAM_YARD (wTeam e)))
  match s.start? q op e with
  | none => s
  | some _ =>
    if (firstBad (teamBad q e s)).isNone && (formBad e moveFields).isNone && !(s.oos || s.stable)
        && wGen e == s.rf .TT_TEAM_GEN (wTeam e) && (firstBad (moveBad e s)).isNone && refuse s
    then s.finish q (eId e) op 7
    else s.teamCmd q op e moveFields (moveBad e)

/-- OFFLOAD (R169). -/
def execOffload (q : QP) (e : Entry) (s : State) : Out := event s fun s => s.moveCmd q 0x48 e
/-- FETCH (R169). -/
def execFetch (q : QP) (e : Entry) (s : State) : Out := event s fun s => s.moveCmd q 0x49 e
/-- COPY (10.6). -/
def execCopy (q : QP) (e : Entry) (s : State) : Out := event s fun s => s.teamCmd q 0x50 e collFields (copyBad e)

end Sys2Proof.Machine
end

