-- ==== Sys2Proof/Machine/RegRead.lean ====
section
/-! DEFINITION. Reading registers: the fields that show state kept elsewhere, and whole register values (Table 0.4, 14.5). -/

namespace Sys2Proof.Machine

/-- The generator's test output for the present inputs (R143). -/
def State.srgNow (s : State) : Nat :=
  srg (s.rf .ARR_SRG_KEY_KEY) (s.rf .ARR_SRG_CTR_INDEX) (s.rf .ARR_SRG_TS_TENSOR) (s.rf .ARR_SRG_TS_STEP) (s.rf .ARR_SRG_CTR_POINT)

/-- ARR_SRG_OUT: within 16 core cycles (10 ns) of writes, the output before the oldest of them (R143). -/
def State.srgOut (s : State) : Nat :=
  match s.arr.srg.find? fun x => s.now < x.1 + 10 with
  | some x => x.2
  | none => s.srgNow

/-- The oldest operation of the array's queue that waits to start. -/
def State.arrHead (s : State) : Option ArrOp :=
  if s.arr.cur.isSome then none else s.arr.queue.head?

/-- The array waits on a hitch or depot stream: the running operation for its data to come, or the next one for its first data. -/
def State.arrStalled (s : State) : Bool :=
  match s.arr.cur, s.arrHead with
  | some c, _ => s.stalls c
  | none, some o => !s.updBegun o ||
    o.sources.any fun x => (wKind x.1 == 3 || wKind x.1 == 4) && (s.operand o.row x.1 x.2).isNone && !s.streamBegun o.row x.1
  | none, none => false

/-- Yard resets within the window, each strictly younger than WINDOW_S seconds (R332). -/
def State.resetCount (s : State) : Nat :=
  (s.aon.resets.filter fun t => decide (s.now - t < s.rf .AON_RESET_WIN_WINDOW_S * 1000000000)).length

/-- CMR_BOOT_CTL.STEP of a start-up step (Table 13.15). -/
def bootCode (step : Nat) : Nat := if step ≤ 2 then 0 else if step ≤ 4 then 1 else if step = 5 then 2 else 3

/-- The registers that the fuses fix (R377). -/
def fused (r : Reg) : Bool := [Reg.GLB_ID, .GLB_CFG0, .GLB_CFG1, .GLB_CFG2, .GLB_CAP, .GLB_FREQ, .GLB_SERIAL].contains r

/-- A field of DB_STATUS that describes a ring of pair i; those of pair 0 are what ADM_CTL gives while it is enabled (DEDUCED: log entry 130). -/
def State.ringField (s : State) (i own adm : Nat) : Nat := if i = 0 then (if s.on .ADM_CTL_EN then adm else 0) else own

/-- What field f of register index i reads as. -/
def State.rd (s : State) (f : Fld) (i : Nat) : Nat :=
  match f with
  | .GLB_STATUS_DEPOT_READY => b2n (s.rf .DEP_STATUS_TRAINED == 0xFFFF)
  | .GLB_STATUS_FW_OK => s.rf .CMR_BOOT_CTL_OK
  | .GLB_STATUS_STABLE => s.rf .AON_BOOT_STABLE
  | .GLB_STATUS_OOS => s.rf .FLT_CTL_OOS
  | .GLB_STATUS_SAFE => s.rf .FLT_CTL_SAFE
  | .GLB_STATUS_SLICE_SET => b2n s.sliceSet
  | .SYN_FLAG_YARD => (s.objYard i).getD 0
  | .SYN_REALIGN_EPOCH => s.epochNow
  | .DB_STATUS_OUTSTANDING => s.outstanding i
  | .DB_STATUS_SQ_LOG2 => s.ringField i (s.rf .DB_STATUS_SQ_LOG2 i) (s.rf .ADM_CTL_SQ_LOG2)
  | .DB_STATUS_CQ_LOG2 => s.ringField i (s.rf .DB_STATUS_CQ_LOG2 i) (s.rf .ADM_CTL_CQ_LOG2)
  | .DB_STATUS_VECTOR => s.ringField i (s.rf .DB_STATUS_VECTOR i) (s.rf .ADM_CTL_VECTOR)
  | .DB_STATUS_SQ_LIVE => s.ringField i (s.rf .DB_STATUS_SQ_LIVE i) 1
  | .DB_STATUS_CQ_LIVE => s.ringField i (s.rf .DB_STATUS_CQ_LIVE i) 1
  | .ARR_STATUS_CUR_OPC => match s.arr.cur with
    | some c => dOpc c.op.desc
    | none => 0
  | .ARR_STATUS_CUR_ROW => match s.arr.cur with
    | some c => c.op.row
    | none => 0
  | .ARR_STATUS_CUR_COL => match s.arr.cur with
    | some c => b2n (c.op.col == 13)
    | none => 0
  | .ARR_STATUS_HAZARD => match s.arrHead with
    | some o => b2n (s.hazard o)
    | none => 0
  | .ARR_STATUS_STALL => b2n s.arrStalled
  | .ARR_STATUS_BUSY => b2n s.arr.cur.isSome
  | .ARR_SRG_OUT_WORD => s.srgOut
  | .AON_RESET_WIN_COUNT => s.resetCount
  | .FLT_CTL_SAFE_N_LOW => b2n (!s.pins.safeN)
  | .CMR_BOOT_CTL_STEP => bootCode s.boot.step
  | _ => if fused (fieldSpec f).reg then fldReset s.fuses f i else if (fieldSpec f).acc = .wo then 0 else s.rf f i

/-- What register r of index i reads as. -/
def State.regVal (s : State) (r : Reg) (i : Nat := 0) : Nat := (regFields r).foldl (fun n f => n + fplace f (s.rd f i)) 0

end Sys2Proof.Machine
end

