-- ==== Sys2Proof/Machine/FaultEvents.lean ====
section
/-! DEFINITION. Events of the fault collector, temperatures, the power-fail record, and the bytes of the AON log (12.1, 12.7, 13.8). -/

namespace Sys2Proof.Machine

/-! ## The pin and persisting conditions (R314–R316) -/

/-- The level of FLT_N, true = high: low while a set bit has reaction 1 or more, and in the safe state (R316). -/
def State.fltN (s : State) : Bool :=
  !s.safe && (List.range 64).all fun b => !(bitAt (s.rf .FLT_STATUS_SOURCES) b && (b == 0 || 1 ≤ s.reaction b))

/-- Sensor n (0–15 yards, 16–31 depot channels) has given a reading, and that reading, 0 while none has come. -/
def State.hasTemp (s : State) (n : Nat) : Bool := sget (fun _ => 0) s.power.sensors n != 0
def State.temp (s : State) (n : Nat) : Nat := sget (fun _ => 0) s.power.sensors n - 1

/-- Throttle level of channel c as measured, and its refresh doubling. -/
def State.chanLevel (s : State) (c : Nat) : Nat := sget (fun _ => 0) s.power.chan c % 4
def State.chanRefresh (s : State) (c : Nat) : Bool := 4 ≤ sget (fun _ => 0) s.power.chan c

/-- Any sensor is above t. -/
def State.hotter (s : State) (lo n t : Nat) : Bool := (List.range n).any fun k => decide (t < s.temp (lo + k))

/-- Two sensors of a yard that have given a reading differ by more than 10 °C. A depot channel has one sensor (DEDUCED: log entry 38). -/
def State.sensorsDiffer (s : State) : Bool :=
  nat4.any fun y => nat4.any fun j => nat4.any fun k => s.hasTemp (4 * y + j) && decide (s.temp (4 * y + j) + 10 < s.temp (4 * y + k))

/-- The condition of source b holds now, so that a cleared bit is set again (R314; which sources are conditions is DEDUCED: log entry 39). -/
def State.persists (s : State) (b : Nat) : Bool :=
  match b with
  | 3 => s.hotter 16 16 110 || s.hotter 0 16 115
  | 8 => !s.pins.safeN
  | 9 => !s.pins.pfwN
  | 10 => s.time.ref == .lost
  | 13 => nat6.any fun l => s.rf .LNK_FIBRE_LASER_FAULT l != 0
  | 25 => s.hotter 16 16 95
  | 40 => s.oos
  | 46 => s.hotter 0 32 85
  | 47 => s.sensorsDiffer
  | 53 => s.stable
  | _ => s.aon.persist.contains b

/-- Latch every source of the mask whose condition persists. -/
def State.relatch (s : State) (mask : Nat) : State :=
  (List.range 64).foldl (fun (s : State) b => if bitAt mask b && s.persists b then s.fault b else s) s

/-! ## Plain sources of Table 12.1 -/

/-- COLLECTOR_MISMATCH: source 0, whose safe state no reaction field can prevent (R318). -/
def execCollectorMismatch (s : State) : Out := event s fun s => s.fault 0

/-- AON_OSCILLATOR_LOSS: source 6, a condition that lasts. -/
def execAonOscillatorLoss (s : State) : Out :=
  event s fun s => ({ s with aon := { s.aon with persist := if s.aon.persist.contains 6 then s.aon.persist else s.aon.persist ++ [6] } }).fault 6

/-- COACHMAN_WATCHDOG_EXPIRY: source 41; the record names the yard. -/
def execCoachmanWatchdogExpiry (y : Yard) (s : State) : Out := event s fun s => s.fault 41 (.yard y.val) y.val

/-- CM_MEM_UE: source 42. -/
def execCmMemUe (y : Yard) (s : State) : Out := event s fun s => s.fault 42 (.yard y.val) y.val

/-- CM_TRAP: source 43. -/
def execCmTrap (y : Yard) (s : State) : Out := event s fun s => s.fault 43 (.yard y.val) y.val

/-- CTL_PORT_VIOLATION: source 48. -/
def execCtlPortViolation (s : State) : Out := event s fun s => s.fault 48

/-- SHADOW_WINDOW_END: a window whose time has passed closes (R325). -/
def execShadowWindowEnd (d : Domain) (s : State) : Out :=
  event s fun s => { s with aon := { s.aon with windows := s.aon.windows.filter fun w => !(w.dom == d && decide (w.until_ ≤ s.now)) } }

/-! ## Temperatures (Table 13.9, R365) -/

/-- Thresholds of the throttle steps 1–3. -/
def throttleSteps : List Nat := [95, 100, 105]

/-- Level of a channel at temperature t that had level v: steps are taken above their thresholds and left 3 °C below them. -/
def throttleAt (v t : Nat) : Nat :=
  max (throttleSteps.filter fun h => decide (h < t)).length (min v (throttleSteps.filter fun h => decide (h < t + 3)).length)

/-- The halved refresh interval: above 85 °C, left below 82 °C. -/
def refreshAt (v : Bool) (t : Nat) : Bool := decide (85 < t) || (v && decide (82 ≤ t))

/-- Throttle levels and refresh rates take effect: PWR_THERM and DEP_STATUS show them. -/
def State.applyThermal (s : State) : State :=
  let ch := List.range 16
  s.setfs [(.PWR_THERM_THROTTLE, 0, greatest (ch.map s.chanLevel)), (.PWR_THERM_REFRESH_X2, 0, b2n (ch.any s.chanRefresh)),
    (.DEP_STATUS_THROTTLE, 0, pack2 (ch.map s.chanLevel))]

/-- The registers that show temperatures. -/
def State.showTemps (s : State) : State :=
  let tempK (k : Nat) : Nat := leNat ((List.range 8).map fun j => BitVec.ofNat 8 (s.temp (16 + 8 * k + j)))
  s.setfs [(.PWR_THERM_BLOCK_MAX, 0, greatest ((List.range 16).map s.temp)),
    (.PWR_THERM_DEPOT_MAX, 0, greatest ((List.range 16).map fun c => s.temp (16 + c))),
    (.DEP_TEMP_TEMP, 0, tempK 0), (.DEP_TEMP_TEMP, 1, tempK 1)]

/-- Index of a sensor. -/
def sensorIx : Sensor → Nat
  | .yard y k => 4 * y.val + k.val
  | .depot c => 16 + c.val

/-- A sensor reads t: levels follow, at the next tick or at once while the engine is STOPPED; the sources of Table 13.9 latch. -/
def State.thermal (s : State) (x : Sensor) (t : Nat) : State :=
  let s1 : State := { s with power := { s.power with sensors := sset (fun _ => 0) s.power.sensors (sensorIx x) (t + 1) } }
  let s2 : State := match x with
    | .depot c =>
      let v := throttleAt (s.chanLevel c.val) t + 4 * b2n (refreshAt (s.chanRefresh c.val) t)
      { s1 with power := { s1.power with chan := sset (fun _ => 0) s1.power.chan c.val v } }
    | .yard _ _ => s1
  let s3 := s2.showTemps
  (if s3.engSt = 0 then s3.applyThermal else s3).relatch (2 ^ 3 + 2 ^ 25 + 2 ^ 46 + 2 ^ 47)

/-- THERMAL_THRESHOLD_CROSSING. -/
def execThermalThresholdCrossing (x : Sensor) (temp : BitVec 8) (s : State) : Out := event s fun s => s.thermal x temp.toNat

/-! ## The AON log as bytes, the power-fail record (R338, R340, Table 12.7) -/

/-- Bytes of a log record. -/
def LogRec.bytes (r : LogRec) : List Byte :=
  if r.gap then leBytes 8 0
  else leBytes 8 r.mtc ++ leBytes 1 r.typ ++ leBytes 1 r.unit ++ leBytes 2 r.body.length ++ leBytes 4 r.detail
    ++ (r.body.map fun w => leBytes 8 w.toNat).flatten

/-- The ring in order, oldest first. -/
def State.logBytes (s : State) : List Byte := (s.aon.log.map LogRec.bytes).flatten

/-- The 4 KiB record of Table 12.7. -/
def State.pfwRecord (s : State) : List Byte :=
  let w (r : Reg) (i : Nat) : List Byte := leBytes 8 (s.regVal r i)
  let bs := [0x46, 0x43, 0x52, 0x36, 0, 0, 0, 0] ++ leBytes 8 s.now ++ w .FLT_STATUS 0 ++ w .FLT_FIRST 0 ++ w .FLT_FIRST_MTC 0
    ++ (nat4.map (w .YRD_STATE)).flatten ++ (nat6.map (w .LNK_STATE)).flatten ++ w .TT_STATUS 0 ++ w .TT_STORE 0
    ++ ((List.range 64).map (w .TT_EPOCH)).flatten ++ w .GRM_MIR_CFG 0 ++ w .GRM_MIR_OUT_EPOCH 0 ++ w .GRM_MIR_OUT 0
    ++ w .GRM_MIR_OUTSTAT 0 ++ w .GRM_MIR_COPY_EPOCH 0 ++ w .GRM_MIR_COPY 0 ++ w .GRM_MIR_COPY_EPOCH 1 ++ w .GRM_MIR_COPY 1
  bs ++ List.replicate (4096 - bs.length) 0

/-- PFW_N falls: POWER_WARN, and with EN the record and the log go to host memory, in the safe state too. -/
def State.powerFail (s : State) : State :=
  let s1 := ({ s with pins := { s.pins with pfwN := false } }).fault 9
  if s1.on .FLT_PFW_ADDR_EN then s1.wrHost (s1.rf .FLT_PFW_ADDR_ADDR * 4096) (s1.pfwRecord ++ s1.logBytes) else s1

/-- POWER_FAIL_WARNING: PFW_N was high. -/
def execPowerFailWarning (s : State) : Out := event s fun s => if s.pins.pfwN then s.powerFail else s

end Sys2Proof.Machine
end

