-- ==== Sys2Proof/Machine/YardReset.lean ====
section
/-! DEFINITION. Command timeouts, yard resets with their crash dump, replay and escalation, and the deadlock detector (9.7, 10.4, 12.3, 12.5). -/

namespace Sys2Proof.Machine

/-! ## The crash dump (R329, R339) -/

/-- Bytes of a dump record with n suspects. -/
def dumpSize (n : Nat) : Nat := 96 + n * (64 + 2 * 65536)

/-- A 64 KiB sample of bank y from offset o, of at most n bytes; what lies outside the region is zero. -/
def State.sample (s : State) (y o n : Nat) : List Byte :=
  let k := min n 65536
  rdBytes s.scratch (scrAddr y o) k ++ List.replicate (65536 - k) 0

/-- A suspect's section: header and the samples of the ends of its region (log entry 40 for the places in the headers). -/
def State.dumpSuspect (s : State) (y : Nat) (i : Inst) : List Byte :=
  let id := match i.cmd with | some c => c.2 | none => 0xFFFF
  let n := i.scrHi - i.scrLo
  leBytes 1 i.team ++ leBytes 3 0 ++ leBytes 4 i.n ++ leBytes 2 id ++ leBytes 6 0 ++ leBytes 8 i.scrLo ++ leBytes 8 i.scrHi ++ List.replicate 32 0
    ++ s.sample y i.scrLo n ++ s.sample y (i.scrHi - min n 65536) n

/-- Write a dump record for yard y: cause 0 RESET_YARD, 1 hang, 2 replay. -/
def State.dump (s : State) (y cause : Nat) (run : List Inst) : State :=
  let size := s.rf .FLT_DUMP_BASE_SIZE_MIB * 2 ^ 20
  let n := dumpSize run.length
  if size < n then s
  else
    let o := if s.rf .FLT_DUMP_PTR_NEXT + n ≤ size then s.rf .FLT_DUMP_PTR_NEXT else 0
    let hd := leBytes 8 s.now ++ leBytes 1 y ++ leBytes 1 (s.rf .YRD_STATE_GEN y) ++ leBytes 1 cause ++ leBytes 1 run.length ++ List.replicate 52 0
    let last := (nat4.map fun w => leBytes 8 (s.regVal .ARR_LASTOP (4 * y + w))).flatten
    ((s.wrHost (s.rf .FLT_DUMP_BASE_ADDR * 4096 + o) (hd ++ last ++ (run.map (s.dumpSuspect y)).flatten)).setf .FLT_DUMP_PTR_NEXT 0 (o + n)).inc
      .FLT_DUMP_PTR_RECORDS 0

/-! ## Out of service (R288, R332) -/

/-- Complete every outstanding command of every pair but 0 OUT_OF_SERVICE. -/
def State.completeOos (s : State) : State :=
  let s1 := (s.qs.fetched.filter fun f => f.q != 0).foldl (fun (s : State) (f : Fetched) => s.finish f.q (eId f.e) (eOp f.e) 0xA) s
  (s1.qs.cmds.filter fun c => c.q != 0).foldl (fun (s : State) (c : Cmd) => s.finishCmd c 0xA) s1

/-- Abort team t with a HALT RESETTING; its commands are left. -/
def State.abortReset (s : State) (t : Nat) : State :=
  if s.rf .TT_TEAM_STATE t != 1 then s
  else
    let unk := s.epochOpen t
    let s1 := ((s.haltTeam t 3).abortCore t none).retireCheck t
    if unk then s1.fault 50 else s1

/-- The reset of yard y ends (Table 12.4, step 8). -/
def State.finishReset (s : State) (y : Nat) : State :=
  let r := s.yard y
  let s1 := ((s.setf .YRD_STATE_STATE y (if s.oos then 3 else 0)).setf .YRD_STATE_REPLAY_TEAM y 0).fault (36 + y) (.yard y)
  let s2 := s1.setYard y { s1.yard y with step := .running, cmd := none, suspects := [], replaying := none }
  match r.cmd with
  | some (q, id) => s2.finish q id 0x0E (if s.oos then 0xA else 0)
  | none => s2

/-- The block goes out of service. -/
def State.goOos (s : State) : State :=
  let s1 := ((s.setf .FLT_CTL_OOS 0 1).fault 40).completeOos
  let s2 := s1.activeTeams.foldl (fun (s : State) t => s.abortReset t) s1
  nat4.foldl (fun (s : State) y =>
    match (s.yard y).step with
    | .running => s.setf .YRD_STATE_STATE y 3
    | .replay => s.finishReset y
    | _ => s.setYard y { s.yard y with suspects := [] }) s2

/-! ## Steps 0–3 of a yard reset (R321, R329, Table 12.4) -/

/-- Completions that the commands of team t take when it is aborted by a reset. -/
def State.heldDones (s : State) (t : Nat) : List Done :=
  let mine := s.insts.filter fun i => i.team == t && !i.over
  let own := mine.filterMap fun i => match i.cmd with
    | some (q, id) => if (s.cmd? q id).isSome then some (i.done q id 1) else none
    | none => none
  let rest := (s.qs.cmds.filter fun c => match c.phase with
    | .work u n => u == t && !(s.insts.any fun i => i.team == t && i.n == n)
    | _ => false).map fun c => plainDone c.q c.id (eOp c.e) 1 0
  own ++ rest

/-- Abort team t of yard y; its commands complete at step 6. -/
def State.abortHeld (s : State) (y t : Nat) : State :=
  let ds := s.heldDones t
  let s1 := s.abortReset t
  s1.setYard y { s1.yard y with held := (s1.yard y).held ++ ds }

/-- The yard in whose quarter the incoming mirror region lies (R300). -/
def State.holdingYard (s : State) : Option Nat := if s.mirSize = 0 then none else some (s.mirBase / s.quarter % 4)

/-- A carriage that yard y of this chip has issued and that waits for its output. A response names the requester's yard, and is no carriage of the yard;
what a router passes on holds a link's port (R198). -/
def State.yardCar (s : State) (y : Nat) (o : OutCar) : Bool :=
  cSrc o.c == s.self && 6 ≤ o.port && cYard o.c == y && !([3, 5, 9, 12].contains (cKind o.c))

/-- Steps 1 and 2: `kept` are the suspects that will be replayed. -/
def State.beginReset (s : State) (y : Nat) (replay : Bool) (kept : List Suspect) : State :=
  let s1 := ((s.setf .YRD_STATE_STATE y 1).sat .YRD_STATE_RESETS y).log 8 y 0
  let s2 : State := { s1 with
    aon := { s1.aon with resets := (s1.aon.resets ++ [s1.now]).drop (s1.aon.resets.length - 15) } }
  let s3 := if h : y < 4 then s2.shadow (.yard ⟨y, h⟩) 10000000 else s2
  let r := s3.yard y
  let s4 := s3.setYard y { r with step := .waitTick, t1 := s.now, replay := replay, suspects := kept, replaying := none }
  let s5 := if !s4.oos && s4.rf .AON_RESET_WIN_LIMIT ≤ s4.resetCount then s4.goOos else s4
  let safe (t : Nat) : Bool := (s5.yard y).suspects.any fun x => x.inst.team == t
  let s6 := (s5.activeTeams.filter fun t => s5.rf .TT_TEAM_YARD t == y && !safe t).foldl (fun (s : State) t => s.abortHeld y t) s5
  let s7 : State := { s6 with net := { s6.net with waiting := s6.net.waiting.filter fun w => w.yard != y } }
  let s8 := s7.cancelOut (s7.yardCar y)
  let s9 : State := { s8 with arr := { s8.arr with cur := s8.arr.cur.map fun c => if c.op.row = y then { c with discard := true } else c } }
  let s10 := s9.groomCut y
  if s10.holdingYard = some y then s10.mirInvalid else s10

/-- The instances running in yard y, in ascending team slot, BARRIER excluded. -/
def State.yardRunning (s : State) (y : Nat) : List Inst :=
  (List.range 64).filterMap fun t => s.insts.find? fun i => i.team == t && i.st == .running && i.op != 0x28 && s.rf .TT_TEAM_YARD t == y

/-- A reset of yard y starts. An instance whose epoch decision is recorded ends first, as that decision gives (R330). -/
def State.startReset (s : State) (y : Nat) (replay : Bool) (cmd : Option (Nat × Nat)) : State :=
  let s1 := ((s.yardRunning y).filter fun i => i.decision != 0).foldl (fun (s : State) i => s.endInst i) s
  let run := s1.yardRunning y
  let kept := if replay then (run.filter s1.replayable).map fun i => ({ inst := i, replayable := true } : Suspect) else []
  let s2 := s1.dump y (b2n cmd.isNone) run
  (s2.setYard y { s2.yard y with cmd := cmd }).beginReset y replay kept

/-- Step 3, at the tick: the array drops the yard's operations, its postilions are gated. -/
def State.yardTick (s : State) (y : Nat) : State :=
  if (s.yard y).step != .waitTick then s
  else
    let s1 := (List.range 16).foldl (fun (s : State) c =>
      let x := s.post (16 * y + c)
      s.setPost (16 * y + c) { x with cur := none, rest := [], wait := .run, tags := [] }) s
    let s2 : State := { s1 with
      arr := { s1.arr with queue := s1.arr.queue.filter fun o => o.row != y }
      hitch := { s1.hitch with waitq := s1.hitch.waitq.filter fun r => r.yg / 16 != y }
      mesh := s1.mesh.filter fun m => rowOf m.src != y && rowOf m.dst != y }
    s2.setYard y { s2.yard y with step := .draining }

/-- RESET_YARD (R321). -/
def resetYardBad (e : Entry) (s : State) : List (Bool × Nat × Nat) :=
  [(decide (3 < ent e 4 1), rField, 4), (decide (1 < ent e 5 1), rField, 5), (s.rf .YRD_STATE_STATE (ent e 4 1) != 0, rState, 4)]

def execResetYard (q : QP) (e : Entry) (s : State) : Out :=
  event s fun s => s.adminCmd q 0x0E e [(4, 1), (5, 1)] (resetYardBad e) fun s ft =>
    (s.adopt ft (.yardReset (ent e 4 1))).startReset (ent e 4 1) (ent e 5 1 == 1) (some (q, eId e))

/-! ## Steps 4–8 -/

/-- Every hitch and depot request of the yard is answered, or the bound has passed since the last. -/
def State.drained (s : State) (y : Nat) : Bool :=
  (!(s.hitch.reqs.any fun r => r.yg / 16 == y) && !(s.hitch.dreqs.any fun r => r.use.yard? == some y)) || decide ((s.yard y).lastReq + s.rf .HCH_BOUND_BOUND_US * 1000 < s.now)

/-- Step 5: the generation advances, the bank and the row are cleared and reloaded, waiters are removed. -/
def State.clearYard (s : State) (y : Nat) : State :=
  let inBank (a : Nat) : Bool := a / 2 ^ 26 == y
  let s1 : State := { s with
    scratch := skeep (fun a => !inBank a) s.scratch
    arr := { s.arr with
      marks := s.arr.marks.filter fun m => !inBank (64 * m.1)
      kept := s.arr.kept.filter fun k => k.op.row != y
      rxbuf := s.arr.rxbuf.filter fun b => b.row != y
      txbuf := s.arr.txbuf.filter fun b => b.row != y
      streams := s.arr.streams.filter fun b => b.row != y
      wait := skeep (fun r => r != y) s.arr.wait }
    groom := { s.groom with mirStage := s.groom.mirStage.filter fun m => m.1 != y }
    hitch := { s.hitch with
      veh := skeep (fun k => k % 4 != y) s.hitch.veh
      dreqs := s.hitch.dreqs.filter fun r => r.use.yard? != some y }
    sync := { s.sync with coach := s.sync.coach.filter fun c => c.y != y } }
  let s2 := (s1.inc .YRD_STATE_GEN y).setf .ARR_WAIT_WAIT y 0
  (List.range 16).foldl (fun (s : State) c =>
    s.setPost (16 * y + c) (match s.prog (16 * y + c) with
      | some pr => ({} : Post).load pr
      | none => {})) s2

/-- YARD_DRAIN_COMPLETE. -/
def execYardDrainComplete (y : Yard) (s : State) : Out :=
  event s fun s =>
    if (s.yard y.val).step == .draining && s.drained y.val then
      let s1 := s.clearYard y.val
      s1.setYard y.val { s1.yard y.val with step := .cleared }
    else s

/-- Step 6: commands held complete, remote operations complete ABORTED, what has not started is bound again; then replay or the end. -/
def State.restartCoach (s : State) (y : Nat) : State :=
  let r := s.yard y
  let s1 := r.held.foldl (fun (s : State) d => if (s.cmd? d.q d.id).isSome then s.finishWith d else s) s
  let s2 := (s1.qs.cmds.filter fun c => c.q != 0 && s1.qYard c.q == y && match c.phase with
    | .remote _ => true
    | _ => false).foldl (fun (s : State) (c : Cmd) => s.finishCmd c 1) s1
  let s3 := s2.updInst (fun i => i.st == .bound && s2.rf .TT_TEAM_YARD i.team == y) fun i => { i with st := .waiting }
  let s4 := s3.setYard y { r with held := [] }
  if s4.oos || r.suspects.isEmpty then s4.finishReset y
  else (s4.setYard y { s4.yard y with step := .replay, replaying := none }).setf .YRD_STATE_STATE y 2

/-- COACHMAN_RESTART. -/
def execCoachmanRestart (y : Yard) (s : State) : Out :=
  event s fun s => if (s.yard y.val).step == .cleared then s.restartCoach y.val else s

/-! ## Replay (R330) -/

/-- The suspect's instance still runs. -/
def State.suspectNow (s : State) (x : Suspect) : Option Inst :=
  s.insts.find? fun i => i.team == x.inst.team && i.n == x.inst.n && i.st == .running

/-- The first suspect is done: its outcome is logged. -/
def State.popSuspect (s : State) (y status : Nat) : State :=
  match (s.yard y).suspects with
  | x :: rest =>
    (s.setYard y { s.yard y with suspects := rest, replaying := none }).log 9 y (x.inst.team + 256 * status)
  | [] => s

/-- One move of the replay: the next suspect is rerun, a finished one makes way, and after the last the yard runs the timetable again. -/
def State.replayMove (s : State) (y : Nat) : State :=
  match (s.yard y).suspects with
  | [] => s.finishReset y
  | x :: _ =>
    match s.suspectNow x with
    | none => s.popSuspect y (if s.rf .TT_TEAM_STATE x.inst.team = 1 then 0xE else 1)
    | some i =>
      if (s.yard y).replaying.isSome then s
      else ((s.setYard y { s.yard y with replaying := some s.now }).setf .YRD_STATE_REPLAY_TEAM y i.team).rerun i

/-- REPLAY. -/
def execReplay (y : Yard) (s : State) : Out := event s fun s => if (s.yard y.val).step == .replay then s.replayMove y.val else s

/-- The collective timeout of a pair, in ns. -/
def State.collTmo (s : State) (q : Nat) : Nat := s.rf .DB_TIMEOUT_COLL_MS q * 1000000

/-- The suspect under replay is guilty: its team is aborted and the yard is reset, the suspects after it kept (DEDUCED: log entry 41). -/
def State.guilty (s : State) (y : Nat) (x : Suspect) (i : Inst) : State :=
  let s1 := (s.dump y 2 [i]).finishInst i 5
  let s2 := ((s1.haltTeam x.inst.team 3).abortTeam x.inst.team 1).popSuspect y 5
  s2.beginReset y true (s2.yard y).suspects

/-- REPLAY_GUILTY: the fresh timer of the suspect under replay has expired. -/
def execReplayGuilty (y : Yard) (s : State) : Out :=
  event s fun s => match (s.yard y.val).suspects, (s.yard y.val).replaying with
    | x :: _, some t0 =>
      match s.suspectNow x with
      | some i => if (s.yard y.val).step == .replay && decide (t0 + s.collTmo (s.team i.team).queue ≤ s.now) then s.guilty y.val x i else s
      | none => s
    | _, _ => s

/-! ## COMMAND_TIMEOUT (R284, R328) -/

/-- The timeout of an opcode on pair q: none for an admin command. -/
def State.timeoutOf (s : State) (q op : Nat) : Option Nat :=
  if (0x20 ≤ op && op ≤ 0x32) || (0x48 ≤ op && op ≤ 0x51) then some (s.collTmo q)
  else if 0x40 ≤ op && op ≤ 0x43 then some (s.rf .DB_TIMEOUT_REM_100US q * 100000)
  else none

/-- The timer of a command that was fetched at t0 has expired. -/
def State.expired (s : State) (q op t0 : Nat) : Bool :=
  match s.timeoutOf q op with
  | some n => decide (t0 + n ≤ s.now)
  | none => false

/-- A hang of team t's running instance: HANGy; in a RUNNING yard a HALT HANG and a reset with replay. -/
def State.hang (s : State) (t : Nat) : State :=
  let y := s.rf .TT_TEAM_YARD t
  if s.rf .YRD_STATE_STATE y = 0 then ((s.fault (32 + y) (.yard y)).haltTeam t 7).startReset y true none
  else if s.rf .YRD_STATE_STATE y = 1 then s.fault (32 + y) (.yard y)
  else s

/-- Instance i, whose slot has begun and which waits behind a degraded one, loses its command: the member runs it as a missing member (R284). -/
def Inst.lateMissing (i : Inst) : Inst :=
  { team := i.team, gen := i.gen, n := i.n, op := i.op, missing := true, first := i.first, last := i.last, degraded := i.degraded, st := .bound, due := true }

/-- The timer of a started work command for instance n of team t expires. -/
def State.workTimeout (s : State) (c : Cmd) (t n : Nat) : State :=
  match s.insts.find? fun i => i.team == t && i.n == n with
  | none => s
  | some i =>
    if i.st == .bound && i.due then (((s.finishCmd c 3).clearRec t n).sat .TT_TEAMCNT_MISSING_SELF t).updInst (fun j => j.team == t && j.n == n) Inst.lateMissing
    else if i.st == .waiting || i.st == .bound then (s.finishCmd c 3).dropInsts fun j => j.team == t && j.n == n
    else if i.op = 0x28 then s.finishCmd c 3
    else if i.st == .running then s.hang t
    else s

/-- A command that was fetched and has not started completes TIMEOUT; one of a team counts (R26). -/
def State.fetchedTimeout (s : State) (f : Fetched) : State :=
  let op := eOp f.e
  let t := ent f.e 4 1
  let s1 := if teamOp op && t < 64 && s.rf .TT_TEAM_STATE t == 1 then
      s.setTeam t { s.team t with cmds := sset (fun _ => 0) (s.team t).cmds op (sget (fun _ => 0) (s.team t).cmds op + 1) } else s
  s1.finish f.q (eId f.e) op 3

/-- The timer of command (q, id) expires. -/
def State.timeout (s : State) (q id : Nat) : State :=
  match s.cmd? q id with
  | some c =>
    if !s.expired q (eOp c.e) c.t0 then s
    else match c.phase with
      | .remote r => s.remoteTimeout c r
      | .work t n => s.workTimeout c t n
      | .mirror .. => (s.finishCmd c 3).fault 45
      | _ => s
  | none =>
    match s.qs.fetched.find? fun f => f.q == q && eId f.e == id with
    | some f => if s.expired q (eOp f.e) f.t0 then s.fetchedTimeout f else s
    | none => s

/-- COMMAND_TIMEOUT. -/
def execCommandTimeout (q : QP) (id : BitVec 16) (s : State) : Out := event s fun s => if s.safe then s else s.timeout q id.toNat

/-! ## The deadlock detector (R263, R264, Table 9.8) -/

/-- The coachman of yard y waits at its wait port, or has no entry to fetch. -/
def State.coachQuiet (s : State) (y : Nat) : Bool := (s.sync.coach.any fun c => c.y == y) || (s.nextPair y).isNone

/-- Every agent of the yard is stuck, and one of them waits. -/
def State.stuckYard (s : State) (y : Nat) : Bool :=
  let row := (List.range 16).map fun c => s.post (16 * y + c)
  row.all Post.quiet && s.coachQuiet y && (row.any Post.stuck || s.sync.coach.any fun c => c.y == y)

/-- A snapshot entry: waiter, wait, object or mailbox, operand. -/
def State.waitEnt (s : State) (who kind obj operand : Nat) : List Byte :=
  leBytes 1 who ++ leBytes 1 kind ++ leBytes 2 obj ++ leBytes 4 0 ++ leBytes 8 operand ++ leBytes 8 (if kind = 3 then 0 else s.rf .SYN_OBJ_VALUE obj)

/-- Entry of postilion p; the operand of a mailbox wait is 0 (log entry 42). -/
def State.waitOf (s : State) (p : Nat) : Option (List Byte) :=
  let x := s.post p
  if x.cur.isNone then none
  else match x.wait with
    | .sync o v eq => some (s.waitEnt p (if eq then 2 else 1) o v)
    | .mailbox m => some (s.waitEnt p 3 m 0)
    | .sendStall _ m => some (s.waitEnt p 3 m 0)
    | _ => none

/-- The 424 B of the snapshot. -/
def State.snapshot (s : State) (y : Nat) : List Byte :=
  let es := ((List.range 16).filterMap fun c => s.waitOf (16 * y + c)) ++
    ((s.sync.coach.filter fun c => c.y == y).take 1).map fun c => s.waitEnt (64 + y) (if c.eq then 2 else 1) c.obj c.operand
  let bs := leBytes 8 s.now ++ leBytes 1 y ++ leBytes 1 es.length ++ leBytes 6 0 ++ es.flatten
  bs ++ List.replicate (424 - bs.length) 0

/-- Bytes as 8 B words. -/
def wordsOf (bs : List Byte) : List Word := (List.range (bs.length / 8)).map fun k => w64 (leNat ((bs.drop (8 * k)).take 8))

/-- The detector raises yard y. -/
def State.raise (s : State) (y : Nat) : State :=
  let s1 := (s.fault 29 (.yard y) y).setf .SYN_DL_STATUS_RAISED 0 (putBit (s.rf .SYN_DL_STATUS_RAISED) y true)
  (s1.sat .SYN_DL_STATUS_COUNT 0).log 6 y 0 (wordsOf (s.snapshot y))

/-- DEADLOCK_RAISE: the quiet time has reached WINDOW_US and RAISED is clear. -/
def execDeadlockRaise (y : Yard) (s : State) : Out :=
  event s fun s =>
    if s.on .SYN_DL_CTL_EN && !bitAt (s.rf .SYN_DL_STATUS_RAISED) y.val && s.stuckYard y.val
        && decide ((s.yard y.val).quietAt + s.rf .SYN_DL_CTL_WINDOW_US * 1000 ≤ s.now) then s.raise y.val
    else s

end Sys2Proof.Machine
end

