-- ==== Sys2Proof/Machine/PowerBoot.lean ====
section
/-! DEFINITION. Resets and what they keep, supplies, power states, start-up (12.2, 12.3, 13.6, 13.9–13.11). -/

namespace Sys2Proof.Machine

/-! ## What a reset leaves (Tables 12.3, 13.14) -/

/-- Register fields that every reset keeps: the always-on ones. -/
def aonFields : List Fld :=
  [.AON_MTC_MTC_NS, .AON_TIME_STEPS_COUNT, .AON_RESET_WIN_WINDOW_S, .AON_RESET_WIN_LIMIT, .AON_LOG_PTR_WRAPS, .AON_LOG_PTR_HEAD,
   .AON_SUPPLY_IN_BAND, .AON_SUPPLY_GOOD, .AON_BOOT_STABLE, .AON_BOOT_FAILS, .AON_BOOT_LAST_FAIL, .AON_BOOT_CAUSE, .AON_LIGHT_PRESENT]

/-- Fields that a block reset keeps besides. -/
def cmrFields : List Fld := [.CMR_BOOT_ADDR_ADDR, .CMR_BOOT_LEN_LEN]

/-- The fields in a register file that `fs` names; every other one is at its reset value. -/
def keepFields (fs : List Fld) (regs : List (Nat × Nat)) : List (Nat × Nat) :=
  skeep (fun k => (fs.map Fld.ctorIdx).contains (k % 512)) regs

/-- A link after a reset: only the light at its groups is known. -/
def LinkRec.afterReset (x : LinkRec) : LinkRec := { groups := x.groups.map fun g => (g.1, { light := g.2.light, lightT := g.2.lightT }) }

/-- Readings of inputs that a reset does not change show again: reference, light, temperatures, and the sources whose condition persists. -/
def State.sense (s : State) : State :=
  let lost := b2n (s.time.ref == .lost)
  let s1 := s.setfs [(.AON_MTC_STATUS_HOLDOVER_REF, 0, lost), (.AON_MTC_STATUS_SOURCE, 0, lost)]
  let s2 := nat6.foldl (fun (s : State) l => s.setf .LNK_FIBRE_LIGHT l (s.rf .AON_LIGHT_PRESENT / 16 ^ l % 16)) s1
  s2.showTemps.applyThermal.relatch (2 ^ 64 - 1)

/-- Everything but the always-on island at its reset value, with the boot cause. Lasers are off. `block` also keeps what a block reset keeps and
opens the block's shadow window, which ends when firmware runs (Table 12.5). -/
def State.resetTo (s : State) (cause : Nat) (block window : Bool) : State :=
  let s1 := nat6.foldl (fun (s : State) l => if s.rf .LNK_FIBRE_LASER_ON l = 0 then s else s.emit (.lasers l 0)) s
  let s2 : State := {
    pending := s.pending
    fuses := s.fuses
    pins := s.pins
    regs := keepFields (if block then aonFields ++ cmrFields else aonFields) s.regs
    rdata := s.rdata
    host := s.host
    outbox := s1.outbox
    fresh := s.fresh
    serial := s.serial
    time := { frac := s.time.frac, sub := s.time.sub, freeze := s.time.freeze, ref := s.time.ref, lastTick := s.now / 8000 * 8000, lastSend := s.now / 1000 * 1000 }
    aon := { log := s.aon.log, resets := s.aon.resets, persist := s.aon.persist,
             windows := if window then [{ dom := .block, until_ := 2 ^ 64 }] else [] }
    boot := { t := s.now }
    power := { sensors := s.power.sensors, chan := s.power.chan }
    links := s.links.map fun (x : Nat × LinkRec) => (x.1, x.2.afterReset) }
  s2.setf .AON_BOOT_CAUSE 0 cause

/-! ## Block and cold reset (R319, R358) -/

/-- The block resets itself: HALTs on every live link, then everything as cold but for what Table 13.14 keeps; the stored image is used (R369). -/
def State.blockReset (s : State) : State :=
  let s1 := s.activeTeams.foldl (fun (s : State) t => s.haltTeam t 3) s
  let s2 := nat6.foldl (fun (s : State) l => s.haltLink l 3) s1
  let s3 := s2.resetTo (if s.safe then 4 else 3) true true
  let im := s.boot.next.getD (s3.rf .CMR_BOOT_ADDR_ADDR * 4096, s3.rf .CMR_BOOT_LEN_LEN)
  State.sense { (s3.setf .AON_BOOT_STABLE 0 0) with boot := { t := s.now, addr := im.1, len := im.2 } }

/-- A request for a block reset; it is held while SAFE_N is low. -/
def State.askReset (s : State) : State :=
  if s.pins.safeN then s.blockReset else { s with power := { s.power with heldReset := true } }

/-- BLOCK_RESET: a write of 0xB10C to FLT_RESET.KEY. -/
def execBlockReset (s : State) : Out := portAccess s fun s => s.askReset

/-- SAFE_N_ASSERT: SAFE_IN, whose reaction is fixed, and the safe state (R319). -/
def execSafeNAssert (s : State) : Out := event s fun s => (({ s with pins := { s.pins with safeN := false } }).fault 8).safeEnter

/-- SAFE_N_RELEASE: a held block reset is taken. -/
def execSafeNRelease (s : State) : Out :=
  event s fun s =>
    let s1 : State := { s with pins := { s.pins with safeN := true } }
    if s.power.heldReset then s1.blockReset else s1

/-- All six rails read good. -/
def State.railsGood (s : State) : Bool := s.rf .AON_SUPPLY_GOOD == 63

/-- COLD_RESET: RST_N goes low and rises again. A hold for a supply sequence error, or Off, ends only with all rails good (R363, Table 13.10). The
power-fail warning is over (log entry 43). -/
def execColdReset (s : State) : Out :=
  let s0 : State := { s with pins := { s.pins with pfwN := true } }
  .next (s.keep <| if s.coreOn || s.railsGood then State.sense ((s0.resetTo 2 false false).setf .AON_BOOT_STABLE 0 0)
    else { s0.resetTo (if s.power.seqHold then 7 else 2) false false with
      power := { s.power with heldReset := false } })

/-- AON_POWER_UP: VDD_AON comes up, the counter starts from 0 and the boot cause is VDD_AON (R30). Host memory and the fuses are not the block's. -/
def execAonPowerUp (s : State) : Out :=
  .next { pending := s.pending, fuses := s.fuses, host := s.host, outbox := s.outbox, fresh := s.fresh, serial := s.serial }

/-! ## Supplies (R361–R363) -/

/-- Rail r reads good or not; its input is not between the thresholds then. -/
def State.rail (s : State) (r : Nat) (b : Bool) : State :=
  s.setfs [(.AON_SUPPLY_GOOD, 0, putBit (s.rf .AON_SUPPLY_GOOD) r b), (.AON_SUPPLY_IN_BAND, 0, putBit (s.rf .AON_SUPPLY_IN_BAND) r false)]

/-- Every rail before r reads good. -/
def State.earlierGood (s : State) (r : Nat) : Bool := (List.range r).all fun k => bitAt (s.rf .AON_SUPPLY_GOOD) k

/-- BOOT_CAUSE SEQUENCE: everything but the always-on island is held in reset. -/
def State.sequence (s : State) : State :=
  let s1 := s.resetTo 7 false false
  { s1 with power := { s1.power with seqHold := true } }

/-- SUPPLY_GOOD: rail r rises above its upper threshold. -/
def execSupplyGood (r : Fin 6) (s : State) : Out :=
  let s1 := s.rail r.val true
  .next (s.keep <| if !s.earlierGood r.val then s1.sequence
    else if s1.railsGood then { s1 with aon := { s1.aon with persist := s1.aon.persist.filter (· != 2) } }
    else s1)

/-- SUPPLY_SEQUENCE_ERROR: rail r reads good while an earlier one is not. -/
def execSupplySequenceError (r : Fin 6) (s : State) : Out :=
  .next (s.keep <| if s.earlierGood r.val then s else (s.rail r.val true).sequence)

/-- SUPPLY_UNDERVOLTAGE: rail r was good and falls. While rails may be removed nothing is recorded, and with VDD_CORE the block is in Off. -/
def execSupplyUndervoltage (r : Fin 6) (s : State) : Out :=
  let s1 := s.rail r.val false
  .next (s.keep <| if !bitAt (s.rf .AON_SUPPLY_GOOD) r.val then s
    else if !s.coreOn then s1
    else if s.rf .PWR_STATE_CUR = 3 then
      (if r.val = 2 then
        let s2 := s1.resetTo (s.rf .AON_BOOT_CAUSE) false false
        { s2 with power := { s2.power with off := true } }
       else s1)
    else ({ s1 with aon := { s1.aon with persist := if s1.aon.persist.contains 2 then s1.aon.persist else s1.aon.persist ++ [2] } }).fault 2 .block r.val)

/-! ## Power states (R367, R368) -/

/-- A work command is outstanding. -/
def State.workOpen (s : State) : Bool :=
  s.qs.cmds.any (fun c => 0x20 ≤ eOp c.e) || s.qs.fetched.any fun f => 0x20 ≤ eOp f.e

/-- REQ = 3: commands complete OUT_OF_SERVICE, links stop, lasers go off, the rails may be removed. -/
def State.toOff (s : State) : State :=
  let s1 : State := if s.safe then s
    else
      let a := s.qs.fetched.foldl (fun (s : State) (f : Fetched) => s.finish f.q (eId f.e) (eOp f.e) 0xA) s
      (a.qs.cmds.foldl (fun (s : State) (c : Cmd) => s.finishCmd c 0xA) a).dropInsts fun _ => true
  let s2 := nat6.foldl (fun (s : State) l => if s.linkSt l = 0 then s else s.linkAct l 1) s1
  s2.setfs [(.PWR_STATE_OFF_READY, 0, 1), (.PWR_STATE_CUR, 0, 3)]

/-- Offset of PWR_STATE. -/
def offPwr : Nat := 0x0300000

/-- A write of PWR_STATE.REQ. In Stable and with Off pending CUR stays (DEDUCED: log entry 44). -/
def State.powerReq (s : State) (v : Nat) : State :=
  match v with
  | 0 => (s.setf .PWR_STATE_REQ 0 0).undoze
  | 1 =>
    if s.engSt = 0 && !s.workOpen then
      let s1 := s.setf .PWR_STATE_REQ 0 1
      if s1.rf .PWR_STATE_CUR = 0 then s1.setf .PWR_STATE_CUR 0 1 else s1
    else s.cfgIgnored offPwr
  | 2 => s.cfgIgnored offPwr
  | _ => (s.setf .PWR_STATE_REQ 0 3).toOff

/-- DOZE_REQUEST. -/
def execDozeRequest (s : State) : Out := portAccess s fun s => s.powerReq 1
/-- RUN_REQUEST. -/
def execRunRequest (s : State) : Out := portAccess s fun s => s.powerReq 0
/-- OFF_REQUEST. -/
def execOffRequest (s : State) : Out := portAccess s fun s => s.powerReq 3

/-! ## Start-up (R369–R372, Tables 13.11–13.13) -/

/-- The start failed with a code of Table 13.13: a retry, or Stable after the third. -/
def State.failStart (s : State) (code : Nat) : State :=
  let n := s.rf .AON_BOOT_FAILS + 1
  let s1 := s.setf .AON_BOOT_LAST_FAIL 0 code
  if n < 3 then
    let s2 := (s1.setf .AON_BOOT_FAILS 0 n).resetTo 5 true true
    State.sense { s2 with boot := { t := s.now, addr := s.boot.addr, len := s.boot.len } }
  else
    let s2 := (s1.setf .AON_BOOT_FAILS 0 0).resetTo 6 true false
    (s2.setfs [(.AON_BOOT_STABLE, 0, 1), (.PWR_STATE_CUR, 0, 2)]).sense

/-- Enter a start-up step. -/
def State.bootTo (s : State) (k : Nat) : State := { s with boot := { s.boot with step := k, t := s.now } }

/-- PLL_LOCK: step 1 ends. After a block reset or a retry the stored image is fetched without GO. -/
def execPllLock (s : State) : Out :=
  event s fun s =>
    if s.boot.step != 1 then s
    else if [3, 4, 5].contains (s.rf .AON_BOOT_CAUSE) then s.bootTo 3 else s.bootTo 2

/-- CMR_BOOT_CTL.GO: the boot ROM that waits starts the fetch. -/
def State.bootGo (s : State) : State :=
  if s.boot.step != 2 || s.stable then s
  else ({ s with boot := { s.boot with addr := s.rf .CMR_BOOT_ADDR_ADDR * 4096, len := s.rf .CMR_BOOT_LEN_LEN } }).bootTo 3

/-- BOOT_GO. -/
def execBootGo (s : State) : Out := portAccess s fun s => s.bootGo

/-- The first check of R370 that the image at host address a with length n fails: its code of Table 13.13. -/
def State.imageFail (s : State) (a n : Nat) : Option Nat :=
  let k (o w : Nat) : Nat := rdLe s.host (a + o) w
  if k 0 4 != 0x36574646 || k 4 2 != 1 || k 6 2 != 256 || k 8 4 != n || n < 256 || 2 ^ 20 < n then some 2
  else if !Config.keyHashOk (rdBytes s.host (a + 32) 97) s.fuses.keyHash then some 3
  else if k 12 4 < s.fuses.minVersion then some 4
  else if !Config.signatureOk (rdBytes s.host a n) s.fuses.keyHash then some 5
  else none

/-- IMAGE_FETCH_COMPLETE: steps 3 and 4 end; firmware runs, or the start failed. -/
def execImageFetchComplete (err : Bool) (s : State) : Out :=
  event s fun s =>
    if s.boot.step != 3 then s
    else if err then s.failStart 1
    else match s.imageFail s.boot.addr s.boot.len with
      | some c => s.failStart c
      | none => s.bootTo 5

/-- Limit of a start-up step in ns. -/
def State.bootLimit (s : State) : Option Nat :=
  match s.boot.step with
  | 1 => some 50000
  | 3 => some (s.rf .HCH_BOUND_BOUND_US * 1000)
  | 5 => some 500000000
  | 6 => some 50000000
  | _ => none

/-- A start-up step exceeds its limit. Each time that step 6 does is a failed attempt of the channels (DEDUCED: log entry 45). -/
def State.bootLate (s : State) : State :=
  match s.boot.step with
  | 1 => if s.time.ref == .present then s.loseReference else s
  | 3 => s.failStart 1
  | 5 => s.failStart 6
  | _ =>
    let s1 := s.fault 26
    if s.boot.attempts < 2 then { s1 with boot := { s1.boot with attempts := s1.boot.attempts + 1, t := s1.now } } else s1.failStart 7

/-- BOOT_STEP_TIMEOUT. -/
def execBootStepTimeout (s : State) : Out :=
  event s fun s => match s.bootLimit with
    | some n => if s.boot.t + n ≤ s.now && !s.stable then s.bootLate else s
    | none => s

/-- DEPOT_TRAINING_COMPLETE: step 6 ends; commands that need the depot are served and held ENABLEs take effect. -/
def execDepotTrainingComplete (s : State) : Out :=
  event s fun s =>
    if s.boot.step != 6 then s
    else ((s.setfs [(.DEP_STATUS_TRAINED, 0, 0xFFFF), (.AON_BOOT_FAILS, 0, 0)]).bootTo 7).releaseHeld

/-! ## FW_ACTIVATE (R370) -/

/-- FW_ACTIVATE: an image that passes its check runs from the next block reset. -/
def execFwActivate (q : QP) (e : Entry) (s : State) : Out :=
  event s fun s => s.adminCmd q 0x0F e [(8, 8), (16, 4)]
    (fun s => [(ent e 8 8 % 4096 != 0, rBounds, 8), (decide (2 ^ 47 ≤ ent e 8 8), rBounds, 8), (decide (2 ^ 20 < ent e 16 4), rField, 16),
      ((s.imageFail (ent e 8 8) (ent e 16 4)).isSome, rSignature, 0)])
    fun s _ => ({ s with boot := { s.boot with next := some (ent e 8 8, ent e 16 4) } }).finish q (eId e) 0x0F 0

end Sys2Proof.Machine
end

