-- ==== Sys2Proof/Machine/StageTick.lean ====
section
/-! DEFINITION. The tick (2.4–2.8): the actions of Table 2.5 in order, with the overrun rule, the losses of the ending stage, the commit of T fields,
the timetable swap, the stage engine, realignment, the start of slot instances and the release of segments. -/

namespace Sys2Proof.Machine

/-! ## Action 1: the overrun rule (R58–R60) -/

/-- Team t has overrun: recorded, latched, and aborted with a HALT (R59). -/
def State.overrun (s : State) (t : Nat) : State :=
  ((s.noteOverrun t).fault 4).abortWithHalt t 1

/-- Action 1. -/
def State.sampleDone (s0 : State) : State :=
  let s := s0.loseMirXmits
  let ps := s.overPosts
  let ts := (List.range 64).filter fun t => ps.any fun p => (s.unfinished p).contains t
  ts.foldl (fun (s : State) t => s.overrun t) (s.noteLate ps)

/-! ## Action 2: losses (R58, R108) -/

/-- Carriage of vector v is lost; one that only passes through is forgotten, and not forwarded where its bits are bad (R193, log entry 48). -/
def State.loseVec (s : State) (v : Vec) : State :=
  if v.mine then (s.sat .RTE_RETRY_LOST v.l).loseCar v.id
  else { s with net := { s.net with
    vecs := s.net.vecs.filter fun x => x.id != v.id
    onward := s.net.onward.filter fun o => !o.contrib.contains v.id
    outq := if s.idBad v.id then s.net.outq.filter fun o => !(o.cls == 2 && o.adv && o.key == v.id) else s.net.outq } }

/-- Scheduled carriages whose verdict is still due are acknowledged later, and lost. -/
def State.markLate (s : State) : State :=
  let old := s.net.arriving.filter fun a => cClass a.c == 0
  let k := s.net.nextId
  let late := (List.range old.length).filterMap fun j => (old[j]?).map fun a => ({ a with id := k + j, late := true } : Arriving)
  { s with net := { s.net with
    nextId := k + old.length
    arriving := s.net.arriving.filter (fun a => cClass a.c != 0) ++ late
    subs := s.net.subs.map fun (x : Nat × SubLink) => (x.1, { x.2 with late := x.2.missing }) } }

/-- An open operation of postilion p at the end of its stage: a receive takes zeros with POISON, and a write without its bytes withholds them. -/
def State.endTag (s : State) (p : Nat) (t : TagOp) : State :=
  match t.kind with
  | .recv =>
    ((s.sat .RTE_RETRY_LOST (colLink (colOf p))).putRx (rowOf p) t.desc.addr (lostBlob t.desc.len)).updInstOf p fun i =>
      { i with own := { i.own with poison := true } }
  | .hwr | .dwr =>
    if t.issued || t.blob.isSome || (s.post p).missing then s else s.noteGranules (s.instOf p) t.desc.addr (lostBlob t.desc.len)
  | _ => s

/-- Postilions that hold tags at the end of the stage. -/
def State.tagPosts (s : State) : List Nat := (s.posts.filter fun x => !x.2.tags.isEmpty).map (·.1)

/-- Action 2: every scheduled carriage of the ending stage that is not confirmed is lost; what no RECV has taken goes (log entry 48). -/
def State.declareLost (s : State) : State :=
  let s1 := s.net.vecs.foldl (fun (s : State) v => s.loseVec v) s.markLate
  let s2 := s1.tagPosts.foldl (fun (s : State) p => ((s.post p).tags.filter fun t => t.kind == .recv).foldl (fun (s : State) t => s.endTag p t) s) s1
  let s3 := s2.pumpWrites
  let s4 := s3.tagPosts.foldl (fun (s : State) p => ((s.post p).tags.filter fun t => t.kind != .recv).foldl (fun (s : State) t => s.endTag p t) s) s3
  { s4 with net := { s4.net with rx := [] } }

/-! ## Action 3: commits (R10, R11, R42, R61, R312, R385) -/

/-- The eval window that stage k lies in. -/
def State.evalAt (s : State) (k : Nat) : Option EvalWin :=
  match s.tt.active with
  | some im => im.evals.find? fun w => w.first ≤ k && k ≤ w.last
  | none => none

/-- The stage of the tick at t lies strictly inside an eval window. -/
def State.insideWindow (s : State) (k : Option Nat) : Bool :=
  match k with
  | some j => match s.evalAt j with
    | some w => w.first < j
    | none => false
  | none => false

/-- Period length and stage index of the tick at t (R53). -/
def State.periodLen (s : State) : Nat := max 1 (s.rf .TT_PERIOD_PERIOD_STAGES)
def State.stageAt (s : State) (t : Nat) : Nat := (t - s.rf .TT_START_MTC_START) / s.stageLen % s.periodLen

/-- Stage that the tick at t begins, if the engine runs after it. A start tick that a step has skipped starts at the next (log entry 49). -/
def State.nextStage (s : State) (t : Nat) : Option Nat :=
  match s.engSt with
  | 1 => if s.rf .TT_START_MTC_START ≤ t then some (s.stageAt t) else none
  | 2 => if s.eng.stopNow then none else some (s.stageAt t)
  | 3 => if s.eng.stopNow || s.stageAt t = 0 then none else some (s.stageAt t)
  | _ => none

/-- The GEN of endpoint e has changed: it is fenced, and its generations are set to 0, those of its live windows with them; that a window of the key
was allocated stays known (R312, R385). -/
def State.genChanged (s : State) (e : Nat) : State :=
  let fs := s.net.fences.filter fun f => f.ep != e && s.now < f.until_
  let s1 : State := if fs.length < 64 then { s with net := { s.net with fences := fs ++ [{ ep := e, until_ := s.now + s.quarantine }] } }
    else s.sat .RTE_FENCE_OVERFLOW 0
  let s2 := s1.setf .RTE_FENCE_ACTIVE 0 s1.net.fences.length
  let s3 := nat4.foldl (fun (s : State) t => s.setRxGen e t 0) s2
  let hit (k : Nat) : Bool := e == s3.self || k / 4 == e
  { s3 with net := { s3.net with
    sendGens := s3.net.sendGens.map fun x => if hit x.1 && 256 ≤ x.2 then (x.1, 256) else x
    wins := updWhere (fun w => hit (w.ep * 4 + w.tenant)) (fun w => { w with gen := 0 }) s3.net.wins } }

/-- Commit one shadow copy; EVAL_EN is held back inside a window. -/
def State.commitOne (inside : Bool) (s : State) (x : Shadow) : State :=
  match x.f with
  | .TT_EVAL_CTL_EVAL_EN =>
    if inside then { s with eng := { s.eng with evalPending := some x.v } }
    else { s.setf .TT_EVAL_CTL_EVAL_EN 0 x.v with eng := { s.eng with evalPending := none } }
  | .RTE_EP_LO_GEN => if s.rf .RTE_EP_LO_GEN x.i = x.v then s else (s.setf .RTE_EP_LO_GEN x.i x.v).genChanged x.i
  | f => s.setf f x.i x.v

/-- Shadow copies in the order of their ticks. -/
def insShadow (x : Shadow) : List Shadow → List Shadow
  | [] => [x]
  | y :: t => if x.at_ < y.at_ then x :: y :: t else y :: insShadow x t

/-- SET_ENDPOINTS and SET_DETOUR commands whose tick has come complete (R280). -/
def State.doneAt (s : State) (t : Nat) : State :=
  (s.qs.cmds.filter fun c => match c.phase with
    | .endpoints a => decide (a ≤ t)
    | .detour a => decide (a ≤ t)
    | _ => false).foldl (fun (s : State) c => s.finishCmd c 0) s

/-- The root takes no correction (R34): a slew under way, a step that waits and the offsets measured are dropped. A step already taken, carried
out by a freeze, is finished (DEDUCED: log entry 134). -/
def State.dropCorrection (s : State) : State :=
  ({ s with time := { s.time with slew := 0, correcting := false, waitStep := none, samples := [] } }).setfs
    [(.AON_MTC_STATUS_SLEWING, 0, 0), (.AON_MTC_STATUS_STEP_PENDING, 0, 0)]

/-- The root is aligned and trusted at the tick that commits ROOT on the reference, and trusted again after the reference's return (R41, R42). -/
def State.rootTick (s : State) (was : Bool) : State :=
  let root := s.on .SYN_TIME_CTL_ROOT
  let ok := root && s.time.ref == .present && (!was || s.time.rootRegain)
  let s1 := if ok then s.setfs [(.AON_MTC_STATUS_ALIGNED, 0, 1), (.AON_MTC_STATUS_TRUSTED, 0, 1)] else s
  let s2 : State := if root && !was then s1.dropCorrection else s1
  ({ s2 with time := { s2.time with rootRegain := false } }).sourceUpdate

/-- Action 3 at the tick t. -/
def State.commitTick3 (s : State) (t : Nat) : State :=
  let inside := s.insideWindow (s.nextStage t)
  let due := (s.shadows.filter fun x => decide (x.at_ ≤ t)).foldl (fun l x => insShadow x l) []
  let s0 : State := { s with shadows := s.shadows.filter fun x => decide (t < x.at_) }
  let s1 : State := match s0.eng.evalPending with
    | some v => if inside then s0 else { s0.setf .TT_EVAL_CTL_EVAL_EN 0 v with eng := { s0.eng with evalPending := none } }
    | none => s0
  ((due.foldl (State.commitOne inside) s1).doneAt t).rootTick (s.on .SYN_TIME_CTL_ROOT)

/-! ## The timetable swap (R65–R67) -/

/-- The AT_MTC swap whose tick has come. One that still waits when the engine stops happens all the same (DEDUCED: log entry 137). -/
def State.swapTick (s : State) (t : Nat) : State :=
  match s.tt.swap with
  | some r => if r.atMtc && decide (r.swapMtc ≤ t) then s.doSwap r else s
  | none => s

/-! ## Realignment (R258) -/

/-- Object n is the producer count and object n + 1 the consumer count of an allocated pair; a pair of which one half has been freed is none
(log entry 158). -/
def State.isPair (s : State) (n : Nat) : Bool :=
  s.on .SYN_FLAG_ALLOC n && s.on .SYN_FLAG_ALLOC (n + 1) && s.rf .SYN_FLAG_KIND n == 2 && s.rf .SYN_FLAG_KIND (n + 1) == 3

/-- Even objects of the allocated pairs. -/
def State.pairObjs (s : State) : List Nat :=
  (s.regs.filter fun x => x.1 % 512 == Fld.ctorIdx .SYN_FLAG_KIND && s.isPair (x.1 / 512)).map (·.1 / 512)

/-- Realign the pair at object n. -/
def State.realignPair (s : State) (e n : Nat) : State :=
  let k := sget (fun _ => 0) s.sync.pairs n
  let s1 : State := { s with sync := { s.sync with pairs := sset (fun _ => 0) s.sync.pairs n (k + 1) } }
  let a := s.rf .SYN_OBJ_VALUE n
  let b := s.rf .SYN_OBJ_VALUE (n + 1)
  let x := min (s.rf .SYN_FLAG_PARAM n * k) (2 ^ 63 - 1)
  let s2 := if k != 0 && (a != x || b != x) then
      ((s1.sat .SYN_REALIGN_DISCREP 0).log 5 0 n [w64 e, w64 a, w64 b, w64 x]).fault 31 else s1
  (s2.setObj n x 0).setObj (n + 1) x 0

/-- Realignment at the tick t. -/
def State.realignAt (s : State) (t : Nat) : Bool := t % (s.stageLen * max 1 (s.rf .SYN_REALIGN_STAGES)) == 0

def State.realign (s : State) (t : Nat) : State :=
  if s.realignAt t then s.pairObjs.foldl (fun (s : State) n => s.realignPair s.epochNow n) s else s

/-! ## Slot instances (R26, R61, R69, R70, R82, R109) -/

/-- The instance is a suspect that a yard reset keeps. -/
def State.suspected (s : State) (i : Inst) : Bool := s.yards.any fun y => y.2.suspects.any fun x => x.inst.team == i.team && x.inst.n == i.n

/-- Instances whose last stage has ended; those that run in degraded mode go on. -/
def State.endSlots (s : State) : State :=
  (s.insts.filter fun i => i.st == .running && !i.degraded && i.last == s.rf .TT_STATUS_STAGE_IDX && !s.suspected i).foldl
    (fun (s : State) i => s.endInst i) s

/-- A segment of team t stands on a link that has changed in mid-period (R70). -/
def State.onLostLink (s : State) (t : Nat) : Bool :=
  s.tt.lostLinks.any fun l => nat4.any fun y => [2 * l, 2 * l + 1].any fun c => match s.prog (16 * y + c) with
    | some pr => pr.segs.any fun g => g.team == t
    | none => false

/-- The slot runs in degraded mode: no variant runs, the variant does not carry it, or a link has changed. -/
def State.slotDegraded (s : State) (t : Nat) (e : SlotEnt) : Bool :=
  s.on .TT_STORE_NO_VARIANT || !bitAt e.vmask (s.rf .TT_STORE_VAR_IDX) || s.onLostLink t

/-- An instance under way goes on in degraded mode from its start (R70; log entry 50). -/
def State.goDegraded (s : State) (i : Inst) : State :=
  let j : Inst := { i.again i.t0 with replay := i.replay }
  ((((s.sat .TT_TEAMCNT_DEGRADED i.team).endSegs i.team).dropWork i.team).setInst i fun _ => j).degRun j

/-- R70 at a tick in mid-period. -/
def State.degradeRunning (s : State) : State :=
  (s.insts.filter fun i => i.st == .running && !i.degraded && i.op != 0x28 && s.onLostLink i.team).foldl (fun (s : State) i => s.goDegraded i) s

/-- Put an instance in the place of the one of its number, or add it. -/
def State.putInst (s : State) (i : Inst) : State :=
  if s.insts.any fun j => j.team == i.team && j.n == i.n then s.setInst i fun _ => i else { s with insts := s.insts ++ [i] }

/-- A slot instance of team t begins: the member's with its command, or as a missing member. While an earlier instance still runs in degraded mode it
waits. -/
def State.beginInst (s : State) (i : Inst) : State :=
  let busy := match s.running i.team with
    | some j => j.degraded || s.suspected j
    | none => false
  let j : Inst := { i with degraded := i.degraded || busy }
  let s1 := if j.missing then s.sat .TT_TEAMCNT_MISSING_SELF j.team else s
  let s2 := if j.degraded then s1.sat .TT_TEAMCNT_DEGRADED j.team else s1
  if busy then s2.putInst { j with st := .bound, due := true }
  else
    let s3 := s2.putInst { j with st := .running, t0 := s.now }
    if j.degraded then s3.degRun { j with st := .running, t0 := s.now }
    else if j.op = 0x28 then s3.barStart { j with st := .running, t0 := s.now }
    else s3

/-- Team t waits to be retired. -/
def State.retiring (s : State) (t : Nat) : Bool := s.qs.cmds.any fun c => c.phase == .retire t

/-- The slot lies in a window that is disabled (R61; log entry 51). -/
def State.slotOff (s : State) (x : TeamEnt) (k : Nat) : Bool :=
  !s.on .TT_EVAL_CTL_EVAL_EN && match s.evalAt k with
    | some w => x.eval || x.slot == w.team
    | none => false

/-- Slot e of team x begins at stage k. -/
def State.startSlot (s : State) (x : TeamEnt) (k : Nat) (e : SlotEnt) : State :=
  let t := x.slot
  let r := s.team t
  let pos := (r.slotPos + 1) % max 1 x.slots.length
  if s.rf .TT_TEAM_STATE t != 1 || s.retiring t then s
  else if s.slotOff x k then (s.setTeam t { r with slotPos := pos }).renumber t
  else
    let n := s.rf .TT_TEAM_INSTANCE t
    let s1 := (s.inc .TT_TEAM_INSTANCE t).setTeam t { r with
      slotPos := pos
      started := sset (fun _ => 0) r.started e.op (sget (fun _ => 0) r.started e.op + 1) }
    let own := s.rf .YRD_STATE_STATE (s.rf .TT_TEAM_YARD t) == 0 || (match s.running t with
      | some j => s.suspected j
      | none => false)
    let here (i : Inst) : Bool := i.team == t && i.n == n && (i.st == .waiting || i.st == .bound) && !i.due
    let base : Inst := { team := t, gen := s.rf .TT_TEAM_GEN t, n := n, op := e.op, missing := true }
    let shape (i : Inst) : Inst := { i with
      first := e.start
      last := e.start + e.len - 1
      degraded := s1.slotDegraded t e
      gfmt := if e.op = 0x30 && !i.missing then s.descAt (gTables i.entry) 0 5 1 else 0 }
    match s.insts.find? here with
    | some i =>
      if i.st == .bound && i.op == e.op && own then s1.beginInst (shape i)
      else ((s1.finishInst i 1).dropInsts here).beginInst (shape base)
    | none => s1.beginInst (shape base)

/-- The slots that begin at stage k. -/
def State.startSlots (s : State) (k : Nat) : State :=
  match s.tt.active with
  | none => s
  | some im => im.teams.foldl (fun (s : State) x => (x.slots.filter fun e => e.start == k).foldl (fun (s : State) e => s.startSlot x k e) s) s

/-! ## Actions 4 and 5 -/

/-- Give every postilion its segments of the new stage and start the first (R72). -/
def State.release (s : State) (segs : Nat → List SegEnt) : State :=
  (List.range 64).foldl (fun (s : State) p =>
    let x := s.post p
    let g := segs p
    if g.isEmpty && x.cur.isNone && x.rest.isEmpty && x.tags.isEmpty then s
    else (s.setPost p { x with cur := none, rest := g, wait := .run, tags := [] }).nextSeg p) s

/-- Stage k begins. -/
def State.enterStage (s : State) (k : Nat) (fresh : Bool) : State :=
  let s1 := s.setfs [(.TT_STATUS_STATE, 0, if s.engSt = 1 then 2 else s.engSt), (.TT_STATUS_STAGE_IDX, 0, k)]
  let s2 := if fresh then s1.setf .TT_STATUS_PERIOD_COUNT 0 0 else if k = 0 then s1.inc .TT_STATUS_PERIOD_COUNT 0 else s1
  let s3 := if k = 0 || fresh then s2.selectVariant false else s2.degradeRunning
  let s4 := s3.flag .TT_EVAL_CTL_EVAL_ACTIVE 0 ((s3.evalAt k).isSome && s3.on .TT_EVAL_CTL_EVAL_EN)
  let s5 := s4.startSlots k
  s5.release fun p => s5.segsAt p k

/-- The engine stops at this tick (R54, R56, R57). -/
def State.stopAtTick (s : State) (t : Nat) : State :=
  let s1 := if s.stageAt t = 0 then s.inc .TT_STATUS_PERIOD_COUNT 0 else s
  (s1.cutInstances.release fun _ => []).stopEngine

/-- Actions 4 and 5 at the tick t. -/
def State.advance (s : State) (t : Nat) : State :=
  match s.nextStage t with
  | some k => s.enterStage k (s.engSt == 1)
  | none => if 2 ≤ s.engSt then s.stopAtTick t else s

/-! ## Telemetry of the ending stage (R203, Table 5.12), action 6 -/

/-- Congestion of port p in the stage of index k moves to its registers. -/
def State.congOut (k : Nat) (s : State) (p : Nat) : State :=
  let g := sget (fun _ => {}) s.net.cong p
  let b := min g.blocked (2 ^ 24 - 1)
  s.setfs [(.RTE_CONG_BLOCKED, p, b), (.RTE_CONG_PEAK_BYTES, p, g.bytes), (.RTE_CONG_PEAK_BUFS, p, g.bufs), (.RTE_CONG_STAGE_IDX, p, k),
    (.RTE_CONGHIST_ENTRY, p * 256 + s.net.congPos, b * 2 ^ 40 + g.bytes % 65536 * 2 ^ 16 + g.bufs * 2 ^ 12 + k)]

/-- All ports; the new stage begins with what is still held. -/
def State.moveCong (s : State) (k : Nat) : State :=
  let s1 := (List.range 9).foldl (State.congOut k) s
  let s2 : State := { s1 with net := { s1.net with cong := [], congPos := (s1.net.congPos + 1) % 256 } }
  (List.range 9).foldl (fun (s : State) p => s.peak p) s2

/-- Core cycles of 0.625 ns in a time in 1/65,536 ns. -/
def coreCycles (n : Nat) : Nat := n / 40960

/-- The wait of each row's array operations in the ending stage. -/
def State.moveWait (s : State) : State :=
  let s1 := nat4.foldl (fun (s : State) y =>
    let w := min (coreCycles (sget (fun _ => 0) s.arr.wait y)) (2 ^ 32 - 1)
    s.setfs [(.ARR_WAIT_WAIT, y, w), (.ARR_WAIT_PEAK, y, max w (s.rf .ARR_WAIT_PEAK y))]) s
  { s1 with arr := { s1.arr with wait := [] } }

/-- Action 6 (R43, R45): the pulse, unless a step before this tick suppresses it, and the trace record of the stage that begins. -/
def State.tickPulse (s : State) (t : Nat) (sup : Bool) : State :=
  (if sup then s else s.emit (.tickOut t (if s.on .AON_MTC_STATUS_TRUSTED then 16 else 48))).trace 0 (s.rf .TT_STATUS_STAGE_IDX)

/-! ## The tick -/

/-- The tick at the instant t: the actions of Table 2.5 in order. A step of the counter that a stop of the engine lets happen at this tick
suppresses the next pulse, not this one (R43). -/
def State.tick (s : State) (t : Nat) : State :=
  let s0 : State := { s with time := { s.time with lastTick := t, suppress := false } }
  let k := s0.rf .TT_STATUS_STAGE_IDX
  let s1 := s0.sampleDone.declareLost
  let s2 := if 2 ≤ s1.engSt then s1.endSlots else s1
  let s3 := nat4.foldl (fun (s : State) y => s.yardTick y) (((s2.swapTick t).commitTick3 t).realign t)
  ((((s3.moveCong k).moveWait).applyThermal).advance t).tickPulse t s.time.suppress

/-- Serve the tick that is due, where the condition holds of it. -/
def State.tickIf (s : State) (c : Nat → Bool) : State := if s.tickDue && c s.tickAt then s.tick s.tickAt else s

/-- The store cannot correct a word of the running variant: it is no longer selectable (R69, Table 12.1). The next selection leaves it out
(DEDUCED: log entry 150). -/
def State.storeUe (s : State) : State :=
  let bad : List Nat := if s.on .TT_STORE_NO_VARIANT then [] else [s.rf .TT_STORE_VAR_IDX]
  { s with tt := { s.tt with badVars := s.tt.badVars ++ bad } }.fault 19

/-- STAGE_TICK (R44), with what its reads of the timetable store find. -/
def execStageTick (s : State) (ue : Bool := false) : Out :=
  event s fun s => if s.tickDue then (if ue && s.tt.active.isSome then s.storeUe else s).tick s.tickAt else s

/-- ENGINE_START: the tick at which the armed engine starts (R52). -/
def execEngineStart (s : State) : Out := event s fun s => s.tickIf fun t => s.engSt == 1 && decide (s.rf .TT_START_MTC_START ≤ t)

/-- PERIOD_END: a tick at which the running index returns to 0 (R54, R69). -/
def execPeriodEnd (s : State) : Out := event s fun s => s.tickIf fun t => 2 ≤ s.engSt && s.stageAt t == 0

/-- REALIGNMENT: a tick at a boundary of the realignment epoch (R258). -/
def execRealignment (s : State) : Out := event s fun s => s.tickIf s.realignAt

/-- TIMETABLE_SWAP: a NOW swap while the engine is STOPPED, or the AT_MTC swap's tick (R65–R67). -/
def execTimetableSwap (s : State) : Out :=
  event s fun s => match s.tt.swap with
    | some r => if r.atMtc then s.tickIf fun t => decide (r.swapMtc ≤ t) else if s.engSt = 0 then s.doSwap r else s
    | none => s

end Sys2Proof.Machine
end

