-- ==== Sys2Proof/Machine/RegWrite.lean ====
section
/-! DEFINITION. Writing registers: where a register stands, who owns a field, the field-change classes, and the writes that act
(R8–R11, R33, R46, R52–R57, R84, R143, R247, R265–R270, R285, R286, R289, R290, R313–R318, R332, R335, R341, R367, R369, R374, R375,
R381–R383). -/

namespace Sys2Proof.Machine

/-! ## Where a register stands -/

/-- Index of the register of this place at an offset. -/
def regIndex (g : RegInfo) (off : Nat) : Option Nat :=
  let d := off - g.base
  if g.base ≤ off && d / g.s1 < g.n1 && d % g.s1 % g.s2 == 0 && d % g.s1 / g.s2 < g.n2 then some (d / g.s1 * g.n2 + d % g.s1 / g.s2) else none

/-- The configuration has register r of index i (R266, R375). -/
def State.occupied (s : State) (r : Reg) (i : Nat) : Bool :=
  match r with
  | .RTE_EP_LO | .RTE_EP_HI => i < s.nep
  | .RTE_RXGEN => 2 * i < s.nep
  | .SYN_OBJ | .SYN_ADD | .SYN_FLAG => i < s.nsync
  | .DB_SQ_TAIL | .DB_SQ_HEAD | .DB_CQ_TAIL | .DB_CQ_HEAD | .DB_CQ_ARM | .DB_CANCEL | .DB_STATUS | .DB_TIMEOUT => i < s.nq
  | .TT_TEAM | .TT_TEAMCNT | .TT_EPOCH | .SYN_BAR => i < s.nteam
  | _ => true

/-- The register at an offset. -/
def State.regAt (s : State) (off : Nat) : Option (Reg × Nat) :=
  allRegs.findSome? fun r => match regIndex (regInfo r) off with
    | some i => if s.occupied r i then some (r, i) else none
    | none => none

/-- The offset of register r of index i. -/
def regOff (r : Reg) (i : Nat) : Nat := (regInfo r).base + i / (regInfo r).n2 * (regInfo r).s1 + i % (regInfo r).n2 * (regInfo r).s2

/-- Postilion RAM windows (3.7): the postilion, whether it is data RAM, and the byte address in that RAM. -/
def ramAt (off : Nat) : Option (Nat × Bool × Nat) :=
  if off < 0x3000000 || 0x3400000 ≤ off then none
  else
    let p := (off - 0x3000000) / 0x10000
    let o := off % 0x10000
    if o < 0x4000 then some (p, false, o) else if 0x8000 ≤ o && o < 0xC000 then some (p, true, o - 0x8000) else none

/-! ## The classes (R10, Table 0.5) -/

/-- The hitch ports run: some yard is out of reset, from the end of the firmware's fetch on (R374; DEDUCED: log entry 52). -/
def State.hitchRuns (s : State) : Bool := 5 ≤ s.boot.step && nat4.any fun y => s.rf .YRD_STATE_STATE y != 1

/-- The unit that owns the S or T fields of register r of index i runs (R51, R171, R240, R265, R289, R290, R341, R374, R381–R383, 14.3). -/
def State.runs (s : State) (r : Reg) (i : Nat) : Bool :=
  match r with
  | .TT_STAGE_LEN | .TT_UNSCHED_SHARE | .TT_START_MTC | .TT_EVAL_CTL | .RTE_SLICE | .SYN_REALIGN | .PWR_GOV | .DBG_HOLD => s.engSt != 0
  | .GRM_START => s.groom.queue.any (fun q => q.y == i) || (match s.groom.job with
    | some j => j.req.y == i
    | none => false)
  | .GRM_FARWIN | .LNK_CTL | .LNK_FIBRE | .LNK_GAIN_THR | .LNK_PRBS_CTL | .LNK_BRIDLE_CTL => s.linkSt i != 0
  | .LNK_RING => s.linkSt (i / 128) != 0
  | .RTE_SELF | .RTE_EP_LO => s.sliceSet
  | .ADM_SQ_BASE | .ADM_CQ_BASE | .ADM_CTL => s.on .ADM_CTL_EN
  | .YRD_EPOCH_STAGE => s.rf .YRD_STATE_STATE i != 1 && (s.yard i).everBound
  | .HCH_BOUND | .HCH_VEH_CTL | .HCH_VEH_BASE | .HCH_VEH_DB | .HCH_APER_BASE | .HCH_APER_LIM => s.hitchRuns
  | .CMR_BOOT_ADDR | .CMR_BOOT_LEN => 3 ≤ s.boot.step && s.boot.step ≤ 5
  | .DEP_SCRUB => 6 ≤ s.boot.step
  | .SYN_TIME_CTL => true
  | _ => false

/-- Values that an S field takes; others are ignored and logged. -/
def rangeOk (f : Fld) (v : Nat) : Bool :=
  match f with
  | .TT_STAGE_LEN_LEN_US => 2 ≤ v && v ≤ 64
  | .TT_UNSCHED_SHARE_SIXTEENTHS => 1 ≤ v && v ≤ 8
  | .SYN_REALIGN_STAGES => 1 ≤ v && v ≤ 4096
  | .PWR_GOV_SLOPE => 5 ≤ v && v ≤ 100
  | .ADM_CTL_SQ_LOG2 | .ADM_CTL_CQ_LOG2 => 4 ≤ v && v ≤ 16
  | .DEP_SCRUB_PERIOD_H => 1 ≤ v
  | _ => true

/-- A T field takes a value at once, because its unit is stopped; an earlier shadow copy goes. -/
def State.putNow (s : State) (f : Fld) (i v : Nat) : State :=
  let s1 : State := { s with shadows := s.shadows.filter fun x => !(x.f == f && x.i == i) }
  match f with
  | .RTE_EP_LO_GEN => if s1.rf f i = v then s1 else (s1.setf f i v).genChanged i
  | .TT_EVAL_CTL_EVAL_EN => { s1.setf f i v with eng := { s1.eng with evalPending := none } }
  | _ => s1.setf f i v

/-- One field of a write of w to register index i, judged in the state s0 before the write; the flag says that some field was refused. -/
def State.putField (s0 : State) (i w : Nat) (a : State × Bool) (f : Fld) : State × Bool :=
  let sp := fieldSpec f
  let v := fpart f w
  let cur := s0.rf f i
  match sp.acc, sp.cls with
  | .rw, .s => if v = cur then a else if !rangeOk f v || s0.runs sp.reg i then (a.1, true) else (a.1.setf f i v, a.2)
  | .rw, .t => if s0.runs sp.reg i then (a.1.shadowAt s0.commitTick f i v, a.2) else (a.1.putNow f i v, a.2)
  | .rw, .l => (a.1.setf f i v, a.2)
  | .w1c, _ => (a.1.setf f i (cur - (cur &&& v)), a.2)
  | .w1s, _ => (a.1.setf f i (cur ||| v), a.2)
  | _, _ => a

/-- Write w to register r of index i at offset off, field by field; one record for all that is refused (R10). -/
def State.putReg (s : State) (r : Reg) (i w off : Nat) : State :=
  let a := (regFields r).foldl (s.putField i w) (s, false)
  if a.2 then a.1.cfgIgnored off else a.1

/-! ## Time and the stage engine -/

/-- A new stage length moves the tick grid (2.6): instants that lie behind are not served again, and copies for the old grid's next tick commit
at the new one's. -/
def State.moveGrid (s : State) (old : State) : State :=
  if s.stageLen = old.stageLen then s
  else
    let nt := old.tickAt + old.stageLen
    { s with
      time := { s.time with lastTick := max s.time.lastTick (if s.now % s.stageLen = 0 then s.tickAt - s.stageLen else s.tickAt) }
      shadows := s.shadows.map fun x => if x.at_ = nt then { x with at_ := s.commitTick } else x }

/-- AON_MTC_LOAD (R33): the root's counter takes the value while the engine is STOPPED; a lower one freezes it. A load replaces a freeze; a slew
cannot be in progress on the root (DEDUCED: log entry 112). -/
def State.mtcLoad (s : State) (v off : Nat) : State :=
  if s.engSt = 0 && s.on .SYN_TIME_CTL_ROOT then
    let s0 := s.setMtc s.mtc
    State.timeStep { s0 with time := { s0.time with freeze := 0 } } ((v * 65536 : Nat) - (s.mtc : Nat) : Int)
  else s.cfgIgnored off

/-- A live link that the timetable uses has a measured delay above the bound of its header, in ns (R52, check 7). -/
def State.delayBad (s : State) : Bool :=
  match s.tt.active with
  | some im => nat6.any fun l => im.variants.any (fun v => bitAt v.links l) && s.live l && s.on .SYN_LINK_DELAY_VALID l
      && decide (im.delayBound * 64 < s.rf .SYN_LINK_DELAY_DELAY l)
  | none => false

/-- The checks of R52 in order: the code of the first that fails, 0 when none does. -/
def State.armErr (s : State) : Nat :=
  match s.tt.active with
  | none => 7
  | some im =>
    let b := s.rf .TT_START_MTC_START
    ((firstBad [(!s.on .AON_MTC_STATUS_TRUSTED || !s.on .AON_MTC_STATUS_ALIGNED, 6, 0), (b % s.stageLen != 0, 1, 0),
      (decide (b < s.now + 2 * s.stageLen), 2, 0), (im.stageUs != s.rf .TT_STAGE_LEN_LEN_US, 3, 0),
      (im.share != s.rf .TT_UNSCHED_SHARE_SIXTEENTHS, 4, 0), (s.delayBad, 5, 0)]).getD (0, 0)).1

/-- Both STOP bits cancel an arm at once; STOP_NOW takes a running engine's next tick, STOP_AT_PERIOD the end of its period (Table 2.10). -/
def State.stopNowWrite (s : State) : State :=
  match s.engSt with
  | 0 => s
  | 1 => s.stopEngine
  | _ => { s with eng := { s.eng with stopNow := true } }

def State.stopPeriodWrite (s : State) : State :=
  match s.engSt with
  | 1 => s.stopEngine
  | 2 => s.setf .TT_STATUS_STATE 0 3
  | _ => s

/-- ARM. The engine of a block in the safe state stays STOPPED (DEDUCED from R319: log entry 56). -/
def State.armWrite (s : State) : State :=
  if s.engSt != 0 || s.safe then s
  else if s.armErr = 0 then s.setfs [(.TT_STATUS_ERR, 0, 0), (.TT_STATUS_STATE, 0, 1)]
  else s.setf .TT_STATUS_ERR 0 s.armErr

/-- TT_CTL (R52–R55, Table 2.10). -/
def State.ttCtl (s : State) (v off : Nat) : State :=
  if bitAt v 0 then (if bitAt v 1 || bitAt v 2 then s.cfgIgnored off else s.armWrite)
  else if bitAt v 2 then s.stopNowWrite
  else if bitAt v 1 then s.stopPeriodWrite
  else s

/-! ## The fault collector (R314–R318, R332) -/

/-- FLT_STATUS: bits written 1 clear; those whose condition persists are set again. -/
def State.fltStatusWrite (s : State) (v : Nat) : State :=
  let cur := s.rf .FLT_STATUS_SOURCES
  (s.setf .FLT_STATUS_SOURCES 0 (cur - (cur &&& v))).relatch (cur &&& v)

/-- FLT_FIRST: writing 1 to VALID clears VALID, OVF and SOURCE. -/
def State.fltFirstWrite (s : State) (v : Nat) : State :=
  if bitAt v 63 then s.setfs [(.FLT_FIRST_VALID, 0, 0), (.FLT_FIRST_OVF, 0, 0), (.FLT_FIRST_SOURCE, 0, 0)] else s

/-- What the 32 reaction fields of a register read after a write of v (R318). -/
def reactFixed (hi : Bool) (v : Nat) : Nat :=
  pack2 ((List.range 32).map fun k =>
    let b := if hi then 32 + k else k
    if b = 0 || b = 8 then 2 else if b = 54 || b = 55 || 60 ≤ b then 0 else bitsOf v (2 * k + 1) (2 * k))

/-- The reaction of a set bit b was raised from `old`: the new one takes effect, without a record (R315, R316). -/
def State.raised (old : State) (s : State) (b : Nat) : State :=
  let o := old.reaction b
  let n := s.reaction b
  if !bitAt (s.rf .FLT_STATUS_SOURCES) b || n ≤ o then s
  else
    let s1 := if o = 0 || (o = 1 && !s.safe) then s.fltVector else s
    if 2 ≤ n then s1.safeEnter else s1

/-- FLT_REACT0 or FLT_REACT1. -/
def State.fltReact (s : State) (hi : Bool) (v : Nat) : State :=
  let s1 := if hi then s.setf .FLT_REACT1_REACT 0 (reactFixed true v) else s.setf .FLT_REACT0_REACT 0 (reactFixed false v)
  ((List.range 32).map fun k => if hi then 32 + k else k).foldl (State.raised s) s1

/-- AON_RESET_WIN, whose CLEAR empties the window. -/
def State.resetWin (s : State) (v off : Nat) : State :=
  let s1 := s.putReg .AON_RESET_WIN 0 v off
  if bitAt v 8 then { s1 with aon := { s1.aon with resets := [] } } else s1

/-! ## Doorbells and interrupt vectors (R266–R270, R285, R286, R367) -/

/-- DB_SQ_TAIL. A doorbell wakes the block from Doze. -/
def State.sqTail (s : State) (q v : Nat) : State :=
  let s1 := s.undoze
  if 2 ^ s1.sqLog q ≤ v then s1.sat .DB_STATUS_BAD_DB q
  else (s1.setf .DB_SQ_TAIL_TAIL q v).touch (s1.qYard q)

/-- DB_CQ_HEAD: an index out of range, or one that would pass the tail, is counted. -/
def State.cqHead (s : State) (q v : Nat) : State :=
  let s1 := s.undoze
  let k := s1.cqLog q
  let h := s1.rf .DB_CQ_HEAD_HEAD q
  if 2 ^ k ≤ v || ringCount k h (s1.rf .DB_CQ_TAIL_TAIL q) < ringCount k h v then s1.sat .DB_STATUS_BAD_DB q
  else s1.setf .DB_CQ_HEAD_HEAD q v

/-- DB_CQ_ARM: with completions pending the vector is sent at once, else the ring is armed. -/
def State.cqArmWrite (s : State) (q v : Nat) : State :=
  let s1 := s.undoze
  if !bitAt v 0 then s1
  else if s1.rf .DB_CQ_TAIL_TAIL q != s1.rf .DB_CQ_HEAD_HEAD q then (s1.setf .DB_CQ_ARM_ARM q 0).vector (s1.cqVector q)
  else s1.setf .DB_CQ_ARM_ARM q 1

/-- IRQ_DATAv: when the mask clears, a pending message is sent once. -/
def State.irqData (s : State) (i v off : Nat) : State :=
  let s1 := s.putReg .IRQ_DATA i v off
  if s.on .IRQ_DATA_MASK i && !s1.on .IRQ_DATA_MASK i && s.on .IRQ_DATA_PENDING i then
    (s1.setf .IRQ_DATA_PENDING i 0).message (s1.rf .IRQ_ADDR_ADDR i * 4) (s1.rf .IRQ_DATA_DATA i)
  else s1

/-! ## Sync objects (R245, R247, Table 9.6) -/

/-- A driver's set of object n. -/
def State.synSet (s : State) (n v off : Nat) : State :=
  if !s.allocated n then (s.misuse 2 n s.self).cfgIgnored off
  else if s.rf .SYN_FLAG_KIND n = 1 || 2 ^ 63 ≤ v then (s.misuse 3 n s.self).cfgIgnored off
  else s.setObj n v 0

/-- A driver's add to object n. -/
def State.synAdd (s : State) (n v off : Nat) : State :=
  if !s.allocated n then (s.misuse 2 n s.self).cfgIgnored off else s.localAdd n v

/-! ## Other writes that act -/

/-- TT_EPOCHt.DECISION of an UNKNOWN: COMMIT copies the staging, DISCARD frees it (R334, R335). -/
def State.epochWrite (s : State) (t v : Nat) : State :=
  if s.rf .TT_EPOCH_DECISION t != 3 || (v != 1 && v != 2) then s
  else
    let hit (i : Inst) : Bool := i.team == t && i.st == .ended && i.decision == 3
    let s1 := s.setf .TT_EPOCH_DECISION t v
    if v = 1 then s1.updInst hit fun i => { i with decision := 1 }
    else { s1 with insts := s1.insts.filter fun i => !hit i }

/-- RTE_SLICE: every extent 2–64, their product within the endpoints (R290). -/
def State.slice (s : State) (v off : Nat) : State :=
  let x := [bitsOf v 6 0, bitsOf v 14 8, bitsOf v 22 16]
  if x.all (fun n => 2 ≤ n && n ≤ 64) && x.foldl (· * ·) 1 ≤ s.nep then s.putReg .RTE_SLICE 0 v off else s.cfgIgnored off

/-- CMR_BOOT_CTL: GO starts the fetch, OK is firmware's alone (R369, R374). -/
def State.bootCtl (s : State) (v off : Nat) : State :=
  let s1 := if bitAt v 0 then s.bootGo else s
  if bitAt v 1 then s1.cfgIgnored off else s1

/-- DBG_HOLD: a nonzero write latches DEBUG_ACCESS (R381). -/
def State.holdWrite (s : State) (v off : Nat) : State :=
  let s1 := s.putReg .DBG_HOLD 0 v off
  if v % 256 = 0 then s1 else s1.fault 52

/-- The generator's test inputs: the output before the write is kept for 16 core cycles (R143). -/
def State.srgWrite (s : State) (r : Reg) (v off : Nat) : State :=
  let s1 := s.putReg r 0 v off
  { s1 with arr := { s1.arr with srg := (s1.arr.srg.filter fun x => s1.now < x.1 + 10) ++ [(s.now, s.srgNow)] } }

/-- SYN_DL_CTL: the detector starts to watch when EN is set (R263). -/
def State.dlCtl (s : State) (v off : Nat) : State :=
  let s1 := s.putReg .SYN_DL_CTL 0 v off
  if !s.on .SYN_DL_CTL_EN && s1.on .SYN_DL_CTL_EN then nat4.foldl (fun (s : State) y => s.touch y) s1 else s1

/-- A write of v to register r of index i, which stands at off. -/
def State.writeReg (s : State) (r : Reg) (i v off : Nat) : State :=
  match r with
  | .AON_MTC_LOAD => s.mtcLoad v off
  | .TT_CTL => s.ttCtl v off
  | .TT_STAGE_LEN => (s.putReg r i v off).moveGrid s
  | .TT_EPOCH => s.epochWrite i (v % 4)
  | .FLT_STATUS => s.fltStatusWrite v
  | .FLT_FIRST => s.fltFirstWrite v
  | .FLT_REACT0 => s.fltReact false v
  | .FLT_REACT1 => s.fltReact true v
  | .FLT_RESET => if v % 65536 = 0xB10C then s.askReset else s
  | .AON_RESET_WIN => s.resetWin v off
  | .DB_SQ_TAIL => s.sqTail i (v % 65536)
  | .DB_CQ_HEAD => s.cqHead i (v % 65536)
  | .DB_CQ_ARM => s.cqArmWrite i v
  | .DB_CANCEL => s.undoze.dbCancel i (v % 65536)
  | .IRQ_DATA => s.irqData i v off
  | .SYN_OBJ => s.synSet i v off
  | .SYN_ADD => s.synAdd i v off
  | .SYN_DL_CTL => s.dlCtl v off
  | .PWR_STATE => s.powerReq (v % 4)
  | .CMR_BOOT_CTL => s.bootCtl v off
  | .RTE_SLICE => s.slice v off
  | .DBG_HOLD => s.holdWrite v off
  | .ARR_SRG_KEY | .ARR_SRG_CTR | .ARR_SRG_TS => s.srgWrite r v off
  | .GRM_MIR_CFG | .GRM_MIR_OUT_EPOCH | .GRM_MIR_OUT | .GRM_MIR_OUTSTAT | .GRM_MIR_COPY_EPOCH | .GRM_MIR_COPY | .GRM_MIR_COMMIT
  | .GRM_MIR_IN_DROPS => s.cfgIgnored off
  | _ => s.putReg r i v off

/-- A write of v in a postilion RAM window (R84). -/
def State.writeRam (s : State) (p : Nat) (data : Bool) (a v off : Nat) : State :=
  let x := s.post p
  if s.engSt != 0 then s.cfgIgnored off
  else if data then s.setPost p (x.wrRam a (leBytes 8 v))
  else s.setPost p { x with iram := sset (fun _ => 0) (sset (fun _ => 0) x.iram (a / 4) (BitVec.ofNat 32 v)) (a / 4 + 1) (BitVec.ofNat 32 (v / 2 ^ 32)) }

/-- A whole, aligned write at an offset of the window; what no register occupies ignores it (R375). -/
def State.writeAt (s : State) (off v : Nat) : State :=
  match s.regAt off with
  | some (r, i) => s.writeReg r i v off
  | none => match ramAt off with
    | some (p, d, a) => s.writeRam p d a v off
    | none => s

/-! ## Reads -/

/-- What a whole, aligned read at an offset returns. -/
def State.readAt (s : State) (off : Nat) : Nat :=
  match s.regAt off with
  | some (r, i) => s.regVal r i
  | none => match ramAt off with
    | some (p, true, a) => leNat ((s.post p).rdRam a 8)
    | some (p, false, a) => (sget (fun _ => 0) (s.post p).iram (a / 4)).toNat + 2 ^ 32 * (sget (fun _ => 0) (s.post p).iram (a / 4 + 1)).toNat
    | none => 0

/-- A read clears the RC fields of its register to their reset values (R9, R376). -/
def State.clearRead (s : State) (off : Nat) : State :=
  match s.regAt off with
  | some (r, i) => (regFields r).foldl (fun (s : State) f => if (fieldSpec f).acc = .rc then s.setf f i (fldReset s.fuses f i) else s) s
  | none => s

/-- A whole, aligned read with its answer. -/
def State.readTo (s : State) (off : Nat) : State := { s.clearRead off with rdata := s.readAt off }

/-- A read or write is 64 bits wide and aligned (R8). -/
def whole (off : Nat) (be : BitVec 8) : Bool := off % 8 == 0 && be == 0xFF

end Sys2Proof.Machine
end

