-- ==== Sys2Proof/Machine/RegPort.lean ====
section
/-! DEFINITION. Accesses of the control port and of the test access port (R8–R11, R349, R359). A row for one register is that register's write
with the bit it names set, or cleared. -/

namespace Sys2Proof.Machine

/-- A write of v to register r of index i through the control port. -/
def putWord (r : Reg) (i : Nat) (v : Word) (s : State) : Out := portAccess s fun s => s.writeAt (regOff r i) v.toNat

/-- A register write of any width and offset: one that is narrow or misaligned has no effect. -/
def execRegisterWrite (off : BitVec 26) (be : BitVec 8) (v : Word) (s : State) : Out :=
  portAccess s fun s => if whole off.toNat be then s.writeAt off.toNat v.toNat else s

/-- A register read of any width and offset: one that is narrow or misaligned returns 0. -/
def execRegisterReadClear (off : BitVec 26) (be : BitVec 8) (s : State) : Out :=
  portAccess s fun s => if whole off.toNat be then s.readTo off.toNat else s

/-- SQ_DOORBELL. -/
def execSqDoorbell (q : QP) (v : Word) (s : State) : Out := putWord .DB_SQ_TAIL q v s
/-- CQ_HEAD_WRITE. -/
def execCqHeadWrite (q : QP) (v : Word) (s : State) : Out := putWord .DB_CQ_HEAD q v s
/-- CQ_ARM: ARM is written 1. -/
def execCqArm (q : QP) (v : Word) (s : State) : Out := putWord .DB_CQ_ARM q (v ||| 1) s
/-- CANCEL. -/
def execCancel (q : QP) (v : Word) (s : State) : Out := putWord .DB_CANCEL q v s
/-- ADMIN_QUEUE_ENABLE: EN is written 1. -/
def execAdminQueueEnable (v : Word) (s : State) : Out := putWord .ADM_CTL 0 (v ||| 0x8000000000000000#64) s
/-- ADMIN_QUEUE_DISABLE: EN is written 0. -/
def execAdminQueueDisable (v : Word) (s : State) : Out := putWord .ADM_CTL 0 (v &&& 0x7FFFFFFFFFFFFFFF#64) s
/-- IRQ_UNMASK: MASK is written 0. -/
def execIrqUnmask (vec : Fin 32) (v : Word) (s : State) : Out := putWord .IRQ_DATA vec.val (v &&& 0x7FFFFFFFFFFFFFFF#64) s
/-- MTC_LOAD. -/
def execMtcLoad (v : Word) (s : State) : Out := putWord .AON_MTC_LOAD 0 v s
/-- ARM. -/
def execArm (v : Word) (s : State) : Out := putWord .TT_CTL 0 (v ||| 1) s
/-- STOP_AT_PERIOD. -/
def execStopAtPeriod (v : Word) (s : State) : Out := putWord .TT_CTL 0 (v ||| 2) s
/-- STOP_NOW. -/
def execStopNow (v : Word) (s : State) : Out := putWord .TT_CTL 0 (v ||| 4) s
/-- SYN_OBJ_SET. -/
def execSynObjSet (n : Fin 16384) (v : Word) (s : State) : Out := putWord .SYN_OBJ n.val v s
/-- SYN_ADD. -/
def execSynAdd (n : Fin 16384) (v : Word) (s : State) : Out := putWord .SYN_ADD n.val v s
/-- FLT_STATUS_CLEAR. -/
def execFltStatusClear (v : Word) (s : State) : Out := putWord .FLT_STATUS 0 v s
/-- FLT_FIRST_CLEAR: VALID is written 1. -/
def execFltFirstClear (v : Word) (s : State) : Out := putWord .FLT_FIRST 0 (v ||| 0x8000000000000000#64) s
/-- FLT_REACT_WRITE: FLT_REACT0, or FLT_REACT1 with `hi`. -/
def execFltReactWrite (hi : Bool) (v : Word) (s : State) : Out := putWord (if hi then .FLT_REACT1 else .FLT_REACT0) 0 v s
/-- RESET_WIN_CLEAR: CLEAR is written 1. -/
def execResetWinClear (v : Word) (s : State) : Out := putWord .AON_RESET_WIN 0 (v ||| 0x100) s
/-- EPOCH_DECISION_WRITE. -/
def execEpochDecisionWrite (t : TeamSlot) (v : Word) (s : State) : Out := putWord .TT_EPOCH t v s
/-- DEBUG_HOLD. -/
def execDebugHold (v : Word) (s : State) : Out := putWord .DBG_HOLD 0 v s

/-! ## Test access port (R262, R359, R381) -/

/-- Offsets that the DBG unit reads: its own window and the values, add ports and flags of the sync objects. -/
def dbgReads (off : Nat) : Bool := (0x2300000 ≤ off && off < 0x2400000) || (0x0B00000 ≤ off && off < 0x0B60000)

/-- Boundary scan leaves the block's state alone; access to the DBG unit obeys the rules of the control port's. -/
def State.jtag (s : State) (a : JtagOp) : State :=
  match a with
  | .boundaryScan => s
  | .dbgRead off => if dbgReads off.toNat && off.toNat % 8 == 0 then { s with rdata := s.readAt off.toNat } else { s with rdata := 0 }
  | .dbgWrite off v => if 0x2300000 ≤ off.toNat && off.toNat < 0x2400000 && off.toNat % 8 == 0 then s.writeAt off.toNat v.toNat else s

/-- JTAG_ACCESS. -/
def execJtagAccess (a : JtagOp) (s : State) : Out := event s fun s => s.jtag a

end Sys2Proof.Machine
end

