-- ==== Sys2Proof/Machine/InfoAdmin.lean ====
section
/-! DEFINITION. GET_LOG, SET_ENDPOINTS and SET_DETOUR (R175, R182, R280, R338, R339, Table 10.7). -/

namespace Sys2Proof.Machine

/-! ## GET_LOG -/

def glDest (e : Entry) : Nat := ent e 8 8
def glOff (e : Entry) : Nat := ent e 16 4
def glLen (e : Entry) : Nat := ent e 20 4

def getLogBad (e : Entry) (_ : State) : List (Bool × Nat × Nat) := [(glLen e % 64 != 0, rBounds, 20)]

/-- The bytes go to DEST; RESULT is their number (Table 10.5). -/
def State.getLog (s : State) (q : Nat) (e : Entry) (bs : List Byte) : State :=
  (s.wrHost (glDest e) bs).finish q (eId e) 0x0D 0 bs.length

/-- The command with LOG = k and the bytes that it copies. -/
def State.logCmd (s : State) (q k : Nat) (e : Entry) (bs : State → List Byte) : State :=
  if ent e 4 1 != k then s
  else s.adminCmd q 0x0D e [(4, 1), (8, 8), (16, 4), (20, 4)] (getLogBad e) fun s _ => s.getLog q e (bs s)

/-- Bytes OFFSET to OFFSET + LENGTH − 1 of the AON log and of the crash dump area, as far as there are any (DEDUCED: log entry 53). -/
def State.logPart (s : State) (e : Entry) : List Byte := (s.logBytes.drop (glOff e)).take (glLen e)
def State.dumpPart (s : State) (e : Entry) : List Byte :=
  rdBytes s.host (s.rf .FLT_DUMP_BASE_ADDR * 4096 + glOff e) (min (glLen e) (s.rf .FLT_DUMP_BASE_SIZE_MIB * 2 ^ 20 - glOff e))

/-- A reserved LOG is refused by the row of the AON log. -/
def State.logOther (s : State) (q : Nat) (e : Entry) : State :=
  if 1 < ent e 4 1 then s.adminCmd q 0x0D e [(4, 1), (8, 8), (16, 4), (20, 4)] (fun _ => [(true, rField, 4)]) fun s _ => s else s

/-- GET_LOG of the AON log. -/
def execGetLogAon (q : QP) (e : Entry) (s : State) : Out := event s fun s => (s.logCmd q 0 e fun s => s.logPart e).logOther q e
/-- GET_LOG of the crash dump area. -/
def execGetLogDump (q : QP) (e : Entry) (s : State) : Out := event s fun s => s.logCmd q 1 e fun s => s.dumpPart e

/-! ## SET_ENDPOINTS -/

def seFirst (e : Entry) : Nat := ent e 4 2
def seCount (e : Entry) : Nat := ent e 6 2

/-- Word k of entry j of the command's table. -/
def State.seWord (s : State) (e : Entry) (j k : Nat) : Nat := rdLe s.host (ent e 8 8 + 16 * j + 8 * k) 8

def setEndpointsBad (e : Entry) (s : State) : List (Bool × Nat × Nat) :=
  [(decide (s.nep ≤ seFirst e), rBounds, 4), (decide (s.nep < seFirst e + seCount e), rBounds, 6),
   ((List.range (seCount e)).any (fun j => s.seWord e j 1 != 0), rField, 8), (s.atMtcBad (ent e 16 8), rField, 16)]

/-- Shadow copies of every field of an endpoint's entry from a word laid out as RTE_EPe_LO. -/
def State.shadowEntry (s : State) (at_ ep w : Nat) : State :=
  (regFields .RTE_EP_LO).foldl (fun (s : State) f => s.shadowAt at_ f ep (fpart f w)) s

/-- SET_ENDPOINTS: the entries commit at the tick, and the command completes there. -/
def execSetEndpoints (q : QP) (e : Entry) (s : State) : Out :=
  event s fun s => s.adminCmd q 0x10 e [(4, 2), (6, 2), (8, 8), (16, 8)] (setEndpointsBad e) fun s ft =>
    let t := s.atTick (ent e 16 8)
    ((List.range (seCount e)).foldl (fun (a : State) j => a.shadowEntry t (seFirst e + j) (s.seWord e j 0)) s).adopt ft (.endpoints t)

/-! ## SET_DETOUR -/

def setDetourBad (e : Entry) (s : State) : List (Bool × Nat × Nat) :=
  [(decide (s.nep ≤ ent e 4 2), rBounds, 4), (decide (s.nep ≤ ent e 6 2), rBounds, 6), (decide (1 < ent e 8 1), rField, 8),
   (s.atMtcBad (ent e 16 8), rField, 16)]

/-- SET_DETOUR: the detour of endpoint EP commits at the tick, and the command completes there. -/
def execSetDetour (q : QP) (e : Entry) (s : State) : Out :=
  event s fun s => s.adminCmd q 0x11 e [(4, 2), (6, 2), (8, 1), (16, 8)] (setDetourBad e) fun s ft =>
    let t := s.atTick (ent e 16 8)
    ((s.shadowAt t .RTE_EP_LO_DETOUR_EP (ent e 4 2) (ent e 6 2)).shadowAt t .RTE_EP_LO_DETOUR_EN (ent e 4 2) (ent e 8 1)).adopt ft (.detour t)

end Sys2Proof.Machine
end

