-- ==== Sys2Proof/Machine/MirrorAdmin.lean ====
section
/-! DEFINITION. MIRROR_CONFIG, MIRROR_COMMIT, and management requests and responses (R204, R299–R307, Tables 11.2, 11.3). -/

namespace Sys2Proof.Machine

/-! ## MIRROR_CONFIG (R299–R301, R307) -/

def mcEnable (e : Entry) : Nat := ent e 4 1
def mcBuddy (e : Entry) : Nat := ent e 6 2
def mcLink (e : Entry) : Nat := ent e 8 1
def mcBase (e : Entry) : Nat := ent e 12 4
def mcSize (e : Entry) : Nat := ent e 16 4
def mcOut (e : Entry) : Bool := bitAt (mcEnable e) 0
def mcIn (e : Entry) : Bool := bitAt (mcEnable e) 1

/-- Endpoint ep's entry gives the coordinates one step from here along link l, modulo the slice. -/
def State.oneStep (s : State) (ep l : Nat) : Bool :=
  s.on .RTE_EP_LO_VALID ep && [0, 1, 2].all fun a =>
    let m := max 1 (s.extent a)
    s.coord ep a == (if a != axisOf l then s.here a else if dirOf l then (s.here a + m - 1) % m else (s.here a + 1) % m)

/-- The region leaves the depot or crosses the boundary of a yard's quarter. -/
def State.regionOut (s : State) (base size : Nat) : Bool :=
  decide (s.depotSize < base + size) || base / s.quarter != (base + size - 1) / s.quarter

/-- A command with a mirrored descriptor is outstanding. -/
def State.mirroredOut (s : State) : Bool :=
  let bad (e : Entry) : Bool := (eOp e == 0x30 || eOp e == 0x31) && (List.range (gD e)).any fun d => bitAt (s.descAt (gTables e) d 72 4) 0
  s.qs.cmds.any (fun c => bad c.e) || s.qs.fetched.any fun f => bad f.e

def mirrorConfigBad (e : Entry) (s : State) : List (Bool × Nat × Nat) :=
  [(decide (3 < mcEnable e), rField, 4), (decide (5 < mcLink e), rField, 8), (mcOut e && decide (s.nep ≤ mcBuddy e), rBounds, 6),
   (mcOut e && !s.oneStep (mcBuddy e) (mcLink e), rField, 6),
   (mcIn e && (mcSize e % 2 != 0 || decide (mcSize e < 2 || 8192 < mcSize e)), rField, 16),
   (mcIn e && s.regionOut (mcBase e * 2 ^ 20) (mcSize e * 2 ^ 20), rBounds, 12), (s.mirroredOut, rState, 4)]

/-- Both copies become EMPTY, as after a reset. -/
def State.emptyCopies (s : State) : State :=
  [0, 1].foldl (fun (s : State) c => s.setfs [(.GRM_MIR_COPY_STATE, c, 0), (.GRM_MIR_COPY_CURRENT, c, 0), (.GRM_MIR_COPY_EPOCH_EPOCH, c, 0),
    (.GRM_MIR_COPY_BYTES, c, 0)]) s

/-- The new state. Where a direction is disabled its buddy or its region stays as it was (log entry 54). -/
def State.mirrorConfig (s : State) (e : Entry) : State :=
  let was := s.on .GRM_MIR_CFG_IN_EN
  let moved := s.rf .GRM_MIR_CFG_IN_BASE_MIB != mcBase e || s.rf .GRM_MIR_CFG_IN_SIZE_MIB != mcSize e || s.rf .GRM_MIR_CFG_LINK != mcLink e
  let s1 := if was && !mcIn e then s.mirInvalid else if was && moved then s.mirInvalid.emptyCopies else s
  let s2 := (s1.flag .GRM_MIR_CFG_OUT_EN 0 (mcOut e)).flag .GRM_MIR_CFG_IN_EN 0 (mcIn e)
  let s3 := if mcEnable e = 0 then s2 else s2.setf .GRM_MIR_CFG_LINK 0 (mcLink e)
  let s4 := if mcOut e then s3.setf .GRM_MIR_CFG_BUDDY_EP 0 (mcBuddy e) else s3
  if mcIn e then s4.setfs [(.GRM_MIR_CFG_IN_BASE_MIB, 0, mcBase e), (.GRM_MIR_CFG_IN_SIZE_MIB, 0, mcSize e)] else s4

/-- MIRROR_CONFIG. -/
def execMirrorConfig (q : QP) (e : Entry) (s : State) : Out :=
  event s fun s => s.adminCmd q 0x0C e [(4, 1), (6, 2), (8, 1), (12, 4), (16, 4)] (mirrorConfigBad e) fun s _ =>
    (s.mirrorConfig e).finish q (eId e) 0x0C 0

/-! ## Management carriages (R204; their payload's layout is a DESIGN CHOICE: log entry 55) -/

/-- Payload: offset, data, write flag. -/
def mgmtBytes (off data : Nat) (wr : Bool) : List Byte := leBytes 8 off ++ leBytes 8 data ++ leBytes 1 (b2n wr) ++ List.replicate 47 0
def mOff (c : Carriage) : Nat := gran c 0 8
def mData (c : Carriage) : Nat := gran c 8 8
def mWrite (c : Carriage) : Bool := bitAt (gran c 16 1) 0

/-- Offset of GRM_MIR_COMMIT. -/
def offCommit : Nat := 0x0900240

/-- The response to a request. -/
def State.mgmtAnswer (s : State) (c : Carriage) (data : Nat) (wr : Bool) : State :=
  s.inject (mkCarriage { cls := 3, kind := 9, dst := cSrc c, src := s.self, tenant := cTenant c, yard := cYard c, ygen := cYgen c,
                         seq := cSeq c, dgen := s.rf .RTE_EP_LO_GEN (cSrc c) } (mgmtBytes (mOff c) data wr)) 8 3

/-- A write of GRM_MIR_COMMIT that the buddy takes: from the endpoint at the far end of its incoming link (R304). -/
def State.commitWrite (s : State) (c : Carriage) : Bool := mWrite c && mOff c == offCommit && s.farEnd s.mirIn == some (cSrc c)

/-- Serve a request that is no commit write. -/
def State.mgmtServe (s : State) (c : Carriage) : State :=
  let off := mOff c
  let ok := off % 8 == 0 && off < 2 ^ 26
  if !mWrite c then
    (if ok then (s.mgmtAnswer c (s.readAt off) false).clearRead off else s.mgmtAnswer c 0 false)
  else if off = offCommit || !s.on .RTE_CTL_MGMT_WR_EN then (s.mgmtAnswer c (mData c) false).cfgIgnored off
  else
    let s1 := s.mgmtAnswer c (mData c) true
    if ok then s1.writeAt off (mData c) else s1

/-- Serve the queue in order up to a commit write, which waits for its outcome. -/
def State.mgmtPump : Nat → State → State
  | 0, s => s
  | n + 1, s =>
    match s.net.mgmtq with
    | [] => s
    | c :: t =>
      if s.commitWrite c then s
      else State.mgmtPump n (State.mgmtServe { s with net := { s.net with mgmtq := t } } c)

/-- MGMT_REQ_RECEIVE: the queue holds 16 requests; one that finds it full is dropped. -/
def execMgmtReqReceive (p : Port) (c : Carriage) (s : State) : Out :=
  event s fun s => match s.takeAccepted p c [8] with
    | some s1 =>
      if 16 ≤ s1.net.mgmtq.length then s1
      else State.mgmtPump 16 { s1 with net := { s1.net with mgmtq := s1.net.mgmtq ++ [c] } }
    | none => s

/-! ## MIRROR_COMMIT at the active chip (R304, R305) -/

/-- MIRROR_COMMIT: its epoch is the one staged. -/
def execMirrorCommit (q : QP) (e : Entry) (s : State) : Out :=
  event s fun s => s.startCmd q 0x51 e [(8, 8)] (q != 0) fun s ft =>
    match firstBad [(!s.sliceSet, rState, 0), (!s.on .GRM_MIR_CFG_OUT_EN || s.rf .GRM_MIR_OUT_EPOCH_EPOCH != ent e 8 8, rState, 8)] with
    | some (r, d) => s.invalid q e r d
    | none => s.adopt ft (.mirror false)

/-- The MIRROR_COMMIT that has sent its write, or has not. -/
def State.commitCmd (s : State) (sent : Bool) : Option Cmd := s.qs.cmds.find? fun c => c.phase == .mirror sent

/-- The commit write to the buddy; SEQ is the command's id. -/
def State.commitSend (s : State) (c : Cmd) : State :=
  let ep := s.rf .GRM_MIR_CFG_BUDDY_EP
  let y := s.qYard c.q
  let d := ent c.e 8 4 * 2 ^ 32 + s.rf .GRM_MIR_OUT_STAGED
  let s1 : State := { s with qs := { s.qs with cmds := updWhere (fun x => x.q == c.q && x.id == c.id) (fun x => { x with phase := .mirror true }) s.qs.cmds } }
  s1.inject (mkCarriage { cls := 3, kind := 8, dst := ep, src := s.self, tenant := s.yardTenant y, yard := y, ygen := s.rf .YRD_STATE_GEN y,
                          seq := c.id, dgen := s.rf .RTE_EP_LO_GEN ep } (mgmtBytes offCommit d true)) 8 3

/-- MIRROR_COMMIT_WRITE_SEND: every staged byte is sent, and every mirror carriage is acknowledged or lost. -/
def execMirrorCommitWriteSend (s : State) : Out :=
  event s fun s => match s.commitCmd false with
    | none => s
    | some c =>
      if s.groom.mirSent != s.rf .GRM_MIR_OUT_STAGED || s.groom.mirOpen != 0 || s.safe then s
      else if s.rf .GRM_MIR_OUTSTAT_LOST != 0 then (s.finishCmd c 4).fault 45
      else s.commitSend c

/-- The outcome code reaches the active chip: its status by Table 11.3. -/
def State.commitEnd (s : State) (c : Cmd) (code : Nat) : State :=
  let s1 := s.setf .GRM_MIR_OUTSTAT_LAST_OUTCOME 0 code
  match code with
  | 0 => (s1.sat .GRM_MIR_OUTSTAT_COMMITS 0).finishCmd c 0
  | 1 => s1.finishCmd c 0
  | 2 => (s1.finishCmd c 4).fault 45
  | _ => s1.finishCmd c 6 (invResult rState 8)

/-- MGMT_RSP_RECEIVE: the outcome of the commit write, or data for the requester. -/
def execMgmtRspReceive (p : Port) (c : Carriage) (s : State) : Out :=
  event s fun s => match s.takeAccepted p c [9] with
    | none => s
    | some s1 =>
      match s1.commitCmd true with
      | some d =>
        if mOff c == offCommit && mWrite c && cSrc c == s1.rf .GRM_MIR_CFG_BUDDY_EP && cSeq c == d.id then s1.commitEnd d (mData c % 256)
        else s1.emit (.mgmtRsp (mData c))
      | none => s1.emit (.mgmtRsp (mData c))

/-! ## The outcome at the buddy (Table 11.3) -/

/-- The copy whose epoch's low half is lo and which passes the test. -/
def State.copyOf (s : State) (lo : Nat) (p : Nat → Bool) : Option Nat :=
  [0, 1].find? fun k => s.rf .GRM_MIR_COPY_EPOCH_EPOCH k % 2 ^ 32 == lo && p k

/-- The outcome of a commit of epoch low half lo and count n. -/
def State.commitOutcome (s : State) (lo n : Nat) : State × Nat :=
  if !s.on .GRM_MIR_CFG_IN_EN then (s, 4)
  else if (s.copyOf lo fun k => s.on .GRM_MIR_COPY_CURRENT k && s.rf .GRM_MIR_COPY_BYTES k == n).isSome then (s, 1)
  else match s.copyOf lo fun k => s.rf .GRM_MIR_COPY_STATE k == 1 with
    | none => (s, 3)
    | some k =>
      if s.rf .GRM_MIR_COPY_BYTES k != n then ((s.setf .GRM_MIR_COPY_STATE k 3).fault 45, 2)
      else (s.setfs [(.GRM_MIR_COPY_STATE, k, 2), (.GRM_MIR_COPY_CURRENT, k, 1), (.GRM_MIR_COPY_CURRENT, 1 - k, 0)], 0)

/-- A mirror carriage has been accepted and waits to be written, or its depot write is open. -/
def State.mirWriting (s : State) : Bool :=
  (s.net.accepted.any fun a => cKind a.c == 13) || s.hitch.dreqs.any fun r => match r.use with
    | .mirror .. => true
    | _ => false

/-- MIRROR_COMMIT_OUTCOME: the commit write at the head of the queue, once every accepted mirror carriage is in the depot. -/
def execMirrorCommitOutcome (s : State) : Out :=
  event s fun s => match s.net.mgmtq with
    | [] => s
    | c :: t =>
      if !s.commitWrite c then State.mgmtPump 16 s
      else if s.mirWriting || s.safe then s
      else
        let r := State.commitOutcome { s with net := { s.net with mgmtq := t } } (mData c / 2 ^ 32) (mData c % 2 ^ 32)
        State.mgmtPump 16 (r.1.mgmtAnswer c r.2 true)

end Sys2Proof.Machine
end

