-- ==== Sys2Proof/Machine/PostMsg.lean ====
section
/-! DEFINITION. Mailboxes and sync objects of postilions: SEND, WAITM, WAITS, SIGNAL, WAITX (R77–R79, R245, R246). -/

namespace Sys2Proof.Machine

/-! ## Mailboxes -/

/-- The map of the target allows sender p (R79). -/
def State.mayMail (s : State) (p d m : Nat) : Bool :=
  match (s.post d).map[m]? with
  | some pr => pr.1 == p || (pr.1 == 0xFF && rowOf p == rowOf d)
  | none => false

/-- Messages in mailbox m of d and on their way to it. -/
def State.boxLoad (s : State) (d m : Nat) : Nat :=
  ((s.post d).box m).length + (s.mesh.filter fun x => x.dst == d && x.m == m).length

/-- SEND: a forbidden one is a postilion fault with cause 5; a full mailbox stalls the sender (R74, R78). -/
def execSend (p : PostId) (a b : GReg) (imm : BitVec 14) (s : State) : Out :=
  event s fun s => s.postRun p (.send p a b imm) fun s x =>
    let d := (x.reg a).toNat % 64
    let m := imm.toNat % 8
    if !s.mayMail p d m then s.postFault p 5
    else if 4 ≤ s.boxLoad d m then s.setPost p { x with wait := .sendStall d m }
    else { s.setPost p x.next with mesh := s.mesh ++ [{ src := p, dst := d, m := m, val := x.reg b }] }

/-- Postilions stalled on mailbox m of d try again. -/
def State.freeSenders (s : State) (d m : Nat) : State :=
  { s with posts := s.posts.map fun (p, x) => (p, if x.wait == .sendStall d m then { x with wait := .run } else x) }

/-- WAITM: the oldest message, or a wait until one arrives. -/
def execWaitm (p : PostId) (d : GReg) (imm : BitVec 14) (s : State) : Out :=
  event s fun s => s.postRun p (.waitm p d imm) fun s x =>
    let m := imm.toNat % 8
    match x.box m with
    | [] => s.setPost p { x with wait := .mailbox m }
    | v :: t => (s.setPost p ((x.setBox m t).setReg d v).next).freeSenders p m

/-- The first message from src to mailbox m of dst leaves the mesh and enters the mailbox; a postilion that waits on it goes on. -/
def State.deliver (s : State) (src dst m : Nat) : State :=
  match s.mesh.find? fun x => x.src == src && x.dst == dst && x.m == m with
  | none => s
  | some g =>
    let x := s.post dst
    let y := x.setBox m (x.box m ++ [g.val])
    { s.setPost dst (if x.wait == .mailbox m then { y with wait := .run } else y) with mesh := s.mesh.erase g }

/-- MAILBOX_MESSAGE_ARRIVE (R78). -/
def execMailboxMessageArrive (src dst : PostId) (m : Fin 8) (s : State) : Out := event s fun s => s.deliver src dst m

/-! ## Sync objects -/

/-- Object n is allocated and in the range of the postilion's own yard (R246). -/
def State.ownObj (s : State) (p n : Nat) : Bool := s.on .SYN_FLAG_ALLOC n && s.objYard n == some (rowOf p)

/-- WAITS: a remote object, or one that is not the yard's, is a postilion fault with cause 7. -/
def execWaits (p : PostId) (a b : GReg) (imm : BitVec 14) (s : State) : Out :=
  event s fun s => s.postRun p (.waits p a b imm) fun s x =>
    let ra := (x.reg a).toNat
    let n := ra % 2 ^ 14
    let eq := bitAt imm.toNat 0
    let v := (x.reg b).toNat
    if bitAt ra 63 || !s.ownObj p n then s.postFault p 7
    else if released (s.rf .SYN_FLAG_KIND n) (s.rf .SYN_OBJ_VALUE n) v eq then s.setPost p x.next
    else s.setPost p { x with wait := .sync n v eq }

/-- A SIGNAL to another chip's object: a SIGNAL carriage of the yard's tenant, or a stall until its window has a credit. -/
def State.remoteSignal (s : State) (p : Nat) (x : Post) (ep n v : Nat) : State :=
  let y := rowOf p
  let tn := s.yardTenant y
  if !s.on .RTE_EP_LO_VALID ep || !bitAt (s.rf .RTE_EP_LO_TENANT_MASK ep) tn then s.setPost p x.next
  else match s.takeCredit ep tn 64 with
    | none => s.setPost p { x with wait := .reinStall }
    | some (s1, w) =>
      let car := mkCarriage { cls := 2, kind := 6, dst := ep, src := s.self, tenant := tn, yard := y, ygen := s.rf .YRD_STATE_GEN y,
                              gen := w.gen, seq := w.seq, dgen := s.rf .RTE_EP_LO_GEN ep } (granule n 0 0 0 0 v s.epochNow)
      ((s1.owe ep tn 64 w.seq 0 0).inject car 8 3).setPost p x.next

/-- SIGNAL: an add to a local object of the yard, or to a remote one (R246, R257). -/
def execSignal (p : PostId) (a b : GReg) (s : State) : Out :=
  event s fun s => s.postRun p (.signal p a b) fun s x =>
    let ra := (x.reg a).toNat
    let n := ra % 2 ^ 14
    if bitAt ra 63 then s.remoteSignal p x (ra / 2 ^ 32 % 65536) n (x.reg b).toNat
    else if !s.ownObj p n then s.postFault p 7
    else (s.setPost p x.next).localAdd n (x.reg b).toNat

/-! ## Tags -/

/-- WAITX: every named tag has completed (R77). -/
def execWaitx (p : PostId) (b : GReg) (s : State) : Out :=
  event s fun s => s.postRun p (.waitx p b) fun s x =>
    let m := (x.reg b).toNat % 256
    if x.tags.any fun t => bitAt m t.tag then s.setPost p { x with wait := .tags m } else s.setPost p x.next

end Sys2Proof.Machine
end

