-- ==== Sys2Proof/Machine/Dispatch.lean ====
section
/-! DEFINITION. One arm per command: its meaning. -/

namespace Sys2Proof.Machine

def exec (i : Instr) (s : State) : Host.Outcome State Fault Refusal :=
  match i with
  | .createSq q e => Sys2Proof.Machine.execCreateSq q e s
  | .createCq q e => Sys2Proof.Machine.execCreateCq q e s
  | .destroySq q e => Sys2Proof.Machine.execDestroySq q e s
  | .destroyCq q e => Sys2Proof.Machine.execDestroyCq q e s
  | .defineTeam q e => Sys2Proof.Machine.execDefineTeam q e s
  | .retireTeam q e => Sys2Proof.Machine.execRetireTeam q e s
  | .loadTimetableNow q e => Sys2Proof.Machine.execLoadTimetableNow q e s
  | .loadTimetableAtMtc q e => Sys2Proof.Machine.execLoadTimetableAtMtc q e s
  | .timetableImageChecked => Sys2Proof.Machine.execTimetableImageChecked s
  | .timetableSwap => Sys2Proof.Machine.execTimetableSwap s
  | .setTenant q e => Sys2Proof.Machine.execSetTenant q e s
  | .allocSync q e => Sys2Proof.Machine.execAllocSync q e s
  | .freeSync q e => Sys2Proof.Machine.execFreeSync q e s
  | .linkEnable q e => Sys2Proof.Machine.execLinkEnable q e s
  | .linkDisable q e => Sys2Proof.Machine.execLinkDisable q e s
  | .linkRetrain q e => Sys2Proof.Machine.execLinkRetrain q e s
  | .linkReaim q e => Sys2Proof.Machine.execLinkReaim q e s
  | .linkTest q e => Sys2Proof.Machine.execLinkTest q e s
  | .mirrorConfig q e => Sys2Proof.Machine.execMirrorConfig q e s
  | .getLogAon q e => Sys2Proof.Machine.execGetLogAon q e s
  | .getLogDump q e => Sys2Proof.Machine.execGetLogDump q e s
  | .resetYard q e => Sys2Proof.Machine.execResetYard q e s
  | .fwActivate q e => Sys2Proof.Machine.execFwActivate q e s
  | .setEndpoints q e => Sys2Proof.Machine.execSetEndpoints q e s
  | .setDetour q e => Sys2Proof.Machine.execSetDetour q e s
  | .allreduce q e => Sys2Proof.Machine.execAllreduce q e s
  | .reduceScatter q e => Sys2Proof.Machine.execReduceScatter q e s
  | .allgather q e => Sys2Proof.Machine.execAllgather q e s
  | .broadcast q e => Sys2Proof.Machine.execBroadcast q e s
  | .reduce q e => Sys2Proof.Machine.execReduce q e s
  | .alltoall q e => Sys2Proof.Machine.execAlltoall q e s
  | .gather q e => Sys2Proof.Machine.execGather q e s
  | .scatter q e => Sys2Proof.Machine.execScatter q e s
  | .barrier q e => Sys2Proof.Machine.execBarrier q e s
  | .rcug q e => Sys2Proof.Machine.execRcug q e s
  | .update q e => Sys2Proof.Machine.execUpdate q e s
  | .norm q e => Sys2Proof.Machine.execNorm q e s
  | .put q e => Sys2Proof.Machine.execPut q e s
  | .get q e => Sys2Proof.Machine.execGet q e s
  | .atomic q e => Sys2Proof.Machine.execAtomic q e s
  | .signalCommand q e => Sys2Proof.Machine.execSignalCommand q e s
  | .offload q e => Sys2Proof.Machine.execOffload q e s
  | .fetch q e => Sys2Proof.Machine.execFetch q e s
  | .copy q e => Sys2Proof.Machine.execCopy q e s
  | .mirrorCommit q e => Sys2Proof.Machine.execMirrorCommit q e s
  | .mirrorCommitWriteSend => Sys2Proof.Machine.execMirrorCommitWriteSend s
  | .mirrorCommitOutcome => Sys2Proof.Machine.execMirrorCommitOutcome s
  | .sqDoorbell q v => Sys2Proof.Machine.execSqDoorbell q v s
  | .cqHeadWrite q v => Sys2Proof.Machine.execCqHeadWrite q v s
  | .cqArm q v => Sys2Proof.Machine.execCqArm q v s
  | .cancel q v => Sys2Proof.Machine.execCancel q v s
  | .adminQueueEnable v => Sys2Proof.Machine.execAdminQueueEnable v s
  | .adminQueueDisable v => Sys2Proof.Machine.execAdminQueueDisable v s
  | .irqUnmask vec v => Sys2Proof.Machine.execIrqUnmask vec v s
  | .mtcLoad v => Sys2Proof.Machine.execMtcLoad v s
  | .arm v => Sys2Proof.Machine.execArm v s
  | .stopAtPeriod v => Sys2Proof.Machine.execStopAtPeriod v s
  | .stopNow v => Sys2Proof.Machine.execStopNow v s
  | .synObjSet n v => Sys2Proof.Machine.execSynObjSet n v s
  | .synAdd n v => Sys2Proof.Machine.execSynAdd n v s
  | .fltStatusClear v => Sys2Proof.Machine.execFltStatusClear v s
  | .fltFirstClear v => Sys2Proof.Machine.execFltFirstClear v s
  | .fltReactWrite hi v => Sys2Proof.Machine.execFltReactWrite hi v s
  | .blockReset => Sys2Proof.Machine.execBlockReset s
  | .resetWinClear v => Sys2Proof.Machine.execResetWinClear v s
  | .dozeRequest => Sys2Proof.Machine.execDozeRequest s
  | .runRequest => Sys2Proof.Machine.execRunRequest s
  | .offRequest => Sys2Proof.Machine.execOffRequest s
  | .bootGo => Sys2Proof.Machine.execBootGo s
  | .epochDecisionWrite t v => Sys2Proof.Machine.execEpochDecisionWrite t v s
  | .debugHold v => Sys2Proof.Machine.execDebugHold v s
  | .registerWrite off be v => Sys2Proof.Machine.execRegisterWrite off be v s
  | .registerReadClear off be => Sys2Proof.Machine.execRegisterReadClear off be s
  | .submissionFetch y ue tbl => Sys2Proof.Machine.execSubmissionFetch y s ue tbl
  | .bindingRecordWrite q id => Sys2Proof.Machine.execBindingRecordWrite q id s
  | .completionPost q id => Sys2Proof.Machine.execCompletionPost q id s
  | .interruptResponse err => Sys2Proof.Machine.execInterruptResponse err s
  | .commandTimeout q id => Sys2Proof.Machine.execCommandTimeout q id s
  | .quarantineEnd what => Sys2Proof.Machine.execQuarantineEnd what s
  | .fenceEnd ep => Sys2Proof.Machine.execFenceEnd ep s
  | .stageTick ue => Sys2Proof.Machine.execStageTick s ue
  | .engineStart => Sys2Proof.Machine.execEngineStart s
  | .periodEnd => Sys2Proof.Machine.execPeriodEnd s
  | .realignment => Sys2Proof.Machine.execRealignment s
  | .tickSend => Sys2Proof.Machine.execTickSend s
  | .tickReceive l slots sub => Sys2Proof.Machine.execTickReceive l slots sub s
  | .timeCorrection => Sys2Proof.Machine.execTimeCorrection s
  | .slewComplete => Sys2Proof.Machine.execSlewComplete s
  | .referenceLoss => Sys2Proof.Machine.execReferenceLoss s
  | .referenceReturn => Sys2Proof.Machine.execReferenceReturn s
  | .nop p => Sys2Proof.Machine.execNop p s
  | .add p d a b => Sys2Proof.Machine.execAdd p d a b s
  | .sub p d a b => Sys2Proof.Machine.execSub p d a b s
  | .and p d a b => Sys2Proof.Machine.execAnd p d a b s
  | .or p d a b => Sys2Proof.Machine.execOr p d a b s
  | .xor p d a b => Sys2Proof.Machine.execXor p d a b s
  | .shl p d a b => Sys2Proof.Machine.execShl p d a b s
  | .shr p d a b => Sys2Proof.Machine.execShr p d a b s
  | .addi p d a imm => Sys2Proof.Machine.execAddi p d a imm s
  | .movi p d imm => Sys2Proof.Machine.execMovi p d imm s
  | .mul p d a b => Sys2Proof.Machine.execMul p d a b s
  | .beq p a b imm => Sys2Proof.Machine.execBeq p a b imm s
  | .bne p a b imm => Sys2Proof.Machine.execBne p a b imm s
  | .blt p a b imm => Sys2Proof.Machine.execBlt p a b imm s
  | .jmp p imm => Sys2Proof.Machine.execJmp p imm s
  | .endSeg p => Sys2Proof.Machine.execEndSeg p s
  | .ld p d a imm ue => Sys2Proof.Machine.execLd p d a imm s ue
  | .st p a b imm => Sys2Proof.Machine.execSt p a b imm s
  | .stg p d imm => Sys2Proof.Machine.execStg p d imm s
  | .send p a b imm => Sys2Proof.Machine.execSend p a b imm s
  | .waitm p d imm => Sys2Proof.Machine.execWaitm p d imm s
  | .waits p a b imm => Sys2Proof.Machine.execWaits p a b imm s
  | .signal p a b => Sys2Proof.Machine.execSignal p a b s
  | .xmit p a imm => Sys2Proof.Machine.execXmit p a imm s
  | .recv p a imm => Sys2Proof.Machine.execRecv p a imm s
  | .aop p a imm => Sys2Proof.Machine.execAop p a imm s
  | .hrd p a imm => Sys2Proof.Machine.execHrd p a imm s
  | .hwr p a imm => Sys2Proof.Machine.execHwr p a imm s
  | .drd p a imm => Sys2Proof.Machine.execDrd p a imm s
  | .dwr p a imm => Sys2Proof.Machine.execDwr p a imm s
  | .waitx p b => Sys2Proof.Machine.execWaitx p b s
  | .mailboxMessageArrive src dst m => Sys2Proof.Machine.execMailboxMessageArrive src dst m s
  | .arrayOperationStart scr => Sys2Proof.Machine.execArrayOperationStart s scr
  | .arrayOperationComplete parity => Sys2Proof.Machine.execArrayOperationComplete s parity
  | .governorStep => Sys2Proof.Machine.execGovernorStep s
  | .groomJobStart => Sys2Proof.Machine.execGroomJobStart s
  | .groomJobEnd => Sys2Proof.Machine.execGroomJobEnd s
  | .epochCopyComplete t => Sys2Proof.Machine.execEpochCopyComplete t s
  | .vehTileComplete tile => Sys2Proof.Machine.execVehTileComplete tile s
  | .scheduledCarriageSend l => Sys2Proof.Machine.execScheduledCarriageSend l s
  | .unscheduledCarriageGrant l => Sys2Proof.Machine.execUnscheduledCarriageGrant l s
  | .carriageArrive l c => Sys2Proof.Machine.execCarriageArrive l c s
  | .crcVerdict l => Sys2Proof.Machine.execCrcVerdict l s
  | .dataReceive p c d => Sys2Proof.Machine.execDataReceive p c d s
  | .putReceive p c => Sys2Proof.Machine.execPutReceive p c s
  | .getReqReceive p c => Sys2Proof.Machine.execGetReqReceive p c s
  | .getRspReceive p c => Sys2Proof.Machine.execGetRspReceive p c s
  | .atomReqReceive p c => Sys2Proof.Machine.execAtomReqReceive p c s
  | .atomRspReceive p c => Sys2Proof.Machine.execAtomRspReceive p c s
  | .signalReceive p c => Sys2Proof.Machine.execSignalReceive p c s
  | .barrierArrive p c => Sys2Proof.Machine.execBarrierArrive p c s
  | .barrierRelease p c => Sys2Proof.Machine.execBarrierRelease p c s
  | .mgmtReqReceive p c => Sys2Proof.Machine.execMgmtReqReceive p c s
  | .mgmtRspReceive p c => Sys2Proof.Machine.execMgmtRspReceive p c s
  | .farWrReceive l c => Sys2Proof.Machine.execFarWrReceive l c s
  | .farRdreqReceive l c => Sys2Proof.Machine.execFarRdreqReceive l c s
  | .farRdrspReceive l c => Sys2Proof.Machine.execFarRdrspReceive l c s
  | .mirrorReceive l c => Sys2Proof.Machine.execMirrorReceive l c s
  | .ackUpstreamSend l t => Sys2Proof.Machine.execAckUpstreamSend l t s
  | .ackUpstreamReceive l t slot => Sys2Proof.Machine.execAckUpstreamReceive l t slot s
  | .ackDownstreamReceive l t slot => Sys2Proof.Machine.execAckDownstreamReceive l t slot s
  | .ackDownstreamRepeat l t => Sys2Proof.Machine.execAckDownstreamRepeat l t s
  | .nakReceive l t slot => Sys2Proof.Machine.execNakReceive l t slot s
  | .replayTimeout l t lsn => Sys2Proof.Machine.execReplayTimeout l t lsn s
  | .replaySend l t => Sys2Proof.Machine.execReplaySend l t s
  | .recallReceive l t slot => Sys2Proof.Machine.execRecallReceive l t slot s
  | .reinReceive l slot => Sys2Proof.Machine.execReinReceive l slot s
  | .haltReceive l slot => Sys2Proof.Machine.execHaltReceive l slot s
  | .linkHaltReceive l slot => Sys2Proof.Machine.execLinkHaltReceive l slot s
  | .attributionPeriodEnd l => Sys2Proof.Machine.execAttributionPeriodEnd l s
  | .markSend l t => Sys2Proof.Machine.execMarkSend l t s
  | .markReceive l lanes skews t => Sys2Proof.Machine.execMarkReceive l lanes skews s t
  | .berWindowEnd l viol disp => Sys2Proof.Machine.execBerWindowEnd l viol s disp
  | .laneLock l lanes => Sys2Proof.Machine.execLaneLock l lanes s
  | .alignComplete l skews => Sys2Proof.Machine.execAlignComplete l skews s
  | .rtReqReceive l slot hold => Sys2Proof.Machine.execRtReqReceive l slot hold s
  | .rtRspReceive l slot sub => Sys2Proof.Machine.execRtRspReceive l slot sub s
  | .capReceive l g slot => Sys2Proof.Machine.execCapReceive l g slot s
  | .stepReqReceive l slot => Sys2Proof.Machine.execStepReqReceive l slot s
  | .stepAckReceive l slot => Sys2Proof.Machine.execStepAckReceive l slot s
  | .resultReceive l slot => Sys2Proof.Machine.execResultReceive l slot s
  | .stepStart l => Sys2Proof.Machine.execStepStart l s
  | .rungChange l => Sys2Proof.Machine.execRungChange l s
  | .prbsEnd l errLanes => Sys2Proof.Machine.execPrbsEnd l errLanes s
  | .trainingTimeout l => Sys2Proof.Machine.execTrainingTimeout l s
  | .reaimLight l => Sys2Proof.Machine.execReaimLight l s
  | .reaimTimeout l => Sys2Proof.Machine.execReaimTimeout l s
  | .lightOn l g => Sys2Proof.Machine.execLightOn l g s
  | .lightLoss l g => Sys2Proof.Machine.execLightLoss l g s
  | .probePulse l g => Sys2Proof.Machine.execProbePulse l g s
  | .litWaitExpiry l g => Sys2Proof.Machine.execLitWaitExpiry l g s
  | .laserFault l g => Sys2Proof.Machine.execLaserFault l g s
  | .bridleService l ring sample => Sys2Proof.Machine.execBridleService l ring sample s
  | .gainChangeApply l lane receiving => Sys2Proof.Machine.execGainChangeApply l lane s receiving
  | .deadlockRaise y => Sys2Proof.Machine.execDeadlockRaise y s
  | .yardDrainComplete y => Sys2Proof.Machine.execYardDrainComplete y s
  | .coachmanRestart y => Sys2Proof.Machine.execCoachmanRestart y s
  | .replay y => Sys2Proof.Machine.execReplay y s
  | .replayGuilty y => Sys2Proof.Machine.execReplayGuilty y s
  | .shadowWindowEnd d => Sys2Proof.Machine.execShadowWindowEnd d s
  | .safeNAssert => Sys2Proof.Machine.execSafeNAssert s
  | .safeNRelease => Sys2Proof.Machine.execSafeNRelease s
  | .collectorMismatch => Sys2Proof.Machine.execCollectorMismatch s
  | .powerFailWarning => Sys2Proof.Machine.execPowerFailWarning s
  | .coldReset => Sys2Proof.Machine.execColdReset s
  | .aonPowerUp => Sys2Proof.Machine.execAonPowerUp s
  | .supplyUndervoltage r => Sys2Proof.Machine.execSupplyUndervoltage r s
  | .supplySequenceError r => Sys2Proof.Machine.execSupplySequenceError r s
  | .thermalThresholdCrossing x temp => Sys2Proof.Machine.execThermalThresholdCrossing x temp s
  | .aonOscillatorLoss => Sys2Proof.Machine.execAonOscillatorLoss s
  | .coachmanWatchdogExpiry y => Sys2Proof.Machine.execCoachmanWatchdogExpiry y s
  | .patrolScrubRead addr r => Sys2Proof.Machine.execPatrolScrubRead addr r s
  | .hitchReadResponse port tag yg last err data => Sys2Proof.Machine.execHitchReadResponse port tag yg last err data s
  | .hitchWriteResponse port tag yg err => Sys2Proof.Machine.execHitchWriteResponse port tag yg err s
  | .hitchCreditReturn port beat => Sys2Proof.Machine.execHitchCreditReturn port beat s
  | .hitchBoundExpiry port tag => Sys2Proof.Machine.execHitchBoundExpiry port tag s
  | .depotAccessComplete ch ue => Sys2Proof.Machine.execDepotAccessComplete ch ue s
  | .imageFetchComplete err => Sys2Proof.Machine.execImageFetchComplete err s
  | .bootStepTimeout => Sys2Proof.Machine.execBootStepTimeout s
  | .depotTrainingComplete => Sys2Proof.Machine.execDepotTrainingComplete s
  | .pllLock => Sys2Proof.Machine.execPllLock s
  | .rtReqSend l => Sys2Proof.Machine.execRtReqSend l s
  | .capSend l => Sys2Proof.Machine.execCapSend l s
  | .probePulseEnd l g => Sys2Proof.Machine.execProbePulseEnd l g s
  | .prbsSync l lane bits => Sys2Proof.Machine.execPrbsSync l lane s bits
  | .supplyGood r => Sys2Proof.Machine.execSupplyGood r s
  | .jtagAccess a => Sys2Proof.Machine.execJtagAccess a s
  | .cmMemUe y => Sys2Proof.Machine.execCmMemUe y s
  | .cmTrap y => Sys2Proof.Machine.execCmTrap y s
  | .ctlPortViolation => Sys2Proof.Machine.execCtlPortViolation s
  | .undefinedOpcode p op => Sys2Proof.Machine.execUndefinedOpcode p op s

end Sys2Proof.Machine
end

