-- ==== Sys2Proof/Safety.lean ====
section
/-! DEFINITION. The terms the statements use: that a command answers a next state, the parts of the state, what a command leaves alone. -/

namespace Sys2Proof

open Machine

/-- exec answers a next state for the command, and P holds of it. -/
def Does (c : Instr) (s : State) (P : State → Prop) : Prop := ∃ t, Machine.exec c s = .next t ∧ P t

/-- The parts of the state besides the queue, the fuses and the register fields. -/
inductive Part where
  | pins | shadows | rdata | host | depot | scratch | outbox | fresh | serial | time | eng | tt | posts | mesh | teams
  | insts | qs | sync | aon | yards | boot | power | net | links | arr | groom | hitch
  deriving DecidableEq, Repr

/-- Part p is the same in both states. -/
def Part.Same (s t : State) : Part → Prop
  | .pins => t.pins = s.pins
  | .shadows => t.shadows = s.shadows
  | .rdata => t.rdata = s.rdata
  | .host => t.host = s.host
  | .depot => t.depot = s.depot
  | .scratch => t.scratch = s.scratch
  | .outbox => t.outbox = s.outbox
  | .fresh => t.fresh = s.fresh
  | .serial => t.serial = s.serial
  | .time => t.time = s.time
  | .eng => t.eng = s.eng
  | .tt => t.tt = s.tt
  | .posts => t.posts = s.posts
  | .mesh => t.mesh = s.mesh
  | .teams => t.teams = s.teams
  | .insts => t.insts = s.insts
  | .qs => t.qs = s.qs
  | .sync => t.sync = s.sync
  | .aon => t.aon = s.aon
  | .yards => t.yards = s.yards
  | .boot => t.boot = s.boot
  | .power => t.power = s.power
  | .net => t.net = s.net
  | .links => t.links = s.links
  | .arr => t.arr = s.arr
  | .groom => t.groom = s.groom
  | .hitch => t.hitch = s.hitch

/-- From s to t only the parts listed and the register fields listed may have changed: the queue, the fuses, every other part (host
memory, depot and scratchpad byte for byte among them) and every other field of every register are as before. -/
def Frame (ps : List Part) (fs : List (Fld × Nat)) (s t : State) : Prop :=
  t.pending = s.pending ∧ t.fuses = s.fuses ∧ (∀ p, p ∉ ps → p.Same s t) ∧ ∀ f i, (f, i) ∉ fs → t.rf f i = s.rf f i

/-- Every part but those listed is the same. -/
def AllBut (ps : List Part) (s t : State) : Prop := ∀ p, p ∉ ps → p.Same s t

/-- Every part listed is the same. -/
def Keeps (ps : List Part) (s t : State) : Prop := ∀ p ∈ ps, p.Same s t

/-- Postilion p executes instruction i (R74). -/
def Runs (s : State) (p : PostId) (i : Instr) : Prop :=
  s.coreOn = true ∧ s.runnable p = true ∧ decodePost p (s.post p).word = i

/-- Of the postilions only p has changed, and of the yard records only its own: it has moved just now (R263). -/
def OnlyPost (s t : State) (p : PostId) : Prop :=
  (∀ q : Nat, q ≠ p → t.post q = s.post q)
    ∧ ∀ y : Nat, t.yard y = if y = p / 16 then { s.yard y with quietAt := s.now } else s.yard y

/-- The instruction index after the present one, within the 4,096 of the RAM. -/
def nextPc (x : Post) : Nat := (x.pc + 1) % 4096

/-- Nothing of a postilion but register d and its pc has changed: d holds v, or nothing where d is g0; g0 reads 0. -/
def WroteReg (x y : Post) (d : GReg) (v : Word) (pc : Nat) : Prop :=
  (∀ r : GReg, y.reg r = if r = 0 then 0 else if r = d then v else x.reg r) ∧ y = { x with regs := y.regs, pc := pc }

/-- Postilion p has put v into register d and gone on; all else of the state is as before. -/
def SetsReg (s : State) (p : PostId) (d : GReg) (v : Word) (t : State) : Prop :=
  WroteReg (s.post p) (t.post p) d v (nextPc (s.post p)) ∧ OnlyPost s t p ∧ Frame [.posts, .yards] [] s t

/-- Postilion p is now x; all else of the state is as before. -/
def PostIs (s : State) (p : PostId) (x : Post) (t : State) : Prop :=
  t.post p = x ∧ OnlyPost s t p ∧ Frame [.posts, .yards] [] s t

/-- Entry e of opcode op is next to start on pair q, the block is in service, and the entry's flags and reserved bytes are in order (R271, R273,
R288); `fs` are the operand fields of its row of Table 10.7. -/
def Starts (s : State) (q op : Nat) (e : Entry) (fs : List (Nat × Nat)) : Prop :=
  s.coreOn = true ∧ (s.start? q op e).isSome = true ∧ (s.oos || s.stable) = false ∧ formBad e fs = none

/-- Completion d of a command that the present generation of its pair fetched. -/
def ofGen (t : State) (d : Done) : Done := { d with qgen := t.rf .DB_STATUS_QGEN d.q }

/-- Command (q, id) has completed: it is no longer fetched or outstanding, and d is the completion to be posted. -/
def Completed (s t : State) (d : Done) : Prop :=
  t.qs.dones = s.qs.dones ++ [ofGen t d]
    ∧ t.qs.fetched = s.qs.fetched.filter (fun f => !(f.q == d.q && eId f.e == d.id))
    ∧ t.qs.cmds = s.qs.cmds.filter (fun c => !(c.q == d.q && c.id == d.id))

/-- Entry e of pair q has become an outstanding command with this phase. -/
def Adopted (s t : State) (q : Nat) (e : Entry) (ph : Phase) : Prop :=
  (∃ t0, t.qs.cmds = s.qs.cmds ++ [⟨q, eId e, e, t0, ph⟩])
    ∧ t.qs.fetched = s.qs.fetched.filter (fun f => !(f.q == q && eId f.e == eId e)) ∧ t.qs.dones = s.qs.dones

/-- The register fields of a doorbell page. -/
def doorbellFields : List Fld :=
  [.DB_SQ_TAIL_TAIL, .DB_SQ_HEAD_HEAD, .DB_CQ_TAIL_TAIL, .DB_CQ_HEAD_HEAD, .DB_CQ_ARM_ARM, .DB_CANCEL_CMD_ID, .DB_STATUS_QGEN,
   .DB_STATUS_OUTSTANDING, .DB_STATUS_BAD_DB, .DB_STATUS_BAD_CANCEL, .DB_STATUS_SQ_LOG2, .DB_STATUS_CQ_LOG2, .DB_STATUS_VECTOR, .DB_STATUS_YARD,
   .DB_STATUS_QUARANTINE, .DB_STATUS_SQ_LIVE, .DB_STATUS_CQ_LIVE, .DB_TIMEOUT_COLL_MS, .DB_TIMEOUT_REM_100US]

/-- Of the links' records only that of link l has changed: it is x. -/
def LinkIs (s : State) (l : Nat) (x : LinkRec) (t : State) : Prop := t.link l = x ∧ ∀ k, k ≠ l → t.link k = s.link k

/-- Of the router's records only that of the sub-link of tenant u of link l has changed: it is x. -/
def SubIs (s : State) (l u : Nat) (x : SubLink) (t : State) : Prop :=
  t.sub l u = x ∧ t.net = { s.net with subs := t.net.subs }
    ∧ ∀ k, k ≠ l * 4 + u → sget (fun _ => {}) t.net.subs k = sget (fun _ => {}) s.net.subs k

/-- The units that wait for a slot of the sub-link of tenant t of link l, as they leave (R214). -/
def waitingUnits (s : State) (l t : Nat) : List OutEv := (s.net.unitq.filter fun u => u.1 == l && u.2.1 == t).map fun u => .slot l t u.2.2

/-- A unit leaves on the sub-link at once and alone: no scheduled carriage is being sent there, and none waits (R214). -/
def SlotsFree (s : State) (l t : Nat) : Prop := s.sendsSched l t = false ∧ waitingUnits s l t = []

/-- A saturating counter field after one more event. -/
def Counted (s : State) (f : Fld) (i : Nat) (t : State) : Prop := t.rf f i = min (s.rf f i + 1) (2 ^ fwidth f - 1)

/-- The host's memory holds the bytes from address a on, and everything else it held before. -/
def Stored (m m' : List (Nat × Byte)) (a : Nat) (bs : List Byte) : Prop :=
  ∀ k, sget byte0 m' k = if a ≤ k ∧ k < a + bs.length then bs.getD (k - a) 0 else sget byte0 m k

/-- The newest record of the AON log is this one, written now. -/
def Logged (s t : State) (typ unit detail : Nat) (body : List Word) : Prop :=
  ∃ off, t.aon.log.getLast? = some { off := off, mtc := s.now, typ := typ, unit := unit, detail := detail, body := body }

/-- The commands of the always-on island: rails, light comparators, the reference, cold reset and power-up happen with the core domain off too. -/
def alwaysOn : Instr → Bool
  | .supplyGood _ | .supplySequenceError _ | .supplyUndervoltage _ | .lightOn _ _ | .lightLoss _ _ | .coldReset | .aonPowerUp | .referenceLoss | .referenceReturn => true
  | _ => false

/-- Keys strictly rising. -/
def Rising {α : Type} (m : List (Nat × α)) : Prop := m.Pairwise fun a b => a.1 < b.1

/-- The register file lists each field once, in order, and the memories keep their canonical form. -/
def Canonical (s : State) : Prop :=
  Rising s.regs ∧ Memory.wf s.host = true ∧ Memory.wf s.depot = true ∧ Memory.wf s.scratch = true

/-- No input holds a condition of Table 12.1: the reference is there, no sensor has read, SAFE_N and PFW_N are high. -/
def NothingPersists (s : State) : Prop :=
  s.time.ref = .present ∧ s.power.sensors = [] ∧ s.power.chan = [] ∧ s.aon.persist = [] ∧ s.pins.safeN = true ∧ s.pins.pfwN = true

/-- The register fields that a reset sets from the inputs of the block. -/
def sensed : List Fld :=
  [.AON_MTC_STATUS_HOLDOVER_REF, .AON_MTC_STATUS_SOURCE, .LNK_FIBRE_LIGHT, .PWR_THERM_BLOCK_MAX, .PWR_THERM_DEPOT_MAX, .PWR_THERM_THROTTLE,
   .PWR_THERM_REFRESH_X2, .DEP_TEMP_TEMP, .DEP_STATUS_THROTTLE]

/-- After a reset the fields of `kept` are as they were, those it names are theirs, those of the inputs aside, every other one is at its reset value,
and no team, instance, command, postilion program state, carriage or operation is left. -/
def ResetTo (s t : State) (kept own : List Fld) : Prop :=
  (∀ f i, f ∈ kept → f ∉ own → t.rf f i = s.rf f i) ∧ (∀ f i, f ∉ kept → f ∉ own → f ∉ sensed → t.rf f i = fldReset s.fuses f i)
    ∧ t.posts = [] ∧ t.teams = [] ∧ t.insts = [] ∧ t.qs = {} ∧ t.net = {} ∧ t.arr = {} ∧ t.groom = {} ∧ t.hitch = {} ∧ t.shadows = []
    ∧ t.host = s.host ∧ t.aon.log = s.aon.log ∧ t.aon.resets = s.aon.resets

end Sys2Proof
end

