-- ==== Sys2Proof/Certificates/Slice0/Obligations.lean ====
section
/-! DEFINITION. The statements for the provers. -/

open Sys2Proof Sys2Proof.Machine

/-- When a postilion executes one of the eleven arithmetic instructions of Table 3.5, exec answers the next state in
which g[d] holds the result modulo 2^64 (g0 stays 0), every other register is as before, the pc has advanced by one
instruction within the RAM of 4,096 (the wrap at its end is the model's choice, log entry 58), the postilion's other
contents, every other postilion, all memories, registers and other parts of the state are unchanged, and the record of
the yard notes the movement. Rests on R71, R74, 03_timetables_and_postilions.md, Table 3.5. -/
def Obligations.PostilionArithmeticSetsItsRegister : Prop :=
  ∀ (s : State) (p : PostId) (d a b : GReg) (i : BitVec 14) (j : BitVec 22),
    (Runs s p (.nop p) → Does (.nop p) s (PostIs s p { s.post p with pc := nextPc (s.post p) }))
    ∧ (Runs s p (.add p d a b) → Does (.add p d a b) s
        (SetsReg s p d (BitVec.ofNat 64 (((s.post p).reg a).toNat + ((s.post p).reg b).toNat))))
    ∧ (Runs s p (.sub p d a b) → Does (.sub p d a b) s
        (SetsReg s p d (BitVec.ofInt 64 ((((s.post p).reg a).toNat : Int) - ((s.post p).reg b).toNat))))
    ∧ (Runs s p (.and p d a b) → Does (.and p d a b) s
        (SetsReg s p d (BitVec.ofNat 64 (((s.post p).reg a).toNat &&& ((s.post p).reg b).toNat))))
    ∧ (Runs s p (.or p d a b) → Does (.or p d a b) s
        (SetsReg s p d (BitVec.ofNat 64 (((s.post p).reg a).toNat ||| ((s.post p).reg b).toNat))))
    ∧ (Runs s p (.xor p d a b) → Does (.xor p d a b) s
        (SetsReg s p d (BitVec.ofNat 64 (((s.post p).reg a).toNat ^^^ ((s.post p).reg b).toNat))))
    ∧ (Runs s p (.shl p d a b) → Does (.shl p d a b) s
        (SetsReg s p d (BitVec.ofNat 64 (((s.post p).reg a).toNat * 2 ^ (((s.post p).reg b).toNat % 64)))))
    ∧ (Runs s p (.shr p d a b) → Does (.shr p d a b) s
        (SetsReg s p d (BitVec.ofNat 64 (((s.post p).reg a).toNat / 2 ^ (((s.post p).reg b).toNat % 64)))))
    ∧ (Runs s p (.addi p d a i) → Does (.addi p d a i) s
        (SetsReg s p d (BitVec.ofInt 64 ((((s.post p).reg a).toNat : Int) + i.toInt))))
    ∧ (Runs s p (.movi p d j) → Does (.movi p d j) s (SetsReg s p d (BitVec.ofInt 64 j.toInt)))
    ∧ (Runs s p (.mul p d a b) → Does (.mul p d a b) s
        (SetsReg s p d (BitVec.ofNat 64 (((s.post p).reg a).toNat * ((s.post p).reg b).toNat))))

/-- A branch whose condition holds sets the pc to pc + imm14 and JMP sets it to imm22, when that instruction index
lies in the loaded image; a branch whose condition does not hold goes on to the next instruction; nothing else of the
state changes but the note of movement in the yard's record. A taken branch or a JMP outside the loaded image takes
the postilion fault with cause 4. BLT compares as signed numbers. A word with an undefined opcode takes the postilion
fault with cause 1: where the segment's team is not active and the source is not set for the safe state, TT_POST_FAULT
has its count one higher (saturating), the postilion, cause 1 and the pc, and no postilion or memory changes. A WAITX
of which no named tag is open goes on to the next instruction. An END with no open tag and no further segment leaves
the postilion without a segment. Rests on R71, R72, R75, R77, 03_timetables_and_postilions.md, 3.4 and Table 3.5. -/
def Obligations.PostilionBranchesGoToTheirTarget : Prop :=
  ∀ (s : State) (p : PostId) (a b : GReg) (i : BitVec 14) (j : BitVec 22) (op : BitVec 6),
    let x := s.post p
    let goes (c : Instr) (taken : Bool) (target : Int) : Prop :=
      (taken = true → 0 ≤ target → target < x.iramLen → Does c s (PostIs s p { x with pc := target.toNat }))
      ∧ (taken = false → Does c s (PostIs s p { x with pc := nextPc x }))
      ∧ (taken = true → ¬ (0 ≤ target ∧ target < x.iramLen) → exec c s = .next (s.keep (s.postFault p 4)))
    (Runs s p (.beq p a b i) → goes (.beq p a b i) (decide (x.reg a = x.reg b)) (x.pc + i.toInt))
    ∧ (Runs s p (.bne p a b i) → goes (.bne p a b i) (decide (x.reg a ≠ x.reg b)) (x.pc + i.toInt))
    ∧ (Runs s p (.blt p a b i) → goes (.blt p a b i) (decide ((x.reg a).toInt < (x.reg b).toInt)) (x.pc + i.toInt))
    ∧ (Runs s p (.jmp p j) → goes (.jmp p j) true j.toInt)
    ∧ (Runs s p (.undefinedOpcode p op) → exec (.undefinedOpcode p op) s = .next (s.keep (s.postFault p 1))
      ∧ (s.reaction 18 < 2 → (∀ g, x.cur = some g → s.rf .TT_TEAM_STATE g.team ≠ 1) → Does (.undefinedOpcode p op) s fun t =>
        t.rf .TT_POST_FAULT_COUNT = min (s.rf .TT_POST_FAULT_COUNT + 1) (2 ^ fwidth .TT_POST_FAULT_COUNT - 1)
        ∧ t.rf .TT_POST_FAULT_POSTILION = p ∧ t.rf .TT_POST_FAULT_CAUSE = 1
        ∧ t.rf .TT_POST_FAULT_PC = x.pc % 2 ^ fwidth .TT_POST_FAULT_PC ∧ Keeps [.posts, .host, .depot, .scratch] s t))
    ∧ (Runs s p (.waitx p b) → (∀ t ∈ x.tags, (x.reg b).toNat % 256 / 2 ^ t.tag % 2 = 0) →
        Does (.waitx p b) s (PostIs s p { x with pc := nextPc x }))
    ∧ (Runs s p (.endSeg p) → x.tags = [] → x.rest = [] → Does (.endSeg p) s fun t =>
        (t.post p).cur = none ∧ (t.post p).rest = [] ∧ (t.post p).tags = [] ∧ OnlyPost s t p ∧ Frame [.posts, .yards] [] s t)

/-- At g[a] + imm14 (modulo 2^64), 8-byte aligned and within 16,384 bytes, LD puts the little-endian word into g[d]
and changes nothing else, and ST writes the eight bytes of g[b] there: every other byte of the data RAM and everything
else is as before. Any other address takes the postilion fault with cause 3 in both. An LD whose word the data RAM
cannot correct latches POST_RAM_UE and takes that fault too (the cause is the model's choice, log entry 150). STG with immediate 0, 1 or 2 puts
TT_STATUS.STAGE_IDX, the instance number or the ns since the last tick into g[d]; with any other immediate the value
is the free value of log entry 5. Rests on R71, R75, R76, 03_timetables_and_postilions.md, Table 3.5. -/
def Obligations.PostilionLoadsAndStoresUseItsDataRam : Prop :=
  ∀ (s : State) (p : PostId) (d a b : GReg) (i : BitVec 14),
    let x := s.post p
    let ad : Nat := (BitVec.ofInt 64 (((x.reg a).toNat : Int) + i.toInt)).toNat
    (Runs s p (.ld p d a i) →
      (ad % 8 = 0 → ad + 8 ≤ 16384 → Does (.ld p d a i) s (SetsReg s p d (BitVec.ofNat 64 (rdLe x.dram ad 8))))
      ∧ (∀ ue, ¬ (ad % 8 = 0 ∧ ad + 8 ≤ 16384) → exec (.ld p d a i ue) s = .next (s.keep (s.postFault p 3)))
      ∧ (ad % 8 = 0 → ad + 8 ≤ 16384 → exec (.ld p d a i true) s = .next (s.keep ((s.fault 20 (.yard (p / 16))).postFault p 3))))
    ∧ (Runs s p (.st p a b i) →
      (ad % 8 = 0 → ad + 8 ≤ 16384 → Does (.st p a b i) s fun t =>
        (∀ k, sget byte0 (t.post p).dram k = if ad ≤ k ∧ k < ad + 8
          then BitVec.ofNat 8 ((x.reg b).toNat / 2 ^ (8 * (k - ad))) else sget byte0 x.dram k)
        ∧ t.post p = { x with dram := (t.post p).dram, pc := nextPc x } ∧ OnlyPost s t p ∧ Frame [.posts, .yards] [] s t)
      ∧ (¬ (ad % 8 = 0 ∧ ad + 8 ≤ 16384) → exec (.st p a b i) s = .next (s.keep (s.postFault p 3))))
    ∧ (Runs s p (.stg p d i) →
      (i = 0 → Does (.stg p d i) s (SetsReg s p d (BitVec.ofNat 64 (s.rf .TT_STATUS_STAGE_IDX))))
      ∧ (i = 1 → Does (.stg p d i) s (SetsReg s p d (BitVec.ofNat 64 x.inst)))
      ∧ (i = 2 → Does (.stg p d i) s (SetsReg s p d (BitVec.ofNat 64 (s.now % s.stageLen))))
      ∧ (2 < i.toNat → Does (.stg p d i) s fun t => WroteReg x (t.post p) d (Config.freeWord s.fresh 0) (nextPc x)
          ∧ OnlyPost s t p ∧ t.fresh = s.fresh + 1 ∧ Frame [.posts, .yards, .fresh] [] s t))

/-- END with an open tag makes the postilion wait for its tags and changes nothing else. With no open tag it always
completes: if no segment of the stage that is not skipped is left, the postilion is gated; else the next such segment
starts with its entry as pc, g1 the team slot, g2 the address of the binding record, g3 the stage index, g0 zero. In
both cases its copy of the record of the segment that ended goes to STATE 3 when it names the instance that ran with
STATE 2 and no segment of that team is left up to the slot's last stage; its copy of the record of the segment that
starts goes from STATE 1 to STATE 2 when it names that segment's instance; every other byte of its data RAM stays.
Other postilions and everything else stay as they are (the counter of free values advances where a segment starts,
since g4-g15 are then undefined: log entry 5). Rests on R71, R72, R82, 03_timetables_and_postilions.md, Table 3.5. -/
def Obligations.EndFinishesTheSegment : Prop :=
  ∀ (s : State) (p : PostId), Runs s p (.endSeg p) →
    let x := s.post p
    let left := x.rest.dropWhile (s.skipSeg p)
    let number (u : Nat) : Nat := match s.running u with | some i => i.n | none => s.rf .TT_TEAM_INSTANCE u
    let ends (g : SegEnt) (k : Nat) : Prop := x.recState g.team x.inst = 2 ∧ x.recInst g.team x.inst = x.inst
      ∧ s.moreSegs p g.team ((s.running g.team).elim (s.rf .TT_STATUS_STAGE_IDX) (·.last)) = false ∧ k = recAddr g.team x.inst + 3
    let starts (h : SegEnt) (k : Nat) : Prop := x.recState h.team (number h.team) = 1 ∧ x.recInst h.team (number h.team) = number h.team
      ∧ k = recAddr h.team (number h.team) + 3
    (x.tags ≠ [] → Does (.endSeg p) s (PostIs s p { x with wait := .ending }))
    ∧ (x.tags = [] → left = [] → Does (.endSeg p) s fun t =>
        t.post p = { x with cur := none, rest := [], wait := .run, dram := (t.post p).dram }
        ∧ OnlyPost s t p ∧ Frame [.posts, .yards] [] s t)
    ∧ (∀ g tl, x.tags = [] → left = g :: tl → Does (.endSeg p) s fun t =>
        let y := t.post p
        y.cur = some g ∧ y.rest = tl ∧ y.pc = g.entry ∧ y.wait = .run ∧ y.tags = []
        ∧ y.inst = number g.team
        ∧ y.reg 0 = 0 ∧ y.reg 1 = BitVec.ofNat 64 g.team ∧ y.reg 2 = BitVec.ofNat 64 (128 * g.team + 64 * (y.inst % 2))
        ∧ y.reg 3 = BitVec.ofNat 64 (s.rf .TT_STATUS_STAGE_IDX)
        ∧ y.iram = x.iram ∧ y.mbox = x.mbox ∧ y.map = x.map
        ∧ t.fresh = s.fresh + 1 ∧ OnlyPost s t p ∧ Frame [.posts, .yards, .fresh] [] s t)
    ∧ (∀ g, x.tags = [] → x.cur = some g → Does (.endSeg p) s fun t => ∀ k,
        (ends g k → sget byte0 (t.post p).dram k = 3)
        ∧ (¬ ends g k → (∀ h tl, left = h :: tl → starts h k → sget byte0 (t.post p).dram k = 2)
          ∧ ((∀ h tl, left = h :: tl → ¬ starts h k) → sget byte0 (t.post p).dram k = sget byte0 x.dram k)))

/-- SEND to a mailbox whose map allows the sender and that has fewer than four messages (those on their way counted,
log entry 57) appends the message to the mesh and goes on; with four it stalls; a sender that the map forbids takes
the postilion fault with cause 5. WAITM removes the oldest message of the mailbox into g[d], goes on and lets
postilions stalled on that mailbox run again; with none it waits. MAILBOX_MESSAGE_ARRIVE moves the first message of
its source, target and mailbox from the mesh to the end of the mailbox and lets a postilion that waits on it run.
Nothing else changes. Rests on R74, R77, R78, R79. -/
def Obligations.MailboxesCarryMessagesInOrder : Prop :=
  ∀ (s : State) (p : PostId) (d a b : GReg) (i : BitVec 14) (src dst : PostId) (m : Fin 8) (g : Msg),
    let x := s.post p
    let tgt : Nat := (x.reg a).toNat % 64
    let box : Nat := i.toNat % 8
    (Runs s p (.send p a b i) →
      (s.mayMail p tgt box = true → s.boxLoad tgt box < 4 → Does (.send p a b i) s fun t =>
        t.mesh = s.mesh ++ [⟨p, tgt, box, x.reg b⟩] ∧ t.post p = { x with pc := nextPc x } ∧ OnlyPost s t p
        ∧ Frame [.posts, .yards, .mesh] [] s t)
      ∧ (s.mayMail p tgt box = true → 4 ≤ s.boxLoad tgt box → Does (.send p a b i) s (PostIs s p { x with wait := .sendStall tgt box }))
      ∧ (s.mayMail p tgt box = false → exec (.send p a b i) s = .next (s.keep (s.postFault p 5))))
    ∧ (Runs s p (.waitm p d i) →
      (x.box box = [] → Does (.waitm p d i) s (PostIs s p { x with wait := .mailbox box }))
      ∧ ∀ v rest, x.box box = v :: rest → Does (.waitm p d i) s fun t =>
        (t.post p).box box = rest ∧ (∀ k, k ≠ box → (t.post p).box k = x.box k)
        ∧ (∀ r : GReg, (t.post p).reg r = if r = 0 then 0 else if r = d then v else x.reg r) ∧ (t.post p).pc = nextPc x
        ∧ t.post p = { x with regs := (t.post p).regs, pc := (t.post p).pc, mbox := (t.post p).mbox }
        ∧ (∀ q : Nat, q ≠ p → t.post q = if (s.post q).wait = .sendStall p box then { s.post q with wait := .run } else s.post q)
        ∧ Frame [.posts, .yards] [] s t)
    ∧ (s.coreOn = true → s.mesh.find? (fun y => y.src == src.val && y.dst == dst.val && y.m == m.val) = some g →
        Does (.mailboxMessageArrive src dst m) s fun t =>
          t.mesh = s.mesh.erase g ∧ (t.post dst).box m = (s.post dst).box m ++ [g.val]
          ∧ (∀ k : Nat, k ≠ m → (t.post dst).box k = (s.post dst).box k)
          ∧ t.post dst = { s.post dst with
              mbox := (t.post dst).mbox, wait := if (s.post dst).wait = .mailbox m then .run else (s.post dst).wait }
          ∧ (∀ q : Nat, q ≠ dst → t.post q = s.post q) ∧ Frame [.posts, .yards, .mesh] [] s t)

/-- For a local allocated object of the postilion's own yard, WAITS goes on at once when the object's value satisfies
the wait and else waits on it with its operand; for any other object it takes the postilion fault with cause 7. SIGNAL
goes on and adds g[b] to the yard's own object (for a counter or pair below 2^63 the value grows by g[b]; only its
waiters, the groom unit's queue and the trace may change besides); for another local object it takes the postilion
fault with cause 7; for a remote one it goes on at once where the target entry is not VALID or does not admit the
yard's tenant; else it takes a credit of the window, sends a SIGNAL carriage of the yard that adds g[b] to the object
and goes on, or, where the window has none, stalls for it. WAITX goes on when no named tag is open and
else waits for them. The shared operations postFault, localAdd, takeCredit, owe and inject say what those paths do.
Rests on R77, R184, R245, R246, R251, R257. -/
def Obligations.PostilionSyncAndTagWaits : Prop :=
  ∀ (s : State) (p : PostId) (a b : GReg) (i : BitVec 14),
    let x := s.post p
    let ra := (x.reg a).toNat
    let n := ra % 2 ^ 14
    let v := (x.reg b).toNat
    let open_ : Prop := ∃ t ∈ x.tags, (x.reg b).toNat % 256 / 2 ^ t.tag % 2 = 1
    let ep := ra / 2 ^ 32 % 65536
    let tn := s.yardTenant (p / 16)
    let admits : Prop := s.on .RTE_EP_LO_VALID ep = true ∧ bitAt (s.rf .RTE_EP_LO_TENANT_MASK ep) tn = true
    let car (w : Win) : Carriage := mkCarriage
      { cls := 2, kind := 6, dst := ep, src := s.self, tenant := tn, yard := p / 16, ygen := s.rf .YRD_STATE_GEN (p / 16),
        gen := w.gen, seq := w.seq, dgen := s.rf .RTE_EP_LO_GEN ep } (granule n 0 0 0 0 v s.epochNow)
    (Runs s p (.waits p a b i) →
      (ra < 2 ^ 63 → s.ownObj p n = true →
        released (s.rf .SYN_FLAG_KIND n) (s.rf .SYN_OBJ_VALUE n) v (i.toNat % 2 == 1) = true →
        Does (.waits p a b i) s (PostIs s p { x with pc := nextPc x }))
      ∧ (ra < 2 ^ 63 → s.ownObj p n = true →
        released (s.rf .SYN_FLAG_KIND n) (s.rf .SYN_OBJ_VALUE n) v (i.toNat % 2 == 1) = false →
        Does (.waits p a b i) s (PostIs s p { x with wait := .sync n v (i.toNat % 2 == 1) }))
      ∧ (¬ (ra < 2 ^ 63 ∧ s.ownObj p n = true) → exec (.waits p a b i) s = .next (s.keep (s.postFault p 7))))
    ∧ (Runs s p (.signal p a b) →
      (ra < 2 ^ 63 → s.ownObj p n = true →
        exec (.signal p a b) s = .next (s.keep ((s.setPost p { x with pc := nextPc x }).localAdd n v)))
      ∧ (ra < 2 ^ 63 → s.ownObj p n = true → s.rf .SYN_FLAG_KIND n ≠ 1 → s.rf .SYN_OBJ_VALUE n + v < 2 ^ 63 →
        Does (.signal p a b) s fun t => t.rf .SYN_OBJ_VALUE n = s.rf .SYN_OBJ_VALUE n + v
          ∧ t.post p = { x with pc := nextPc x }
          ∧ Frame [.posts, .yards, .sync, .outbox, .groom] [(.SYN_OBJ_VALUE, n), (.DBG_TRACE_STAT_SENT, 0)] s t)
      ∧ (ra < 2 ^ 63 → s.ownObj p n = false → exec (.signal p a b) s = .next (s.keep (s.postFault p 7)))
      ∧ (2 ^ 63 ≤ ra → ¬ admits → Does (.signal p a b) s (PostIs s p { x with pc := nextPc x }))
      ∧ (2 ^ 63 ≤ ra → admits → s.takeCredit ep tn 64 = none → Does (.signal p a b) s (PostIs s p { x with wait := .reinStall }))
      ∧ ∀ s1 w, 2 ^ 63 ≤ ra → admits → s.takeCredit ep tn 64 = some (s1, w) →
        exec (.signal p a b) s = .next (s.keep (((s1.owe ep tn 64 w.seq 0 0).inject (car w) 8 3).setPost p { x with pc := nextPc x }))
        ∧ Does (.signal p a b) s fun t => t.post p = { x with pc := nextPc x } ∧ (∀ q : Nat, q ≠ p → t.post q = s.post q)
          ∧ Keeps [.host, .depot, .scratch, .mesh, .teams, .insts, .qs, .sync, .links, .arr, .groom, .hitch, .boot, .power] s t)
    ∧ (Runs s p (.waitx p b) →
      (¬ open_ → Does (.waitx p b) s (PostIs s p { x with pc := nextPc x }))
      ∧ (open_ → Does (.waitx p b) s (PostIs s p { x with wait := .tags ((x.reg b).toNat % 256) })))

/-- In the column that owns it, with its 32-byte descriptor aligned in the data RAM and its tag free, a datapath
instruction takes the tag with the descriptor read and goes on: XMIT with the bytes it names (where a skipped step
staged no mirror bytes, or the mirror's link has failed, its tag is free again at once), HWR and DWR waiting for an
array operation, HRD with its requests queued for the hitch ports of the yard (one that has a credit is issued at once)
and DRD with its requests at the depot, RECV with its buffer emptied and, when its carriage is there, with that carriage
taken into the buffer, AOP with the operation in the array queue and its descriptor in ARR_LASTOP. HRD and DRD of a
missing or skipped member hand over void bytes or zeros at once (the tag is free again), to the running array operation
where it waits for them. In another column each takes the postilion fault with cause 2, at another address cause 3, and
with the tag held each stalls until it is free; an XMIT or RECV on a link without a lane group of the yard's tenant
takes cause 2; an AOP whose descriptor R114 or R115 refuses takes cause 6. Rests on R74, R77, R115, R155, R165, R298,
R308, R342, 03_timetables_and_postilions.md, Table 3.6. -/
def Obligations.DatapathInstructionsTakeTheirTag : Prop :=
  ∀ (s : State) (p : PostId) (a : GReg) (i : BitVec 14),
    let x := s.post p
    let ad : Nat := (x.reg a + imm14 (i &&& 0x3FF8#14)).toNat
    let tag : Nat := i.toNat % 8
    let bs := x.rdRam ad 32
    let col : Nat := p % 16
    let row : Nat := p / 16
    let ready : Prop := ad % 8 = 0 ∧ ad + 32 ≤ 16384 ∧ ∀ t ∈ x.tags, t.tag ≠ tag
    let traps (c : Instr) (own : Bool) : Prop := Runs s p c →
      (own = false → exec c s = .next (s.keep (s.postFault p 2)))
      ∧ (own = true → ¬ (ad % 8 = 0 ∧ ad + 32 ≤ 16384) → exec c s = .next (s.keep (s.postFault p 3)))
      ∧ (own = true → ad % 8 = 0 → ad + 32 ≤ 16384 → (∃ t ∈ x.tags, t.tag = tag) → Does c s (PostIs s p { x with wait := .tagStall }))
    let takes (c : Instr) (u : TagOp) : Prop := Does c s fun t =>
      t.post p = { x with pc := nextPc x, tags := x.tags ++ [u] } ∧ OnlyPost s t p ∧ t.serial = s.serial + 1
      ∧ Frame [.posts, .yards, .serial] [] s t
    let d := descOf bs
    let ux : TagOp := { s.newTag tag .xmit bs with blob := some (s.xmitBytes row d), fwd := s.xmitsRx row d }
    let mirLost : Bool := (s.mirPlace row (colLink col) d).isSome && s.mirDown (colLink col)
    let hands (c : Instr) (b : Blob) : Prop :=
      ((s.arr.cur.bind fun k => k.feed row col tag b) = none → Does c s fun t =>
        t.post p = { x with pc := nextPc x } ∧ t.stream row col tag = some ⟨row, col, tag, b⟩ ∧ t.arr = { s.arr with streams := t.arr.streams }
        ∧ OnlyPost s t p ∧ t.serial = s.serial + 1 ∧ Frame [.posts, .yards, .serial, .arr] [] s t)
      ∧ ∀ k, (s.arr.cur.bind fun k => k.feed row col tag b) = some k → Does c s fun t =>
        t.post p = { x with pc := nextPc x } ∧ t.arr = { (s.dropStream row col tag).arr with cur := some k }
        ∧ OnlyPost s t p ∧ t.serial = s.serial + 1 ∧ Frame [.posts, .yards, .serial, .arr] [] s t
    let zeros : Blob := { data := List.replicate d.len 0 }
    let reads (k : OpKind) (n : Nat) : TagOp := { s.newTag tag k bs with parts := n, blob := some zeros, issued := true }
    let hreqs := hitchReqs (s.reqFor p false (tagRef p (s.newTag tag .hrd bs))) (portFor row) [] (s.hostPieces (s.instOf p) d.addr d.len) 0
    let dreqs := depotReqs (s.reqFor p false (tagRef p (s.newTag tag .drd bs))) (offsetOf d.addr) d.len 0 []
    let cred (r : HitchReq) : Nat := sget (fun _ => 0) s.hitch.cred r.port
    (traps (.xmit p a i) (col < 12 && col % 2 == 0) ∧ traps (.recv p a i) (col < 12 && col % 2 == 1)
      ∧ traps (.aop p a i) (col == 12 || col == 13) ∧ traps (.hrd p a i) (col == 14) ∧ traps (.hwr p a i) (col == 14)
      ∧ traps (.drd p a i) (col == 15) ∧ traps (.dwr p a i) (col == 15))
    ∧ (Runs s p (.xmit p a i) → ready → col < 12 → col % 2 = 0 →
        (s.foreignLink p = true → exec (.xmit p a i) s = .next (s.keep (s.postFault p 2)))
        ∧ (s.foreignLink p = false → s.mirUnstaged p d = false → mirLost = false → takes (.xmit p a i) ux)
        ∧ (s.foreignLink p = false → s.mirUnstaged p d = true → Does (.xmit p a i) s fun t =>
          t.post p = { x with pc := nextPc x } ∧ OnlyPost s t p ∧ t.serial = s.serial + 1 ∧ Frame [.posts, .yards, .serial] [] s t)
        ∧ (s.foreignLink p = false → s.mirUnstaged p d = false → mirLost = true → Does (.xmit p a i) s fun t =>
          t.post p = { x with pc := nextPc x } ∧ OnlyPost s t p ∧ t.serial = s.serial + 1 ∧ Counted s .GRM_MIR_OUTSTAT_LOST 0 t
          ∧ t.groom = { s.groom with mirSent := s.groom.mirSent + min 8128 d.len }
          ∧ Frame [.posts, .yards, .serial, .groom] [(.GRM_MIR_OUTSTAT_LOST, 0)] s t))
    ∧ (Runs s p (.hwr p a i) → ready → col = 14 → takes (.hwr p a i) (s.newTag tag .hwr bs))
    ∧ (Runs s p (.dwr p a i) → ready → col = 15 → takes (.dwr p a i) (s.newTag tag .dwr bs))
    ∧ (Runs s p (.hrd p a i) → ready → col = 14 →
        (x.missing = true → hands (.hrd p a i) (voidBlob d.len)) ∧ (x.missing = false → s.skipped p = true → hands (.hrd p a i) zeros)
        ∧ (x.missing = false → s.skipped p = false → exec (.hrd p a i) s = .next (s.keep
          ((((s.takeTag p x (s.newTag tag .hrd bs)).dropStream row col tag).updTag p tag (s.serial + 1) fun u =>
            { u with parts := hreqs.length, blob := some zeros, issued := true }).hitchAdd hreqs)))
        ∧ (x.missing = false → s.skipped p = false → Does (.hrd p a i) s fun t =>
          t.post p = { x with pc := nextPc x, tags := x.tags ++ [reads .hrd hreqs.length] } ∧ (∀ q : Nat, q ≠ p → t.post q = s.post q)
          ∧ t.serial = s.serial + 1 ∧ t.hitch.dreqs = s.hitch.dreqs
          ∧ ((∀ r ∈ s.hitch.waitq ++ hreqs, cred r = 0) → t.hitch = { s.hitch with
              waitq := ((s.hitch.waitq ++ hreqs).filter fun r => !r.grooms) ++ (s.hitch.waitq ++ hreqs).filter HitchReq.grooms })
          ∧ (∀ r, s.hitch.waitq = [] → hreqs = [r] → 0 < cred r →
            t.hitch.reqs = s.hitch.reqs ++ [{ r with tag := s.nextHitchTag, t := s.now }] ∧ t.hitch.waitq = []
            ∧ t.hitch.cred = sset (fun _ => 0) s.hitch.cred r.port (cred r - 1)
            ∧ t.outbox = s.outbox ++ [.hitchRead r.port s.nextHitchTag r.yg r.addr r.len])
          ∧ Frame [.posts, .yards, .serial, .arr, .hitch, .outbox, .insts, .groom] [] s t))
    ∧ (Runs s p (.drd p a i) → ready → col = 15 →
        (x.missing = true → hands (.drd p a i) (voidBlob d.len)) ∧ (x.missing = false → s.skipped p = true → hands (.drd p a i) zeros)
        ∧ (x.missing = false → s.skipped p = false → Does (.drd p a i) s fun t =>
          t.post p = { x with pc := nextPc x, tags := x.tags ++ [reads .drd dreqs.length] }
          ∧ t.hitch = { s.hitch with dreqs := s.hitch.dreqs ++ dreqs } ∧ OnlyPost s t p ∧ t.serial = s.serial + 1
          ∧ Frame [.posts, .yards, .serial, .arr, .hitch] [] s t))
    ∧ (Runs s p (.recv p a i) → ready → col < 12 → col % 2 = 1 → s.foreignLink p = true →
        exec (.recv p a i) s = .next (s.keep (s.postFault p 2)))
    ∧ (Runs s p (.recv p a i) → ready → col < 12 → col % 2 = 1 → s.foreignLink p = false →
        (s.rxFor p (s.newTag tag .recv bs) = none → Does (.recv p a i) s fun t =>
          t.post p = { x with pc := nextPc x, tags := x.tags ++ [s.newTag tag .recv bs] } ∧ OnlyPost s t p
          ∧ t.rxBuf row (descOf bs).addr = none ∧ Frame [.posts, .yards, .serial, .arr] [] s t)
        ∧ ∀ r, s.rxFor p (s.newTag tag .recv bs) = some r → Does (.recv p a i) s fun t =>
          t.post p = { x with pc := nextPc x } ∧ t.net = { s.net with rx := s.net.rx.erase r }
          ∧ (t.rxBuf row (descOf bs).addr).map (·.blob) = some ((s.carBlob r.id r.c).slice 0 (descOf bs).len)
          ∧ Frame [.posts, .yards, .serial, .arr, .net] [] s t)
    ∧ (Runs s p (.aop p a i) → ready → col = 12 ∨ col = 13 →
        (s.aopBad (s.arrOp p x bs tag) = true → exec (.aop p a i) s = .next (s.keep (s.postFault p 6)))
        ∧ (s.aopBad (s.arrOp p x bs tag) = false → Does (.aop p a i) s fun t =>
          t.arr = { s.arr with queue := (s.arrOp p x bs tag).join s.arr.queue } ∧ (t.post p).pc = nextPc x ∧ OnlyPost s t p
          ∧ (∀ w : Nat, w < 4 → t.rf .ARR_LASTOP_DESC (4 * row + w) = leNat ((bs.drop (8 * w)).take 8))
          ∧ Frame [.posts, .yards, .serial, .insts, .arr] ((List.range 4).map fun w => (.ARR_LASTOP_DESC, 4 * row + w)) s t))

/-- For a pair p other than 0 inside the configuration and not in quarantine, with a page-aligned BASE and a LOG2_SIZE
of 4 to 16: CREATE_CQ on a pair that is not live makes its completion ring live with its size, vector, base and index
mirror; CREATE_SQ on a pair whose completion ring is live and whose submission queue is not advances QGEN modulo 256,
makes the queue live with its size, base and timeouts (2000 ms and 1000 x 100 us where the field is 0), and its RESULT
is the generation; DESTROY_CQ on a pair whose completion ring alone is live takes it out of service, once a DESTROY_SQ
of the pair has completed, before which it changes nothing. DESTROY_SQ of a live submission queue that no team names,
with no command of the pair outstanding or fetched and no instance bound to one, ends its service and puts the pair in
quarantine. Each completes OK and changes nothing else; that the indices restart at 0 is the model's choice (log entry
11). Rests on R271, R272, R276, R277, R288, 10_queues_and_commands.md, Table 10.7. -/
def Obligations.QueuePairsAreCreatedAndTheirRingsRemoved : Prop :=
  ∀ (s : State) (q : QP) (e : Entry),
    let p := ent e 4 2
    let ring : Prop := p ≠ 0 ∧ p < s.fuses.conf.queues ∧ ent e 8 8 % 4096 = 0 ∧ 4 ≤ ent e 16 1 ∧ ent e 16 1 ≤ 16
      ∧ s.rf .DB_STATUS_QUARANTINE p = 0
    (q = 0 → Starts s q 0x02 e [(4, 2), (8, 8), (16, 1), (17, 1), (24, 8)] → ring → ent e 17 1 ≤ 31 → ent e 24 8 % 8 = 0 →
        s.rf .DB_STATUS_CQ_LIVE p = 0 → s.rf .DB_STATUS_SQ_LIVE p = 0 → Does (.createCq q e) s fun t =>
      t.rf .DB_STATUS_CQ_LIVE p = 1 ∧ t.rf .DB_STATUS_CQ_LOG2 p = ent e 16 1 ∧ t.rf .DB_STATUS_VECTOR p = ent e 17 1
      ∧ t.rf .DB_CQ_TAIL_TAIL p = 0 ∧ t.rf .DB_CQ_HEAD_HEAD p = 0 ∧ t.rf .DB_CQ_ARM_ARM p = 0
      ∧ t.qp p = { s.qp p with cqBase := ent e 8 8, mirror := ent e 24 8 } ∧ (∀ r, r ≠ p → t.qp r = s.qp r)
      ∧ Completed s t (plainDone q (eId e) 0x02 0 0)
      ∧ Frame [.qs] [(.DB_STATUS_CQ_LIVE, p), (.DB_STATUS_CQ_LOG2, p), (.DB_STATUS_VECTOR, p), (.DB_CQ_TAIL_TAIL, p),
          (.DB_CQ_HEAD_HEAD, p), (.DB_CQ_ARM_ARM, p)] s t)
    ∧ (q = 0 → Starts s q 0x01 e [(4, 2), (8, 8), (16, 1), (20, 2), (22, 2)] → ring → s.rf .DB_STATUS_CQ_LIVE p ≠ 0 →
        s.rf .DB_STATUS_SQ_LIVE p = 0 → Does (.createSq q e) s fun t =>
      t.rf .DB_STATUS_QGEN p = (s.rf .DB_STATUS_QGEN p + 1) % 256 ∧ t.rf .DB_STATUS_SQ_LIVE p = 1
      ∧ t.rf .DB_STATUS_SQ_LOG2 p = ent e 16 1 ∧ t.rf .DB_SQ_TAIL_TAIL p = 0 ∧ t.rf .DB_SQ_HEAD_HEAD p = 0
      ∧ t.rf .DB_TIMEOUT_COLL_MS p = (if ent e 20 2 = 0 then 2000 else ent e 20 2)
      ∧ t.rf .DB_TIMEOUT_REM_100US p = (if ent e 22 2 = 0 then 1000 else ent e 22 2)
      ∧ t.qp p = { s.qp p with sqBase := ent e 8 8 } ∧ (∀ r, r ≠ p → t.qp r = s.qp r)
      ∧ Completed s t (plainDone q (eId e) 0x01 0 ((s.rf .DB_STATUS_QGEN p + 1) % 256))
      ∧ Frame [.qs] [(.DB_STATUS_QGEN, p), (.DB_STATUS_SQ_LIVE, p), (.DB_STATUS_SQ_LOG2, p), (.DB_SQ_TAIL_TAIL, p),
          (.DB_SQ_HEAD_HEAD, p), (.DB_TIMEOUT_COLL_MS, p), (.DB_TIMEOUT_REM_100US, p)] s t)
    ∧ (q = 0 → Starts s q 0x04 e [(4, 2)] → p ≠ 0 → p < s.fuses.conf.queues → s.rf .DB_STATUS_CQ_LIVE p ≠ 0 →
        s.rf .DB_STATUS_SQ_LIVE p = 0 → s.destroying p = false → Does (.destroyCq q e) s fun t =>
      t.rf .DB_STATUS_CQ_LIVE p = 0 ∧ (∀ r, t.qp r = s.qp r) ∧ Completed s t (plainDone q (eId e) 0x04 0 0)
      ∧ Frame [.qs] [(.DB_STATUS_CQ_LIVE, p)] s t)
    ∧ (s.destroying p = true → Does (.destroyCq q e) s (Frame [] [] s))
    ∧ (q = 0 → Starts s q 0x03 e [(4, 2)] → p ≠ 0 → p < s.fuses.conf.queues → s.rf .DB_STATUS_SQ_LIVE p ≠ 0 → s.teamNames p = false →
        (∀ c ∈ s.qs.cmds, c.q ≠ p) → (∀ f ∈ s.qs.fetched, f.q ≠ p) → (∀ i ∈ s.insts, ∀ id, i.cmd ≠ some (p, id)) →
        Does (.destroySq q e) s fun t =>
      t.rf .DB_STATUS_SQ_LIVE p = 0 ∧ t.rf .DB_STATUS_QUARANTINE p = 1 ∧ (∀ r, t.qp r = s.qp r)
      ∧ Completed s t { plainDone q (eId e) 0x03 0 0 with after := some p }
      ∧ Frame [.qs] [(.DB_STATUS_SQ_LIVE, p), (.DB_STATUS_QUARANTINE, p)] s t)

/-- For a live submission queue p other than 0 that no team names, DESTROY_SQ always completes OK: it clears SQ_LIVE
and sets QUARANTINE, completes ABORTED each outstanding command of pair p and then each fetched entry of it that is no
such command, in their order, and last its own, posted only after those of pair p; the commands and fetched entries of
every other pair stay (its own entry aside). An instance bound to a command of pair p that has not started loses it and
goes. No other field of any doorbell page and no queue pair's record changes (the end of the quarantine is set when its
own completion is posted). No byte of any memory changes, nor the time, the engine, the timetable store, teams, sync
unit, links, array, groom unit or hitch. Rests on R277, R202, R198, R272, 10_queues_and_commands.md, Table 10.7. -/
def Obligations.DestroySqEndsEveryCommandOfThePair : Prop :=
  ∀ (s : State) (q : QP) (e : Entry),
    let p := ent e 4 2
    let q0 : Nat := q
    q = 0 → Starts s q 0x03 e [(4, 2)] → p ≠ 0 → p < s.fuses.conf.queues → s.rf .DB_STATUS_SQ_LIVE p ≠ 0 → s.teamNames p = false →
    Does (.destroySq q e) s fun t =>
      let open_ := s.qs.cmds.filter fun c => c.q == p
      let left := s.qs.fetched.filter fun f => f.q == p && !(open_.any fun c => c.id == eId f.e)
      t.rf .DB_STATUS_SQ_LIVE p = 0 ∧ t.rf .DB_STATUS_QUARANTINE p = 1
      ∧ t.qs.cmds = s.qs.cmds.filter (fun c => c.q != p && !(c.q == q0 && c.id == eId e))
      ∧ t.qs.fetched = s.qs.fetched.filter (fun f => f.q != p && !(f.q == q0 && eId f.e == eId e))
      ∧ t.qs.dones = s.qs.dones ++ open_.map (fun c => ofGen t (plainDone p c.id (eOp c.e) 1 0))
          ++ left.map (fun f => ofGen t (plainDone p (eId f.e) (eOp f.e) 1 0))
          ++ [ofGen t { plainDone q (eId e) 0x03 0 0 with after := some p }]
      ∧ t.insts = s.insts.filter (fun i => !((i.st == .waiting || i.st == .bound) && i.cmd.any fun c => c.1 == p))
      ∧ (∀ r, t.qp r = s.qp r)
      ∧ (∀ f ∈ doorbellFields, ∀ r, (f, r) ∉ [(Fld.DB_STATUS_SQ_LIVE, p), (.DB_STATUS_QUARANTINE, p)] → t.rf f r = s.rf f r)
      ∧ Keeps [.pins, .shadows, .rdata, .host, .depot, .scratch, .outbox, .fresh, .serial, .time, .eng, .tt, .mesh, .teams, .sync, .aon, .boot,
          .power, .links, .arr, .groom, .hitch] s t

/-- When an entry that may start is handled while the block is out of service or in Stable, each command other than
GET_LOG, FW_ACTIVATE, DESTROY_SQ, DESTROY_CQ and LINK_CONTROL(DISABLE) completes OUT_OF_SERVICE (0xA), and nothing but
the lists of commands changes. Stated for CREATE_SQ, CREATE_CQ, DEFINE_TEAM, RETIRE_TEAM, SET_TENANT, ALLOC_SYNC,
FREE_SYNC, MIRROR_CONFIG, RESET_YARD, SET_ENDPOINTS and SET_DETOUR. Rests on R288, 10_queues_and_commands.md, 10.5. -/
def Obligations.AdminCommandsOutOfServiceChangeNothing : Prop :=
  ∀ (s : State) (q : QP) (e : Entry) (c : Instr) (op : Nat),
    (c, op) ∈ [(Instr.createSq q e, 0x01), (.createCq q e, 0x02), (.defineTeam q e, 0x05), (.retireTeam q e, 0x06),
      (.setTenant q e, 0x08), (.allocSync q e, 0x09), (.freeSync q e, 0x0A), (.mirrorConfig q e, 0x0C), (.resetYard q e, 0x0E),
      (.setEndpoints q e, 0x10), (.setDetour q e, 0x11)] →
    s.coreOn = true → (s.start? q op e).isSome = true → (s.oos || s.stable) = true →
    Does c s fun t => Completed s t (plainDone q (eId e) op 0xA 0) ∧ (∀ r, t.qp r = s.qp r) ∧ Frame [.qs] [] s t

/-- A DEFINE_TEAM that passes the checks of R278 sets TT_TEAMt from its fields with STATE 1 and INSTANCE 0, clears
TT_TEAMCNTt, records origin, extents and queue, completes OK with the generation as RESULT and changes nothing else. A
RETIRE_TEAM of the present generation of a defined or aborted team with no instance running and no other command
outstanding or fetched leaves STATE 3 with the quarantine counting from the later of now and the last traffic, and
completes OK; with another generation it completes STALE_GEN and changes nothing else. Rests on R113, R202, R278,
R279, 10_queues_and_commands.md, Table 10.7. -/
def Obligations.TeamsAreDefinedAndRetired : Prop :=
  ∀ (s : State) (q : QP) (e : Entry),
    let t0 := ent e 4 1
    (q = 0 → Starts s q 0x05 e [(4, 1), (5, 1), (6, 1), (7, 1), (8, 1), (9, 1), (10, 1), (12, 3), (16, 3), (20, 2)] →
        firstBad (defineTeamBad e s) = none → Does (.defineTeam q e) s fun t =>
      t.rf .TT_TEAM_STATE t0 = 1 ∧ t.rf .TT_TEAM_GEN t0 = ent e 5 1 ∧ t.rf .TT_TEAM_INSTANCE t0 = 0 ∧ t.rf .TT_TEAM_YARD t0 = ent e 6 1
      ∧ t.rf .TT_TEAM_ALG t0 = ent e 7 1 ∧ t.rf .TT_TEAM_AXES t0 = ent e 8 1 ∧ t.rf .TT_TEAM_CHUNK_LOG2 t0 = ent e 9 1
      ∧ t.rf .TT_TEAMCNT_MISSING_SELF t0 = 0 ∧ t.rf .TT_TEAMCNT_PEER_ABSENT t0 = 0 ∧ t.rf .TT_TEAMCNT_POISONED t0 = 0
      ∧ t.rf .TT_TEAMCNT_DEGRADED t0 = 0
      ∧ (t.team t0).origin = (ent e 12 1, ent e 13 1, ent e 14 1) ∧ (t.team t0).ext = (ent e 16 1, ent e 17 1, ent e 18 1)
      ∧ (t.team t0).queue = ent e 20 2 ∧ (t.team t0).everDefined = true ∧ (∀ u, u ≠ t0 → t.team u = s.team u)
      ∧ Completed s t (plainDone q (eId e) 0x05 0 (ent e 5 1))
      ∧ Frame [.qs, .teams, .yards] [(.TT_TEAM_STATE, t0), (.TT_TEAM_GEN, t0), (.TT_TEAM_INSTANCE, t0), (.TT_TEAM_YARD, t0),
          (.TT_TEAM_ALG, t0), (.TT_TEAM_AXES, t0), (.TT_TEAM_CHUNK_LOG2, t0), (.TT_TEAMCNT_MISSING_SELF, t0),
          (.TT_TEAMCNT_PEER_ABSENT, t0), (.TT_TEAMCNT_POISONED, t0), (.TT_TEAMCNT_DEGRADED, t0)] s t)
    ∧ (q = 0 → Starts s q 0x06 e [(4, 1), (5, 1)] → t0 < s.fuses.conf.teams →
      (ent e 5 1 = s.rf .TT_TEAM_GEN t0 → s.rf .TT_TEAM_STATE t0 = 1 ∨ s.rf .TT_TEAM_STATE t0 = 2 → s.insts = [] → s.qs.cmds = [] →
        (∀ f ∈ s.qs.fetched, teamOp (eOp f.e) = true → ent f.e 4 1 ≠ t0) → Does (.retireTeam q e) s fun t =>
          t.rf .TT_TEAM_STATE t0 = 3
          ∧ t.team t0 = { s.team t0 with quarEnd := max s.now (s.team t0).lastTraffic + max (4 * s.stageLen) 50000 }
          ∧ t.qs.dones = s.qs.dones ++ [ofGen t (plainDone q (eId e) 0x06 0 0)] ∧ t.qs.cmds = []
          ∧ (∀ u, u ≠ t0 → t.team u = s.team u) ∧ Frame [.qs, .teams] [(.TT_TEAM_STATE, t0)] s t)
      ∧ (ent e 5 1 ≠ s.rf .TT_TEAM_GEN t0 → Does (.retireTeam q e) s fun t =>
          Completed s t (plainDone q (eId e) 0x06 8 0) ∧ Frame [.qs] [] s t))

/-- An ALLOC_SYNC that passes its checks allocates COUNT objects from the object it answers in RESULT: each reads
value 0, allocated, with its kind (counter, barrier, or pair with 2 + index), team and parameter and no OVF or ABSENT
flag; no other object changes. A FREE_SYNC that passes its checks clears ALLOC of its run, and each object keeps its
value. A SET_TENANT that passes its checks sets the yard's TENANT to the operand, moves the range when BASE and LIMIT
differ, gives the named pairs to the yard, and gives each named lane group to the tenant while every other group keeps
its owner. Each completes OK. Rests on R241, R243, R244, 10_queues_and_commands.md, Table 10.7. -/
def Obligations.SyncObjectsAreAllocatedAndFreed : Prop :=
  ∀ (s : State) (q : QP) (e : Entry),
    (Starts s q 0x09 e [(4, 1), (6, 2), (8, 2), (10, 1), (11, 1), (12, 4)] → firstBad (allocBad q e s) = none →
      ∃ f, allocFirst e (syncYard q e s) s = some f ∧ Does (.allocSync q e) s fun t =>
        (∀ j, j < ent e 8 2 → t.rf .SYN_OBJ_VALUE (f + j) = 0 ∧ t.rf .SYN_FLAG_ALLOC (f + j) = 1
          ∧ t.rf .SYN_FLAG_KIND (f + j) = (if ent e 10 1 = 2 then 2 + j else ent e 10 1)
          ∧ t.rf .SYN_FLAG_TEAM (f + j) = (if ent e 10 1 = 0 then 0 else ent e 11 1)
          ∧ t.rf .SYN_FLAG_PARAM (f + j) = ent e 12 4 ∧ t.rf .SYN_FLAG_OVF (f + j) = 0 ∧ t.rf .SYN_FLAG_ABSENT (f + j) = 0)
        ∧ (∀ n, n < f ∨ f + ent e 8 2 ≤ n → t.rf .SYN_OBJ_VALUE n = s.rf .SYN_OBJ_VALUE n ∧ t.rf .SYN_FLAG_ALLOC n = s.rf .SYN_FLAG_ALLOC n
          ∧ t.rf .SYN_FLAG_KIND n = s.rf .SYN_FLAG_KIND n)
        ∧ Completed s t (plainDone q (eId e) 0x09 0 f) ∧ AllBut [.qs, .sync] s t)
    ∧ (Starts s q 0x0A e [(4, 1), (6, 2), (8, 2)] → firstBad (freeBad q e s) = none → Does (.freeSync q e) s fun t =>
        (∀ j, j < ent e 8 2 → t.rf .SYN_FLAG_ALLOC (ent e 6 2 + j) = 0)
        ∧ (∀ n, t.rf .SYN_OBJ_VALUE n = s.rf .SYN_OBJ_VALUE n)
        ∧ (∀ n, n < ent e 6 2 ∨ ent e 6 2 + ent e 8 2 ≤ n → t.rf .SYN_FLAG_ALLOC n = s.rf .SYN_FLAG_ALLOC n)
        ∧ Completed s t (plainDone q (eId e) 0x0A 0 0) ∧ AllBut [.qs, .sync] s t)
    ∧ (q = 0 → Starts s q 0x08 e [(4, 1), (5, 1), (6, 2), (8, 2), (12, 2), (14, 2), (16, 4)] → firstBad (setTenantBad e s) = none →
        Does (.setTenant q e) s fun t =>
          t.rf .SYN_RANGE_TENANT (ent e 4 1) = ent e 5 1
          ∧ (ent e 12 2 ≠ ent e 14 2 → t.rf .SYN_RANGE_BASE (ent e 4 1) = ent e 12 2 ∧ t.rf .SYN_RANGE_LIMIT (ent e 4 1) = ent e 14 2)
          ∧ (∀ j, j < ent e 8 2 → t.rf .DB_STATUS_YARD (ent e 6 2 + j) = ent e 4 1)
          ∧ (∀ l g, l < 6 → g < 4 → t.groupOwner l g = if bitAt (ent e 16 4) (4 * l + g) then ent e 5 1 else s.groupOwner l g)
          ∧ Completed s t (plainDone q (eId e) 0x08 0 0) ∧ AllBut [.qs] s t)

/-- A LINK_CONTROL that passes its checks, names a link in a state that admits the action and does not wait for the
start-up completes OK with the link in DARK at Walk (ENABLE, RETRAIN), in DISABLED at Walk with every laser off
(DISABLE), in REAIM (REAIM) or in TEST at the rung of LNK_PRBS_CTL (TEST); RETRAIN opens the link's shadow window of
100 ms. No other link changes its state, no memory, postilion or team changes, and no instance where no carriage is in
the link's retry buffers. (That is stated where CARRIAGE_LOST and MIRROR_FAIL, which the losses and the mirror copies
of a link that leaves service latch, do not ask for the safe state; in every case the shared operation linkAct says
what the command does.) An ENABLE or TEST that waits for the end of start-up step 6 stays outstanding and changes no
link. Rests on R218, R224, R229, R233, R315, R324, R369, 08_optical_lanes.md, Table 8.6. -/
def Obligations.LinkControlMovesTheLink : Prop :=
  ∀ (s : State) (q : QP) (e : Entry) (c : Instr) (act target : Nat),
    (c, act, target) ∈ [(Instr.linkEnable q e, 0, 1), (.linkDisable q e, 1, 0), (.linkRetrain q e, 2, 1), (.linkReaim q e, 3, 10),
      (.linkTest q e, 4, 11)] →
    let l := ent e 4 1
    q = 0 → Starts s q 0x0B e [(4, 1), (5, 1)] → l < 6 → ent e 5 1 = act →
    (linkWrong s e = false → s.linkHeld e = false → exec c s = .next (s.keep ((s.linkAct l act).finish q (eId e) 0x0B 0)))
    ∧ (linkWrong s e = false → s.linkHeld e = false → s.reaction 16 < 2 → s.reaction 45 < 2 → Does c s fun t =>
        t.linkSt l = target ∧ (∀ k, k ≠ l → t.linkSt k = s.linkSt k)
        ∧ (act < 3 → t.rf .LNK_RUNG_RUNG l = 0 ∧ t.rf .LNK_RUNG_CAP l = 0)
        ∧ (act = 1 → t.rf .LNK_FIBRE_LASER_ON l = 0)
        ∧ (act = 4 → s.rf .LNK_PRBS_CTL_RUNG l < 4 → t.rf .LNK_RUNG_RUNG l = s.rf .LNK_PRBS_CTL_RUNG l)
        ∧ ((∀ u, u < 4 → (s.sub l u).retry = []) → t.insts = s.insts)
        ∧ (act = 2 → ∃ h : l < 6, ⟨.link ⟨l, h⟩, s.now + 100000000⟩ ∈ t.aon.windows)
        ∧ Completed s t (plainDone q (eId e) 0x0B 0 0)
        ∧ Keeps [Part.host, .depot, .scratch, .posts, .mesh, .teams, .boot, .hitch, .arr, .pins, .shadows, .sync] s t)
    ∧ (s.linkHeld e = true → Does c s fun t => t.boot = { s.boot with held := s.boot.held ++ [(l, q.val, eId e)] }
        ∧ Adopted s t q e (.link l act) ∧ Frame [.qs, .boot] [] s t)

/-- A GET_LOG whose LENGTH is a multiple of 64 writes the bytes from OFFSET on, as far as the AON log or the crash
dump area has any within LENGTH (that reading is the model's, log entry 53), to DEST, completes OK with their number
as RESULT, and changes no other byte of host memory and nothing else. FW_ACTIVATE of a page-aligned image in host
space of at most 1 MiB that passes its check makes it the image of the next block reset, completes OK and changes
nothing else. A RESET_YARD that passes its checks answers the state in which the command is outstanding and the reset
of its yard has started (steps 0 to 2, the shared operation startReset). Rests on R321, R338, R339, R370,
10_queues_and_commands.md, Tables 10.5 and 10.7. -/
def Obligations.LogsAndImagesAreServed : Prop :=
  ∀ (s : State) (q : QP) (e : Entry),
    (q = 0 → s.coreOn = true → (s.start? q 0x0D e).isSome = true → formBad e [(4, 1), (8, 8), (16, 4), (20, 4)] = none → ent e 20 4 % 64 = 0 →
      (ent e 4 1 = 0 → Does (.getLogAon q e) s fun t =>
        let bs := (s.logBytes.drop (ent e 16 4)).take (ent e 20 4)
        Stored s.host t.host (ent e 8 8) bs ∧ Completed s t (plainDone q (eId e) 0x0D 0 bs.length) ∧ Frame [.qs, .host] [] s t)
      ∧ (ent e 4 1 = 1 → Does (.getLogDump q e) s fun t =>
        let bs := s.dumpPart e
        Stored s.host t.host (ent e 8 8) bs ∧ Completed s t (plainDone q (eId e) 0x0D 0 bs.length)
        ∧ bs.length = min (ent e 20 4) (s.rf .FLT_DUMP_BASE_SIZE_MIB * 2 ^ 20 - ent e 16 4) ∧ Frame [.qs, .host] [] s t))
    ∧ (q = 0 → s.coreOn = true → (s.start? q 0x0F e).isSome = true → formBad e [(8, 8), (16, 4)] = none → ent e 8 8 % 4096 = 0 →
        ent e 8 8 < 2 ^ 47 → ent e 16 4 ≤ 2 ^ 20 → s.imageFail (ent e 8 8) (ent e 16 4) = none → Does (.fwActivate q e) s fun t =>
          t.boot = { s.boot with next := some (ent e 8 8, ent e 16 4) } ∧ Completed s t (plainDone q (eId e) 0x0F 0 0)
          ∧ Frame [.qs, .boot] [] s t)
    ∧ (q = 0 → Starts s q 0x0E e [(4, 1), (5, 1)] → firstBad (resetYardBad e s) = none →
      ∃ ft, s.start? q 0x0E e = some ft ∧ exec (.resetYard q e) s =
        .next (s.keep ((s.adopt ft (.yardReset (ent e 4 1))).startReset (ent e 4 1) (ent e 5 1 == 1) (some (q.val, eId e)))))

/-- A SET_ENDPOINTS that passes its checks leaves, for each of its entries and each field of RTE_EPe_LO, a shadow copy
with the value of its table that commits at AT_MTC, or where that is 0 at the tick Table 0.5 gives. SET_DETOUR does so
for DETOUR_EP and DETOUR_EN of its endpoint. The command becomes outstanding for that tick; no register reads
differently yet and nothing else changes. Rests on R175, R182, R280, 00_scope.md, Table 0.5. -/
def Obligations.EndpointChangesWaitForTheirTick : Prop :=
  ∀ (s : State) (q : QP) (e : Entry),
    let tk := s.atTick (ent e 16 8)
    (q = 0 → Starts s q 0x10 e [(4, 2), (6, 2), (8, 8), (16, 8)] → firstBad (setEndpointsBad e s) = none → Does (.setEndpoints q e) s fun t =>
        (∀ j, j < ent e 6 2 → ∀ f ∈ regFields .RTE_EP_LO,
          ⟨tk, f, ent e 4 2 + j, fpart f (rdLe s.host (ent e 8 8 + 16 * j) 8)⟩ ∈ t.shadows)
        ∧ (∀ x ∈ s.shadows, x.at_ ≠ tk ∨ x.f ∉ regFields .RTE_EP_LO → x ∈ t.shadows)
        ∧ Adopted s t q e (.endpoints tk) ∧ Frame [.qs, .shadows] [] s t)
    ∧ (q = 0 → Starts s q 0x11 e [(4, 2), (6, 2), (8, 1), (16, 8)] → firstBad (setDetourBad e s) = none → Does (.setDetour q e) s fun t =>
        ⟨tk, .RTE_EP_LO_DETOUR_EP, ent e 4 2, ent e 6 2⟩ ∈ t.shadows ∧ ⟨tk, .RTE_EP_LO_DETOUR_EN, ent e 4 2, ent e 8 1⟩ ∈ t.shadows
        ∧ Adopted s t q e (.detour tk) ∧ Frame [.qs, .shadows] [] s t)

/-- A LOAD_TIMETABLE of either mode that may start, with no load in progress and no swap pending, copies its image (no
more than one byte range of 4 MiB and 64 B is ever needed), empties the standby bank, stays outstanding and changes
nothing else. When the checks end, a bad image completes INVALID with reason TIMETABLE and the check's number, and the
standby bank stays empty; a good NOW image goes to the standby bank and, with the engine STOPPED, waits for its swap,
otherwise completes INVALID with detail 8; a good AT_MTC image at an allowed future tick sets SWAP_PENDING and
TT_SWAP_MTC. A NOW swap with the engine STOPPED whose teams match the defined ones makes the standby image the active
one with its id and period, and completes OK; where a team does not match it completes INVALID with detail 8 and the
active image stays. Rests on R64, R65, R66, R67, 03_timetables_and_postilions.md, 3.2. -/
def Obligations.TimetableLoadsAreCopiedCheckedAndSwapped : Prop :=
  ∀ (s : State) (q : QP) (e : Entry) (ld : Load) (r : SwapReq) (im : Image) (k : Nat),
    let fs := [(4, 1), (8, 8), (16, 4), (24, 8)]
    let loads (c : Instr) (atMtc : Bool) : Prop :=
      q = 0 → Starts s q 0x07 e fs → ent e 4 1 = b2n atMtc → s.tt.load = none → s.tt.swap = none → Does c s fun t =>
        t.tt = { s.tt with standby := none, load := some ⟨q, eId e, atMtc, ent e 24 8, rdBytes s.host (ent e 8 8) (min (ent e 16 4) 4194368)⟩ }
        ∧ Adopted s t q e .load ∧ t.rf .TT_STORE_STANDBY_VALID = 0 ∧ Frame [.qs, .tt] [(.TT_STORE_STANDBY_VALID, 0)] s t
    loads (.loadTimetableNow q e) false ∧ loads (.loadTimetableAtMtc q e) true
    ∧ (s.coreOn = true → s.tt.load = some ld →
      let chk := checkImage ld.bytes s.fuses.conf.code s.nteam (s.here 0, s.here 1, s.here 2)
      (chk = .inl k → Does .timetableImageChecked s fun t => t.tt = { s.tt with load := none }
        ∧ Completed s t (plainDone ld.q ld.id 0x07 6 (10 + 256 * k)) ∧ Frame [.qs, .tt] [] s t)
      ∧ (chk = .inr im → ld.atMtc = false → s.engSt = 0 → Does .timetableImageChecked s fun t =>
        t.tt = { s.tt with load := none, standby := some im, swap := some ⟨ld.q, ld.id, false, ld.swapMtc⟩ }
        ∧ t.rf .TT_STORE_STANDBY_VALID = 1 ∧ Frame [.tt] [(.TT_STORE_STANDBY_VALID, 0)] s t)
      ∧ (chk = .inr im → ld.atMtc = false → s.engSt ≠ 0 → Does .timetableImageChecked s fun t =>
        t.tt = { s.tt with load := none, standby := some im } ∧ Completed s t (plainDone ld.q ld.id 0x07 6 (10 + 256 * 8))
        ∧ t.rf .TT_STORE_STANDBY_VALID = 1 ∧ Frame [.qs, .tt] [(.TT_STORE_STANDBY_VALID, 0)] s t)
      ∧ (chk = .inr im → ld.atMtc = true → s.atMtcOk im ld.swapMtc = true → s.now < ld.swapMtc → ld.swapMtc < 2 ^ 64 →
        Does .timetableImageChecked s fun t =>
          t.tt = { s.tt with load := none, standby := some im, swap := some ⟨ld.q, ld.id, true, ld.swapMtc⟩ }
          ∧ t.rf .TT_STORE_STANDBY_VALID = 1 ∧ t.rf .TT_STORE_SWAP_PENDING = 1 ∧ t.rf .TT_SWAP_MTC_SWAP = ld.swapMtc
          ∧ Frame [.tt] [(.TT_STORE_STANDBY_VALID, 0), (.TT_STORE_SWAP_PENDING, 0), (.TT_SWAP_MTC_SWAP, 0)] s t))
    ∧ (s.coreOn = true → s.tt.swap = some r → r.atMtc = false → s.engSt = 0 → s.tt.standby = some im →
      (im.teams.all s.teamMatches = true → Does .timetableSwap s fun t =>
        t.tt.active = some im ∧ t.tt.standby = none ∧ t.tt.swap = none ∧ t.rf .TT_STORE_ACTIVE_VALID = 1
        ∧ t.rf .TT_STORE_ACTIVE_ID = im.id % 2 ^ fwidth .TT_STORE_ACTIVE_ID ∧ t.rf .TT_STORE_STANDBY_VALID = 0
        ∧ t.rf .TT_PERIOD_PERIOD_STAGES = im.period % 2 ^ fwidth .TT_PERIOD_PERIOD_STAGES
        ∧ t.qs.dones.getLast? = some (ofGen t (plainDone r.q r.id 0x07 0 0)) ∧ t.host = s.host ∧ t.depot = s.depot ∧ t.scratch = s.scratch)
      ∧ (im.teams.all s.teamMatches = false → Does .timetableSwap s fun t =>
        t.tt = { s.tt with swap := none } ∧ Completed s t (plainDone r.q r.id 0x07 6 (10 + 256 * 8))
        ∧ Frame [.qs, .tt] [(.TT_STORE_SWAP_PENDING, 0), (.TT_SWAP_MTC_SWAP, 0)] s t))

/-- ALLREDUCE, REDUCE_SCATTER, ALLGATHER, BROADCAST, REDUCE, ALLTOALL, GATHER, SCATTER, BARRIER, RCUG, UPDATE, NORM,
OFFLOAD, FETCH and COPY that may start, pass the checks common to team commands and their own, and name the team's
present generation, are counted for their opcode and bound to the instance that R26 gives: the command is outstanding
for it, an instance record that waits for its binding record is there with the entry, and nothing else changes. Where
R26 gives none (the instance has started) the command completes ABORTED. With another generation it completes
STALE_GEN and nothing else changes. OFFLOAD and FETCH whose far entry does not admit the tenant complete
TENANT_BLOCKED. In each of these a read of the command's descriptors or fragment table, where it has one, returned no
error; where it did, the command completes POISONED and the error is counted at its port (which port is the model's
choice, log entry 14). Rests on R26, R82, R177, R254, R282, R283, R287, R346, 10_queues_and_commands.md, 10.6. -/
def Obligations.TeamCommandsBindToTheirInstance : Prop :=
  ∀ (s : State) (q : QP) (e : Entry) (c : Instr) (op : Nat) (fs : List (Nat × Nat)) (bad : List (Bool × Nat × Nat)),
    (c, op, fs, bad) ∈ [(Instr.allreduce q e, 0x20, collFields, collBad e s), (.reduceScatter q e, 0x21, collFields, collBad e s),
      (.allgather q e, 0x22, collFields, collBad e s), (.broadcast q e, 0x23, collFields, collBad e s),
      (.reduce q e, 0x24, collFields, collBad e s), (.alltoall q e, 0x25, collFields, collBad e s),
      (.gather q e, 0x26, collFields, collBad e s), (.scatter q e, 0x27, collFields, collBad e s),
      (.barrier q e, 0x28, collFields, barrierBad e s), (.rcug q e, 0x30, groomFields, groomBad e s),
      (.update q e, 0x31, groomFields, groomBad e s), (.norm q e, 0x32, groomFields, groomBad e s),
      (.offload q e, 0x48, moveFields, moveBad e s), (.fetch q e, 0x49, moveFields, moveBad e s),
      (.copy q e, 0x50, collFields, copyBad e s)] →
    let t0 := ent e 4 1
    let admits : Prop := (op = 0x48 ∨ op = 0x49) → ent e 32 1 ≠ 7 →
      bitAt (s.rf .RTE_EP_LO_TENANT_MASK (ent e 16 8 / 2 ^ 48)) (s.yardTenant (s.rf .TT_TEAM_YARD t0)) = true
    let count := sget (fun _ => 0) (s.team t0).cmds op
    let unread : Prop := ∃ ft, s.start? q op e = some ft ∧ ft.bad = true
    Starts s q op e fs → firstBad (teamBad q e s) = none →
    (∀ a, unread → tableOf e = some a → admits → Does c s fun t => Completed s t (plainDone q (eId e) op 4 0)
      ∧ Counted s .HCH_ERR_RD_ERR (portFor (s.rf .DB_STATUS_YARD q) a) t
      ∧ Frame [.qs] [(.HCH_ERR_RD_ERR, portFor (s.rf .DB_STATUS_YARD q) a)] s t)
    ∧ ((unread → tableOf e = none) →
    (ent e 5 1 = s.rf .TT_TEAM_GEN t0 → firstBad bad = none → admits →
      (∀ n, s.instanceOf t0 op count = some n → Does c s fun t =>
        Adopted s t q e (.work t0 n)
        ∧ t.insts = s.insts ++ [({ team := t0, gen := s.rf .TT_TEAM_GEN t0, n := n, op := op, cmd := some (q.val, eId e), entry := e, idx := count,
                                    epoch := eEpoch e } : Inst)]
        ∧ sget (fun _ => 0) (t.team t0).cmds op = count + 1 ∧ t.team t0 = { s.team t0 with cmds := (t.team t0).cmds }
        ∧ (∀ u, u ≠ t0 → t.team u = s.team u) ∧ Frame [.qs, .teams, .insts] [] s t)
      ∧ (s.instanceOf t0 op count = none → Does c s fun t =>
        Completed s t (plainDone q (eId e) op 1 0) ∧ sget (fun _ => 0) (t.team t0).cmds op = count + 1 ∧ Frame [.qs, .teams] [] s t))
    ∧ (ent e 5 1 ≠ s.rf .TT_TEAM_GEN t0 → Does c s fun t => Completed s t (plainDone q (eId e) op 8 0) ∧ Frame [.qs] [] s t)
    ∧ (ent e 5 1 = s.rf .TT_TEAM_GEN t0 → firstBad bad = none → ¬ admits → Does c s fun t =>
        Completed s t (plainDone q (eId e) op 7 0) ∧ Frame [.qs] [] s t))

/-- When an entry that may start fails the check of its flags or reserved bytes, or passes it, stands on pair 0 and
fails a check of its own, the command completes INVALID with RESULT = reason + 256 x detail of the first failed check,
and nothing but the lists of commands changes. Stated for CREATE_SQ, CREATE_CQ, DESTROY_SQ, DESTROY_CQ, DEFINE_TEAM,
SET_TENANT, MIRROR_CONFIG, RESET_YARD, SET_ENDPOINTS and SET_DETOUR (of DESTROY_CQ where no DESTROY_SQ of the pair is
still to complete); the order of the checks is the one of the model's lists (log entry 83). Rests on R271, R273, 10_queues_and_commands.md, Tables 10.5 and 10.6. -/
def Obligations.InvalidCommandsReportTheFirstFailedCheck : Prop :=
  ∀ (s : State) (q : QP) (e : Entry) (c : Instr) (op : Nat) (fs : List (Nat × Nat)) (bad : List (Bool × Nat × Nat)) (rd : Nat × Nat),
    (c, op, fs, bad) ∈ [(Instr.createSq q e, 0x01, [(4, 2), (8, 8), (16, 1), (20, 2), (22, 2)], createSqBad e s),
      (.createCq q e, 0x02, [(4, 2), (8, 8), (16, 1), (17, 1), (24, 8)], createCqBad e s),
      (.destroySq q e, 0x03, [(4, 2)], destroySqBad e s), (.destroyCq q e, 0x04, [(4, 2)], destroyCqBad e s),
      (.defineTeam q e, 0x05, [(4, 1), (5, 1), (6, 1), (7, 1), (8, 1), (9, 1), (10, 1), (12, 3), (16, 3), (20, 2)], defineTeamBad e s),
      (.setTenant q e, 0x08, [(4, 1), (5, 1), (6, 2), (8, 2), (12, 2), (14, 2), (16, 4)], setTenantBad e s),
      (.mirrorConfig q e, 0x0C, [(4, 1), (6, 2), (8, 1), (12, 4), (16, 4)], mirrorConfigBad e s),
      (.resetYard q e, 0x0E, [(4, 1), (5, 1)], resetYardBad e s),
      (.setEndpoints q e, 0x10, [(4, 2), (6, 2), (8, 8), (16, 8)], setEndpointsBad e s),
      (.setDetour q e, 0x11, [(4, 2), (6, 2), (8, 1), (16, 8)], setDetourBad e s)] →
    s.coreOn = true → (s.start? q op e).isSome = true → (s.oos || s.stable) = false → (op = 0x04 → s.destroying (ent e 4 2) = false) →
    (formBad e fs = some rd ∨ (formBad e fs = none ∧ q = 0 ∧ firstBad bad = some rd)) → Does c s fun t =>
      Completed s t (plainDone q (eId e) op 6 (rd.1 + 256 * rd.2)) ∧ Frame [.qs] [] s t

/-- A PUT, GET, ATOMIC or SIGNAL on a pair other than 0 that may start and passes its checks becomes an outstanding
remote operation to its endpoint with its whole length still to send, and the remote operations then send what their
windows' credits allow (the shared operation pumpRemotes). Where the endpoint's entry does not admit the yard's tenant
it completes TENANT_BLOCKED and nothing else changes. Where the read of its fragment table returned an error it
completes POISONED and the error is counted at its port (which port is the model's choice, log entry 14). A CANCEL that
names one fetched and not yet started completes it CANCELLED. Rests on R177, R184, R198, R282, R285, R287, R346,
07_carriages_and_routing.md, 7.6, 10_queues_and_commands.md, Table 10.10. -/
def Obligations.RemoteCommandsStartTheirOperation : Prop :=
  ∀ (s : State) (q : QP) (e : Entry) (c : Instr) (op len : Nat),
    (c, op, len) ∈ [(Instr.put q e, 0x40, ent e 24 4), (.get q e, 0x41, ent e 24 4), (.atomic q e, 0x42, 8), (.signalCommand q e, 0x43, 1)] →
    let ep := ent e 16 8 / 2 ^ 48
    let tn := s.yardTenant (s.rf .DB_STATUS_YARD q)
    let unread : Prop := ∃ ft, s.start? q op e = some ft ∧ ft.bad = true
    (∀ (v : Word) (f : Fetched), s.coreOn = true → q.val < s.fuses.conf.queues → s.remoteOf q (v.toNat % 65536) = none →
      s.fetchedRemote q (v.toNat % 65536) = some f → Does (.cancel q v) s fun t =>
        Completed s t (plainDone q (v.toNat % 65536) (eOp f.e) 0x0B 0) ∧ Frame [.qs, .rdata] [(.PWR_STATE_CUR, 0)] s t)
    ∧ (∀ a, q ≠ 0 → Starts s q op e remoteFields → unread → tableOf e = some a → Does c s fun t =>
        Completed s t (plainDone q (eId e) op 4 0) ∧ Counted s .HCH_ERR_RD_ERR (portFor (s.rf .DB_STATUS_YARD q) a) t
        ∧ Frame [.qs] [(.HCH_ERR_RD_ERR, portFor (s.rf .DB_STATUS_YARD q) a)] s t)
    ∧ (q ≠ 0 → Starts s q op e remoteFields → (unread → tableOf e = none) → firstBad (remoteBad q e s) = none →
    (bitAt (s.rf .RTE_EP_LO_TENANT_MASK ep) tn = true → ∃ u, Adopted s u q e (.remote { kind := op, ep := ep, tenant := tn, todo := [(0, len)] })
        ∧ Frame [.qs] [] s u ∧ exec c s = .next (s.keep u.pumpRemotes))
    ∧ (bitAt (s.rf .RTE_EP_LO_TENANT_MASK ep) tn = false → Does c s fun t =>
        Completed s t (plainDone q (eId e) op 7 0) ∧ Frame [.qs] [] s t))

/-- A MIRROR_CONFIG that passes its checks sets the enables from ENABLE, the link where a direction is enabled, the
buddy where OUT is enabled, the region where IN is enabled (what it does not name stays: log entry 54), completes OK
and leaves every memory as it was, and, where MIRROR_FAIL does not ask for the safe state, every postilion, team,
instance and link. A MIRROR_COMMIT of the staged epoch with the outgoing direction
enabled stays outstanding and changes nothing else. MIRROR_COMMIT_WRITE_SEND with every staged byte sent, no mirror
carriage open and none lost marks the command as sent and injects the management write of GRM_MIR_COMMIT to the buddy;
with one lost it completes POISONED and latches MIRROR_FAIL. At the buddy MIRROR_COMMIT_OUTCOME serves the write at
the head of the management queue with the outcome code of Table 11.3: 4 with the incoming direction disabled, 1 where
the epoch is already CURRENT with that count, 3 where no copy of it is WRITING, 2 (copy INVALID) where the byte counts
differ, 0 (copy VALID and CURRENT, the other not) where they agree. Rests on R299, R301, R304, R305, R307,
11_slices_tenants_mirroring.md, Table 11.3. -/
def Obligations.MirrorIsConfiguredAndCommitted : Prop :=
  ∀ (s : State) (q : QP) (e : Entry) (d : Cmd) (c : Carriage) (rest : List Carriage) (lo n : Nat),
    (q = 0 → Starts s q 0x0C e [(4, 1), (6, 2), (8, 1), (12, 4), (16, 4)] → firstBad (mirrorConfigBad e s) = none →
      Does (.mirrorConfig q e) s fun t =>
        t.rf .GRM_MIR_CFG_OUT_EN = ent e 4 1 % 2 ∧ t.rf .GRM_MIR_CFG_IN_EN = ent e 4 1 / 2 % 2
        ∧ t.rf .GRM_MIR_CFG_LINK = (if ent e 4 1 = 0 then s.rf .GRM_MIR_CFG_LINK else ent e 8 1)
        ∧ t.rf .GRM_MIR_CFG_BUDDY_EP = (if ent e 4 1 % 2 = 1 then ent e 6 2 else s.rf .GRM_MIR_CFG_BUDDY_EP)
        ∧ t.rf .GRM_MIR_CFG_IN_BASE_MIB = (if ent e 4 1 / 2 % 2 = 1 then ent e 12 4 else s.rf .GRM_MIR_CFG_IN_BASE_MIB)
        ∧ t.rf .GRM_MIR_CFG_IN_SIZE_MIB = (if ent e 4 1 / 2 % 2 = 1 then ent e 16 4 else s.rf .GRM_MIR_CFG_IN_SIZE_MIB)
        ∧ Completed s t (plainDone q (eId e) 0x0C 0 0)
        ∧ Keeps [Part.host, .depot, .scratch] s t
        ∧ (s.reaction 45 < 2 → Keeps [Part.posts, .teams, .insts, .net, .links, .arr, .groom, .hitch, .boot, .power] s t))
    ∧ (q ≠ 0 → Starts s q 0x51 e [(8, 8)] → s.sliceSet = true → s.rf .GRM_MIR_CFG_OUT_EN ≠ 0 → s.rf .GRM_MIR_OUT_EPOCH_EPOCH = ent e 8 8 →
      Does (.mirrorCommit q e) s fun t => Adopted s t q e (.mirror false) ∧ Frame [.qs] [] s t)
    ∧ (s.coreOn = true → s.safe = false → s.qs.cmds.find? (fun x => x.phase == .mirror false) = some d →
      s.groom.mirSent = s.rf .GRM_MIR_OUT_STAGED → s.groom.mirOpen = 0 →
      (s.rf .GRM_MIR_OUTSTAT_LOST = 0 → exec .mirrorCommitWriteSend s = .next (s.keep (s.commitSend d)))
      ∧ (s.rf .GRM_MIR_OUTSTAT_LOST ≠ 0 → exec .mirrorCommitWriteSend s = .next (s.keep ((s.finishCmd d 4).fault 45))))
    ∧ (s.coreOn = true → s.safe = false → s.net.mgmtq = c :: rest → s.commitWrite c = true → s.mirWriting = false →
      lo = mData c / 2 ^ 32 → n = mData c % 2 ^ 32 →
      let s1 : State := { s with net := { s.net with mgmtq := rest } }
      let answers (code : Nat) (u : State) : Prop :=
        exec .mirrorCommitOutcome s = .next (s.keep (State.mgmtPump 16 (u.mgmtAnswer c code true)))
      let writing (k : Nat) : Bool := s.rf .GRM_MIR_COPY_STATE k == 1
      (s.rf .GRM_MIR_CFG_IN_EN = 0 → answers 4 s1)
      ∧ (s.rf .GRM_MIR_CFG_IN_EN ≠ 0 → (s.copyOf lo fun k => s.on .GRM_MIR_COPY_CURRENT k && s.rf .GRM_MIR_COPY_BYTES k == n).isSome = true →
          answers 1 s1)
      ∧ (s.rf .GRM_MIR_CFG_IN_EN ≠ 0 → (s.copyOf lo fun k => s.on .GRM_MIR_COPY_CURRENT k && s.rf .GRM_MIR_COPY_BYTES k == n) = none →
          s.copyOf lo writing = none → answers 3 s1)
      ∧ ∀ k, s.rf .GRM_MIR_CFG_IN_EN ≠ 0 →
          (s.copyOf lo fun k => s.on .GRM_MIR_COPY_CURRENT k && s.rf .GRM_MIR_COPY_BYTES k == n) = none → s.copyOf lo writing = some k →
          (s.rf .GRM_MIR_COPY_BYTES k ≠ n → answers 2 ((s1.setf .GRM_MIR_COPY_STATE k 3).fault 45))
          ∧ (s.rf .GRM_MIR_COPY_BYTES k = n → ∃ u, answers 0 u ∧ u.rf .GRM_MIR_COPY_STATE k = 2 ∧ u.rf .GRM_MIR_COPY_CURRENT k = 1
            ∧ u.rf .GRM_MIR_COPY_CURRENT (1 - k) = 0 ∧ Frame [.net] [(.GRM_MIR_COPY_STATE, k), (.GRM_MIR_COPY_CURRENT, k),
              (.GRM_MIR_COPY_CURRENT, 1 - k)] s u))

/-- Each copy of each register of the map stands at an offset that is a multiple of 8 inside the 64 MiB window, with
all its fields in bits 63 to 0. While the control port answers, a register write or read that is not a whole aligned
64-bit access completes, answers 0, and changes nothing else. Formalises R8. -/
def Obligations.RegistersAreAlignedWordsAndNothingElseIsAccessed : Prop :=
  (∀ (r : Reg) (i : Nat), i < (regInfo r).n1 * (regInfo r).n2 → regOff r i % 8 = 0 ∧ regOff r i + 8 ≤ 2 ^ 26)
    ∧ (∀ f, (fieldSpec f).lo ≤ (fieldSpec f).hi ∧ (fieldSpec f).hi < 64)
    ∧ ∀ (s : State) (off : BitVec 26) (be : BitVec 8) (v : Word), s.coreOn = true → ¬ (off.toNat % 8 = 0 ∧ be = 0xFF) →
      Does (.registerWrite off be v) s (fun t => t.rdata = 0 ∧ Frame [.rdata] [] s t)
      ∧ Does (.registerReadClear off be) s fun t => t.rdata = 0 ∧ Frame [.rdata] [] s t

/-- A whole aligned read at the offset of a register of the configuration answers the register's value, leaves its RC
fields at their reset values, and changes nothing else. A read where neither a register nor a postilion RAM stands
answers 0 and changes nothing else. Rests on R8, R9, R376, 00_scope.md, Table 0.4. -/
def Obligations.RegisterReadsAnswerTheirValueAndClear : Prop :=
  ∀ (s : State) (off : BitVec 26) (r : Reg) (i : Nat), s.coreOn = true → off.toNat % 8 = 0 →
    (s.regAt off.toNat = some (r, i) → Does (.registerReadClear off 0xFF) s fun t =>
      t.rdata = ({ s with rdata := 0 } : State).regVal r i
      ∧ (∀ f ∈ regFields r, (fieldSpec f).acc = .rc → t.rf f i = fldReset s.fuses f i % 2 ^ fwidth f)
      ∧ Frame [.rdata] (((regFields r).filter fun f => (fieldSpec f).acc == .rc).map fun f => (f, i)) s t)
    ∧ (s.regAt off.toNat = none → ramAt off.toNat = none → Does (.registerReadClear off 0xFF) s fun t =>
      t.rdata = 0 ∧ Frame [.rdata] [] s t)

/-- For a whole write to a register whose write has no action of its own, where no S field is refused: an RW field of
class S or L takes its bits of the value, a T field takes them at once while its unit is stopped and else keeps its
value with a shadow copy for the tick of Table 0.5, a W1C field clears the bits written 1, an RO or RC field keeps its
value, and no memory, postilion or command changes. A write that would change the one field of a register, an S field
whose owner runs, leaves the answer of a refused write: nothing written, one record and CFG_IGNORED. Rests on R9, R10,
00_scope.md, Tables 0.4 and 0.5. -/
def Obligations.RegisterWritesObeyAccessAndClass : Prop :=
  ∀ (s : State) (off : BitVec 26) (v : Word) (r : Reg) (i : Nat), s.coreOn = true → off.toNat % 8 = 0 →
    s.regAt off.toNat = some (r, i) →
    r ∉ [Reg.AON_MTC_LOAD, .TT_CTL, .TT_STAGE_LEN, .TT_EPOCH, .FLT_STATUS, .FLT_FIRST, .FLT_REACT0, .FLT_REACT1, .FLT_RESET,
      .AON_RESET_WIN, .DB_SQ_TAIL, .DB_CQ_HEAD, .DB_CQ_ARM, .DB_CANCEL, .IRQ_DATA, .SYN_OBJ, .SYN_ADD, .SYN_DL_CTL, .PWR_STATE,
      .CMR_BOOT_CTL, .RTE_SLICE, .DBG_HOLD, .ARR_SRG_KEY, .ARR_SRG_CTR, .ARR_SRG_TS, .GRM_MIR_CFG, .GRM_MIR_OUT_EPOCH, .GRM_MIR_OUT,
      .GRM_MIR_OUTSTAT, .GRM_MIR_COPY_EPOCH, .GRM_MIR_COPY, .GRM_MIR_COMMIT, .GRM_MIR_IN_DROPS] →
    ((∀ f ∈ regFields r, (fieldSpec f).acc = .rw → (fieldSpec f).cls = .s →
        fpart f v.toNat = s.rf f i ∨ (rangeOk f (fpart f v.toNat) = true ∧ s.runs r i = false)) →
      Does (.registerWrite off 0xFF v) s fun t =>
        (∀ f ∈ regFields r,
          ((fieldSpec f).acc = .rw → (fieldSpec f).cls ≠ .t → t.rf f i = fpart f v.toNat)
          ∧ ((fieldSpec f).acc = .rw → (fieldSpec f).cls = .t → s.runs r i = false → t.rf f i = fpart f v.toNat)
          ∧ ((fieldSpec f).acc = .rw → (fieldSpec f).cls = .t → s.runs r i = true → t.rf f i = s.rf f i
            ∧ ⟨s.commitTick, f, i, fpart f v.toNat⟩ ∈ t.shadows)
          ∧ ((fieldSpec f).acc = .w1c → t.rf f i = (s.rf f i - (s.rf f i &&& fpart f v.toNat)) % 2 ^ fwidth f)
          ∧ ((fieldSpec f).acc = .ro ∨ (fieldSpec f).acc = .rc → t.rf f i = s.rf f i))
        ∧ t.rdata = 0 ∧ Keeps [.host, .depot, .scratch, .posts, .teams, .insts, .qs, .boot, .power, .hitch, .arr, .groom] s t)
    ∧ (∀ f, regFields r = [f] → (fieldSpec f).acc = .rw → (fieldSpec f).cls = .s → fpart f v.toNat ≠ s.rf f i → s.runs r i = true →
      exec (.registerWrite off 0xFF v) s = .next (s.keep (({ s with rdata := 0 } : State).cfgIgnored off.toNat)))

/-- For a pair of the configuration: a submission tail inside the ring becomes the tail, one outside is counted in
BAD_DB; a completion head inside the ring that does not pass the tail becomes the head, another is counted in BAD_DB;
arming an empty ring sets ARM, arming one with completions pending leaves ARM 0 and sends its vector (log entry 69); a
cancel that names no remote operation outstanding and not yet cancelled is counted in BAD_CANCEL; one of an operation
fetched and not yet started, or of which no carriage has left the output queues, completes it CANCELLED; one of any
other sends nothing more of it (the shared operation cancelRemote). Each wakes the block from Doze, and changes nothing
else but that a cancelled carriage's credit returns to its window and may let others go. Rests on R198, R266, R267,
R269, R285, R367. -/
def Obligations.DoorbellsMoveTheirIndices : Prop :=
  ∀ (s : State) (q : QP) (v : Word), s.coreOn = true → q.val < s.fuses.conf.queues →
    let x := v.toNat % 65536
    let bad (t : State) : Prop := t.rf .DB_STATUS_BAD_DB q = min (s.rf .DB_STATUS_BAD_DB q + 1) (2 ^ fwidth .DB_STATUS_BAD_DB - 1)
      ∧ Frame [.rdata] [(.DB_STATUS_BAD_DB, q), (.PWR_STATE_CUR, 0)] s t
    let headOk : Prop := x < 2 ^ s.cqLog q ∧ ringCount (s.cqLog q) (s.rf .DB_CQ_HEAD_HEAD q) x ≤
      ringCount (s.cqLog q) (s.rf .DB_CQ_HEAD_HEAD q) (s.rf .DB_CQ_TAIL_TAIL q)
    let awake (t : State) : Prop := t.rf .PWR_STATE_CUR = if s.rf .PWR_STATE_CUR = 1 then 0 else s.rf .PWR_STATE_CUR
    (x < 2 ^ s.sqLog q → Does (.sqDoorbell q v) s fun t => t.rf .DB_SQ_TAIL_TAIL q = x ∧ awake t ∧ t.rdata = 0
      ∧ Frame [.rdata, .yards] [(.DB_SQ_TAIL_TAIL, q), (.PWR_STATE_CUR, 0)] s t)
    ∧ (2 ^ s.sqLog q ≤ x → Does (.sqDoorbell q v) s bad)
    ∧ (headOk → Does (.cqHeadWrite q v) s fun t => t.rf .DB_CQ_HEAD_HEAD q = x ∧ awake t ∧ t.rdata = 0
      ∧ Frame [.rdata] [(.DB_CQ_HEAD_HEAD, q), (.PWR_STATE_CUR, 0)] s t)
    ∧ (¬ headOk → Does (.cqHeadWrite q v) s bad)
    ∧ (s.rf .DB_CQ_TAIL_TAIL q = s.rf .DB_CQ_HEAD_HEAD q → Does (.cqArm q v) s fun t => t.rf .DB_CQ_ARM_ARM q = 1 ∧ awake t
      ∧ Frame [.rdata] [(.DB_CQ_ARM_ARM, q), (.PWR_STATE_CUR, 0)] s t)
    ∧ (s.rf .DB_CQ_TAIL_TAIL q ≠ s.rf .DB_CQ_HEAD_HEAD q → s.rf .IRQ_DATA_MASK (s.cqVector q) = 0 → s.aon.irqOut < 32 →
      Does (.cqArm q v) s fun t => t.rf .DB_CQ_ARM_ARM q = 0
        ∧ t.outbox = s.outbox ++ [.irq (s.rf .IRQ_ADDR_ADDR (s.cqVector q) * 4) (s.rf .IRQ_DATA_DATA (s.cqVector q))]
        ∧ Frame [.rdata, .outbox, .aon] [(.DB_CQ_ARM_ARM, q), (.PWR_STATE_CUR, 0)] s t)
    ∧ (∀ f, s.remoteOf q x = none → s.fetchedRemote q x = some f → Does (.cancel q v) s fun t =>
        Completed s t (plainDone q x (eOp f.e) 0x0B 0) ∧ awake t ∧ Frame [.qs, .rdata] [(.PWR_STATE_CUR, 0)] s t)
    ∧ (∀ c r, s.remoteOf q x = some (c, r) →
      exec (.cancel q v) s = .next (s.keep (({ s with rdata := 0 } : State).undoze.cancelRemote c r))
      ∧ (r.sent ≤ (s.net.outq.filter (r.owns s.self)).length → Does (.cancel q v) s fun t =>
        Completed s t (plainDone q x (eOp c.e) 0x0B 0) ∧ t.rdata = 0 ∧ (∀ o ∈ s.net.outq, r.owns s.self o = true → cSrc o.c = s.self)
        ∧ Keeps [.pins, .shadows, .host, .depot, .scratch, .outbox, .fresh, .serial, .time, .eng, .tt, .mesh, .teams, .insts, .sync, .aon,
            .boot, .power, .links, .arr, .groom, .hitch] s t))
    ∧ (s.remoteOf q x = none → s.fetchedRemote q x = none → Does (.cancel q v) s fun t =>
        t.rf .DB_STATUS_BAD_CANCEL q = min (s.rf .DB_STATUS_BAD_CANCEL q + 1) (2 ^ fwidth .DB_STATUS_BAD_CANCEL - 1) ∧ awake t
        ∧ Frame [.rdata] [(.DB_STATUS_BAD_CANCEL, q), (.PWR_STATE_CUR, 0)] s t)

/-- With EN 0, ADMIN_QUEUE_ENABLE with both sizes in 4 to 16 sets EN, the sizes and the vector. ADMIN_QUEUE_DISABLE
that leaves sizes and vector as they are clears EN. IRQ_UNMASK of a masked vector clears MASK, takes the new data, and
where a message was pending sends it once and clears PENDING. Nothing else changes. Rests on R265, R286, R350. -/
def Obligations.AdminQueueAndVectorMaskAreSwitched : Prop :=
  ∀ (s : State) (v : Word) (k : Fin 32), s.coreOn = true →
    let n := v.toNat
    (s.rf .ADM_CTL_EN = 0 → 4 ≤ n / 2 ^ 8 % 32 → n / 2 ^ 8 % 32 ≤ 16 → 4 ≤ n / 2 ^ 16 % 32 → n / 2 ^ 16 % 32 ≤ 16 →
      Does (.adminQueueEnable v) s fun t => t.rf .ADM_CTL_EN = 1 ∧ t.rf .ADM_CTL_SQ_LOG2 = n / 2 ^ 8 % 32
        ∧ t.rf .ADM_CTL_CQ_LOG2 = n / 2 ^ 16 % 32 ∧ t.rf .ADM_CTL_VECTOR = n % 32
        ∧ Frame [.rdata] [(.ADM_CTL_EN, 0), (.ADM_CTL_SQ_LOG2, 0), (.ADM_CTL_CQ_LOG2, 0), (.ADM_CTL_VECTOR, 0)] s t)
    ∧ (s.rf .ADM_CTL_SQ_LOG2 = n / 2 ^ 8 % 32 → s.rf .ADM_CTL_CQ_LOG2 = n / 2 ^ 16 % 32 → s.rf .ADM_CTL_VECTOR = n % 32 →
      Does (.adminQueueDisable v) s fun t => t.rf .ADM_CTL_EN = 0 ∧ Frame [.rdata] [(.ADM_CTL_EN, 0)] s t)
    ∧ (s.rf .IRQ_DATA_MASK k ≠ 0 → s.rf .IRQ_DATA_PENDING k ≠ 0 → s.aon.irqOut < 32 → Does (.irqUnmask k v) s fun t =>
        t.rf .IRQ_DATA_MASK k = 0 ∧ t.rf .IRQ_DATA_PENDING k = 0 ∧ t.rf .IRQ_DATA_DATA k = n % 2 ^ 32
        ∧ t.outbox = s.outbox ++ [.irq (s.rf .IRQ_ADDR_ADDR k * 4) (n % 2 ^ 32)] ∧ t.aon.irqOut = s.aon.irqOut + 1
        ∧ Frame [.rdata, .outbox, .aon] [(.IRQ_DATA_MASK, k), (.IRQ_DATA_PENDING, k), (.IRQ_DATA_DATA, k)] s t)
    ∧ (s.rf .IRQ_DATA_PENDING k = 0 → Does (.irqUnmask k v) s fun t => t.rf .IRQ_DATA_MASK k = 0 ∧ t.rf .IRQ_DATA_DATA k = n % 2 ^ 32
        ∧ Frame [.rdata] [(.IRQ_DATA_MASK, k), (.IRQ_DATA_DATA, k)] s t)

/-- ARM alone on a STOPPED engine outside the safe state (log entry 56) either passes every check of R52 and leaves
ARMED with ERR 0, or leaves the engine STOPPED with the code of the first failed check in ERR; on another state it
changes nothing; with a STOP bit it is refused as ignored. STOP_AT_PERIOD alone makes a RUNNING engine STOPPING and
changes nothing in STOPPED and STOPPING. STOP_NOW alone on a RUNNING or STOPPING engine is kept for the next tick and
changes nothing in STOPPED. MTC_LOAD of a value not below the counter, on the root with the engine STOPPED, makes the
counter that value and counts the step; elsewhere it is refused as ignored. Rests on R33, R52, R53, R54, R55,
02_stages_and_time.md, Table 2.10. -/
def Obligations.StageEngineFollowsItsControlRegister : Prop :=
  ∀ (s : State) (v : Word), s.coreOn = true →
    let n := v.toNat
    (n / 2 % 4 = 0 →
      (s.engSt = 0 → s.safe = false → s.armErr = 0 → Does (.arm v) s fun t => t.engSt = 1 ∧ t.rf .TT_STATUS_ERR = 0
        ∧ Frame [.rdata] [(.TT_STATUS_STATE, 0), (.TT_STATUS_ERR, 0)] s t)
      ∧ (s.engSt = 0 → s.safe = false → s.armErr ≠ 0 → Does (.arm v) s fun t => t.rf .TT_STATUS_ERR = s.armErr
        ∧ Frame [.rdata] [(.TT_STATUS_ERR, 0)] s t)
      ∧ (s.engSt ≠ 0 → Does (.arm v) s (Frame [.rdata] [] s)))
    ∧ (n / 2 % 4 ≠ 0 → exec (.arm v) s = .next (s.keep (({ s with rdata := 0 } : State).cfgIgnored 0x0F00000)))
    ∧ (n % 2 = 0 → n / 4 % 2 = 0 →
      (s.engSt = 2 → Does (.stopAtPeriod v) s fun t => t.engSt = 3 ∧ Frame [.rdata] [(.TT_STATUS_STATE, 0)] s t)
      ∧ (s.engSt = 0 ∨ s.engSt = 3 → Does (.stopAtPeriod v) s (Frame [.rdata] [] s))
      ∧ (s.engSt = 1 → exec (.stopAtPeriod v) s = .next (s.keep ({ s with rdata := 0 } : State).stopEngine)))
    ∧ (n % 2 = 0 →
      (2 ≤ s.engSt → Does (.stopNow v) s fun t => t.eng = { s.eng with stopNow := true } ∧ Frame [.rdata, .eng] [] s t)
      ∧ (s.engSt = 0 → Does (.stopNow v) s (Frame [.rdata] [] s))
      ∧ (s.engSt = 1 → exec (.stopNow v) s = .next (s.keep ({ s with rdata := 0 } : State).stopEngine)))
    ∧ (s.engSt = 0 → s.rf .SYN_TIME_CTL_ROOT ≠ 0 → s.mtc ≤ n * 65536 → Does (.mtcLoad v) s fun t =>
        t.now = n ∧ t.time.frac = 0 ∧ t.time.freeze = 0
        ∧ t.rf .AON_TIME_STEPS_COUNT = min (s.rf .AON_TIME_STEPS_COUNT + 1) (2 ^ fwidth .AON_TIME_STEPS_COUNT - 1)
        ∧ Frame [.rdata, .time, .aon] [(.AON_MTC_MTC_NS, 0), (.AON_TIME_STEPS_COUNT, 0), (.AON_LOG_PTR_HEAD, 0), (.AON_LOG_PTR_WRAPS, 0)] s t)
    ∧ (s.engSt ≠ 0 ∨ s.rf .SYN_TIME_CTL_ROOT = 0 → exec (.mtcLoad v) s = .next (s.keep (({ s with rdata := 0 } : State).cfgIgnored 0x0100008)))

/-- A set of an allocated object that is no barrier with a value below 2^63 makes it the object's value; an add to an
allocated counter or pair whose sum stays below 2^63 adds. Only waiters, the trace and the groom unit's queue may
change besides. A set or add of an object that is not allocated is misuse cause 2, a set of a barrier or of a value
from 2^63 on cause 3, and the write is logged as ignored. A postilion's SIGNAL of a local counter or pair of its own
yard, the sum below 2^63, goes on and adds g[b] to it; its WAITS on one goes on at once where the value is equal to, or
not below, g[b] modulo 2^63, as its immediate says, and else waits. Rests on R245, R246, R247, R261,
09_synchronisation.md, Table 9.6. -/
def Obligations.DriverSetsAndAddsToSyncObjects : Prop :=
  ∀ (s : State) (n : Fin 16384) (v : Word), s.coreOn = true → n.val < s.fuses.conf.syncObjs →
    let x := v.toNat
    let s0 : State := { s with rdata := 0 }
    let meets (o : Nat) (eq : Bool) : Bool :=
      if eq then s.rf .SYN_OBJ_VALUE n == o % 2 ^ 63 else decide (o % 2 ^ 63 ≤ s.rf .SYN_OBJ_VALUE n)
    (∀ (p : PostId) (a b : GReg) (i : BitVec 14), ((s.post p).reg a).toNat < 2 ^ 63 → ((s.post p).reg a).toNat % 2 ^ 14 = n →
      s.ownObj p n = true → s.rf .SYN_FLAG_KIND n ≠ 1 →
      let x := s.post p
      let o := (x.reg b).toNat
      (Runs s p (.waits p a b i) → meets o (i.toNat % 2 == 1) = true → Does (.waits p a b i) s (PostIs s p { x with pc := nextPc x }))
      ∧ (Runs s p (.waits p a b i) → meets o (i.toNat % 2 == 1) = false →
        Does (.waits p a b i) s (PostIs s p { x with wait := .sync n o (i.toNat % 2 == 1) }))
      ∧ (Runs s p (.signal p a b) → s.rf .SYN_OBJ_VALUE n + o < 2 ^ 63 → Does (.signal p a b) s fun t =>
        t.rf .SYN_OBJ_VALUE n = s.rf .SYN_OBJ_VALUE n + o ∧ t.post p = { x with pc := nextPc x }
        ∧ Frame [.posts, .yards, .sync, .outbox, .groom] [(.SYN_OBJ_VALUE, n), (.DBG_TRACE_STAT_SENT, 0)] s t))
    ∧ (s.allocated n = true → s.rf .SYN_FLAG_KIND n ≠ 1 → x < 2 ^ 63 → Does (.synObjSet n v) s fun t => t.rf .SYN_OBJ_VALUE n = x
      ∧ t.rdata = 0 ∧ Frame [.rdata, .posts, .sync, .outbox] [(.SYN_OBJ_VALUE, n), (.DBG_TRACE_STAT_SENT, 0)] s t)
    ∧ (s.allocated n = true → s.rf .SYN_FLAG_KIND n ≠ 1 → s.rf .SYN_OBJ_VALUE n + x < 2 ^ 63 → Does (.synAdd n v) s fun t =>
      t.rf .SYN_OBJ_VALUE n = s.rf .SYN_OBJ_VALUE n + x
      ∧ Frame [.rdata, .posts, .sync, .outbox, .groom] [(.SYN_OBJ_VALUE, n), (.DBG_TRACE_STAT_SENT, 0)] s t)
    ∧ (s.allocated n = false → exec (.synObjSet n v) s = .next (s.keep ((s0.misuse 2 n s.self).cfgIgnored (0x0B00000 + 8 * n)))
      ∧ ∃ off, exec (.synAdd n v) s = .next (s.keep ((s0.misuse 2 n s.self).cfgIgnored off)))
    ∧ (s.allocated n = true → s.rf .SYN_FLAG_KIND n = 1 ∨ 2 ^ 63 ≤ x →
      exec (.synObjSet n v) s = .next (s.keep ((s0.misuse 3 n s.self).cfgIgnored (0x0B00000 + 8 * n))))

/-- Where no source's condition persists, a write of FLT_STATUS clears exactly the bits written 1 and changes nothing
else. A write of FLT_FIRST with VALID clears VALID, OVF and SOURCE, keeps the time, and changes nothing else. With no
source latched, a write of a reaction register gives every source of it its two bits, but 2 to sources 0 and 8 and 0
to the reserved ones, and changes nothing else. RESET_WIN_CLEAR forgets the recorded yard resets and sets LIMIT and
WINDOW_S. Rests on R314, R315, R317, R318, R332. -/
def Obligations.FaultCollectorRegistersAreWritten : Prop :=
  ∀ (s : State) (v : Word) (hi : Bool), s.coreOn = true →
    (s.aon.persist = [] → (∀ b, b < 64 → s.persists b = false) → Does (.fltStatusClear v) s fun t =>
      (∀ b, b < 64 → bitAt (t.rf .FLT_STATUS_SOURCES) b = (bitAt (s.rf .FLT_STATUS_SOURCES) b && !bitAt v.toNat b))
      ∧ Frame [.rdata] [(.FLT_STATUS_SOURCES, 0)] s t)
    ∧ (Does (.fltFirstClear v) s fun t => t.rf .FLT_FIRST_VALID = 0 ∧ t.rf .FLT_FIRST_OVF = 0 ∧ t.rf .FLT_FIRST_SOURCE = 0
      ∧ Frame [.rdata] [(.FLT_FIRST_VALID, 0), (.FLT_FIRST_OVF, 0), (.FLT_FIRST_SOURCE, 0)] s t)
    ∧ (s.rf .FLT_STATUS_SOURCES = 0 → Does (.fltReactWrite hi v) s fun t =>
      (∀ b, b < 64 → t.reaction b =
        if decide (32 ≤ b) != hi then s.reaction b
        else if b = 0 ∨ b = 8 then 2 else if b = 54 ∨ b = 55 ∨ 60 ≤ b then 0 else bitsOf v.toNat (2 * (b % 32) + 1) (2 * (b % 32)))
      ∧ Frame [.rdata] [(if hi then .FLT_REACT1_REACT else .FLT_REACT0_REACT, 0)] s t)
    ∧ (Does (.resetWinClear v) s fun t => t.aon = { s.aon with resets := [] }
      ∧ t.rf .AON_RESET_WIN_LIMIT = v.toNat / 2 ^ 16 % 16 ∧ t.rf .AON_RESET_WIN_WINDOW_S = v.toNat / 2 ^ 32 % 2 ^ 16
      ∧ Frame [.rdata, .aon] [(.AON_RESET_WIN_LIMIT, 0), (.AON_RESET_WIN_WINDOW_S, 0)] s t)

/-- RUN_REQUEST sets REQ 0 and ends Doze. DOZE_REQUEST with the engine STOPPED and no work command outstanding sets
REQ 1 and takes Run to Doze; otherwise it is refused as ignored. OFF_REQUEST writes REQ 3, closes commands and links,
and leaves CUR Off pending with OFF_READY. BOOT_GO in start-up step 2 outside Stable takes address and length and goes
to step 3; elsewhere it changes nothing. A decision COMMIT or DISCARD of an instance in UNKNOWN becomes
TT_EPOCHt.DECISION; any other write of it changes nothing. With the engine STOPPED, DBG_HOLD takes its eight bits;
writing 0 changes nothing else. Rests on R334, R335, R366, R367, R369, R381. -/
def Obligations.PowerBootEpochAndHoldWritesAct : Prop :=
  ∀ (s : State) (v : Word) (k : TeamSlot), s.coreOn = true →
    let s0 : State := { s with rdata := 0 }
    (Does .runRequest s fun t => t.rf .PWR_STATE_REQ = 0 ∧ t.rf .PWR_STATE_CUR = (if s.rf .PWR_STATE_CUR = 1 then 0 else s.rf .PWR_STATE_CUR)
      ∧ Frame [.rdata] [(.PWR_STATE_REQ, 0), (.PWR_STATE_CUR, 0)] s t)
    ∧ (s.engSt = 0 → s.workOpen = false → Does .dozeRequest s fun t => t.rf .PWR_STATE_REQ = 1
      ∧ t.rf .PWR_STATE_CUR = (if s.rf .PWR_STATE_CUR = 0 then 1 else s.rf .PWR_STATE_CUR)
      ∧ Frame [.rdata] [(.PWR_STATE_REQ, 0), (.PWR_STATE_CUR, 0)] s t)
    ∧ (s.engSt ≠ 0 ∨ s.workOpen = true → exec .dozeRequest s = .next (s.keep (s0.cfgIgnored 0x0300000)))
    ∧ (Does .offRequest s fun t => t.rf .PWR_STATE_CUR = 3 ∧ t.rf .PWR_STATE_OFF_READY = 1
      ∧ t = s.keep ((s0.setf .PWR_STATE_REQ 0 3).toOff))
    ∧ (s.boot.step = 2 → s.stable = false → Does .bootGo s fun t =>
      t.boot = { s.boot with step := 3, t := s.now, addr := s.rf .CMR_BOOT_ADDR_ADDR * 4096, len := s.rf .CMR_BOOT_LEN_LEN }
      ∧ Frame [.rdata, .boot] [] s t)
    ∧ (s.boot.step ≠ 2 ∨ s.stable = true → Does .bootGo s (Frame [.rdata] [] s))
    ∧ (k.val < s.fuses.conf.teams → s.rf .TT_EPOCH_DECISION k = 3 → v.toNat % 4 = 1 ∨ v.toNat % 4 = 2 →
      Does (.epochDecisionWrite k v) s fun t => t.rf .TT_EPOCH_DECISION k = v.toNat % 4
        ∧ (v.toNat % 4 = 2 → ∀ i ∈ t.insts, ¬ (i.team = k.val ∧ i.st = .ended ∧ i.decision = 3))
        ∧ Frame [.rdata, .insts] [(.TT_EPOCH_DECISION, k)] s t)
    ∧ (k.val < s.fuses.conf.teams → s.rf .TT_EPOCH_DECISION k ≠ 3 ∨ v.toNat % 4 = 0 ∨ v.toNat % 4 = 3 → Does (.epochDecisionWrite k v) s (Frame [.rdata] [] s))
    ∧ (s.engSt = 0 → v.toNat % 256 = 0 → Does (.debugHold v) s fun t => t.rf .DBG_HOLD_ROW = 0 ∧ t.rf .DBG_HOLD_COACHMAN = 0
      ∧ Frame [.rdata] [(.DBG_HOLD_ROW, 0), (.DBG_HOLD_COACHMAN, 0)] s t)
    ∧ (s.engSt = 0 → v.toNat % 256 ≠ 0 → s.reaction 52 < 2 → Does (.debugHold v) s fun t => t.rf .DBG_HOLD_ROW = v.toNat % 16
      ∧ t.rf .DBG_HOLD_COACHMAN = v.toNat / 16 % 16 ∧ Keeps [.host, .depot, .scratch, .posts, .teams, .insts, .qs, .net, .links] s t)

/-- SUBMISSION_FETCH of a yard whose coachman is not at work, or in the safe state, or with no pair to serve once
firmware runs, changes nothing. Where one entry of the next pair may be fetched, SQ_HEAD advances by one within the
ring, the yard notes the pair, and the 64-byte entry at the old head is taken in: a new id with a defined opcode and
sub-operation joins the fetched entries with the present time; an id that is outstanding on the pair completes INVALID
with reason DUPLICATE and detail 2; an undefined opcode, with the block in service, completes INVALID with reason
OPCODE; nothing else changes. An entry whose read has an error is skipped: the head advances, RD_ERR of its port
counts, and nothing else changes (the model's choice, log entry 159). More entries are fetched by as many such turns,
at most 8. The first turn in start-up step 5 sets CMR_BOOT_CTL.OK and goes on to step 6. Rests on R268, R273, R271,
R346, 10_queues_and_commands.md, Table 10.5. -/
def Obligations.SubmissionFetchTakesEntriesInOrder : Prop :=
  ∀ (s : State) (y : Yard) (q : Nat) (ue tbl : BitVec 8), s.coreOn = true →
    let fetch : Instr := .submissionFetch y ue tbl
    let h := s.rf .DB_SQ_HEAD_HEAD q
    let port := portFor y (s.sqBase q + 64 * h)
    let done (status result : Nat) : Done := ofGen s (plainDone q (eId (BitVec.ofNat 512 (rdLe s.host (s.sqBase q + 64 * h) 64)))
      (eOp (BitVec.ofNat 512 (rdLe s.host (s.sqBase q + 64 * h) 64))) status result)
    let e : Entry := BitVec.ofNat 512 (rdLe s.host (s.sqBase q + 64 * h) 64)
    let k := min 8 (min (s.unfetched q) (s.fetchRoom q))
    let turns (t : State) (fetched : List Fetched) (dones : List Done) (fs : List (Fld × Nat)) : Prop :=
      t.rf .DB_SQ_HEAD_HEAD q = (h + 1) % 2 ^ s.sqLog q ∧ t.qs = { s.qs with fetched := s.qs.fetched ++ fetched, dones := s.qs.dones ++ dones }
        ∧ (∀ z : Nat, t.yard z = if z = y then { s.yard y with rr := q + 1, quietAt := s.now } else s.yard z)
        ∧ Frame [.qs, .yards] ((.DB_SQ_HEAD_HEAD, q) :: fs) s t
    (s.coachAt y = false ∨ s.safe = true → Does fetch s (Frame [] [] s))
    ∧ (s.coachAt y = true → s.safe = false → s.boot.step = 5 → s.stable = false → s.firmwareOk.nextPair y = none →
      Does fetch s fun t => t.rf .CMR_BOOT_CTL_OK = 1
        ∧ t.boot = { s.boot with step := 6, t := s.now, attempts := 0 } ∧ Frame [.boot, .aon] [(.CMR_BOOT_CTL_OK, 0)] s t)
    ∧ (s.coachAt y = true → s.safe = false → ¬ (s.boot.step = 5 ∧ s.stable = false) →
      (s.nextPair y = none → Does fetch s (Frame [] [] s))
      ∧ (s.nextPair y = some q → exec fetch s =
          .next (s.keep ((s.setYard y { s.yard y with rr := q + 1, quietAt := s.now }).fetchN y q ue tbl 0 k)))
      ∧ (s.nextPair y = some q → k = 1 → s.sqLog q ≤ 16 →
        (ue.getLsbD 0 = false → s.idTaken q (eId e) = false → definedOp (eOp e) = true → subOpBad e = none →
          Does fetch s fun t => turns t [⟨q, e, s.now, tbl.getLsbD 0⟩] [] [])
        ∧ (ue.getLsbD 0 = false → s.idTaken q (eId e) = true → Does fetch s fun t => turns t [] [done 6 (9 + 256 * 2)] [])
        ∧ (ue.getLsbD 0 = false → s.idTaken q (eId e) = false → definedOp (eOp e) = false → (s.oos || s.stable) = false →
          Does fetch s fun t => turns t [] [done 6 1] [])
        ∧ (ue.getLsbD 0 = true → Does fetch s fun t => turns t [] [] [(.HCH_ERR_RD_ERR, port)] ∧ Counted s .HCH_ERR_RD_ERR port t)))

/-- For a command whose instance waits for its record, with its coachman at work, outside the safe state, and the
record's place free in the whole row: where the instance is not EPOCH, the 64 bytes of the record stand at 128 x team
+ 64 x (instance mod 2) in the data RAM of each of the row's 16 postilions, every other byte of those is as before,
the instance is bound, and nothing else changes but the notes of movement. An EPOCH instance waits while an earlier
one of its team waits for its decision, and while no staging place is free; otherwise it is bound with that place.
With the place taken, or in the safe state, nothing changes. Rests on R81, R82, R281, R333, R335. -/
def Obligations.BindingRecordIsWrittenToTheRow : Prop :=
  ∀ (s : State) (q : QP) (id : BitVec 16) (i : Inst), s.coreOn = true →
    s.insts.find? (fun j => j.cmd == some (q.val, id.toNat) && j.st == .waiting) = some i →
    let y := s.rf .TT_TEAM_YARD i.team
    let a := recAddr i.team i.n
    let bs := s.recBytes i id.toNat
    let bound (stage len : Nat) (t : State) : Prop :=
      (∀ c, c < 16 → ∀ k, sget byte0 (t.post (16 * y + c)).dram k =
        if a ≤ k ∧ k < a + 64 then bs.getD (k - a) 0 else sget byte0 (s.post (16 * y + c)).dram k)
      ∧ (∀ p, p / 16 ≠ y → t.post p = s.post p)
      ∧ (∀ p, t.post p = { s.post p with dram := (t.post p).dram })
      ∧ t.insts = updWhere (fun j => j.team == i.team && j.n == i.n) (fun j => { j with st := .bound, stageBase := stage, stageLen := len }) s.insts
      ∧ Frame [.posts, .yards, .insts] [] s t
    let n := (s.bufSizes i.entry).2
    (s.safe = true ∨ s.recFree y i.team i.n = false → Does (.bindingRecordWrite q id) s (Frame [] [] s))
    ∧ (s.coachOk q = true → s.safe = false → s.recFree y i.team i.n = true →
      bs.length = 64
      ∧ (i.epoch = false → Does (.bindingRecordWrite q id) s (bound 0 0))
      ∧ (i.epoch = true → s.unknownHeld i.team = true ∨ s.stagePlace y n = none → Does (.bindingRecordWrite q id) s (Frame [] [] s))
      ∧ ∀ b, i.epoch = true → s.unknownHeld i.team = false → s.stagePlace y n = some b → Does (.bindingRecordWrite q id) s (bound b n))

/-- For a finished command of a pair whose completion ring is live, outside the safe state, with nothing that must be
posted before it and every write of its instance acknowledged: its entry stands at the base + 32 x tail, the tail advances by one within the ring (and is stored at
the pair's mirror address where it has one), the command leaves the finished ones, and, with ARM 1 and its vector
unmasked, ARM becomes 0 and the vector's message is sent. Nothing else changes but the trace; a DESTROY_SQ's starts the
time of the pair's quarantine besides. With the ring not live, in the safe state, before the last write of its instance
is acknowledged, or for a DESTROY_SQ before every other completion of its pair, nothing changes. An answer of the host to an interrupt message lets the next one that waits
leave, or lowers the count of those outstanding; an error answer latches IRQ_PORT besides; with none outstanding
nothing happens. Rests on R29, R269, R270, R277, R286, R350, 10_queues_and_commands.md, Table 10.4. -/
def Obligations.CompletionsArePostedAndInterruptsAnswered : Prop :=
  ∀ (s : State) (q : QP) (id : BitVec 16) (d : Done) (err : Bool) (a v : Nat) (rest : List (Nat × Nat)), s.coreOn = true →
    let n : Nat := q
    let tail := s.rf .DB_CQ_TAIL_TAIL n
    let tail' := (tail + 1) % 2 ^ s.cqLog n
    let left := dropFirst (fun x => x == d) s.qs.dones
    let posted (t : State) : Prop := t.rf .DB_CQ_TAIL_TAIL n = tail' ∧ t.qs.dones = left
      ∧ (d.after = none → t.qs = { s.qs with dones := left })
      ∧ (∀ p, d.after = some p → t.qs = { s.qs with dones := left, qps := t.qs.qps }
        ∧ (t.qp p).quarEnd = max s.now (s.qp p).lastTraffic + s.quarantine)
      ∧ (n = 0 ∨ (s.qp n).mirror = 0 → Stored s.host t.host (s.cqBase n + 32 * tail) (s.doneBytes d))
      ∧ (n ≠ 0 → (s.qp n).mirror ≠ 0 → ∃ m, Stored s.host m (s.cqBase n + 32 * tail) (s.doneBytes d) ∧ Stored m t.host (s.qp n).mirror (leBytes 8 tail'))
    (s.qs.dones.find? (fun x => x.q == n && x.id == id.toNat) = some d →
      (s.cqLive n = false ∨ s.safe = true ∨ s.unacked d.inst = true ∨ (∃ p, d.after = some p ∧ ∃ x ∈ s.qs.dones, x.q = p ∧ x ≠ d) →
        Does (.completionPost q id) s (Frame [] [] s))
      ∧ (s.cqLive n = true → s.safe = false → s.unacked d.inst = false → (∀ p, d.after = some p → ∀ x ∈ s.qs.dones, x.q = p → x = d) →
        s.cqLog n ≤ 16 →
        (s.rf .DB_CQ_ARM_ARM n = 0 → Does (.completionPost q id) s fun t => posted t
          ∧ Frame [.host, .qs, .outbox] [(.DB_CQ_TAIL_TAIL, n), (.DBG_TRACE_STAT_SENT, 0)] s t)
        ∧ (s.rf .DB_CQ_ARM_ARM n ≠ 0 → s.rf .IRQ_DATA_MASK (s.cqVector n) = 0 → s.aon.irqOut < 32 →
          Does (.completionPost q id) s fun t => posted t ∧ t.rf .DB_CQ_ARM_ARM n = 0 ∧ t.aon = { s.aon with irqOut := s.aon.irqOut + 1 }
            ∧ t.outbox.getLast? = some (.irq (s.rf .IRQ_ADDR_ADDR (s.cqVector n) * 4) (s.rf .IRQ_DATA_DATA (s.cqVector n)))
            ∧ Frame [.host, .qs, .outbox, .aon] [(.DB_CQ_TAIL_TAIL, n), (.DBG_TRACE_STAT_SENT, 0), (.DB_CQ_ARM_ARM, n)] s t)))
    ∧ (s.aon.irqOut = 0 → Does (.interruptResponse err) s (Frame [] [] s))
    ∧ (s.aon.irqOut ≠ 0 → s.aon.irqq = [] →
        Does (.interruptResponse false) s (fun t => t.aon = { s.aon with irqOut := s.aon.irqOut - 1 } ∧ Frame [.aon] [] s t)
        ∧ exec (.interruptResponse true) s = .next (s.keep (({ s with aon := { s.aon with irqOut := s.aon.irqOut - 1 } } : State).fault 49)))
    ∧ (s.aon.irqOut ≠ 0 → s.aon.irqq = (a, v) :: rest → Does (.interruptResponse false) s fun t =>
        t.outbox = s.outbox ++ [.irq a v] ∧ t.aon = { s.aon with irqq := rest } ∧ Frame [.aon, .outbox] [] s t)

/-- QUARANTINE_END of a retired team slot or a queue pair frees it once its quarantine has passed, counted from its
last traffic too, and for a pair once its DESTROY_SQ's completion is posted; before that nothing changes. FENCE_END removes the fence entries of the endpoint whose time has
passed and shows the number left. SHADOW_WINDOW_END removes the windows of the domain whose time has passed.
COMMAND_TIMEOUT changes nothing in the safe state or before the pair's timeout has passed; afterwards a fetched
command that has not started completes TIMEOUT (and counts for its team where it belongs to one), one whose instance
has not started completes TIMEOUT and its instance goes (one whose slot has begun behind a degraded instance stays and runs
as that of a missing member), a BARRIER completes TIMEOUT, a MIRROR_COMMIT completes
TIMEOUT and latches MIRROR_FAIL, a running instance hangs its team, and a remote operation takes its window's other
commands with it (the shared operations hang and remoteTimeout). Rests on R202, R197, R284, R312, R325, R328. -/
def Obligations.IdentifiersAndTimersRunOut : Prop :=
  ∀ (s : State) (t : TeamSlot) (q : QP) (id : BitVec 16) (ep : BitVec 16) (d : Domain) (c : Cmd) (f : Fetched) (u n : Nat) (i : Inst) (r : Remote) (b : Bool),
    s.coreOn = true →
    let tEnd := max (s.team t).quarEnd ((s.team t).lastTraffic + s.quarantine)
    let qEnd := max (s.qp q).quarEnd ((s.qp q).lastTraffic + s.quarantine)
    let left := s.net.fences.filter fun f => !(f.ep == ep.toNat && f.until_ ≤ s.now)
    let tmo : Instr := .commandTimeout q id
    (s.rf .TT_TEAM_STATE t = 3 → tEnd ≤ s.now → Does (.quarantineEnd (.team t)) s fun v => v.rf .TT_TEAM_STATE t = 0 ∧ Frame [] [(.TT_TEAM_STATE, t)] s v)
    ∧ (s.rf .TT_TEAM_STATE t ≠ 3 ∨ s.now < tEnd → Does (.quarantineEnd (.team t)) s (Frame [] [] s))
    ∧ (s.rf .DB_STATUS_QUARANTINE q ≠ 0 → s.destroying q = false → qEnd ≤ s.now → Does (.quarantineEnd (.pair q)) s fun v =>
        v.rf .DB_STATUS_QUARANTINE q = 0 ∧ Frame [] [(.DB_STATUS_QUARANTINE, q)] s v)
    ∧ (s.now < qEnd ∨ s.destroying q = true → Does (.quarantineEnd (.pair q)) s (Frame [] [] s))
    ∧ Does (.fenceEnd ep) s (fun v => v.net = { s.net with fences := left }
        ∧ v.rf .RTE_FENCE_ACTIVE = left.length % 2 ^ fwidth .RTE_FENCE_ACTIVE ∧ Frame [.net] [(.RTE_FENCE_ACTIVE, 0)] s v)
    ∧ Does (.shadowWindowEnd d) s (fun v => v.aon = { s.aon with windows := s.aon.windows.filter fun w => !(w.dom == d && decide (w.until_ ≤ s.now)) }
        ∧ Frame [.aon] [] s v)
    ∧ (s.safe = true → Does tmo s (Frame [] [] s))
    ∧ (s.safe = false → s.cmd? q id.toNat = some c →
      (s.expired q (eOp c.e) c.t0 = false → Does tmo s (Frame [] [] s))
      ∧ (s.expired q (eOp c.e) c.t0 = true →
        (c.phase = .mirror b → exec tmo s = .next (s.keep ((s.finishCmd c 3).fault 45)))
        ∧ (c.phase = .remote r → exec tmo s = .next (s.keep (s.remoteTimeout c r)))
        ∧ (c.phase = .work u n → s.insts.find? (fun i => i.team == u && i.n == n) = some i →
          (i.st = .bound → i.due = true → exec tmo s = .next (s.keep ((((s.finishCmd c 3).clearRec u n).sat .TT_TEAMCNT_MISSING_SELF u).updInst
              (fun j => j.team == u && j.n == n) Inst.lateMissing))
            ∧ Does tmo s fun v => Completed s v (plainDone q id.toNat (eOp c.e) 3 0) ∧ Counted s .TT_TEAMCNT_MISSING_SELF u v
              ∧ (∃ j ∈ v.insts, j.team = u ∧ j.n = n ∧ j.missing = true ∧ j.cmd = none ∧ j.st = .bound)
              ∧ Frame [.qs, .posts, .yards, .insts] [(.TT_TEAMCNT_MISSING_SELF, u)] s v)
          ∧ (i.st = .waiting ∨ (i.st = .bound ∧ i.due = false) →
            exec tmo s = .next (s.keep ((s.finishCmd c 3).dropInsts fun j => j.team == u && j.n == n)))
          ∧ (i.st = .running ∨ i.st = .ended → i.op = 0x28 → Does tmo s fun v => Completed s v (plainDone q id.toNat (eOp c.e) 3 0) ∧ Frame [.qs] [] s v)
          ∧ (i.st = .running → i.op ≠ 0x28 → exec tmo s = .next (s.keep (s.hang u))))))
    ∧ (s.safe = false → s.cmd? q id.toNat = none → s.qs.fetched.find? (fun f => f.q == q.val && eId f.e == id.toNat) = some f →
      (s.expired q (eOp f.e) f.t0 = false → Does tmo s (Frame [] [] s))
      ∧ (s.expired q (eOp f.e) f.t0 = true → Does tmo s fun v => Completed s v (plainDone q id.toNat (eOp f.e) 3 0) ∧ Frame [.qs, .teams] [] s v))

/-- An accepted PUT without NOTIFY stores its bytes at its target offset (host or depot, bit 47), queues one rein
credit and changes nothing else (in the safe state it and an ATOM_REQ wait); with a NOTIFY of an object it may not touch it is dropped as misuse of that cause and
stores nothing. An accepted GET_REQ is answered with the bytes of its range. An accepted ATOM_REQ stores ADD, SWAP,
CAS or signed MAX of the 8-byte word and its operands, and is answered with the old word. An accepted SIGNAL of an
object it may touch sets it, or adds to it where no pair of another realignment epoch and no saturation stands in the
way, and queues one credit; one it may not touch is dropped as misuse of that cause; an add under an old epoch counts
in LATE_EPOCH and leaves the object. A carriage that is not there, accepted, of that kind changes nothing. Rests on
R195, R196, R176, R184, R245, R259, R261, 07_carriages_and_routing.md, Table 7.8. -/
def Obligations.RemoteRequestsActAtTheirTarget : Prop :=
  ∀ (s s1 : State) (p : Port) (c : Carriage) (m : Nat), s.coreOn = true →
    let a := s.aperture (cTenant c) (gTarget c)
    let bs := (c.payload.drop 64).take (gLen c)
    let n := gTarget c % 2 ^ 14
    let credit (t : State) : Prop := t.net = (s1.reinFor c false).net
    let old : Word := w64 (leNat (s.rdLocal a 8))
    let new : Word := if gAop c = 0 then old + w64 (gOp1 c) else if gAop c = 1 then w64 (gOp1 c)
      else if gAop c = 2 then (if old = w64 (gOp2 c) then w64 (gOp1 c) else old) else if old.toInt < (w64 (gOp1 c)).toInt then w64 (gOp1 c) else old
    let set := gAop c == 1
    (s.safe = false → s.takeAccepted p c [1] = some s1 → gNotify c = false → Does (.putReceive p c) s fun t =>
        (isDepot a = false → Stored s.host t.host (offsetOf a) bs ∧ t.depot = s.depot)
        ∧ (isDepot a = true → Stored s.depot t.depot (offsetOf a) bs ∧ t.host = s.host)
        ∧ credit t ∧ Frame [.host, .depot, .net] [] s t)
    ∧ (s.safe = false → s.takeAccepted p c [1] = some s1 → gNotify c = true → s1.carMisuse (cTenant c) (gObj c % 2 ^ 14) false 0 = some m →
        exec (.putReceive p c) s = .next (s.keep (s1.dropMisuse c m (gObj c % 2 ^ 14))))
    ∧ (s.takeAccepted p c [2] = some s1 → exec (.getReqReceive p c) s = .next (s.keep (s1.respond c 3 (s.rdLocal a (gLen c)))))
    ∧ (s.safe = false → s.takeAccepted p c [4] = some s1 → ∃ u, exec (.atomReqReceive p c) s = .next (s.keep (u.respond c 5 (leBytes 8 old.toNat)))
        ∧ (isDepot a = false → Stored s.host u.host (offsetOf a) (leBytes 8 new.toNat) ∧ u.depot = s.depot)
        ∧ (isDepot a = true → Stored s.depot u.depot (offsetOf a) (leBytes 8 new.toNat) ∧ u.host = s.host)
        ∧ u.net = s1.net ∧ Frame [.host, .depot, .net] [] s u)
    ∧ (s.takeAccepted p c [6] = some s1 →
      (s1.carMisuse (cTenant c) n set (gOp1 c) = some m → exec (.signalReceive p c) s = .next (s.keep (s1.dropMisuse c m n)))
      ∧ (s1.carMisuse (cTenant c) n set (gOp1 c) = none →
        (gAop c = 1 → Does (.signalReceive p c) s fun t => t.rf .SYN_OBJ_VALUE n = gOp1 c ∧ credit t
          ∧ Frame [.posts, .sync, .outbox, .net] [(.SYN_OBJ_VALUE, n), (.DBG_TRACE_STAT_SENT, 0)] s t)
        ∧ (gAop c ≠ 1 → s.lateEpoch n (gOp2 c) = false → s.rf .SYN_OBJ_VALUE n + gOp1 c < 2 ^ 63 → Does (.signalReceive p c) s fun t =>
          t.rf .SYN_OBJ_VALUE n = s.rf .SYN_OBJ_VALUE n + gOp1 c ∧ credit t
          ∧ Frame [.posts, .sync, .outbox, .net] [(.SYN_OBJ_VALUE, n), (.DBG_TRACE_STAT_SENT, 0)] s t)
        ∧ (gAop c ≠ 1 → s.lateEpoch n (gOp2 c) = true → Does (.signalReceive p c) s fun t =>
          t.rf .SYN_MISUSE1_LATE_EPOCH = min (s.rf .SYN_MISUSE1_LATE_EPOCH + 1) (2 ^ fwidth .SYN_MISUSE1_LATE_EPOCH - 1) ∧ credit t
          ∧ Frame [.net] [(.SYN_MISUSE1_LATE_EPOCH, 0)] s t)))
    ∧ (s.safe = true ∨ s.takeAccepted p c [1] = none → Does (.putReceive p c) s (Frame [] [] s))
    ∧ (s.takeAccepted p c [2] = none → Does (.getReqReceive p c) s (Frame [] [] s))
    ∧ (s.safe = true ∨ s.takeAccepted p c [4] = none → Does (.atomReqReceive p c) s (Frame [] [] s))
    ∧ (s.takeAccepted p c [6] = none → Does (.signalReceive p c) s (Frame [] [] s))

/-- An accepted GET_RSP or ATOM_RSP that no outstanding request of its window generation, yard generation and SEQ
explains counts in STALE and does nothing else (in the safe state either waits). One that a request explains writes its
bytes to the local buffer at the request's place, gives the request's credit back, takes it from the open ones and is
the last traffic of its queue pair; then the operation completes
when nothing is left, stalled postilions run again, and what waits for credits is sent (the shared operations
remoteDone, freeReinStalls, pumpWaiting, pumpRemotes). An accepted MGMT_REQ joins the queue of 16, which is then
served in order, or is dropped where the queue is full. An accepted MGMT_RSP with no commit open is handed to firmware
with its data; the outcome of the open commit gives its status by Table 11.3. Rests on R186, R197, R204, R305,
07_carriages_and_routing.md, Table 7.9, 11_slices_tenants_mirroring.md, Table 11.3. -/
def Obligations.ResponsesReachTheirRequest : Prop :=
  ∀ (s s1 : State) (p : Port) (c : Carriage) (d : Cmd) (r : Remote) (x : Nat × Nat × Nat), s.coreOn = true →
    let staled (t : State) : Prop := t.rf .RTE_DROPS_STALE = min (s.rf .RTE_DROPS_STALE + 1) (2 ^ fwidth .RTE_DROPS_STALE - 1)
      ∧ t.net = s1.net ∧ Frame [.net] [(.RTE_DROPS_STALE, 0)] s t
    let goesOn (u : State) : State := (((u.remoteDone d.q d.id).freeReinStalls).pumpWaiting).pumpRemotes
    let answered (o n : Nat) : State := ((((s1.wrPieces (pieces (s1.bufFrags d.e 48) (rLocal d.e + o) n) (c.payload.take n)).giveCredit r.ep r.tenant 64 1).unowe
      r.ep r.tenant 64 x.1).queueTraffic d.q).setRemote d.q d.id { r with out := r.out.filter fun z => z.1 != x.1 }
    (s.safe = false → s.takeAccepted p c [3] = some s1 →
      (s1.requestOf c 0x41 = none → Does (.getRspReceive p c) s staled)
      ∧ (s1.requestOf c 0x41 = some (d, r, x) → exec (.getRspReceive p c) s = .next (s.keep (goesOn (answered x.2.1 x.2.2)))))
    ∧ (s.safe = false → s.takeAccepted p c [5] = some s1 →
      (s1.requestOf c 0x42 = none → Does (.atomRspReceive p c) s staled)
      ∧ (s1.requestOf c 0x42 = some (d, r, x) → exec (.atomRspReceive p c) s = .next (s.keep (goesOn (answered 0 8)))))
    ∧ (s.takeAccepted p c [8] = some s1 →
      (16 ≤ s.net.mgmtq.length → Does (.mgmtReqReceive p c) s fun t => t.net = s1.net ∧ Frame [.net] [] s t)
      ∧ (s.net.mgmtq.length < 16 → exec (.mgmtReqReceive p c) s =
          .next (s.keep (State.mgmtPump 16 { s1 with net := { s1.net with mgmtq := s.net.mgmtq ++ [c] } }))))
    ∧ (s.takeAccepted p c [9] = some s1 →
      (s.commitCmd true = none → Does (.mgmtRspReceive p c) s fun t => t.outbox = s.outbox ++ [.mgmtRsp (mData c)] ∧ t.net = s1.net
        ∧ Frame [.net, .outbox] [] s t)
      ∧ (s.commitCmd true = some d → mOff c = offCommit → mWrite c = true → cSrc c = s.rf .GRM_MIR_CFG_BUDDY_EP → cSeq c = d.id →
        (mData c % 256 = 0 ∨ mData c % 256 = 1 → Does (.mgmtRspReceive p c) s fun t => t.rf .GRM_MIR_OUTSTAT_LAST_OUTCOME = mData c % 256
          ∧ Completed s t (plainDone d.q d.id (eOp d.e) 0 0)
          ∧ Frame [.net, .qs] [(.GRM_MIR_OUTSTAT_LAST_OUTCOME, 0), (.GRM_MIR_OUTSTAT_COMMITS, 0)] s t)
        ∧ (mData c % 256 = 2 → exec (.mgmtRspReceive p c) s =
            .next (s.keep (((s1.setf .GRM_MIR_OUTSTAT_LAST_OUTCOME 0 2).finishCmd d 4).fault 45)))))
    ∧ (s.safe = true ∨ s.takeAccepted p c [3] = none → Does (.getRspReceive p c) s (Frame [] [] s))
    ∧ (s.safe = true ∨ s.takeAccepted p c [5] = none → Does (.atomRspReceive p c) s (Frame [] [] s))
    ∧ (s.takeAccepted p c [9] = none → Does (.mgmtRspReceive p c) s (Frame [] [] s))

/-- An accepted ARRIVE or RELEASE queues its rein credit. Where its team has no barrier object it is misuse of cause
6; an ARRIVE for a level that is no axis of the team is misuse of cause 6, one of the wrong sense misuse of cause 5,
and one of the node's sense arrives at the node of its level (the shared operation onArrive; where the node still
lacks arrivals, only its count and ABSENT change). A RELEASE is applied to the member's object and forwarded (the
shared operation onRelease). After either a held arrival is made, unless one still awaits its release. A carriage of the other phase changes nothing. Rests
on R252, R253, R261, 09_synchronisation.md, Table 9.4. -/
def Obligations.BarrierCarriagesMoveTheTree : Prop :=
  ∀ (s s1 : State) (p : Port) (c : Carriage) (a : Nat) (rest : List Nat), s.coreOn = true →
    let t := cTeam c
    let s2 := s1.reinFor c false
    let n := s.rf .SYN_BAR_OBJ t
    let nd := (s.bar t).node a
    let levels := (s.teamAxes t).dropWhile (· != bLevel c)
    (bPhase c = 0 → s.takeAccepted p c [7] = some s1 →
      (s.rf .SYN_BAR_VALID t = 0 → exec (.barrierArrive p c) s = .next (s.keep (s2.misuse 6 0 (cSrc c))))
      ∧ (s.rf .SYN_BAR_VALID t ≠ 0 → levels = [] → exec (.barrierArrive p c) s = .next (s.keep (s2.misuse 6 n (cSrc c))))
      ∧ (s.rf .SYN_BAR_VALID t ≠ 0 → levels = a :: rest →
        (nd.sense ≠ bSense c → exec (.barrierArrive p c) s = .next (s.keep (s2.misuse 5 n (cSrc c))))
        ∧ (nd.sense = bSense c → exec (.barrierArrive p c) s = .next (s.keep ((s2.onArrive t levels (bSense c) (bAbsent c)).heldArrive t)))
        ∧ (nd.sense = bSense c → (s.bar t).held = [] ∨ (s.bar t).out = true → nd.count < (spanChildren (axisVal (s.team t).ext a) (s.rank t a)).length → Does (.barrierArrive p c) s fun v =>
            (v.bar t).node a = { nd with count := nd.count + 1, absent := nd.absent || bAbsent c } ∧ v.net = s2.net ∧ Frame [.net, .sync] [] s v)))
    ∧ (bPhase c ≠ 0 → s.takeAccepted p c [7] = some s1 →
      (s.rf .SYN_BAR_VALID t = 0 → exec (.barrierRelease p c) s = .next (s.keep (s2.misuse 6 0 (cSrc c))))
      ∧ (s.rf .SYN_BAR_VALID t ≠ 0 → exec (.barrierRelease p c) s =
          .next (s.keep ((s2.onRelease t (bLevel c) (bSense c) (bAbsent c)).heldArrive t))))
    ∧ (bPhase c ≠ 0 → Does (.barrierArrive p c) s (Frame [] [] s))
    ∧ (bPhase c = 0 → Does (.barrierRelease p c) s (Frame [] [] s))

/-- An accepted FAR_WR or FAR_RDREQ whose range the link's far window refuses counts in REJECT and in TENANT, is answered
with a REIN marked BLOCKED (the shared operation refuse) and does nothing else; any other queues one depot write of its bytes, or one depot read for the neighbour. An accepted mirror carriage counts
in DISABLED, OVERSIZE or STALE_EPOCH by the first row of Table 11.2 that holds; otherwise its write of the target copy
is queued, and a copy not yet WRITING for that epoch first becomes WRITING with that epoch and BYTES 0. An accepted
FAR_RDRSP whose team runs no degraded instance is handed to the receive side of its link. A DATA carriage that its
team's running instance cannot take yet, or whose team's yard is in reset, stays; in degraded mode one it can take is
applied (the shared operation dataHere), and the last chip of its way returns its credit. Rests on R19, R24, R102, R169,
R170, R300, R302, R309, 11_slices_tenants_mirroring.md, Table 11.2. -/
def Obligations.FarMirrorAndDataCarriagesAreTaken : Prop :=
  ∀ (s s1 : State) (l : Link) (p : Port) (c : Carriage) (d : DataPlace) (i : Inst), s.coreOn = true →
    let a := offsetOf (gTarget c)
    let bs := (c.payload.drop 64).take (gLen c)
    let counted (f : Fld) (k : Nat) (t : State) : Prop := t.rf f k = min (s.rf f k + 1) (2 ^ fwidth f - 1) ∧ t.net = s1.net ∧ Frame [.net] [(f, k)] s t
    let queued (r : DepotReq) (t : State) : Prop := t.hitch = { s.hitch with dreqs := s.hitch.dreqs ++ [r] } ∧ t.net = s1.net
    let e := gOp1 c
    let k := s.mirTarget
    let m := s.copyBase k + gTarget c
    let write : DepotReq := { ch := s.channelOf m, wr := true, addr := m, data := bs, len := gLen c, use := .mirror k e (gLen c) }
    let fresh : Prop := s.rf .GRM_MIR_COPY_STATE k = 1 ∧ s.rf .GRM_MIR_COPY_EPOCH_EPOCH k = e
    let refused (x : Instr) : Prop := exec x s = .next (s.keep (s1.refuse l c)) ∧ Does x s fun t => Counted s .GRM_FARWIN_REJECT l t
      ∧ Counted s .RTE_DROPS_TENANT 0 t ∧ t.net.accepted = s1.net.accepted ∧ t.net.outq = s.net.outq
      ∧ Frame [.net] [(.GRM_FARWIN_REJECT, l), (.RTE_DROPS_TENANT, 0)] s t
    let inReset : Bool := s.rf .YRD_STATE_STATE (s.rf .TT_TEAM_YARD (cTeam c)) == 1
    (s.takeAccepted l c [10] = some s1 →
      (s.farBad l c true = true → refused (.farWrReceive l c))
      ∧ (s.farBad l c true = false → Does (.farWrReceive l c) s fun t =>
        queued { ch := s.channelOf a, wr := true, addr := a, data := bs, len := gLen c, use := .farWrite } t ∧ Frame [.net, .hitch] [] s t))
    ∧ (s.takeAccepted l c [11] = some s1 →
      (s.farBad l c false = true → refused (.farRdreqReceive l c))
      ∧ (s.farBad l c false = false → Does (.farRdreqReceive l c) s fun t =>
        queued { ch := s.channelOf a, wr := false, addr := a, data := [], len := gLen c, use := .farRead l c } t ∧ Frame [.net, .hitch] [] s t))
    ∧ (s.takeAccepted l c [12] = some s1 →
      (s.running (cTeam c) = none ∨ (s.running (cTeam c) = some i ∧ ¬ (i.degraded = true ∧ i.op = 0x49)) →
        exec (.farRdrspReceive l c) s = .next (s.keep (s1.farRsp l c)))
      ∧ (s.running (cTeam c) = some i → i.degraded = true → i.op = 0x49 → exec (.farRdrspReceive l c) s = .next (s.keep (s1.fetchHere i c))))
    ∧ (s.takeAccepted l c [13] = some s1 →
      (s.rf .GRM_MIR_CFG_IN_EN = 0 ∨ l.val ≠ s.mirIn → Does (.mirrorReceive l c) s (counted .GRM_MIR_IN_DROPS_DISABLED 0))
      ∧ (s.rf .GRM_MIR_CFG_IN_EN ≠ 0 → l.val = s.mirIn →
        (s.mirSize / 2 < gTarget c + gLen c → Does (.mirrorReceive l c) s (counted .GRM_MIR_IN_DROPS_OVERSIZE 0))
        ∧ (gTarget c + gLen c ≤ s.mirSize / 2 → s.mirStale e = true → Does (.mirrorReceive l c) s (counted .GRM_MIR_IN_DROPS_STALE_EPOCH 0))
        ∧ (gTarget c + gLen c ≤ s.mirSize / 2 → s.mirStale e = false →
          (s.rf .GRM_MIR_COPY_STATE k = 1 → e < s.rf .GRM_MIR_COPY_EPOCH_EPOCH k →
            Does (.mirrorReceive l c) s (counted .GRM_MIR_IN_DROPS_STALE_EPOCH 0))
          ∧ (fresh → Does (.mirrorReceive l c) s fun t => queued write t ∧ Frame [.net, .hitch] [] s t)
          ∧ (¬ fresh → ¬ (s.rf .GRM_MIR_COPY_STATE k = 1 ∧ e < s.rf .GRM_MIR_COPY_EPOCH_EPOCH k) → Does (.mirrorReceive l c) s fun t =>
            queued write t ∧ t.rf .GRM_MIR_COPY_STATE k = 1 ∧ t.rf .GRM_MIR_COPY_EPOCH_EPOCH k = e ∧ t.rf .GRM_MIR_COPY_BYTES k = 0
            ∧ Frame [.net, .hitch] [(.GRM_MIR_COPY_STATE, k), (.GRM_MIR_COPY_EPOCH_EPOCH, k), (.GRM_MIR_COPY_BYTES, k)] s t))))
    ∧ (s.running (cTeam c) = none → Does (.dataReceive p c d) s (Frame [] [] s))
    ∧ (s.running (cTeam c) = some i →
      (s.canTake i d = false ∨ inReset = true → Does (.dataReceive p c d) s (Frame [] [] s))
      ∧ (s.canTake i d = true → inReset = false → cClass c ≠ 0 → s.takeAccepted p c [0] = some s1 →
          exec (.dataReceive p c d) s = .next (s.keep ((if cDst c = s.self then s1.reinFor c false else s1).dataHere i d c)))
      ∧ (s.canTake i d = true → inReset = false → cClass c = 0 → i.degraded = false → d.kind = .flagsUp ∨ d.kind = .flagsDown → s.takeRx p c = some s1 →
          exec (.dataReceive p c d) s = .next (s.keep (s1.dataHere i d c))))

/-- SCHEDULED_CARRIAGE_SEND on a link that is not ACTIVE, or in the guard, or in the safe state, sends no carriage
(what the closing exchange and the REIN units do first is the shared operations closeAll and pumpReins). Otherwise,
with no exchange to close and no REIN waiting, the first queued scheduled carriage of the link that its sub-link may
take leaves the queue (a forwarded one with bad bits waits for its replay): after the units that wait for a slot it is
sent with the next LSN, RETRY 0 and its other header bytes and payload unchanged, it joins the retry buffer, and the
next LSN counts up modulo 2,048; with none, the oldest XMIT that may go is sent, and with none of these one of a team in
degraded mode that may start in unscheduled link time. UNSCHEDULED_CARRIAGE_GRANT grants the first priority carriage of
class 2 that may go and that the bubble rule lets go the same way, and with nothing that could go it changes nothing.
Rests on R20, R22, R23, R173, R180, R187, R192, R193, R214. -/
def Obligations.CarriagesLeaveUnderTheNextNumber : Prop :=
  ∀ (s : State) (l : Link) (o : OutCar) (p : Nat) (x : TagOp) (b : Blob), s.coreOn = true →
    let u := (s.closeAll.loseMirXmits).pumpReins l
    let free (t n : Nat) : Bool := u.subFree l t && u.retryRoom l t n
    let pick := u.net.outq.find? fun o => o.l == l.val && o.cls == 2 && !(o.adv && u.idBad o.key) && free (cTenant o.c) o.c.payload.length
    let last := u.net.outq.find? fun o => o.l == l.val && o.cls == 3 && free (cTenant o.c) o.c.payload.length
      && u.mayStart l (cTenant o.c) (u.carTime l (cTenant o.c) o.c.payload.length)
    let ready (x : Nat × TagOp) : Bool := match x.2.blob with
      | some b => free (u.yardTenant (rowOf x.1)) (u.xmitBody x.1 x.2 b).2.2.1.length && u.xmitOk x.1 x.2 b
      | none => false
    let sent (k : Nat) (t : State) : Prop :=
      let n := cTenant o.c
      let y := s.sub k n
      let c := setHop o.c y.next 0 (cDphase o.c) (cRev o.c) (cRdir o.c)
      (t.sub k n).next = (y.next + 1) % 2048 ∧ (∃ e : RetryEnt, e.lsn = y.next ∧ e.c = c ∧ e.retry = 0 ∧ (t.sub k n).retry = y.retry ++ [e])
        ∧ t.net.outq = s.net.outq.erase o
        ∧ (t.outbox.drop s.outbox.length).take ((waitingUnits s k n).length + 1) = waitingUnits s k n ++ [.carriage k n c]
        ∧ c.payload = o.c.payload ∧ c.trl = o.c.trl ∧ c.hdr.toNat % 2 ^ 104 = o.c.hdr.toNat % 2 ^ 104
        ∧ Frame [.net, .outbox, .yards, .teams, .qs, .groom] [(.DBG_TRACE_STAT_SENT, 0)] s t
    let go := s.net.outq.filter fun o => o.l == l.val && s.grantable o && s.bubble o
    ((u.live l = false ∨ u.safe = true ∨ u.inGuard = true) → exec (.scheduledCarriageSend l) s = .next (s.keep u))
    ∧ (u.live l = true → u.safe = false → u.inGuard = false →
      (pick = some o → exec (.scheduledCarriageSend l) s = .next (s.keep (u.sendFwd o)))
      ∧ (pick = some o → u = s → o.adv = false → Does (.scheduledCarriageSend l) s (sent l))
      ∧ (pick = none → oldest ((u.xmits l).filter ready) = some (p, x) → x.blob = some b →
          exec (.scheduledCarriageSend l) s = .next (s.keep (u.sendXmit p x b)))
      ∧ (pick = none → oldest ((u.xmits l).filter ready) = none → last = some o → exec (.scheduledCarriageSend l) s = .next (s.keep (u.sendFwd o)))
      ∧ (pick = none → oldest ((u.xmits l).filter ready) = none → last = none → exec (.scheduledCarriageSend l) s = .next (s.keep u)))
    ∧ (s.net.reinq = [] → s.net.reinWait = [] →
      (go = [] → Does (.unscheduledCarriageGrant l) s (Frame [] [] s))
      ∧ (go.find? (fun o => cClass o.c == 2) = some o → Does (.unscheduledCarriageGrant l) s (sent l)))

/-- A carriage on a link that is not ACTIVE, for a tenant without lanes there, or whose HCHK does not match changes
nothing. An unscheduled one with the expected LSN waits for its verdict, the expected LSN counts up, and its LSN has
no outcome yet; where one LSN was skipped a NAK with reason 0 is sent for it and counted, and both lack an outcome.
CRC_VERDICT with none due changes nothing. A due unscheduled carriage whose length or CRC is wrong is dropped with a
NAK of its LSN (reason 1 for a wrong length) and counted, or, with RETRY 3, counted as lost, latches CARRIAGE_LOST and
its LSN has its outcome; a right one has its outcome and is routed (the shared operation routeOn). A right scheduled
one has its outcome and its copies are taken (schedGood). The NAKs leave at once where no scheduled carriage is being
sent. Rests on R173, R178, R187, R189, R190, R194, R214. -/
def Obligations.CarriagesArriveInOrderAndAreJudged : Prop :=
  ∀ (s : State) (l : Link) (c : Carriage) (a : Arriving), s.coreOn = true →
    let n := cLsn c
    let t := cTenant c
    let x := s.sub l t
    let lives := s.live l = true ∧ s.subGroups l t ≠ [] ∧ cHchk c = hchk (c.hdr.toNat % 2 ^ 120)
    let taken (u : State) (miss : List Nat) : Prop :=
      u.sub l t = { x with expect := (n + 1) % 2048, missing := x.missing ++ miss, dirty := true }
        ∧ u.net.arriving = s.net.arriving ++ [{ id := s.net.nextId, l := l, t := t, c := c, at_ := s.now }]
        ∧ u.net = { s.net with subs := u.net.subs, arriving := u.net.arriving, nextId := s.net.nextId + 1 }
    let m := cLsn a.c
    let rest := s.net.arriving.filter fun x => x.id != a.id
    let s1 : State := { s with net := { s.net with arriving := rest } }
    let wrong : Prop := lenOk a.c = false ∨ crcGood a.c = false
    (¬ lives → Does (.carriageArrive l c) s (Frame [] [] s))
    ∧ (lives → cClass c ≠ 0 → n = x.expect → Does (.carriageArrive l c) s fun u => taken u [n] ∧ Frame [.net, .yards, .teams] [] s u)
    ∧ (lives → SlotsFree s l t → cClass c ≠ 0 → x.expect < 2048 → n = (x.expect + 1) % 2048 → Does (.carriageArrive l c) s fun u => taken u [x.expect, n]
        ∧ u.outbox = s.outbox ++ [.slot l t (mkSlot kNak (fieldsOf [(0, x.expect), (2, 0)]))] ∧ Counted s .RTE_RETRY_NAKS l u
        ∧ Frame [.net, .yards, .teams, .outbox] [(.RTE_RETRY_NAKS, l)] s u)
    ∧ (s.net.arriving.find? (fun a => a.l == l.val && decide (a.at_ + 30 ≤ s.now)) = none → Does (.crcVerdict l) s (Frame [] [] s))
    ∧ (s.net.arriving.find? (fun a => a.l == l.val && decide (a.at_ + 30 ≤ s.now)) = some a → a.recalled = false → a.late = false →
      (wrong → SlotsFree s l a.t → cClass a.c ≠ 0 → cRetry a.c ≠ 3 → Does (.crcVerdict l) s fun u =>
        u.outbox = s.outbox ++ [.slot l a.t (mkSlot kNak (fieldsOf [(0, m), (2, if lenOk a.c then 0 else 1)]))] ∧ Counted s .RTE_RETRY_NAKS l u
        ∧ u.net = { s.net with arriving := rest } ∧ Frame [.net, .outbox] [(.RTE_RETRY_NAKS, l)] s u)
      ∧ (wrong → cClass a.c ≠ 0 → cRetry a.c = 3 → exec (.crcVerdict l) s =
          .next (s.keep (((s1.sat .RTE_RETRY_LOST l).fault 16 (s1.carOrigin l a.c)).outcome l a.t m)))
      ∧ (¬ wrong → cClass a.c ≠ 0 → exec (.crcVerdict l) s = .next (s.keep ((s1.outcome l a.t m).routeOn a)))
      ∧ (¬ wrong → cClass a.c = 0 → exec (.crcVerdict l) s = .next (s.keep ((s1.outcome l a.t m).schedGood a))))

/-- ACK_UPSTREAM_SEND on an ACTIVE link with something unacknowledged, outside the safe state, sends an ACK of the
highest LSN up to which all have an outcome, with the free buffers, and notes it; while a scheduled carriage is being
sent and 48 slots for each of the sub-link's groups have gone in this segment, it waits. A good upstream ACK removes the
carriages up to its LSN from the retry buffer and takes the buffer counts (the shared operation ackedUp also counts
mirror bytes and parts of a degraded OFFLOAD). A good downstream ACK for a carriage not yet ended, or whose bits are bad
and come again, is held once, one for a contributor not open changes nothing, one for an open contributor confirms it. The
second copy of a downstream ACK leaves when it is due. A good NAK, or the end of 2 us without ACK and NAK, schedules
the replay of a carriage in the retry buffer and else changes nothing. REPLAY_SEND sends the oldest scheduled replay
under its LSN with RETRY one higher, at most 3, and counts it; in the guard it sends nothing. A RECALL is counted; one in the EOC position marks the
carriage that ends now, one by name undoes its arrival. A unit whose check fails is a bad unit; on a link not ACTIVE
nothing happens. Rests on R50, R187, R188, R189, R190, R191, R193, R210, R211, R214. -/
def Obligations.AcknowledgementsAndReplaysFollowTheNumbers : Prop :=
  ∀ (s : State) (l : Link) (t : Tenant) (v : Slot) (lsn : BitVec 11) (n j at_ : Nat) (rest : List (Nat × Nat × Nat)) (e : RetryEnt) (w : Vec) (a : Arriving),
    s.coreOn = true →
    let x := s.sub l t
    let live := s.live l = true
    let bad (c : Instr) : Prop := exec c s = .next (s.keep (s.badUnit l))
    let gone (e : RetryEnt) : Bool := lsnLe e.lsn (slotAt v 2 2 % 2048) && !(e.again && e.replay)
    let dn := slotAt v 2 2 % 2048
    let dj := slotAt v 4 1
    let nl := slotAt v 1 2 % 2048
    let find := s.net.vecs.find? fun w => w.l == l.val && w.t == t.val && w.lsn == dn
    let marked (k : Nat) (u : State) : Prop :=
      SubIs s l t { x with retry := updWhere (fun e => e.lsn == k) (fun e => { e with replay := true }) x.retry } u ∧ Frame [.net] [] s u
    let r := if e.again then e.retry else min 3 (e.retry + 1)
    let c := setHop e.c e.lsn r (cDphase e.c) (cRev e.c) (cRdir e.c)
    let acked : SubLink := { x with lastAck := x.ackLsn, ackAt := s.now, dirty := !x.missing.isEmpty }
    let ack : Slot := mkSlot kAck (fieldsOf [(0, 0), (1, x.ackLsn), (3, s.freeBufs l t 0 + 8 * s.freeBufs l t 1)])
    let twice (z : Nat × Nat × Nat × Nat) : List (Nat × Nat × Nat × Nat) := if s.net.heldAcks.contains z then s.net.heldAcks else s.net.heldAcks ++ [z]
    let idle : Prop := ∀ i ∈ s.insts, ¬ (i.degraded = true ∧ (i.op = 0x48 ∨ i.op = 0x49))
    (live → x.dirty = true → s.safe = false → s.net.reinq = [] → s.net.reinWait = [] →
      (SlotsFree s l t → Does (.ackUpstreamSend l t) s fun u => SubIs s l t acked u ∧ u.outbox = s.outbox ++ [.slot l t ack] ∧ Frame [.net, .outbox] [] s u)
      ∧ (s.sendsSched l t = true → 48 * (s.subGroups l t).length ≤ s.slotsUsed l t → Does (.ackUpstreamSend l t) s fun u =>
          u.sub l t = acked ∧ u.net = { s.net with subs := u.net.subs, unitq := s.net.unitq ++ [(l.val, t.val, ack)] } ∧ Frame [.net] [] s u))
    ∧ (¬ live ∨ x.dirty = false ∨ s.safe = true → Does (.ackUpstreamSend l t) s (Frame [] [] s))
    ∧ (¬ live → Does (.ackUpstreamReceive l t v) s (Frame [] [] s) ∧ Does (.ackDownstreamReceive l t v) s (Frame [] [] s)
        ∧ Does (.nakReceive l t v) s (Frame [] [] s))
    ∧ (live → unitOk kAck v = false → bad (.ackUpstreamReceive l t v) ∧ bad (.ackDownstreamReceive l t v))
    ∧ (live → unitOk kNak v = false → bad (.nakReceive l t v))
    ∧ (live → unitOk kAck v = true → slotAt v 1 1 = 0 →
        exec (.ackUpstreamReceive l t v) s = .next (s.keep (s.ackedUp l t dn (slotAt v 4 1 % 8) (slotAt v 4 1 / 8 % 4))))
    ∧ (live → unitOk kAck v = true → slotAt v 1 1 = 0 → x.retry.all (fun e => e.mirror == 0) = true → idle → Does (.ackUpstreamReceive l t v) s fun u =>
        SubIs s l t { x with retry := x.retry.filter fun e => !gone e, free0 := slotAt v 4 1 % 8, free1 := slotAt v 4 1 / 8 % 4 } u ∧ Frame [.net] [] s u)
    ∧ (live → unitOk kAck v = true → slotAt v 1 1 = 1 →
      (find = none → ((dn + 2048 - x.expect) % 2048 < 1024 ∨ x.missing.contains dn = true) → Does (.ackDownstreamReceive l t v) s fun u =>
        u.net = { s.net with heldAcks := twice (l.val, t.val, dn, dj) } ∧ Frame [.net] [] s u)
      ∧ (find = some w → s.idBad w.id = true → Does (.ackDownstreamReceive l t v) s fun u =>
        u.net = { s.net with heldAcks := twice (l.val, t.val, dn, dj) } ∧ Frame [.net] [] s u)
      ∧ (find = some w → s.idBad w.id = false → w.missing.contains dj = false → Does (.ackDownstreamReceive l t v) s (Frame [] [] s))
      ∧ (find = some w → s.idBad w.id = false → w.missing.contains dj = true → ∃ u, exec (.ackDownstreamReceive l t v) s = .next (s.keep ((u.ackPass w.id dj).checkVec w.id))
        ∧ u.net.vecs = updWhere (fun z => z.id == w.id) (fun z => { z with missing := z.missing.filter fun k => k != dj }) s.net.vecs ∧ Frame [.net] [] s u))
    ∧ (live → s.safe = false → SlotsFree s l t → x.repeats = (n, j, at_) :: rest → at_ ≤ s.now → Does (.ackDownstreamRepeat l t) s fun u =>
        SubIs s l t { x with repeats := rest } u ∧ u.outbox = s.outbox ++ [.slot l t (mkSlot kAck (fieldsOf [(0, 1), (1, n), (3, j)]))]
        ∧ Frame [.net, .outbox] [] s u)
    ∧ (live → unitOk kNak v = true → x.retry.any (fun e => e.lsn == nl) = true → Does (.nakReceive l t v) s (marked nl))
    ∧ (live → unitOk kNak v = true → x.retry.any (fun e => e.lsn == nl) = false → Does (.nakReceive l t v) s (Frame [] [] s))
    ∧ (x.retry.any (fun e => e.lsn == lsn.toNat && decide (e.t + 2000 ≤ s.now)) = true → Does (.replayTimeout l t lsn) s (marked lsn.toNat))
    ∧ (x.retry.any (fun e => e.lsn == lsn.toNat && decide (e.t + 2000 ≤ s.now)) = false → Does (.replayTimeout l t lsn) s (Frame [] [] s))
    ∧ (s.inGuard = true → Does (.replaySend l t) s (Frame [] [] s))
    ∧ (s.subFree l t = true → s.inGuard = false → x.retry.find? (fun e => e.replay) = some e → Does (.replaySend l t) s fun u =>
        (∃ tm, (u.sub l t).retry = updWhere (fun y => y.lsn == e.lsn) (fun _ => { e with c := c, retry := r, replay := false, again := false, t := tm }) x.retry)
        ∧ (u.sub l t).next = x.next ∧ (u.outbox.drop s.outbox.length).head? = some (.carriage l t c) ∧ r ≤ max 3 e.retry
        ∧ (e.again = false → Counted s .RTE_RETRY_REPLAYS l u) ∧ Frame [.net, .outbox] [(.RTE_RETRY_REPLAYS, l), (.DBG_TRACE_STAT_SENT, 0)] s u)
    ∧ (live → s.subGroups l t ≠ [] →
      (s.net.arriving.reverse.find? (fun a => a.l == l.val && a.t == t.val && a.at_ == s.now && !a.recalled) = some a →
        Does (.recallReceive l t none) s fun u => Counted s .RTE_RECALL_RECEIVED 0 u
          ∧ u.net = { s.net with arriving := updWhere (fun x => x.id == a.id) (fun x => { x with recalled := true }) s.net.arriving }
          ∧ Frame [.net] [(.RTE_RECALL_RECEIVED, 0)] s u)
      ∧ (unitOk kRecall v = true → s.net.vecs.find? (fun w => w.l == l.val && w.t == t.val && w.lsn == nl) = none →
        Does (.recallReceive l t (some v)) s fun u => Counted s .RTE_RECALL_RECEIVED 0 u ∧ Frame [] [(.RTE_RECALL_RECEIVED, 0)] s u)
      ∧ (unitOk kRecall v = false → bad (.recallReceive l t (some v))))

/-- On an ACTIVE link a good REIN for this chip of a window generation not held counts in STALE, one of a held window
returns its credits and lets what waited go on, one for another chip is queued and the REIN units for every link leave;
one marked BLOCKED that no window explains marks the running far transfer that it answers as refused (the model's
reading, log entry 91). A good team HALT seen within the last millisecond is noted again and applied; a new one is first sent on every
other live link. A good link HALT of reason 5 takes the link, from ACTIVE or a step, to REAIM, of reason 6 attributes
losses until the link is enabled, of reason 3 or 4 for 100 ms; ATTRIBUTION_PERIOD_END ends that once it is over. A bad
unit is counted and latched; on a link not ACTIVE nothing happens. A MARK that is due on a sub-link of an ACTIVE link, or
in ALIGN, is sent and counted; a received MARK on no lane that the sub-link uses changes nothing; one on some of them notes their
skews behind the latest and marks the lanes that miss it, where none misses a second in a row.
Rests on R170, R185, R201, R210, R213, R227, R231, R232, R296, R326, R327, 08_optical_lanes.md, Table 8.7. -/
def Obligations.ReinsHaltsAndMarksAreTaken : Prop :=
  ∀ (s : State) (l : Link) (t : Tenant) (v : Slot) (w : Win) (lanes : BitVec 64) (sk : List (BitVec 6)), s.coreOn = true →
    let live := s.live l = true
    let x := s.link l
    let r := reinOf v
    let reason := slotAt v 3 1
    let ht := slotAt v 1 1
    let hg := slotAt v 2 1
    let he := slotAt v 4 2
    let applied (u : State) : Prop := exec (.haltReceive l v) s = .next (s.keep ((u.noteHalt ht hg he).applyHalt ht hg reason he))
    let used := (List.range 64).filter fun k => (s.subGroups l t).contains (k / 16)
    let here := used.filter fun k => bitAt lanes.toNat k
    let missed := used.filter fun k => !bitAt lanes.toNat k
    let others := (List.range 64).filter fun k => bitAt x.markMiss k && !used.contains k
    let skew (k : Nat) : Nat := (sk.map BitVec.toNat).getD k 0
    let top := greatest (here.map skew)
    let far : Bool := r.blocked && !(s.net.wins.any fun w => w.ep == r.src && w.tenant == r.tenant && w.gen == r.gen && !w.owed.isEmpty)
      && s.insts.any (s.farBlocked r)
    let lives := live ∨ s.linkSt l = 7
    (¬ live → Does (.reinReceive l v) s (Frame [] [] s) ∧ Does (.haltReceive l v) s (Frame [] [] s) ∧ Does (.markReceive l lanes sk t) s (Frame [] [] s))
    ∧ (¬ lives → Does (.linkHaltReceive l v) s (Frame [] [] s))
    ∧ (live → unitOk kRein v = true → r.dst = s.self → far = true → Does (.reinReceive l v) s fun u =>
        u.insts = updWhere (s.farBlocked r) (fun i => { i with blocked := true }) s.insts ∧ Frame [.insts] [] s u)
    ∧ (live → unitOk kRein v = false → exec (.reinReceive l v) s = .next (s.keep (s.badUnit l)))
    ∧ (live → unitOk kRein v = true → r.dst = s.self → far = false → s.net.wins.find? (fun w => w.ep == r.src && w.tenant == r.tenant && w.gen == r.gen) = none →
        Does (.reinReceive l v) s fun u => Counted s .RTE_DROPS_STALE 0 u ∧ Frame [] [(.RTE_DROPS_STALE, 0)] s u)
    ∧ (live → unitOk kRein v = true → r.dst = s.self → far = false →
        s.net.wins.find? (fun w => w.ep == r.src && w.tenant == r.tenant && w.gen == r.gen) = some w → w.quarEnd ≤ s.now → exec (.reinReceive l v) s =
          .next (s.keep ((((s.reinMany w.ep w.tenant w.team r.blocked r.credits).freeReinStalls).pumpWaiting).pumpRemotes)))
    ∧ (live → unitOk kRein v = true → r.dst ≠ s.self → exec (.reinReceive l v) s =
        .next (s.keep (nat6.foldl (fun (s : State) k => s.pumpReins k) (s.sendRein r))))
    ∧ (live → ht ≠ 0xFF → haltOk v = true → reason ∈ [1, 2, 3, 4, 7] →
      (s.haltSeen ht hg he = true → applied s) ∧ (s.haltSeen ht hg he = false → applied (s.haltAll l ht hg reason he)))
    ∧ (live → ht ≠ 0xFF → ¬ (haltOk v = true ∧ reason ∈ [1, 2, 3, 4, 7]) → exec (.haltReceive l v) s = .next (s.keep (s.badUnit l)))
    ∧ (lives → ht = 0xFF → ¬ (haltOk v = true ∧ reason ∈ [3, 4, 5, 6]) → exec (.linkHaltReceive l v) s = .next (s.keep (s.badUnit l)))
    ∧ (lives → ht = 0xFF → haltOk v = true →
      (reason = 5 → exec (.linkHaltReceive l v) s = .next (s.keep (s.leave l 10)))
      ∧ (reason = 6 → Does (.linkHaltReceive l v) s fun u => LinkIs s l { x with attribHold := true } u ∧ Frame [.links] [] s u)
      ∧ (reason = 3 ∨ reason = 4 → Does (.linkHaltReceive l v) s fun u => LinkIs s l { x with attrib := s.now + 100000000 } u ∧ Frame [.links] [] s u))
    ∧ (x.attrib ≠ 0 → x.attrib ≤ s.now → Does (.attributionPeriodEnd l) s fun u => LinkIs s l { x with attrib := 0 } u ∧ Frame [.links] [] s u)
    ∧ (s.now < x.attrib → Does (.attributionPeriodEnd l) s (Frame [] [] s))
    ∧ (live → s.subGroups l t ≠ [] → s.markDue l t = true → s.safe = false → Does (.markSend l t) s fun u =>
        SubIs s l t { s.sub l t with marks := (s.sub l t).marks + 1 } u ∧ u.outbox = s.outbox ++ [.mark l t] ∧ Frame [.net, .outbox] [] s u)
    ∧ (s.live l = false → s.inAlign l = true → s.alignMarkDue l t = true → s.safe = false → Does (.markSend l t) s fun u =>
        SubIs s l t { s.sub l t with marks := (s.sub l t).marks + 1 } u ∧ u.outbox = s.outbox ++ [.mark l t] ∧ Frame [.net, .outbox] [] s u)
    ∧ (live → here = [] → Does (.markReceive l lanes sk t) s (Frame [] [] s))
    ∧ (live → here ≠ [] → missed.any (bitAt x.markMiss) = false → Does (.markReceive l lanes sk t) s fun u =>
        LinkIs s l { x with markMiss := (others ++ missed).foldl (fun m k => m + 2 ^ k) 0 } u
        ∧ (∀ k ∈ here, u.rf .LNK_LANE_SKEW (64 * l + k) = (top - skew k) % 2 ^ fwidth .LNK_LANE_SKEW)
        ∧ Frame [.links] (here.map fun k => (.LNK_LANE_SKEW, 64 * l + k)) s u)

/-- Outside LOCK and ALIGN a LANE_LOCK changes nothing; inside it marks the lanes of groups with light as locked, and
in LOCK with every lane of a candidate group locked the link goes to ALIGN with its MARKs counted anew. ALIGN_COMPLETE
outside ALIGN, or with no group within 64 symbols, changes nothing; otherwise the link keeps the best set of groups
and goes to ROUNDTRIP, or in a step to PRBS. RT_REQ_SEND sends one of at most sixteen requests, 1 us apart, with the
time and its number; a good RT_REQ is answered with the hold time and that number. A good RT_RSP to another request
than the last one open changes nothing; the sixteen samples are summed, and the last one makes the delay valid as half
their mean (a multiple of 1/64 ns exactly; otherwise which neighbour is the free value of log entry 5), the link going
on to CAPS at a bring-up. A bad unit is counted and latched. Rests on R37, R210, R213, R362, 08_optical_lanes.md,
Table 8.6. -/
def Obligations.TrainingLocksAlignsAndMeasures : Prop :=
  ∀ (s : State) (l : Link) (lanes : BitVec 64) (sk : List (BitVec 8)) (v : Slot) (hold : BitVec 32) (sub : Fin 512), s.coreOn = true →
    let x := s.link l
    let m := x.locked ||| s.lockable l lanes.toNat
    let locks := (List.range 64).map fun k => (Fld.LNK_LANE_LOCK, 64 * l.val + k)
    let skews := (List.range 64).map fun k => (Fld.LNK_LANE_SKEW, 64 * l.val + k)
    let g := bestGroups (sk.map BitVec.toNat) (fullGroups x.locked x.keep)
    let trip := s.t64 + sub.val - x.rtAt * 64 - slotAt v 2 4
    let y : LinkRec := { x with keep := g, rtAsked := 0, rtGot := 0, rtSum := 0, resultOwn := none, resultPeer := none, prbsT := 0, t := s.now }
    let st (k : Nat) (t : State) : Prop := t.linkSt l = k ∧ Frame [.links, .outbox] (skews ++ [(Fld.LNK_STATE_STATE, l.val), (Fld.DBG_TRACE_STAT_SENT, 0)]) s t
    let last : Prop := slotAt v 6 1 + 1 = x.rtAsked ∧ x.rtGot < x.rtAsked
    (s.inLock l = false → s.inAlign l = false → Does (.laneLock l lanes) s (Frame [] [] s))
    ∧ (s.inLock l = true ∨ s.inAlign l = true → ¬ (s.inLock l = true ∧ fullGroups m x.keep ≠ 0) → Does (.laneLock l lanes) s fun t =>
        LinkIs s l { x with locked := m } t ∧ (∀ k, k < 64 → bitAt m k = true → t.rf .LNK_LANE_LOCK (64 * l + k) = 1) ∧ Frame [.links] locks s t)
    ∧ (s.linkSt l = 2 → fullGroups m x.keep ≠ 0 → Does (.laneLock l lanes) s fun t =>
        t.linkSt l = 3 ∧ LinkIs s l { x with locked := m, t := s.now } t ∧ (∀ k, k < 4 → (t.sub l k).marks = 0)
        ∧ (∀ k, k < 64 → bitAt m k = true → t.rf .LNK_LANE_LOCK (64 * l + k) = 1)
        ∧ Frame [.links, .net, .outbox] (locks ++ [(Fld.LNK_STATE_STATE, l.val), (Fld.DBG_TRACE_STAT_SENT, 0)]) s t)
    ∧ (s.inAlign l = false ∨ g = 0 → Does (.alignComplete l sk) s (Frame [] [] s))
    ∧ (s.linkSt l = 3 → g ≠ 0 → x.step = false → Does (.alignComplete l sk) s fun t => LinkIs s l y t ∧ st 4 t)
    ∧ (s.linkSt l = 3 → g ≠ 0 → x.step = true → Does (.alignComplete l sk) s fun t => LinkIs s l y t ∧ st 8 t)
    ∧ (s.inTrip l = true → x.rtAsked < 16 → (x.rtAsked = 0 ∨ x.rtAt + 1000 ≤ s.now) → s.safe = false → Does (.rtReqSend l) s fun t =>
        LinkIs s l { x with rtAsked := x.rtAsked + 1, rtAt := s.now } t
        ∧ t.outbox = s.outbox ++ [.train l 1 (mkSlot kComma (1 + 256 * (s.now % 2 ^ 64 + x.rtAsked * 2 ^ 64)))] ∧ Frame [.links, .outbox] [] s t)
    ∧ (s.inTrip l = false ∨ 16 ≤ x.rtAsked ∨ s.safe = true → Does (.rtReqSend l) s (Frame [] [] s))
    ∧ (s.inTrip l = true → s.safe = false → trainOk 1 v = true → Does (.rtReqReceive l v hold) s fun t =>
        t.outbox = s.outbox ++ [.train l 2 (mkSlot kComma (2 + 256 * (hold.toNat + slotAt v 10 1 * 2 ^ 32)))] ∧ Frame [.outbox] [] s t)
    ∧ (s.inTrip l = true → s.safe = false → trainOk 1 v = false → exec (.rtReqReceive l v hold) s = .next (s.keep (s.badUnit l)))
    ∧ (s.inTrip l = true → trainOk 2 v = false → exec (.rtRspReceive l v sub) s = .next (s.keep (s.badUnit l)))
    ∧ (s.inTrip l = true → trainOk 2 v = true →
      (¬ last → Does (.rtRspReceive l v sub) s (Frame [] [] s))
      ∧ (last → x.rtGot + 1 ≠ 16 → Does (.rtRspReceive l v sub) s fun t =>
        LinkIs s l { x with rtGot := x.rtGot + 1, rtSum := x.rtSum + trip } t ∧ Frame [.links] [] s t)
      ∧ (last → x.rtGot + 1 = 16 → s.linkSt l = 4 → x.step = false → (x.rtSum + trip) % 32 = 0 → Does (.rtRspReceive l v sub) s fun t =>
        t.linkSt l = 5 ∧ t.rf .SYN_LINK_DELAY_VALID l = 1 ∧ t.rf .SYN_LINK_DELAY_DELAY l = (x.rtSum + trip) / 32 % 2 ^ fwidth .SYN_LINK_DELAY_DELAY
        ∧ LinkIs s l { x with rtGot := 16, rtSum := x.rtSum + trip, caps := 0, capMask := 0, capMax := 3, t := s.now } t
        ∧ Frame [.links, .outbox, .fresh] [(.LNK_STATE_STATE, l), (.SYN_LINK_DELAY_VALID, l), (.SYN_LINK_DELAY_DELAY, l), (.DBG_TRACE_STAT_SENT, 0)] s t))

/-- CAP_SEND in CAPS, at the start or 10 us after the last column, sends one CAP for each kept group; where no CAP of
the peer came it only notes that, else the CAPs are settled (log entry 34). A good CAP on a group not kept changes
nothing, one on the wrong group fails it with cause 5, one before any own column is noted. STEP_START on an ACTIVE
leader below its cap, 1 ms after it became ACTIVE, asks for the next rung; it changes nothing elsewhere. A good
STEP_REQ of a rung that is neither one up within the cap nor one down is refused by a STEP_ACK and changes nothing
else; an acceptable one in ACTIVE is accepted, the link in STEP, its rung changing 1 us later; so is one to lower the
rung at an end that has itself asked, while one to raise it is refused there. A good STEP_ACK of the
rung asked sets that instant or, refusing, returns the link to ACTIVE. RUNG_CHANGE when it is due retrains quickly at
a lower rung with the cap set, or enters LOCK at a higher one; before that it changes nothing. Rests on R210, R216,
R225, R228, 08_optical_lanes.md, Table 8.6. -/
def Obligations.CapsAndStepsSettleTheRung : Prop :=
  ∀ (s : State) (l : Link) (g : Group) (v : Slot) (at_ : Nat), s.coreOn = true →
    let x := s.link l
    let r := s.rf .LNK_RUNG_RUNG l
    let rung := slotAt v 2 1
    let mask := slotAt v 3 1
    let down := rung + 1 = r
    let up := rung = r + 1 ∧ rung ≤ s.rf .LNK_RUNG_CAP l
    let ack (ok : Nat) : OutEv := .train l 5 (mkSlot kComma (5 + 256 * (rung + 256 * mask + 65536 * ok)))
    let capTime : Prop := s.linkSt l = 5 ∧ (x.caps = 0 ∨ x.capAt + 10000 ≤ s.now) ∧ s.safe = false
    let groups := s.rf .LNK_RUNG_GROUPS l
    (capTime → x.caps = 0 ∨ x.keep &&& x.capMask = 0 → Does (.capSend l) s fun t =>
        LinkIs s l { x with caps := x.caps + 1, capAt := s.now } t
        ∧ t.outbox.length = s.outbox.length + (nat4.filter (bitAt x.keep)).length ∧ Frame [.links, .outbox] [] s t)
    ∧ (capTime → x.caps ≠ 0 → x.keep &&& x.capMask ≠ 0 → exec (.capSend l) s = .next (s.keep ((s.capColumn l).capsDone l (x.keep &&& x.capMask))))
    ∧ (¬ capTime → Does (.capSend l) s (Frame [] [] s))
    ∧ (s.linkSt l ≠ 5 → Does (.capReceive l g v) s (Frame [] [] s))
    ∧ (s.linkSt l = 5 → trainOk 3 v = false → exec (.capReceive l g v) s = .next (s.keep (s.badUnit l)))
    ∧ (s.linkSt l = 5 → trainOk 3 v = true →
      (bitAt x.keep g = false → Does (.capReceive l g v) s (Frame [] [] s))
      ∧ (bitAt x.keep g = true → rung ≠ g.val → exec (.capReceive l g v) s = .next (s.keep ((s.setf .LNK_STATE_LAST_FAIL l 5).dropGroup l g 5)))
      ∧ (bitAt x.keep g = true → rung = g.val → x.caps = 0 → Does (.capReceive l g v) s fun t =>
        LinkIs s l { x with capMask := if bitAt x.capMask g then x.capMask else x.capMask + 2 ^ g.val, capMax := mask % 4, ffe := slotAt v 4 1 % 8 } t
        ∧ Frame [.links] [] s t))
    ∧ (l.val % 2 = 0 → s.live l = true → r < s.rf .LNK_RUNG_CAP l → x.active + 1000000 ≤ s.now → s.safe = false →
        exec (.stepStart l) s = .next (s.keep (s.askStep l (r + 1))))
    ∧ (l.val % 2 = 1 ∨ s.live l = false ∨ s.rf .LNK_RUNG_CAP l ≤ r ∨ s.now < x.active + 1000000 ∨ s.safe = true → Does (.stepStart l) s (Frame [] [] s))
    ∧ (s.live l = true → s.safe = false → trainOk 4 v = false → exec (.stepReqReceive l v) s = .next (s.keep (s.badUnit l)))
    ∧ (s.live l = true → s.safe = false → trainOk 4 v = true →
      (¬ (down ∨ up) → Does (.stepReqReceive l v) s fun t => t.outbox = s.outbox ++ [ack 0] ∧ Frame [.outbox] [] s t)
      ∧ (down ∨ up → exec (.stepReqReceive l v) s = .next (s.keep
          (((s.emit (ack 1)).leave l 7).updLink l fun x => { x with target := rung, asked := false, stepAt := some (s.now + 1000) }))))
    ∧ (s.linkSt l = 7 → s.safe = false → x.asked = true → x.stepAt = none → trainOk 4 v = true →
      (down → Does (.stepReqReceive l v) s fun t => LinkIs s l { x with target := rung, asked := false, stepAt := some (s.now + 1000) } t
        ∧ t.outbox = s.outbox ++ [ack 1] ∧ Frame [.links, .outbox] [] s t)
      ∧ (¬ down → Does (.stepReqReceive l v) s fun t => t.outbox = s.outbox ++ [ack 0] ∧ Frame [.outbox] [] s t))
    ∧ (s.linkSt l = 7 → x.asked = true → x.stepAt = none → trainOk 5 v = true →
      (rung ≠ x.target → Does (.stepAckReceive l v) s (Frame [] [] s))
      ∧ (rung = x.target → slotAt v 4 1 = 1 → Does (.stepAckReceive l v) s fun t =>
        LinkIs s l { x with stepAt := some (s.now + 1000) } t ∧ Frame [.links] [] s t)
      ∧ (rung = x.target → slotAt v 4 1 ≠ 1 → exec (.stepAckReceive l v) s = .next (s.keep (s.toActive l))))
    ∧ (s.linkSt l ≠ 7 → Does (.stepAckReceive l v) s (Frame [] [] s) ∧ Does (.rungChange l) s (Frame [] [] s))
    ∧ (s.linkSt l = 7 → x.stepAt = some at_ → at_ ≤ s.now →
      (x.target < r → exec (.rungChange l) s = .next (s.keep
          (((s.setf .LNK_RUNG_CAP l x.target).updLink l fun y => { y with lowCap := x.target }).quick l x.target groups 10)))
      ∧ (r ≤ x.target → exec (.rungChange l) s = .next (s.keep
          (((s.toLock l x.target groups true).setfs [(.SYN_LINK_DELAY_VALID, l, 0), (.SYN_LINK_OFFSET_VALID, l, 0)]).updLink l fun y =>
            { y with prevRung := r, prevGroups := groups, stepAt := none, asked := false }))))
    ∧ (x.stepAt = some at_ → s.now < at_ → Does (.rungChange l) s (Frame [] [] s))

/-- PRBS_END in PRBS, after the period of the target rung, sends the groups without an erring lane as RESULT and notes
them; with the peer's RESULT there the rung is chosen (the shared operation choose). A good RESULT of the target rung
is noted, and chooses where the own one is there. In PRBS and in test mode with a pattern, received bits go through the
lane's checker, which shows SYNC after 64 bits without error; a bit that is not the predicted one then counts in test
mode, before that none does; elsewhere nothing changes. On lanes that carry the stream BER_WINDOW_END adds the reported
code violations and disparity errors to each lane's counters, and those of the lanes in use to the window's; a full
window on an ACTIVE link with at most 10 errors starts the next; with more it is counted, and but at Walk it latches
BER_LOWER and, with lowering on, asks for the rung below (that a command reports the errors is log entry 153).
TRAINING_TIMEOUT past the limit of Table 8.6 fails LOCK, ALIGN, ROUNDTRIP and CAPS to DARK with cause 1 to 4, returns
STEP to ACTIVE, keeps the previous rung in PRBS and fails a quick retrain by its part; before the limit nothing
changes. Rests on R206, R207, R218, R219, R226, R228, 08_optical_lanes.md, Table 8.6. -/
def Obligations.PatternsErrorsAndTimeoutsDecideTheLink : Prop :=
  ∀ (s : State) (l : Link) (lanes : BitVec 64) (k : Fin 64) (v : Slot) (bits : List Bool) (b : Bool) (viol disp : List (BitVec 12)) (d a : Nat), s.coreOn = true →
    let x := s.link l
    let m := maskOf fun g => bitAt x.keep g && laneBits lanes.toNat g == 0 && !(x.prbs.any fun p => p.1 / 16 == g && p.2.err)
    let unit : OutEv := .train l 6 (mkSlot kComma (6 + 256 * (x.target + 256 * m)))
    let ended : Prop := s.linkSt l = 8 ∧ x.resultOwn = none ∧ x.t + prbsLen x.target ≤ s.now ∧ s.safe = false
    let window : Prop := s.live l = true ∧ x.berT * s.lineBits l + 10240000000000 ≤ s.now * s.lineBits l
    let ber : Instr := .berWindowEnd l viol disp
    let cv (j : Nat) : Nat := (viol.map BitVec.toNat).getD j 0
    let de (j : Nat) : Nat := (disp.map BitVec.toNat).getD j 0
    let used := (List.range 64).filter fun j => bitAt (s.rf .LNK_RUNG_GROUPS l) (j / 16)
    let errs := satAdd (s.rf .LNK_BER_WINDOW_ERRORS l) (used.foldl (fun n j => n + cv j + de j) 0)
    let laneFs := ((List.range 64).map fun j => (Fld.LNK_LANE_CODE_VIOL, 64 * l.val + j)) ++ (List.range 64).map fun j => (Fld.LNK_LANE_DISP_ERR, 64 * l.val + j)
    let counted (t : State) : Prop := ∀ j, j < 64 →
      t.rf .LNK_LANE_CODE_VIOL (64 * l.val + j) = min (s.rf .LNK_LANE_CODE_VIOL (64 * l.val + j) + cv j) (2 ^ fwidth .LNK_LANE_CODE_VIOL - 1)
      ∧ t.rf .LNK_LANE_DISP_ERR (64 * l.val + j) = min (s.rf .LNK_LANE_DISP_ERR (64 * l.val + j) + de j) (2 ^ fwidth .LNK_LANE_DISP_ERR - 1)
    let late (f : State) : Prop := exec (.trainingTimeout l) s = .next (s.keep f)
    let s1 := ((s.lineErrs l (viol.map BitVec.toNat) (disp.map BitVec.toNat)).setf .LNK_BER_WINDOW_ERRORS l 0).updLink l fun x => { x with berT := s.now }
    let checks : Prop := (s.linkSt l = 11 ∧ s.rf .LNK_PRBS_CTL_PATTERN l ≠ 0) ∨ s.linkSt l = 8
    let y := sget (fun _ => ({} : PrbsRec)) x.prbs k
    let pat := s.prbsPattern l (s.linkSt l)
    let lane := 64 * l.val + k.val
    let s2 := (s1.sat .LNK_BER_LOWERINGS l).fault 15 (.link l)
    (ended → x.resultPeer = none → Does (.prbsEnd l lanes) s fun t => LinkIs s l { x with resultOwn := some m, prbsT := s.now } t
        ∧ t.outbox = s.outbox ++ [unit] ∧ Frame [.links, .outbox] [] s t)
    ∧ (ended → x.resultPeer = some a → exec (.prbsEnd l lanes) s =
        .next (s.keep (((s.emit unit).updLink l fun x => { x with resultOwn := some m, prbsT := s.now }).choose l)))
    ∧ (¬ ended → Does (.prbsEnd l lanes) s (Frame [] [] s))
    ∧ (s.linkSt l ≠ 8 → Does (.resultReceive l v) s (Frame [] [] s))
    ∧ (s.linkSt l = 8 → trainOk 6 v = false → exec (.resultReceive l v) s = .next (s.keep (s.badUnit l)))
    ∧ (s.linkSt l = 8 → trainOk 6 v = true → slotAt v 2 1 = x.target →
      (x.resultOwn = none → Does (.resultReceive l v) s fun t => LinkIs s l { x with resultPeer := some (slotAt v 3 1 % 16) } t ∧ Frame [.links] [] s t)
      ∧ (x.resultOwn = some a → exec (.resultReceive l v) s =
          .next (s.keep ((s.updLink l fun x => { x with resultPeer := some (slotAt v 3 1 % 16) }).choose l))))
    ∧ (checks → Does (.prbsSync l k bits) s fun t => LinkIs s l { x with prbs := sset (fun _ => {}) x.prbs k (y.takeAll pat bits).1 } t
        ∧ t.rf .LNK_LANE_PRBS_SYNC lane = (if 64 ≤ (y.takeAll pat bits).1.run then 1 else s.rf .LNK_LANE_PRBS_SYNC lane)
        ∧ t.rf .LNK_LANE_PRBS_ERR lane = (if s.linkSt l = 11 then min (s.rf .LNK_LANE_PRBS_ERR lane + (y.takeAll pat bits).2) (2 ^ fwidth .LNK_LANE_PRBS_ERR - 1)
          else s.rf .LNK_LANE_PRBS_ERR lane)
        ∧ Frame [.links] [(.LNK_LANE_PRBS_SYNC, lane), (.LNK_LANE_PRBS_ERR, lane)] s t)
    ∧ (checks → 64 ≤ y.run → b ≠ prbsNext pat y.reg → Does (.prbsSync l k [b]) s fun t => (s.linkSt l = 11 → Counted s .LNK_LANE_PRBS_ERR lane t)
        ∧ (s.linkSt l = 8 → t.rf .LNK_LANE_PRBS_ERR lane = s.rf .LNK_LANE_PRBS_ERR lane) ∧ (sget (fun _ => ({} : PrbsRec)) (t.link l).prbs k).err = true)
    ∧ (checks → y.run = 63 → y.reg.length = (prbsTaps pat).1 → b = prbsNext pat y.reg → Does (.prbsSync l k [b]) s fun t =>
        t.rf .LNK_LANE_PRBS_SYNC lane = 1 ∧ Frame [.links] [(.LNK_LANE_PRBS_SYNC, lane)] s t)
    ∧ (¬ checks → Does (.prbsSync l k bits) s (Frame [] [] s))
    ∧ (s.coded l = false → Does ber s (Frame [] [] s))
    ∧ (s.coded l = true → ¬ window → Does ber s fun t => counted t
        ∧ t.rf .LNK_BER_WINDOW_ERRORS l = (if s.live l then errs else s.rf .LNK_BER_WINDOW_ERRORS l) ∧ Frame [] ((.LNK_BER_WINDOW_ERRORS, l.val) :: laneFs) s t)
    ∧ (window → errs ≤ 10 → Does ber s fun t => LinkIs s l { x with berT := s.now } t ∧ counted t
        ∧ t.rf .LNK_BER_WINDOW_ERRORS l = 0 ∧ Frame [.links] ((.LNK_BER_WINDOW_ERRORS, l.val) :: laneFs) s t)
    ∧ (window → 10 < errs → s.rf .LNK_RUNG_RUNG l = 0 → Does ber s fun t => LinkIs s l { x with berT := s.now } t ∧ counted t
        ∧ t.rf .LNK_BER_WINDOW_ERRORS l = 0 ∧ Counted s .LNK_BER_LOWERINGS l t
        ∧ Frame [.links] ((.LNK_BER_LOWERINGS, l.val) :: (.LNK_BER_WINDOW_ERRORS, l.val) :: laneFs) s t)
    ∧ (window → 10 < errs → s.rf .LNK_RUNG_RUNG l ≠ 0 → s.rf .LNK_CTL_BER_LOWER_EN l = 0 → exec ber s = .next (s.keep s2))
    ∧ (window → 10 < errs → s.rf .LNK_RUNG_RUNG l ≠ 0 → s.rf .LNK_CTL_BER_LOWER_EN l ≠ 0 → s2.live l = true → s2.safe = false →
        exec ber s = .next (s.keep (s2.askStep l (s.rf .LNK_RUNG_RUNG l - 1))))
    ∧ (s.trainLimit l = none → Does (.trainingTimeout l) s (Frame [] [] s))
    ∧ (s.trainLimit l = some d →
      (s.now < x.t + d → Does (.trainingTimeout l) s (Frame [] [] s))
      ∧ (x.t + d ≤ s.now → (s.linkSt l = 2 → late (s.failDark l 1)) ∧ (s.linkSt l = 3 → late (s.failDark l 2)) ∧ (s.linkSt l = 4 → late (s.failDark l 3))
        ∧ (s.linkSt l = 5 → late (s.failDark l 4)) ∧ (s.linkSt l = 7 → late (s.toActive l)) ∧ (s.linkSt l = 8 → late (s.keepRung l))
        ∧ (s.linkSt l = 9 → late (s.failDark l (x.part + 1)))))

/-- With the core domain off LIGHT_ON and LIGHT_LOSS only show in AON_LIGHT; with it on a rise, and a loss of light
that was there, go on as the shared operations rise, openFibre, darkToLock and lightGone say. PROBE_PULSE of an
accessible group whose laser is allowed, off or probing, 100 ms after the last pulse, turns the laser on.
PROBE_PULSE_END 1.5 ms later turns it off. LIT_WAIT_EXPIRY after 2 ms leaves the group lit with light and off without.
A laser fault already shown changes nothing. REAIM_LIGHT with light for 1 ms on a group that a bring-up from REAIM may
admit starts LOCK, REAIM_TIMEOUT after 50 ms fails to DARK with cause 11 and latches LINK_DOWN. A bridle service changes
nothing in DISABLED, in Off and of a failed ring; of a filter ring it lets the lane's DFE adapt (dfeServe).
GAIN_CHANGE_APPLY sets the lane's pending range, of that lane alone, and holds its DFE for 256 columns; in ACTIVE only
in the guard up to 60 ns before the tick while no carriage is being received. Rests on R217, R222, R223, R227, R233,
R234, R235, R239, R362, 08_optical_lanes.md, Table 8.5. -/
def Obligations.LightRunsFibresRingsAndGains : Prop :=
  ∀ (s : State) (l : Link) (g : Group) (k : Fin 64) (ring : Fin 128) (sample : BitVec 10) (receiving : Bool),
    let x := s.group l g
    let gs (y : GroupRec) (t : State) : Prop := t.group l g = y ∧ (∀ h, h ≠ g.val → t.group l h = s.group l h) ∧ (∀ j, j ≠ l.val → t.link j = s.link j)
    let on := putBit (s.rf .AON_LIGHT_PRESENT) (4 * l.val + g.val) true % 2 ^ fwidth .AON_LIGHT_PRESENT
    let off := putBit (s.rf .AON_LIGHT_PRESENT) (4 * l.val + g.val) false % 2 ^ fwidth .AON_LIGHT_PRESENT
    let s1 (b : Bool) : State := s.setPresent l g b
    let m := maskOf fun h => s.lightAt l h && bitAt (s.link l).aim h && decide ((s.group l h).lightT + 1000000 ≤ s.now)
    let mayPulse : Prop := s.accessible l g = true ∧ s.laserAllowed l g = true ∧ (x.st = .off ∨ x.st = .probe) ∧ x.t + 100000000 ≤ s.now
    let p := sget (fun _ => 0) (s.link l).gains k
    let i := ringIx l ring
    let serves := s.linkSt l ≠ 0 ∧ s.rf .PWR_STATE_CUR ≠ 3
    let fibre := [(Fld.LNK_FIBRE_LASER_ON, l.val)]
    let dfe (u : State) : State := if 64 ≤ ring.val then u.dfeServe l (ring.val - 64) else u
    let out := s.emit (.heater l ring (s.written l ring))
    let apply : Instr := .gainChangeApply l k receiving
    let waits : Prop := s.live l = true ∧ (receiving = true ∨ s.inGuard = false ∨ s.stage64 < s.inStage64 + 3840)
    (s.coreOn = false → Does (.lightOn l g) s (fun t => t.rf .AON_LIGHT_PRESENT = on ∧ Frame [] [(.AON_LIGHT_PRESENT, 0)] s t)
        ∧ Does (.lightLoss l g) s fun t => t.rf .AON_LIGHT_PRESENT = off ∧ Frame [] [(.AON_LIGHT_PRESENT, 0)] s t)
    ∧ (s.coreOn = true → s.lightAt l g = false → Does (.lightLoss l g) s fun t => t.rf .AON_LIGHT_PRESENT = off ∧ Frame [] [(.AON_LIGHT_PRESENT, 0)] s t)
    ∧ (s.coreOn = true → exec (.lightOn l g) s = .next (s.keep ((((s1 true).rise l g).openFibre l g).darkToLock l))
        ∧ (s.lightAt l g = true → exec (.lightLoss l g) s = .next (s.keep ((s1 false).lightGone l g))))
    ∧ (s.coreOn = true → mayPulse → Does (.probePulse l g) s fun t => gs { x with st := .probe, t := s.now } t
        ∧ (s.rf .LNK_FIBRE_LASER_ON l < 16 → t.laserAt l g = true) ∧ Frame [.links, .outbox] fibre s t)
    ∧ (s.coreOn = true → ¬ mayPulse → Does (.probePulse l g) s (Frame [] [] s))
    ∧ (s.coreOn = true → x.st = .probe → x.t + 1500000 ≤ s.now → Does (.probePulseEnd l g) s fun t =>
        (s.rf .LNK_FIBRE_LASER_ON l < 16 → t.laserAt l g = false) ∧ Frame [.outbox] fibre s t)
    ∧ (s.coreOn = true → x.st ≠ .probe → Does (.probePulseEnd l g) s (Frame [] [] s))
    ∧ (s.coreOn = true → x.st = .litWait → x.t + 2000000 ≤ s.now →
      (s.lightAt l g = true → Does (.litWaitExpiry l g) s fun t => gs { x with st := .lit } t ∧ Frame [.links] [] s t)
      ∧ (s.lightAt l g = false → Does (.litWaitExpiry l g) s fun t => gs { x with st := .off, t := s.now } t
        ∧ (s.rf .LNK_FIBRE_LASER_ON l < 16 → t.laserAt l g = false) ∧ Frame [.links, .outbox] fibre s t))
    ∧ (s.coreOn = true → x.st ≠ .litWait ∨ s.now < x.t + 2000000 → Does (.litWaitExpiry l g) s (Frame [] [] s))
    ∧ (s.coreOn = true → s.faultAt l g = true → Does (.laserFault l g) s (Frame [] [] s))
    ∧ (s.coreOn = true → s.faultAt l g = false → exec (.laserFault l g) s = .next (s.keep (s.laserFaulted l g)))
    ∧ (s.coreOn = true → s.linkSt l = 10 → m ≠ 0 → s.safe = false → exec (.reaimLight l) s = .next (s.keep (s.toLock l 0 m false)))
    ∧ (s.coreOn = true → s.linkSt l ≠ 10 → Does (.reaimLight l) s (Frame [] [] s) ∧ Does (.reaimTimeout l) s (Frame [] [] s))
    ∧ (s.coreOn = true → s.linkSt l = 10 → (s.link l).t + 50000000 ≤ s.now →
        exec (.reaimTimeout l) s = .next (s.keep ((s.failDark l 11).fault 12 (.link l))))
    ∧ (s.coreOn = true → ¬ serves ∨ s.rf .LNK_RING_STATE i = 3 → Does (.bridleService l ring sample) s (Frame [] [] s))
    ∧ (s.coreOn = true → serves → s.rf .LNK_RING_STATE i = 0 → exec (.bridleService l ring sample) s =
        .next (s.keep ((s.sweep l ring 0).emit (.heater l ring ((s.sweep l ring 0).heater l ring)))))
    ∧ (s.coreOn = true → serves → s.rf .LNK_RING_STATE i = 1 → exec (.bridleService l ring sample) s =
        .next (s.keep (dfe (if (s.ring l ring).phase = 0 then out.sweepServe l ring sample.toNat else out.trackServe l ring sample.toNat))))
    ∧ (s.coreOn = true → serves → s.rf .LNK_RING_STATE i = 2 → (s.ring l ring).phase ≠ 0 → exec (.bridleService l ring sample) s =
        .next (s.keep (if 64 ≤ ring.val then (dfe (out.trackServe l ring sample.toNat)).gainServe l (ring.val - 64) sample.toNat
          else out.trackServe l ring sample.toNat)))
    ∧ (s.coreOn = true → 0 < p → p ≤ 4 → ¬ waits → Does apply s fun t =>
        t.dfe l k = { s.dfe l k with hold := s.t64 + 256 * colTime (s.rf .LNK_RUNG_RUNG l) } ∧ t.gain l k = p - 1 ∧ (∀ j, j < 64 → j ≠ k.val → t.gain l j = s.gain l j) ∧ sget (fun _ => 0) (t.link l).gains k = 0
        ∧ (∀ j, j ≠ l.val → t.link j = s.link j) ∧ Frame [.links] [(.LNK_GAIN_RANGES, 2 * l.val + k.val / 32)] s t)
    ∧ (s.coreOn = true → p = 0 ∨ waits → Does apply s (Frame [] [] s))

/-- TICK_SEND of a microsecond instant not yet served, outside the safe state, sends the TICK with the present time and
its CRC on every sub-link of every ACTIVE link with a measured delay and notes the instant; otherwise nothing changes. A
TICK_RECEIVE on another link, or with no copy of the value whose check matches, changes nothing; otherwise value + delay - counter is the
link's offset, valid, and enters the mean of the source link. TIME_CORRECTION on the root or with fewer than sixteen
offsets changes nothing; a mean of at most 64 ns becomes the amount to slew; it takes the sixteen. SLEW_COMPLETE at
the end of a correction sets ALIGNED, and TRUSTED on the reference; else nothing changes. REFERENCE_LOSS with the core
domain off, or with the engine STOPPED, all links DISABLED and REF_LOSS already latched, moves the counter on by 32 ns,
shows HOLDOVER_REF on the AON oscillator and clears TRUSTED; REFERENCE_RETURN shows the reference again. Rests on R35,
R36, R37, R40, R41, R42, R212, 02_stages_and_time.md, 2.2 and 2.3. -/
def Obligations.TicksCorrectTheMachineTime : Prop :=
  ∀ (s : State) (l : Link) (slots : List Slot) (sub : Fin 512) (v : Nat),
    let due : Prop := s.time.lastSend < s.now / 1000 * 1000 ∧ s.safe = false
    let o : Int := ((v * 64 + s.rf .SYN_LINK_DELAY_DELAY l : Nat) : Int) - ((s.mtc / 1024 + sub.val : Nat) : Int)
    let sum : Int := (s.time.samples.take 16).foldl (· + ·) 0
    let enough : Prop := s.rf .SYN_TIME_CTL_ROOT = 0 ∧ 16 ≤ s.time.samples.length
    let done : Prop := s.time.correcting = true ∧ s.time.slew = 0 ∧ s.time.freeze = 0
    let lost (t : State) : Prop := t.now = (s.mtc + 32 * 65536) / 65536 % 2 ^ 64
      ∧ t.time = { s.time with ref := .lost, samples := [], frac := s.mtc % 65536, sub := 0 } ∧ t.rf .AON_MTC_STATUS_HOLDOVER_REF = 1
      ∧ t.rf .AON_MTC_STATUS_TRUSTED = 0 ∧ t.rf .AON_MTC_STATUS_SOURCE = 1
      ∧ Frame [.time] [(.AON_MTC_MTC_NS, 0), (.AON_MTC_STATUS_HOLDOVER_REF, 0), (.AON_MTC_STATUS_TRUSTED, 0), (.AON_MTC_STATUS_SOURCE, 0)] s t
    (s.time.ref = .lost → Does .referenceLoss s (Frame [] [] s))
    ∧ (s.time.ref = .present → s.coreOn = false → Does .referenceLoss s lost)
    ∧ (s.time.ref = .present → s.coreOn = true → exec .referenceLoss s = .next (s.keep s.loseReference))
    ∧ (s.time.ref = .present → s.coreOn = true → s.engSt = 0 → (∀ k, k < 6 → s.linkSt k = 0) → bitAt (s.rf .FLT_STATUS_SOURCES) 10 = true →
        s.aon.windows = [] → Does .referenceLoss s lost)
    ∧ (s.time.ref = .lost → Does .referenceReturn s fun t => t.rf .AON_MTC_STATUS_HOLDOVER_REF = 0 ∧ t.rf .AON_MTC_STATUS_SOURCE = 0
        ∧ t.time = { s.time with ref := .present, rootRegain := s.on .SYN_TIME_CTL_ROOT }
        ∧ Frame [.time] [(.AON_MTC_STATUS_HOLDOVER_REF, 0), (.AON_MTC_STATUS_SOURCE, 0)] s t)
    ∧ (s.time.ref = .present → Does .referenceReturn s (Frame [] [] s))
    ∧ (s.coreOn = true →
    (due → Does .tickSend s fun t => t.outbox = s.outbox
          ++ ((nat6.filter s.timeLink).map fun k => (s.subTenants k).map fun u => OutEv.tick k u (tickSlot s.now)).flatten
        ∧ t.time = { s.time with lastSend := s.now / 1000 * 1000 } ∧ Frame [.outbox, .time] [] s t)
    ∧ (¬ due → Does .tickSend s (Frame [] [] s))
    ∧ (s.timeLink l = false ∨ tickValue slots = none → Does (.tickReceive l slots sub) s (Frame [] [] s))
    ∧ (s.timeLink l = true → tickValue slots = some v → Does (.tickReceive l slots sub) s fun t =>
        t.rf .SYN_LINK_OFFSET_VALID l = 1 ∧ t.rf .SYN_LINK_OFFSET_OFFSET l = toField 32 o % 2 ^ fwidth .SYN_LINK_OFFSET_OFFSET
        ∧ t.time = { s.time with samples := s.time.samples ++ if s.rf .SYN_TIME_STATE_SOURCE_LINK = l.val then [o] else [] }
        ∧ Frame [.time] [(.SYN_LINK_OFFSET_VALID, l), (.SYN_LINK_OFFSET_OFFSET, l)] s t)
    ∧ (¬ enough → Does .timeCorrection s (Frame [] [] s))
    ∧ (enough → exec .timeCorrection s = .next (s.keep (s.applyMean sum)))
    ∧ (enough → sum.natAbs ≤ 16 * 64 * 64 → Does .timeCorrection s fun t =>
        t.time = { s.time with samples := s.time.samples.drop 16, slew := sum * 64, correcting := true, waitStep := none }
        ∧ t.rf .AON_MTC_STATUS_SLEWING = 1 ∧ t.rf .AON_MTC_STATUS_STEP_PENDING = 0 ∧ t.rf .AON_MTC_STATUS_HOLDOVER_LINKS = 0
        ∧ (sum % 16 = 0 → t.rf .SYN_TIME_STATE_MEAN_OFFSET = toField 32 (sum / 16) % 2 ^ fwidth .SYN_TIME_STATE_MEAN_OFFSET)
        ∧ Frame [.time, .fresh] [(.SYN_TIME_STATE_MEAN_OFFSET, 0), (.AON_MTC_STATUS_SLEWING, 0), (.AON_MTC_STATUS_STEP_PENDING, 0),
          (.AON_MTC_STATUS_HOLDOVER_LINKS, 0)] s t)
    ∧ (done → Does .slewComplete s fun t => t.time = { s.time with correcting := false } ∧ t.rf .AON_MTC_STATUS_SLEWING = 0
        ∧ t.rf .AON_MTC_STATUS_ALIGNED = 1 ∧ t.rf .AON_MTC_STATUS_TRUSTED = (if s.rf .AON_MTC_STATUS_HOLDOVER_REF = 0 then 1 else 0)
        ∧ Frame [.time] [(.AON_MTC_STATUS_SLEWING, 0), (.AON_MTC_STATUS_ALIGNED, 0), (.AON_MTC_STATUS_TRUSTED, 0)] s t)
    ∧ (¬ done → Does .slewComplete s (Frame [] [] s)))

/-- STAGE_TICK, ENGINE_START (the engine ARMED with its start instant reached), PERIOD_END (the engine running, stage
0 next) and REALIGNMENT (a boundary of the realignment epoch) perform the whole tick of the last tick instant where it
is not yet served, and change nothing otherwise; a STAGE_TICK whose read of a loaded timetable has an error first does
what TT_STORE_UE asks (the shared operation storeUe). Where the engine is STOPPED, nothing waits for the tick and no
command, instance, postilion, carriage or yard reset is there, the tick marks the instant served, sends TICK_OUT 16 or
(not TRUSTED) 48 ns wide, moves the congestion of each port and the array waits of each row into their registers with
the index of the ended stage, lets throttle levels take effect, and changes nothing else. Rests on R43, R44, R45, R52,
R203, R258, R365, 02_stages_and_time.md, Table 2.5, 12_faults_resets_recovery.md, Table 12.1. -/
def Obligations.TicksAreServedOnceInOrder : Prop :=
  ∀ (s : State), s.coreOn = true →
    let at_ := s.tickAt
    let rows : List (Instr × Prop) := [(.stageTick false, True), (.engineStart, s.engSt = 1 ∧ s.rf .TT_START_MTC_START ≤ at_),
      (.periodEnd, 2 ≤ s.engSt ∧ s.stageAt at_ = 0), (.realignment, s.realignAt at_ = true)]
    let idle : Prop := s.engSt = 0 ∧ s.shadows = [] ∧ s.posts = [] ∧ s.insts = [] ∧ s.net.vecs = [] ∧ s.net.arriving = [] ∧ s.tt.swap = none
      ∧ s.eng.evalPending = none ∧ s.qs.cmds = [] ∧ s.yards = [] ∧ s.realignAt at_ = false ∧ s.time.suppress = false ∧ s.rf .SYN_TIME_CTL_ROOT = 0
      ∧ s.rf .DBG_TRACE_CTL_EN = 0
    let ports : List Nat := List.range 9
    let congs : List (Fld × Nat) := ports.map (fun p => (Fld.RTE_CONG_BLOCKED, p)) ++ ports.map (fun p => (Fld.RTE_CONG_PEAK_BYTES, p))
      ++ ports.map (fun p => (Fld.RTE_CONG_PEAK_BUFS, p)) ++ ports.map (fun p => (Fld.RTE_CONG_STAGE_IDX, p))
      ++ ports.map fun p => (Fld.RTE_CONGHIST_ENTRY, p * 256 + s.net.congPos)
    let waits : List (Fld × Nat) := nat4.map (fun y => (Fld.ARR_WAIT_WAIT, y)) ++ nat4.map fun y => (Fld.ARR_WAIT_PEAK, y)
    let g (p : Nat) : Cong := sget (fun _ => {}) s.net.cong p
    (∀ x ∈ rows, s.time.lastTick < at_ → x.2 → exec x.1 s = .next (s.keep (s.tick at_)))
    ∧ (∀ x ∈ rows, at_ ≤ s.time.lastTick ∨ ¬ x.2 → Does x.1 s (Frame [] [] s))
    ∧ (s.time.lastTick < at_ → exec (.stageTick true) s = .next (s.keep ((if s.tt.active = none then s else s.storeUe).tick at_)))
    ∧ (at_ ≤ s.time.lastTick → Does (.stageTick true) s (Frame [] [] s))
    ∧ (s.time.lastTick < at_ → idle → Does (.stageTick false) s fun t => t.time = { s.time with lastTick := at_, rootRegain := false, samples := t.time.samples }
        ∧ t.outbox = s.outbox ++ [.tickOut at_ (if s.on .AON_MTC_STATUS_TRUSTED then 16 else 48)]
        ∧ (∀ p, p < 9 → t.rf .RTE_CONG_BLOCKED p = min (g p).blocked (2 ^ 24 - 1)
          ∧ t.rf .RTE_CONG_PEAK_BYTES p = (g p).bytes % 2 ^ fwidth .RTE_CONG_PEAK_BYTES
          ∧ t.rf .RTE_CONG_STAGE_IDX p = s.rf .TT_STATUS_STAGE_IDX % 2 ^ fwidth .RTE_CONG_STAGE_IDX)
        ∧ (∀ y, y < 4 → t.rf .ARR_WAIT_WAIT y = min (sget (fun _ => 0) s.arr.wait y / 40960) (2 ^ 32 - 1))
        ∧ t.rf .PWR_THERM_THROTTLE = greatest ((List.range 16).map s.chanLevel) % 2 ^ fwidth .PWR_THERM_THROTTLE
        ∧ t.arr = { s.arr with wait := [] }
        ∧ Frame [.time, .outbox, .net, .arr] (congs ++ waits ++ [(.TT_OVR_POST_POSTILIONS, 0), (.PWR_THERM_THROTTLE, 0), (.PWR_THERM_REFRESH_X2, 0),
          (.DEP_STATUS_THROTTLE, 0), (.SYN_TIME_STATE_SOURCE_LINK, 0), (.AON_MTC_STATUS_HOLDOVER_LINKS, 0)]) s t)

/-- ARRAY_OPERATION_START while an operation runs, or with none queued, changes nothing, nor while the oldest operation,
which still holds its tag, lacks the first data of an operand, has a hazard or finds no shadow room. Else the oldest
leaves the queue and runs, its wait being added to its row's: with its operands as they are, or, its tag gone, to be
discarded; what its reads of the scratchpad find is then taken (the shared operation scrEcc).
ARRAY_OPERATION_COMPLETE with none running, or with one that stalls for the rest of a stream, changes nothing; a
discarded operation is counted and stores nothing; of any other the results are stored, counted or kept, and its tag
ends (the shared operations named); a parity error latches ARRAY_PARITY and marks the results lost; an UPDATE operation
ends as its job's; then what of degraded mode waits for the array may begin (the
shared operation heldRuns). GOVERNOR_STEP before its time changes nothing; with work and fewer than 16 groups one more is on and
the lost cycles are counted; after 160 ns without work one fewer is on; else nothing changes. Rests on R15, R19, R24,
R116, R117, R118, R147, R364, 05_reduction_arithmetic.md, 5.1, 12_faults_resets_recovery.md, Table 12.1. -/
def Obligations.ArrayAndGovernorWorkInOrder : Prop :=
  ∀ (s : State) (o : ArrOp) (rest : List ArrOp) (c : ArrCur) (scr : EccResult) (parity : Bool), s.coreOn = true →
    let waited := sget (fun _ => 0) s.arr.wait o.row + (s.mtc - o.t)
    let u := c.op
    let counted (s0 : State) : State := ({ s0 with
      arr := { s0.arr with cur := none }
      fresh := s0.fresh + 1
      power := { s0.power with lastOp := s0.now } }).inc .ARR_OPCOUNT_COUNT 0
    let s1 := counted (if parity then s.fault 23 else s)
    let r := if parity then (u.execute c.srcs s.fresh).lose else u.execute c.srcs s.fresh
    let busy : Prop := s.arr.cur.isSome = true ∨ s.arr.queue ≠ []
    let stepTime := 3000 / max 1 (s.rf .PWR_GOV_SLOPE)
    let soon : Prop := s.now < s.power.lastStep + stepTime
    let runs (k : ArrCur) (t : State) : Prop :=
      t.arr = { s.arr with queue := rest, cur := some k, wait := sset (fun _ => 0) s.arr.wait o.row waited }
      ∧ t.power = { s.power with lastOp := s.now } ∧ Frame [.arr, .power, .outbox] [(.DBG_TRACE_STAT_SENT, 0)] s t
    let run : State := (({ s with
      arr := { s.arr with queue := rest, cur := some { op := o, srcs := s.operandsOf o }, wait := sset (fun _ => 0) s.arr.wait o.row waited }
      power := { s.power with lastOp := s.now } } : State).eatStreams o).trace 1 (dOpc o.desc + 256 * o.row + 65536 * o.col + 2 ^ 32 * dCount o.desc)
    let free : Prop := ∀ i ∈ s.insts, i.hold = false ∨ i.st ≠ .running
    let starts : Prop := s.arr.cur = none ∧ s.arr.queue = o :: rest ∧ s.opHeld o = true ∧ s.opReady o = true
    (s.arr.cur.isSome = true ∨ s.arr.queue = [] → Does (.arrayOperationStart scr) s (Frame [] [] s))
    ∧ (s.arr.cur = none → s.arr.queue = o :: rest → s.opHeld o = true → s.opReady o = false → Does (.arrayOperationStart scr) s (Frame [] [] s))
    ∧ (s.arr.cur = none → s.arr.queue = o :: rest → s.opHeld o = false →
        Does (.arrayOperationStart scr) s (runs { op := o, srcs := [], discard := true }))
    ∧ (starts → (∀ x ∈ o.sources, wKind x.1 ≠ 3 ∧ wKind x.1 ≠ 4) → scr = .good ∨ o.readsScr = false →
        Does (.arrayOperationStart scr) s (runs { op := o, srcs := s.operandsOf o }))
    ∧ (starts → exec (.arrayOperationStart scr) s = .next (s.keep (if o.readsScr then run.scrEcc scr else run)))
    ∧ (s.arr.cur = none ∨ (s.arr.cur = some c ∧ s.stalls c = true) → exec (.arrayOperationComplete parity) s = .next (s.keep s.heldRuns))
    ∧ (s.arr.cur = none → free → Does (.arrayOperationComplete parity) s (Frame [] [] s))
    ∧ (s.arr.cur = some c → s.stalls c = true → free → Does (.arrayOperationComplete parity) s (Frame [] [] s))
    ∧ (s.arr.cur = some c → u.upd = none → c.discard = true → free → Does (.arrayOperationComplete false) s fun t =>
        t.arr = { s.arr with cur := none } ∧ t.fresh = s.fresh + 1 ∧ t.power = { s.power with lastOp := s.now }
        ∧ t.rf .ARR_OPCOUNT_COUNT = (s.rf .ARR_OPCOUNT_COUNT + 1) % 2 ^ fwidth .ARR_OPCOUNT_COUNT
        ∧ Frame [.arr, .fresh, .power] [(.ARR_OPCOUNT_COUNT, 0)] s t)
    ∧ (s.arr.cur = some c → u.upd = none → c.discard = true → exec (.arrayOperationComplete true) s = .next (s.keep (counted (s.fault 23)).heldRuns))
    ∧ (s.arr.cur = some c → u.upd = none → c.discard = false → s.stalls c = false →
      ((srcDeps c.srcs).isEmpty = true → exec (.arrayOperationComplete parity) s =
        .next (s.keep (((s1.countRes u r).storeRes u r.blob).tagDone (16 * u.row + u.col) u.tag u.serial).heldRuns))
      ∧ ((srcDeps c.srcs).isEmpty = false → exec (.arrayOperationComplete parity) s =
        .next (s.keep ((({ s1 with arr := { s1.arr with kept := s1.arr.kept ++ [{ op := u, srcs := c.srcs, res := r, shadow := s1.shadowOf u }] } }
          : State).storeRes u r.blob).tagDone (16 * u.row + u.col) u.tag u.serial).heldRuns)))
    ∧ (s.arr.cur = some c → u.upd.isSome = true → exec (.arrayOperationComplete parity) s = .next (s.keep (s.updDone c parity).heldRuns))
    ∧ (s.arr.cur = some c → u.upd.isSome = true → c.discard = true → free → Does (.arrayOperationComplete false) s fun t =>
        t.arr = { s.arr with cur := none } ∧ t.power = { s.power with lastOp := s.now }
        ∧ t.rf .ARR_OPCOUNT_COUNT = (s.rf .ARR_OPCOUNT_COUNT + 1) % 2 ^ fwidth .ARR_OPCOUNT_COUNT
        ∧ Frame [.arr, .power] [(.ARR_OPCOUNT_COUNT, 0)] s t)
    ∧ (soon ∨ (busy ∧ 16 ≤ s.power.width) ∨ (¬ busy ∧ (s.power.width = 0 ∨ s.now < s.power.lastOp + 160)) →
        Does .governorStep s (Frame [] [] s))
    ∧ (¬ soon → busy → s.power.width < 16 → Does .governorStep s fun t =>
        t.power = { s.power with width := s.power.width + 1, lastStep := s.now }
        ∧ t.rf .PWR_GOV_BUBBLES = min (s.rf .PWR_GOV_BUBBLES + stepTime * 8 / 5 * (15 - s.power.width) / 16) (2 ^ fwidth .PWR_GOV_BUBBLES - 1)
        ∧ Frame [.power] [(.PWR_GOV_BUBBLES, 0)] s t)
    ∧ (¬ soon → ¬ busy → 0 < s.power.width → s.power.lastOp + 160 ≤ s.now → Does .governorStep s fun t =>
        t.power = { s.power with width := s.power.width - 1, lastStep := s.now } ∧ Frame [.power] [] s t)

/-- GROOM_JOB_START changes nothing while a job runs or none is requested; a request of a yard in reset or of a KIND
outside 1 to 3 is dropped; one whose bytes are not confirmed waits, and each waits in the safe state; else its job is
the running one, shown in GRM_STATUS, and takes its first step (the shared operation groomBegin). GROOM_JOB_END before
the job is over, or in the safe state, changes nothing; one that ends with no write-back, no done object and no instance
frees the unit and is counted. EPOCH_COPY_COMPLETE outside the safe state, with every write of the instance acknowledged,
writes the staged bytes and completes the command; before that it changes nothing. VEH_TILE_COMPLETE of the oldest full
tile sends its doorbell message and advances SEQ. A hitch answer to no request, and a credit beyond 64 or 256, latch
HITCH_PROTO; a beat that is not the last is kept; the last beat hands the read's bytes over; a write answer in time makes
the bytes visible to the host and ends the request; an answer of an earlier generation is dropped as stale, and latches
the bound as well when it is past it (the shared operations staleResponse and lateResponse). A request past the bound
latches HITCH_BOUND once. A far write stores its bytes in the depot; a far read's bytes go back on its link. Patrol scrub
counts what it corrects. Rests on R145, R149, R162, R170, R320, R323, R334, R342, R344, R347,
R351, 06_groom_update_unit.md, Table 6.1. -/
def Obligations.GroomHitchAndDepotServeTheirRequests : Prop :=
  ∀ (s : State) (r : GroomReq) (rest : List GroomReq) (j : GroomJob) (u : TeamSlot) (i : Inst) (tile : BitVec 16) (tiles : List Nat) (port : Fin 16)
      (tag : BitVec 16) (yg : BitVec 6) (err : BitVec 2) (last : Bool) (data : BitVec 2048) (h : HitchReq) (d : DepotReq) (ch : Fin 16)
      (ue : BitVec 128) (a : BitVec 29) (ur : TagRef) (fl : Nat) (fc : Carriage), s.coreOn = true →
    let j0 : GroomJob := { req := r, id := s.groom.jobs + 1, inst := match s.insts.find? fun i => i.team == r.team && i.st == .running && i.n % 2 == r.rec_ % 2 with
      | some i => i.n
      | none => s.jobRec r 4 4 }
    let s1 : State := { s with groom := { s.groom with queue := rest, job := some j0, jobs := s.groom.jobs + 1 } }
    let ended := s.insts.find? fun i => i.team == u.val && i.st == .ended && i.decision == 1
    let still : Prop := ∀ i ∈ s.insts, i.op ≠ 0x48 ∧ i.op ≠ 0x49
    let dreq := s.hitch.dreqs.find? fun r => r.ch == ch.val
    let stop : Prop := s.rf .YRD_STATE_STATE r.y = 1 ∨ s.rf .YRD_STATE_STATE r.y = 3 ∨ r.kind = 0 ∨ 3 < r.kind
    let status : List (Fld × Nat) := [(.GRM_STATUS_BUSY, 0), (.GRM_STATUS_KIND, 0), (.GRM_STATUS_YARD, 0), (.GRM_STATUS_TEAM, 0)]
    let creds := sget (fun _ => 0) s.hitch.cred port
    let beats := sget (fun _ => 0) s.hitch.beats port
    let fits := s.hitch.reqs.find? fun r => r.port == port.val && r.tag == tag.toNat
    let proto (c : Instr) : Prop := exec c s = .next (s.keep (s.fault 7))
    let gone (r : HitchReq) := s.hitch.reqs.filter fun x => !(x.port == r.port && x.tag == r.tag)
    let h1 : HitchReq := { h with beats := h.beats + 1, data := h.data ++ leBytes 256 data.toNat }
    let scrubs : Prop := s.rf .DEP_SCRUB_EN ≠ 0 ∧ 64 * a.toNat < s.depotSize
    (s.groom.job.isSome = true ∨ s.groom.queue = [] → Does .groomJobStart s (Frame [] [] s))
    ∧ (s.groom.job = none → s.groom.queue = r :: rest → stop → Does .groomJobStart s fun t => t.groom = { s.groom with queue := rest } ∧ Frame [.groom] [] s t)
    ∧ (s.groom.job = none → s.groom.queue = r :: rest → ¬ stop → s.safe = true ∨ s.jobConfirmed r = false → Does .groomJobStart s (Frame [] [] s))
    ∧ (s.groom.job = none → s.groom.queue = r :: rest → ¬ stop → s.safe = false → s.jobConfirmed r = true → exec .groomJobStart s = .next (s.keep
        (((s1.setfs [(.GRM_STATUS_BUSY, 0, 1), (.GRM_STATUS_KIND, 0, r.kind), (.GRM_STATUS_YARD, 0, r.y), (.GRM_STATUS_TEAM, 0, r.team),
          (.GRM_STATUS_CUT, 0, 0)]).trace 4 (r.team + 256 * r.kind + 65536 * r.y)).groomBegin j0)))
    ∧ (s.groom.job = none → Does .groomJobEnd s (Frame [] [] s))
    ∧ (s.groom.job = some j → j.over = false ∨ s.safe = true → Does .groomJobEnd s (Frame [] [] s))
    ∧ (s.groom.job = some j → j.over = true → s.safe = false → exec .groomJobEnd s = .next (s.keep (s.groomEnd.afterJob j.req)))
    ∧ (s.groom.job = some j → j.over = true → s.safe = false → s.backWrites j = [] → s.rf .GRM_START_VALID j.req.y = 0 →
      s.running j.req.team = none → Does .groomJobEnd s fun t =>
        t.groom = { s.groom with job := none } ∧ (∀ f ∈ status, t.rf f.1 f.2 = 0) ∧ t.fresh = s.fresh + 1
        ∧ t.rf .GRM_COUNTS_JOBS = (s.rf .GRM_COUNTS_JOBS + 1) % 2 ^ fwidth .GRM_COUNTS_JOBS ∧ Frame [.groom, .fresh] (status ++ [(.GRM_COUNTS_JOBS, 0)]) s t)
    ∧ (ended = none → Does (.epochCopyComplete u) s (Frame [] [] s))
    ∧ (ended = some i → s.safe = true ∨ s.unacked (some (i.team, i.n)) = true → Does (.epochCopyComplete u) s (Frame [] [] s))
    ∧ (ended = some i → s.safe = false → s.unacked (some (i.team, i.n)) = false → exec (.epochCopyComplete u) s = .next (s.keep
        (((i.staged.foldl (fun (s : State) w => s.wrPieces (pieces (s.bufFrags i.entry 44) w.dst w.len) (rdBytes s.depot w.stage w.len)) s).finishInst
          i i.outcome).dropInst i)))
    ∧ (s.hitch.vehDone = tile.toNat :: tiles → s.aon.irqOut < 32 → Does (.vehTileComplete tile) s fun t =>
        t.outbox = s.outbox ++ [.irq (s.rf .HCH_VEH_DB_ADDR * 4) (tile.toNat * 65536 + s.rf .HCH_VEH_SEQ_SEQ % 65536)]
        ∧ t.hitch = { s.hitch with vehDone := tiles } ∧ t.aon = { s.aon with irqOut := s.aon.irqOut + 1 }
        ∧ t.rf .HCH_VEH_SEQ_SEQ = (s.rf .HCH_VEH_SEQ_SEQ + 1) % 2 ^ fwidth .HCH_VEH_SEQ_SEQ ∧ Frame [.hitch, .outbox, .aon] [(.HCH_VEH_SEQ_SEQ, 0)] s t)
    ∧ (s.hitch.vehDone.head? ≠ some tile.toNat → Does (.vehTileComplete tile) s (Frame [] [] s))
    ∧ (s.reqOf port tag.toNat false = none → proto (.hitchReadResponse port tag yg last err data))
    ∧ (s.reqOf port tag.toNat true = none → proto (.hitchWriteResponse port tag yg err))
    ∧ (s.reqOf port tag.toNat false = some h → s.ygStale h yg.toNat = false → h.beats + 1 < beatCount h.len →
        Does (.hitchReadResponse port tag yg false 0 data) s fun t =>
          t.hitch = { s.hitch with reqs := updWhere (fun x => x.port == h.port && x.tag == h.tag) (fun _ => h1) s.hitch.reqs }
          ∧ Frame [.hitch, .posts, .yards, .groom] [] s t)
    ∧ (s.reqOf port tag.toNat false = some h → s.ygStale h yg.toNat = false → h.beats + 1 = beatCount h.len →
        exec (.hitchReadResponse port tag yg true 0 data) s = .next (s.keep (((s.updReq h fun _ => h1).lateResponse h).readDone h1)))
    ∧ (s.reqOf port tag.toNat false = some h → s.ygStale h yg.toNat = true →
        exec (.hitchReadResponse port tag yg last err data) s =
          .next (s.keep (if last then ((s.dropReq h).staleResponse h).lateResponse h else s.staleResponse h)))
    ∧ (s.reqOf port tag.toNat true = some h → s.ygStale h yg.toNat = true →
        exec (.hitchWriteResponse port tag yg err) s =
          .next (s.keep (((if err = 0 then (s.dropReq h).wrHitch h.addr h.data else s.dropReq h).staleResponse h).lateResponse h)))
    ∧ (s.reqOf port tag.toNat true = some h → s.ygStale h yg.toNat = false → s.pastBound h = false → s.vehAt h.addr = none → h.yg < 64 →
      h.use = .tag ur → (s.post ur.post).tags = [] →
        Does (.hitchWriteResponse port tag yg 0) s fun t => Stored s.host t.host h.addr h.data ∧ t.hitch = { s.hitch with reqs := gone h }
          ∧ (∀ p, t.post p = s.post p) ∧ Frame [.host, .hitch, .yards, .posts] [] s t)
    ∧ (256 ≤ beats → proto (.hitchCreditReturn port true)) ∧ (64 ≤ creds → proto (.hitchCreditReturn port false))
    ∧ (beats < 256 → (s.hitch.reqs.find? fun r => r.port == port.val && r.wr && decide (r.beats < beatCount r.len)) = none →
        Does (.hitchCreditReturn port true) s fun t => t.hitch = { s.hitch with beats := sset (fun _ => 0) s.hitch.beats port (beats + 1) } ∧ Frame [.hitch] [] s t)
    ∧ (creds < 64 → s.hitch.waitq = [] →
        Does (.hitchCreditReturn port false) s fun t => t.hitch = { s.hitch with cred := sset (fun _ => 0) s.hitch.cred port (creds + 1) } ∧ Frame [.hitch] [] s t)
    ∧ (fits = none → Does (.hitchBoundExpiry port tag) s (Frame [] [] s))
    ∧ (fits = some h → s.pastBound h = false ∨ h.late = true → Does (.hitchBoundExpiry port tag) s (Frame [] [] s))
    ∧ (fits = some h → s.pastBound h = true → h.late = false → exec (.hitchBoundExpiry port tag) s = .next (s.keep
        ((s.updReq h fun x => { x with late := true }).fault 27 (.yard (h.yg / 16)))))
    ∧ (dreq = none → still → Does (.depotAccessComplete ch ue) s (Frame [] [] s))
    ∧ (dreq = some d → d.wr = false → d.use = .farRead fl fc → d.addr + d.len ≤ s.depotSize → exec (.depotAccessComplete ch 0) s = .next (s.keep
        (({ s with hitch := { s.hitch with dreqs := s.hitch.dreqs.erase d } } : State).farAnswer fl fc (rdBytes s.depot d.addr d.len) false).movesDone))
    ∧ (dreq = some d → d.wr = true → d.use = .farWrite → d.addr + d.data.length ≤ s.depotSize → d.len = d.data.length → still →
        Does (.depotAccessComplete ch ue) s fun t => Stored s.depot t.depot d.addr d.data ∧ t.hitch = { s.hitch with dreqs := s.hitch.dreqs.erase d }
          ∧ Frame [.depot, .hitch] [] s t)
    ∧ (¬ scrubs → ∀ e, Does (.patrolScrubRead a e) s (Frame [] [] s))
    ∧ (scrubs → Does (.patrolScrubRead a .good) s (Frame [] [] s)
        ∧ exec (.patrolScrubRead a .corrected) s = .next (s.keep ((s.sat .DEP_ECC_CE 0).fault 24))
        ∧ exec (.patrolScrubRead a .chipkill) s = .next (s.keep ((s.sat .DEP_ECC_CHIPKILL 0).fault 24))
        ∧ exec (.patrolScrubRead a .uncorrectable) s = .next (s.keep (((s.sat .DEP_ECC_UE 0).setfs
            [(.DEP_UE_LAST_CHANNEL, 0, s.channelOf (64 * a.toNat)), (.DEP_UE_LAST_ADDR, 0, a.toNat)]).fault 5)))

/-- For COLLECTOR_MISMATCH, AON_OSCILLATOR_LOSS, COACHMAN_WATCHDOG_EXPIRY, CM_MEM_UE, CM_TRAP and CTL_PORT_VIOLATION:
in a shadow window that masks it the event writes one masked record, counts in FLT_MASKED and sets no bit; with its
bit set nothing changes (the oscillator's condition aside); else the bit and no other is set with one fault record,
FLT_N is low where the reaction is 1, and with reaction 2 or 3, or source 0, the safe state follows.
POWER_FAIL_WARNING with PFW_N low changes nothing; else PFW_N is low, POWER_WARN is raised, and with EN set the 4 KiB
record and the log stand at FLT_PFW_ADDR. A sensor reading with no condition present updates the registers that show
temperatures and the channel's levels, which take effect at once only while the engine is STOPPED. JTAG boundary scan
changes nothing, and the DBG unit is read and written by the rules of the control port within its windows. Rests on
R314, R315, R316, R317, R318, R325, R340, R359, R365, 12_faults_resets_recovery.md, Table 12.1, 13_integration_power_boot.md,
Table 13.9. -/
def Obligations.FaultEventsAreLatchedLoggedAndAnswered : Prop :=
  ∀ (s : State) (y : Yard) (x : Sensor) (temp : BitVec 8) (off : BitVec 26) (v : Word), s.coreOn = true →
    let S := s.rf .FLT_STATUS_SOURCES
    let ptr : List (Fld × Nat) := [(.AON_LOG_PTR_HEAD, 0), (.AON_LOG_PTR_WRAPS, 0)]
    let sets : List (Fld × Nat) := ptr ++ [(.FLT_STATUS_SOURCES, 0), (.FLT_FIRST_VALID, 0), (.FLT_FIRST_SOURCE, 0), (.FLT_FIRST_OVF, 0),
      (.FLT_FIRST_MTC_MTC, 0), (.DBG_TRACE_STAT_SENT, 0), (.IRQ_DATA_PENDING, s.rf .FLT_CTL_VECTOR)]
    let law (c : Instr) (u : State) (b : Nat) (o : Origin) (d : Nat) : Prop :=
      (u.masked o b = true → Does c s fun t => Logged s t 2 b d [] ∧ t.rf .FLT_STATUS_SOURCES = S ∧ Counted s .FLT_MASKED_COUNT 0 t
        ∧ Frame [.aon] (ptr ++ [(.FLT_MASKED_COUNT, 0)]) s t)
      ∧ (u.masked o b = false → bitAt S b = true → Does c s fun t => t.aon = u.aon ∧ Frame [.aon] [] s t)
      ∧ (u.masked o b = false → bitAt S b = false → b ≠ 0 → s.reaction b < 2 → Does c s fun t => Logged s t 1 b d []
        ∧ (∀ k, k < 64 → bitAt (t.rf .FLT_STATUS_SOURCES) k = (bitAt S k || k == b)) ∧ (s.reaction b = 1 → t.fltN = false)
        ∧ Frame [.aon, .outbox] sets s t)
      ∧ (u.masked o b = false → bitAt S b = false → b = 0 ∨ 2 ≤ s.reaction b → exec c s = .next (s.keep (u.latch b o d).safeEnter))
    let u6 : State := { s with aon := { s.aon with persist := if s.aon.persist.contains 6 then s.aon.persist else s.aon.persist ++ [6] } }
    let p : State := { s with pins := { s.pins with pfwN := false } }
    let p9 := p.fault 9
    let at_ := s.rf .FLT_PFW_ADDR_ADDR * 4096
    let h : State := { s with power := { s.power with sensors := sset (fun _ => 0) s.power.sensors (sensorIx x) (temp.toNat + 1) } }
    let shown : List (Fld × Nat) := [(.PWR_THERM_BLOCK_MAX, 0), (.PWR_THERM_DEPOT_MAX, 0), (.DEP_TEMP_TEMP, 0), (.DEP_TEMP_TEMP, 1)]
    let applied : List (Fld × Nat) := [(.PWR_THERM_THROTTLE, 0), (.PWR_THERM_REFRESH_X2, 0), (.DEP_STATUS_THROTTLE, 0)]
    let inDbg : Prop := 0x2300000 ≤ off.toNat ∧ off.toNat < 0x2400000 ∧ off.toNat % 8 = 0
    law .collectorMismatch s 0 .block 0 ∧ law .aonOscillatorLoss u6 6 .block 0
    ∧ law (.coachmanWatchdogExpiry y) s 41 (.yard y.val) y.val ∧ law (.cmMemUe y) s 42 (.yard y.val) y.val
    ∧ law (.cmTrap y) s 43 (.yard y.val) y.val ∧ law .ctlPortViolation s 48 .block 0
    ∧ (s.pins.pfwN = false → Does .powerFailWarning s (Frame [] [] s))
    ∧ (s.pins.pfwN = true → p9.rf .FLT_PFW_ADDR_EN = 0 → exec .powerFailWarning s = .next (s.keep p9))
    ∧ (s.pins.pfwN = true → p9.rf .FLT_PFW_ADDR_EN ≠ 0 → exec .powerFailWarning s =
        .next (s.keep (p9.wrHost (p9.rf .FLT_PFW_ADDR_ADDR * 4096) (p9.pfwRecord ++ p9.logBytes))))
    ∧ (s.pins.pfwN = true → bitAt S 9 = true → s.aon.windows = [] → s.rf .FLT_PFW_ADDR_EN ≠ 0 → Does .powerFailWarning s fun t =>
        t.pins = p.pins ∧ p.pfwRecord.length = 4096 ∧ Stored s.host t.host at_ (p.pfwRecord ++ p.logBytes) ∧ Frame [.pins, .host] [] s t)
    ∧ exec (.thermalThresholdCrossing x temp) s = .next (s.keep (s.thermal x temp.toNat))
    ∧ ((∀ b ∈ [3, 25, 46, 47], h.persists b = false) → Does (.thermalThresholdCrossing x temp) s fun t =>
        t.power = { h.power with chan := t.power.chan }
        ∧ (∀ c : Fin 16, t.chanLevel c = (if x = .depot c then throttleAt (s.chanLevel c) temp.toNat else s.chanLevel c)
          ∧ t.chanRefresh c = if x = .depot c then refreshAt (s.chanRefresh c) temp.toNat else s.chanRefresh c)
        ∧ t.rf .PWR_THERM_BLOCK_MAX = greatest ((List.range 16).map h.temp) % 2 ^ fwidth .PWR_THERM_BLOCK_MAX
        ∧ t.rf .PWR_THERM_DEPOT_MAX = greatest ((List.range 16).map fun c => h.temp (16 + c)) % 2 ^ fwidth .PWR_THERM_DEPOT_MAX
        ∧ (s.engSt ≠ 0 → Frame [.power] shown s t)
        ∧ (s.engSt = 0 → t.rf .PWR_THERM_THROTTLE = greatest ((List.range 16).map t.chanLevel) % 2 ^ fwidth .PWR_THERM_THROTTLE
          ∧ Frame [.power] (shown ++ applied) s t))
    ∧ Does (.jtagAccess .boundaryScan) s (Frame [] [] s)
    ∧ (dbgReads off.toNat = true → off.toNat % 8 = 0 → Does (.jtagAccess (.dbgRead off)) s fun t => t.rdata = s.readAt off.toNat ∧ Frame [.rdata] [] s t)
    ∧ (dbgReads off.toNat = false ∨ off.toNat % 8 ≠ 0 → Does (.jtagAccess (.dbgRead off)) s fun t => t.rdata = 0 ∧ Frame [.rdata] [] s t)
    ∧ (inDbg → exec (.jtagAccess (.dbgWrite off v)) s = .next (s.keep (s.writeAt off.toNat v.toNat)))
    ∧ (¬ inDbg → Does (.jtagAccess (.dbgWrite off v)) s (Frame [] [] s))

/-- DEADLOCK_RAISE of a yard stuck for the window with RAISED clear raises it: with DEADLOCK already latched, RAISED
shows the yard, the count goes up and the snapshot is logged; else nothing changes. YARD_DRAIN_COMPLETE in step 4 with
every request answered or the bound passed clears the bank and the row, which takes its program again, counts YGEN up
and removes the yard's coachman wait; before that nothing changes. COACHMAN_RESTART after step 5, with nothing held or
outstanding, binds the instances not started anew, and goes to REPLAYING with suspects or ends the reset without; the
end completes RESET_YARD. REPLAY starts the first suspect, waits for it while it runs, and logs and removes it when it
has gone; with none left the reset ends. REPLAY_GUILTY acts when the suspect's fresh timer has expired (the shared
operation guilty), and not before. Rests on R263, R264, R321, R330, 12_faults_resets_recovery.md, Table 12.4. -/
def Obligations.YardResetsRunTheirSteps : Prop :=
  ∀ (s : State) (y : Yard) (z : Suspect) (rest : List Suspect) (i : Inst) (t0 : Nat), s.coreOn = true →
    let r := s.yard y
    let S := s.rf .SYN_DL_STATUS_RAISED
    let ptr : List (Fld × Nat) := [(.AON_LOG_PTR_HEAD, 0), (.AON_LOG_PTR_WRAPS, 0)]
    let raises : Prop := s.rf .SYN_DL_CTL_EN ≠ 0 ∧ bitAt S y = false ∧ s.stuckYard y = true ∧ r.quietAt + s.rf .SYN_DL_CTL_WINDOW_US * 1000 ≤ s.now
    let again : List Inst := updWhere (fun i => i.st == .bound && s.rf .TT_TEAM_YARD i.team == y.val) (fun i => { i with st := .waiting }) s.insts
    let ended (t : State) : Prop := t.rf .YRD_STATE_STATE y = (if s.oos then 3 else 0) ∧ t.rf .YRD_STATE_REPLAY_TEAM y = 0 ∧ (t.yard y).step = .running
      ∧ t.qs = { s.qs with dones := s.qs.dones ++ match r.cmd with
        | some (q, id) => [ofGen t (plainDone q id 0x0E (if s.oos then 0xA else 0) 0)]
        | none => [] }
    let quiet : Prop := s.qs.cmds = [] ∧ s.qs.fetched = [] ∧ s.aon.windows = [] ∧ bitAt (s.rf .FLT_STATUS_SOURCES) (36 + y.val) = true
    let ends : List (Fld × Nat) := [(.YRD_STATE_STATE, y.val), (.YRD_STATE_REPLAY_TEAM, y.val)]
    (raises → exec (.deadlockRaise y) s = .next (s.keep (s.raise y)))
    ∧ (raises → bitAt (s.rf .FLT_STATUS_SOURCES) 29 = true → s.masked (.yard y.val) 29 = false → Does (.deadlockRaise y) s fun t =>
        (∀ k, k < 4 → bitAt (t.rf .SYN_DL_STATUS_RAISED) k = (bitAt S k || k == y.val)) ∧ Counted s .SYN_DL_STATUS_COUNT 0 t
        ∧ Logged s t 6 y 0 (wordsOf (s.snapshot y)) ∧ Frame [.aon] (ptr ++ [(.SYN_DL_STATUS_RAISED, 0), (.SYN_DL_STATUS_COUNT, 0)]) s t)
    ∧ (¬ raises → Does (.deadlockRaise y) s (Frame [] [] s))
    ∧ (r.step ≠ .draining ∨ s.drained y = false → Does (.yardDrainComplete y) s (Frame [] [] s))
    ∧ (r.step = .draining → s.drained y = true → Does (.yardDrainComplete y) s fun t =>
        (t.yard y).step = .cleared ∧ (∀ k, k ≠ y.val → t.yard k = s.yard k) ∧ t.rf .YRD_STATE_GEN y = (s.rf .YRD_STATE_GEN y + 1) % 256
        ∧ (∀ a, a / 2 ^ 26 = y.val → sget byte0 t.scratch a = 0)
        ∧ (Memory.wf s.scratch = true → ∀ a, a / 2 ^ 26 ≠ y.val → sget byte0 t.scratch a = sget byte0 s.scratch a)
        ∧ (∀ c, c < 16 → t.post (16 * y + c) = (match s.prog (16 * y + c) with
          | some pr => ({} : Post).load pr
          | none => {}))
        ∧ (∀ p, p / 16 ≠ y.val → t.post p = s.post p) ∧ t.sync = { s.sync with coach := s.sync.coach.filter fun c => c.y != y.val }
        ∧ Frame [.scratch, .arr, .groom, .hitch, .sync, .posts, .yards] [(.YRD_STATE_GEN, y), (.ARR_WAIT_WAIT, y)] s t)
    ∧ (r.step ≠ .cleared → Does (.coachmanRestart y) s (Frame [] [] s))
    ∧ (r.step = .cleared → exec (.coachmanRestart y) s = .next (s.keep (s.restartCoach y)))
    ∧ (r.step = .cleared → r.held = [] → s.qs.cmds = [] → s.oos = false → r.suspects = z :: rest → Does (.coachmanRestart y) s fun t =>
        t.rf .YRD_STATE_STATE y = 2 ∧ t.yard y = { r with step := .replay, held := [], replaying := none } ∧ t.insts = again
        ∧ Frame [.insts, .yards] [(.YRD_STATE_STATE, y)] s t)
    ∧ (r.step = .cleared → r.held = [] → quiet → s.oos = true ∨ r.suspects = [] → Does (.coachmanRestart y) s fun t =>
        ended t ∧ t.insts = again ∧ Frame [.insts, .yards, .qs] ends s t)
    ∧ (r.step ≠ .replay → Does (.replay y) s (Frame [] [] s))
    ∧ (r.step = .replay → r.suspects = [] → quiet → Does (.replay y) s fun t => ended t ∧ Frame [.yards, .qs] ends s t)
    ∧ (r.step = .replay → r.suspects = z :: rest → s.suspectNow z = none → Does (.replay y) s fun t =>
        t.yard y = { r with suspects := rest, replaying := none }
        ∧ Logged s t 9 y (z.inst.team + 256 * if s.rf .TT_TEAM_STATE z.inst.team = 1 then 0xE else 1) [] ∧ Frame [.yards, .aon] ptr s t)
    ∧ (r.step = .replay → r.suspects = z :: rest → s.suspectNow z = some i → r.replaying = some t0 → Does (.replay y) s (Frame [] [] s))
    ∧ (r.step = .replay → r.suspects = z :: rest → s.suspectNow z = some i → r.replaying = none → exec (.replay y) s =
        .next (s.keep (((s.setYard y { r with replaying := some s.now }).setf .YRD_STATE_REPLAY_TEAM y i.team).rerun i)))
    ∧ (r.suspects = [] ∨ r.replaying = none ∨ r.step ≠ .replay → Does (.replayGuilty y) s (Frame [] [] s))
    ∧ (r.suspects = z :: rest → r.replaying = some t0 → s.suspectNow z = some i →
      (s.now < t0 + s.rf .DB_TIMEOUT_COLL_MS (s.team i.team).queue * 1000000 → Does (.replayGuilty y) s (Frame [] [] s))
      ∧ (r.step = .replay → t0 + s.rf .DB_TIMEOUT_COLL_MS (s.team i.team).queue * 1000000 ≤ s.now →
        exec (.replayGuilty y) s = .next (s.keep (s.guilty y z i))))

/-- With no condition present and the register file in canonical order: COLD_RESET with the core on, and BLOCK_RESET
with SAFE_N high (no team active, every link DISABLED), keep the always-on fields (a block reset the boot image's
too), the log and the reset window, put every other field at its reset value, leave nothing of the work, and set the
boot cause to 2, or 3 (4 from the safe state). A BLOCK_RESET with SAFE_N low is held. AON_POWER_UP starts the counter
from 0 with every field at its reset value. A rail reading good before an earlier one holds the block in reset with
cause 7; else its bit is shown. A rail that was good and falls latches SUPPLY_UV in Run, ends the core with VDD_CORE
in Off, and else only shows. PLL_LOCK, IMAGE_FETCH_COMPLETE and DEPOT_TRAINING_COMPLETE end their start-up step and no
other; a failed image counts a failed start with its code, and the third ends in Stable; BOOT_STEP_TIMEOUT acts only
past the limit. Rests on R30, R358, R361, R363, R368, R369, R370, R371, 13_integration_power_boot.md, Tables 13.10 to 13.14. -/
def Obligations.ResetsAndStartUpLeaveTheStatedState : Prop :=
  ∀ (s : State) (rail : Fin 6) (err : Bool) (c n : Nat),
    let good (b : Bool) (t : State) : Prop := t.rf .AON_SUPPLY_GOOD = putBit (s.rf .AON_SUPPLY_GOOD) rail b % 2 ^ fwidth .AON_SUPPLY_GOOD
      ∧ t.rf .AON_SUPPLY_IN_BAND = putBit (s.rf .AON_SUPPLY_IN_BAND) rail false % 2 ^ fwidth .AON_SUPPLY_IN_BAND
    let rails : List (Fld × Nat) := [(.AON_SUPPLY_GOOD, 0), (.AON_SUPPLY_IN_BAND, 0)]
    let held (t : State) : Prop := t.rf .AON_BOOT_CAUSE = 7 ∧ t.coreOn = false
    let was : Prop := bitAt (s.rf .AON_SUPPLY_GOOD) rail = true
    let fails := s.rf .AON_BOOT_FAILS + 1
    let order : Prop := Rising s.regs ∧ NothingPersists s
    let failed (i : Instr) (k : Nat) : Prop :=
      exec i s = .next (s.keep (s.failStart k))
      ∧ (order → fails < 3 → Does i s fun t => t.rf .AON_BOOT_FAILS = fails ∧ t.rf .AON_BOOT_LAST_FAIL = k % 2 ^ fwidth .AON_BOOT_LAST_FAIL
        ∧ t.rf .AON_BOOT_CAUSE = 5 ∧ t.boot = { t := s.now, addr := s.boot.addr, len := s.boot.len })
      ∧ (order → 3 ≤ fails → Does i s fun t => t.rf .AON_BOOT_FAILS = 0 ∧ t.rf .AON_BOOT_LAST_FAIL = k % 2 ^ fwidth .AON_BOOT_LAST_FAIL
        ∧ t.rf .AON_BOOT_CAUSE = 6 ∧ t.rf .AON_BOOT_STABLE = 1 ∧ t.rf .PWR_STATE_CUR = 2)
    (s.coreOn = true → order → Does .coldReset s fun t =>
        ResetTo s t aonFields [.AON_BOOT_CAUSE, .AON_BOOT_STABLE] ∧ t.rf .AON_BOOT_CAUSE = 2 ∧ t.rf .AON_BOOT_STABLE = 0 ∧ t.boot = { t := s.now })
    ∧ (s.coreOn = false → s.railsGood = false → Does .coldReset s fun t => t.coreOn = false ∧ t.rf .AON_BOOT_CAUSE = if s.power.seqHold then 7 else 2)
    ∧ (s.coreOn = true → s.pins.safeN = false → Does .blockReset s fun t =>
        t.power = { s.power with heldReset := true } ∧ t.rdata = 0 ∧ Frame [.power, .rdata] [] s t)
    ∧ (s.coreOn = true → s.pins.safeN = true → exec .blockReset s = .next (s.keep ({ s with rdata := 0 } : State).blockReset))
    ∧ (s.coreOn = true → order → s.activeTeams = [] → (∀ l, l < 6 → s.linkSt l = 0) → Does .blockReset s fun t =>
        ResetTo s t (aonFields ++ cmrFields) [.AON_BOOT_CAUSE, .AON_BOOT_STABLE] ∧ t.rf .AON_BOOT_CAUSE = (if s.safe then 4 else 3)
        ∧ t.rf .AON_BOOT_STABLE = 0 ∧ (s.boot.next = none → t.boot =
          { t := s.now, addr := s.rf .CMR_BOOT_ADDR_ADDR * 4096, len := s.rf .CMR_BOOT_LEN_LEN }))
    ∧ Does .aonPowerUp s (fun t => t.now = 0 ∧ t.mtc = 0 ∧ t.fuses = s.fuses ∧ t.pending = s.pending ∧ t.host = s.host
        ∧ ∀ f i, t.rf f i = fldReset s.fuses f i)
    ∧ (s.earlierGood rail = false → Does (.supplyGood rail) s held ∧ Does (.supplySequenceError rail) s held)
    ∧ (s.earlierGood rail = true → Does (.supplySequenceError rail) s (Frame [] [] s)
        ∧ Does (.supplyGood rail) s fun t => good true t ∧ Frame [.aon] rails s t)
    ∧ (¬ was → Does (.supplyUndervoltage rail) s (Frame [] [] s))
    ∧ (was → s.coreOn = false ∨ (s.rf .PWR_STATE_CUR = 3 ∧ rail ≠ 2) → Does (.supplyUndervoltage rail) s fun t => good false t ∧ Frame [] rails s t)
    ∧ (was → s.coreOn = true → s.rf .PWR_STATE_CUR = 3 → rail = 2 → Does (.supplyUndervoltage rail) s fun t => t.coreOn = false ∧ t.power.off = true)
    ∧ (was → s.coreOn = true → s.rf .PWR_STATE_CUR ≠ 3 → bitAt (s.rf .FLT_STATUS_SOURCES) 2 = true → s.aon.windows = [] →
        Does (.supplyUndervoltage rail) s fun t => good false t ∧ Frame [.aon] rails s t)
    ∧ (s.coreOn = true →
      (s.boot.step ≠ 1 → Does .pllLock s (Frame [] [] s))
      ∧ (s.boot.step = 1 → Does .pllLock s fun t => Frame [.boot] [] s t
        ∧ t.boot = { s.boot with step := if s.rf .AON_BOOT_CAUSE ∈ [3, 4, 5] then 3 else 2, t := s.now })
      ∧ (s.boot.step ≠ 3 → Does (.imageFetchComplete err) s (Frame [] [] s))
      ∧ (s.boot.step = 3 → failed (.imageFetchComplete true) 1)
      ∧ (s.boot.step = 3 → s.imageFail s.boot.addr s.boot.len = some c → failed (.imageFetchComplete false) c)
      ∧ (s.boot.step = 3 → s.imageFail s.boot.addr s.boot.len = none → Does (.imageFetchComplete false) s fun t =>
        t.boot = { s.boot with step := 5, t := s.now } ∧ Frame [.boot] [] s t)
      ∧ (s.bootLimit = none → Does .bootStepTimeout s (Frame [] [] s))
      ∧ (s.bootLimit = some n → s.now < s.boot.t + n ∨ s.stable = true → Does .bootStepTimeout s (Frame [] [] s))
      ∧ (s.bootLimit = some n → s.boot.t + n ≤ s.now → s.stable = false → (s.boot.step = 3 → failed .bootStepTimeout 1)
        ∧ (s.boot.step = 5 → failed .bootStepTimeout 6) ∧ (s.boot.step = 1 → s.time.ref = .lost → Does .bootStepTimeout s (Frame [] [] s)))
      ∧ (s.boot.step ≠ 6 → Does .depotTrainingComplete s (Frame [] [] s))
      ∧ (s.boot.step = 6 → s.boot.held = [] → Does .depotTrainingComplete s fun t => t.boot = { s.boot with step := 7, t := s.now }
        ∧ t.rf .DEP_STATUS_TRAINED = 0xFFFF ∧ t.rf .AON_BOOT_FAILS = 0 ∧ Frame [.boot] [(.DEP_STATUS_TRAINED, 0), (.AON_BOOT_FAILS, 0)] s t))

/-- From every state with the core on that is not in the safe state, SAFE_N_ASSERT answers a state with SAFE_N low,
FLT_CTL.SAFE set, SAFE_IN latched, FLT_N low, the stage engine STOPPED, every team that was defined now aborted, every
link DISABLED or DARK, and host memory, depot and scratchpad as before. In the safe state with SAFE_IN latched it only
shows the pin. SAFE_N_RELEASE shows the pin and takes a held block reset. Rests on R319, R320, R321,
12_faults_resets_recovery.md, Table 12.2. -/
def Obligations.SafeStateStopsEngineTeamsAndLinks : Prop :=
  ∀ (s : State), s.coreOn = true →
    let hi : State := { s with pins := { s.pins with safeN := true } }
    (s.safe = false → Does .safeNAssert s fun t =>
        t.pins.safeN = false ∧ t.rf .FLT_CTL_SAFE = 1 ∧ bitAt (t.rf .FLT_STATUS_SOURCES) 8 = true ∧ t.fltN = false ∧ t.rf .TT_STATUS_STATE = 0
        ∧ (∀ k, k < 64 → s.rf .TT_TEAM_STATE k = 1 → t.rf .TT_TEAM_STATE k = 2)
        ∧ (∀ l, l < 6 → t.linkSt l = if s.linkSt l = 0 then 0 else 1)
        ∧ Keeps [.host, .depot, .scratch] s t)
    ∧ (s.safe = true → bitAt (s.rf .FLT_STATUS_SOURCES) 8 = true → Does .safeNAssert s fun t =>
        t.pins = { s.pins with safeN := false } ∧ Frame [.pins] [] s t)
    ∧ (s.power.heldReset = false → Does .safeNRelease s fun t => t.pins = hi.pins ∧ Frame [.pins] [] s t)
    ∧ (s.power.heldReset = true → exec .safeNRelease s = .next (s.keep hi.blockReset))

/-- For every command c and state s: a step with c at the front of the queue is exec of c on s with the rest of the
queue. With an empty queue (the model's choice, log entry 1) and the core domain on, one core cycle passes after what
the router and the degraded instances do in it; where no carriage, unit or such instance waits, nothing changes but the
time: within a reference period the interpolation goes on by 0.625 ns, at its end the machine time counter advances by
8 ns, 8 ps more or less while a slew is in progress and by at most what is left of it, less what is frozen. With the
core domain off the step is one edge of the reference and nothing is interpolated. Rests on R31, R42, R203, R214,
02_stages_and_time.md, 2.1 and 2.3. -/
def Obligations.StepRunsTheFrontCommandOrOneReferenceEdge : Prop :=
  ∀ (s : State) (c : Instr) (rest : List Instr),
    let d : Int := 524288 + if 0 ≤ s.time.slew then min s.time.slew 524 else max s.time.slew (-524)
    let u := s.rf .AON_MTC_MTC_NS * 65536 + s.time.frac + (d.toNat - s.time.freeze)
    let edge (sub : Nat) (t : State) : Prop := t.rf .AON_MTC_MTC_NS = u / 65536 % 2 ^ 64
      ∧ t.time = { s.time with slew := s.time.slew - (d - 524288), freeze := s.time.freeze - d.toNat, frac := u % 65536, sub := sub }
      ∧ Frame [.time] [(.AON_MTC_MTC_NS, 0)] s t
    let still : Prop := s.net.outq = [] ∧ s.net.unitq = []
      ∧ ∀ i ∈ s.insts, (i.hold = false ∨ i.st ≠ .running) ∧ i.op ≠ 0x48 ∧ i.op ≠ 0x49
    (s.pending = c :: rest → step s = exec c { s with pending := rest })
    ∧ (s.pending = [] → s.coreOn = false → ∃ t, step s = .next t ∧ edge 0 t)
    ∧ (s.pending = [] → s.coreOn = true → step s = .next (cycle s.routerCycle.heldRuns.movesDone))
    ∧ (s.pending = [] → s.coreOn = true → still → s.time.sub + 5 < 64 → ∃ t, step s = .next t
        ∧ t.time = { s.time with sub := s.time.sub + 5 } ∧ (s.time.freeze = 0 → t.mtc = s.mtc + 40960) ∧ Frame [.time] [] s t)
    ∧ (s.pending = [] → s.coreOn = true → still → 64 ≤ s.time.sub + 5 → ∃ t, step s = .next t ∧ edge (s.time.sub + 5 - 64) t)

/-- In State.reset no command waits, the core domain runs in start-up step 1, the counter reads 0, every register
field reads its reset value, among them a stage length of 8 us, engine STOPPED, links DISABLED, FLT_STATUS 0, no safe
state, not out of service, not Stable; FLT_N is high; no memory byte is listed, and the state is canonical in the
sense of the invariant. What the fuses fix is the model's choice (log entry 3). Rests on R30, R46, R314, R316, R319,
R369, 13_integration_power_boot.md, Tables 13.11 and 13.14. -/
def Obligations.ResetLeavesTheStatedValues : Prop :=
  let s := State.reset
  s.pending = [] ∧ s.coreOn = true ∧ s.boot.step = 1 ∧ s.mtc = 0 ∧ s.stageLen = 8000 ∧ s.engSt = 0 ∧ (∀ l, l < 6 → s.linkSt l = 0)
    ∧ s.rf .FLT_STATUS_SOURCES = 0 ∧ s.safe = false ∧ s.oos = false ∧ s.stable = false ∧ s.fltN = true
    ∧ (∀ f i, s.rf f i = fldReset s.fuses f i) ∧ (∀ t, t < 64 → s.rf .TT_TEAM_STATE t = 0) ∧ s.posts = [] ∧ s.insts = [] ∧ s.qs = {} ∧ s.net = {}
    ∧ s.host = [] ∧ s.depot = [] ∧ s.scratch = [] ∧ Canonical s

/-- No command is ever refused. A command stops only with the fault controlPortDead, and only while the core domain is
off or held in reset. Where it answers a next state, that state has the queue's rest and the same fuses. While the
core domain is off or held in reset, a command that is not one of the always-on island (rails, light comparators,
reference, cold reset, power-up) either stops so or changes nothing at all. Rests on R349, R363, R368, 13_integration_power_boot.md, Table 13.10.
-/
def Obligations.NoCommandIsRefusedAndOnlyADeadPortStops : Prop :=
  ∀ (s : State) (c : Instr),
    (∀ r, exec c s ≠ .refused r) ∧ (∀ f, exec c s = .fault f → f = .controlPortDead ∧ s.coreOn = false)
    ∧ (∀ t, exec c s = .next t → t.pending = s.pending ∧ t.fuses = s.fuses)
    ∧ (∀ t rest, s.pending = c :: rest → step s = .next t → t.pending = rest ∧ t.fuses = s.fuses)
    ∧ (s.coreOn = false → alwaysOn c = false → exec c s = .fault .controlPortDead ∨ exec c s = .next s)

/-- From every state, after any step that answers a next state (a reset of any kind among them) each GLB register
other than GLB_STATUS and GLB_SCRATCH has the value it had. In every state in which the control port answers, a read
of such a register answers that value. GLB_CFG0 and GLB_CFG1 hold the numbers of Table 0.1 for the configuration,
CONFIG as Table 3.1 codes it. Formalises R377. -/
def Obligations.FusedRegistersNeverChange : Prop :=
  (∀ (s t : State), step s = .next t → ∀ r, fused r = true → t.regVal r 0 = s.regVal r 0)
    ∧ (∀ (s : State) (r : Reg), s.coreOn = true → fused r = true →
      Does (.registerReadClear (BitVec.ofNat 26 (regOff r 0)) 0xFF) s fun t => t.rdata = s.regVal r 0 ∧ Frame [.rdata] [] s t)
    ∧ ∀ (s : State),
      let k : Nat × Nat × Nat × Nat × Nat × Nat × Nat := match s.fuses.conf with
        | .pony => (1024, 1024, 4096, 16, 0, 96, 8)
        | .cob => (4096, 2048, 8192, 32, 1, 144, 16)
        | .shire => (16384, 4096, 16384, 64, 2, 192, 32)
      (∀ r, fused r = true ↔ r ∈ [Reg.GLB_ID, .GLB_CFG0, .GLB_CFG1, .GLB_CFG2, .GLB_CAP, .GLB_FREQ, .GLB_SERIAL])
      ∧ s.rd .GLB_CFG0_ENDPOINTS 0 = k.1 ∧ s.rd .GLB_CFG0_QUEUES 0 = k.2.1 ∧ s.rd .GLB_CFG0_SYNC_OBJS 0 = k.2.2.1 ∧ s.rd .GLB_CFG0_TEAMS 0 = k.2.2.2.1
      ∧ s.rd .GLB_CFG0_CONFIG 0 = k.2.2.2.2.1 ∧ s.rd .GLB_CFG1_SCRATCH_MIB 0 = k.2.2.2.2.2.1 ∧ s.rd .GLB_CFG1_DEPOT_GIB 0 = k.2.2.2.2.2.2
      ∧ s.regVal .GLB_CFG0 0 = k.1 * 2 ^ 48 + k.2.1 * 2 ^ 32 + k.2.2.1 * 2 ^ 16 + k.2.2.2.1 * 2 ^ 8 + k.2.2.2.2.1
      ∧ s.regVal .GLB_CFG1 0 = k.2.2.2.2.2.1 * 2 ^ 32 + k.2.2.2.2.2.2 * 2 ^ 16 + 8192

/-- If the register file of a state lists each field at most once in rising order and host memory, depot and
scratchpad are in canonical form (addresses strictly rising, no listed byte equal to what an unlisted one reads as),
then so it is in every next state that a step answers. The statements about resets and about the cleared scratchpad
bank rest on this form. Rests on R9, R373, 00_scope.md, 0.4, 13_integration_power_boot.md, Table 13.14. -/
def Obligations.EveryStepKeepsTheStateCanonical : Prop :=
  ∀ (s t : State), Canonical s → step s = .next t → Canonical t

/-- The CRC of a carriage is the CRC-32C of header bytes 0 to 12, the payload and trailer bytes 4 to 7 in that order,
and a new carriage holds it in its trailer. Whatever hop fields a router writes, header bytes 0 to 12, payload and
trailer stay as they were, the trailer CRC stays right or wrong as it was, and HCHK is recomputed: the low byte of the
CRC-32C of header bytes 0 to 14. Every carriage that leaves on a link leaves so, after the units that waited, with the
sub-link's next LSN and RETRY 0; a replay, outside the guard, leaves so with its own LSN. Formalises R173. -/
def Obligations.TheTrailerTravelsUnchangedUnderARightHeaderCheck : Prop :=
  ∀ (s : State) (l t m lsn retry : Nat) (c : Carriage) (dph rev rdir : Bool) (k : CarInfo) (bs : List Byte),
    let c1 := setHop c lsn retry dph rev rdir
    let out := setHop c (s.sub l t).next 0 (cDphase c) (cRev c) (cRdir c)
    carCrc c = crc32c ((leBytes 16 c.hdr.toNat).take 13 ++ c.payload ++ (leBytes 8 c.trl.toNat).drop 4)
    ∧ tCrc (mkCarriage k bs) = carCrc (mkCarriage k bs) ∧ cHchk (mkCarriage k bs) = crc32c ((leBytes 16 (mkCarriage k bs).hdr.toNat).take 15) % 256
    ∧ c1.payload = c.payload ∧ c1.trl = c.trl ∧ (leBytes 16 c1.hdr.toNat).take 13 = (leBytes 16 c.hdr.toNat).take 13
    ∧ cLsn c1 = lsn % 2048 ∧ cRetry c1 = retry % 4 ∧ cDphase c1 = dph ∧ cRev c1 = rev ∧ cRdir c1 = rdir
    ∧ cHchk c1 = crc32c ((leBytes 16 c1.hdr.toNat).take 15) % 256 ∧ crcGood c1 = crcGood c
    ∧ ((s.sendOn l t c m).outbox.drop (s.outbox.length + (waitingUnits s l t).length)).head? = some (.carriage l t out)
    ∧ ∀ (li : Link) (u : Tenant) (e : RetryEnt), s.coreOn = true → s.subFree li u = true → s.inGuard = false → (s.sub li u).retry.find? (fun e => e.replay) = some e →
      Does (.replaySend li u) s fun v => (v.outbox.drop s.outbox.length).head? = some (.carriage li u
        (setHop e.c e.lsn (if e.again then e.retry else min 3 (e.retry + 1)) (cDphase e.c) (cRev e.c) (cRdir e.c)))

/-- The word that the encoding tables of 3.4 give a postilion instruction decodes, on its postilion, to that
instruction with all its operands, for every value of every operand. A word whose opcode the tables do not define
decodes to an undefined opcode, and only such a word does. Rests on R74, R75, 03_timetables_and_postilions.md, 3.4 and
Table 3.5. -/
def Obligations.PostilionWordsDecodeToTheirInstruction : Prop :=
  (∀ (i : Instr) (w : BitVec 32), encodePost i = some w → ∃ p, decodePost p w = i)
    ∧ ∀ (p : PostId) (w : BitVec 32), (∃ op, decodePost p w = .undefinedOpcode p op) ↔
      w.toNat / 2 ^ 26 ∉ List.range 0x0B ++ [0x10, 0x11, 0x12, 0x13, 0x14, 0x18, 0x19, 0x1C, 0x20, 0x21, 0x22, 0x23] ++ (List.range 8).map (· + 0x28)
end

