-- ==== Sys2Proof/Laws/Sparse.lean ====
section
/-! SUPPORT. Laws of sparse maps and of the byte memories built from them: reading after writing on every list, and the canonical
form kept by every write. -/

namespace Sys2Proof.Machine

variable {α : Type}

theorem sget_dropWhile (d : Nat → α) (m : List (Nat × α)) (a k : Nat) (h : a < k) :
    sget d (m.dropWhile fun x => decide (x.1 ≤ a)) k = sget d m k := by
  induction m with
  | nil => rfl
  | cons x t ih =>
    obtain ⟨j, w⟩ := x
    by_cases hj : j ≤ a
    · have h1 : ¬ k < j := by omega
      have h2 : k ≠ j := by omega
      simp [hj, ih, sget, h1, h2]
    · simp [hj]

theorem sget_dropWhile_self (d : Nat → α) (m : List (Nat × α)) (a : Nat) :
    sget d (m.dropWhile fun x => decide (x.1 ≤ a)) a = d a := by
  induction m with
  | nil => rfl
  | cons x t ih =>
    obtain ⟨j, w⟩ := x
    by_cases hj : j ≤ a
    · simp [hj, ih]
    · have : a < j := by omega
      simp [hj, sget, this]

variable [DecidableEq α]

theorem sget_sset_same (d : Nat → α) (m : List (Nat × α)) (k : Nat) (v : α) : sget d (sset d m k v) k = v := by
  induction m with
  | nil => by_cases hv : v = d k <;> simp [sset, sget, hv]
  | cons x t ih =>
    obtain ⟨j, w⟩ := x
    by_cases h1 : k < j
    · by_cases hv : v = d k <;> simp [sset, sget, h1, hv]
    · by_cases h2 : k = j
      · by_cases hv : v = d k
        · subst h2; subst hv; simp [sset, sget_dropWhile_self]
        · subst h2; simp [sset, sget, hv]
      · simp [sset, sget, h1, h2, ih]

theorem sget_sset_other (d d' : Nat → α) (m : List (Nat × α)) (a k : Nat) (v : α) (h : a ≠ k) :
    sget d' (sset d m k v) a = sget d' m a := by
  induction m with
  | nil => by_cases hv : v = d k <;> simp [sset, sget, hv, h]
  | cons x t ih =>
    obtain ⟨j, w⟩ := x
    by_cases h1 : k < j
    · by_cases hv : v = d k
      · simp [sset, h1, hv]
      · by_cases h3 : a < k
        · have : a < j := by omega
          simp [sset, sget, h1, hv, h3, this]
        · simp [sset, sget, h1, hv, h3, h]
    · by_cases h2 : k = j
      · subst h2
        by_cases hv : v = d k
        · simp only [sset, h1, if_false, if_true, hv]
          by_cases h3 : a < k
          · simp only [sget, h3, if_true]
            have : ∀ l : List (Nat × α), sget d' (l.dropWhile fun x => decide (x.1 ≤ k)) a = d' a := by
              intro l
              induction l with
              | nil => rfl
              | cons y l ihl =>
                obtain ⟨i, u⟩ := y
                by_cases hi : i ≤ k
                · simpa [hi] using ihl
                · have : a < i := by omega
                  simp [hi, sget, this]
            exact this t
          · have h4 : k < a := by omega
            simp only [sget, h3, h, if_false]
            exact sget_dropWhile d' t k a h4
        · simp [sset, sget, hv, h]
      · simp only [sset, sget, h1, h2, if_false, ih]

theorem sget_sset (d : Nat → α) (m : List (Nat × α)) (a k : Nat) (v : α) :
    sget d (sset d m k v) a = if a = k then v else sget d m a := by
  by_cases h : a = k
  · subst h; simp [sget_sset_same]
  · simp [h, sget_sset_other d d m a k v h]

/-- Keys of a list are all above k. -/
abbrev above (k : Nat) (m : List (Nat × α)) : Bool := m.all fun x => decide (k < x.1)

omit [DecidableEq α] in
theorem above_cons (a j : Nat) (w : α) (t : List (Nat × α)) : above a ((j, w) :: t) = true ↔ a < j ∧ above a t = true := by
  simp [above]

omit [DecidableEq α] in
theorem above_trans {a b : Nat} (h : a < b) (m : List (Nat × α)) (hm : above b m = true) : above a m = true := by
  simp only [above, List.all_eq_true, decide_eq_true_eq] at hm ⊢
  intro x hx; exact Nat.lt_trans h (hm x hx)

theorem above_sset (d : Nat → α) (m : List (Nat × α)) (a k : Nat) (v : α) (h : a < k) (hm : above a m = true) :
    above a (sset d m k v) = true := by
  induction m with
  | nil => by_cases hv : v = d k <;> simp [sset, hv, h]
  | cons x t ih =>
    obtain ⟨j, w⟩ := x
    rw [above_cons] at hm
    have ht : above a t = true := hm.2
    by_cases h1 : k < j
    · by_cases hv : v = d k <;> simp only [sset, h1, hv, if_true, if_false, above_cons] <;> exact ⟨by omega, by first | exact ht | exact ⟨hm.1, ht⟩⟩
    · by_cases h2 : k = j
      · by_cases hv : v = d k
        · simp only [sset, h1, h2, if_true, if_false, hv, Nat.lt_irrefl]
          simp only [above, List.all_eq_true, decide_eq_true_eq] at ht ⊢
          intro x hx; exact ht x (List.dropWhile_sublist _ |>.subset hx)
        · subst h2; simp only [sset, hv, if_true, if_false, Nat.lt_irrefl, above_cons]; exact ⟨h, ht⟩
      · simp only [sset, h1, h2, if_false, above_cons]; exact ⟨hm.1, ih ht⟩

/-- A write keeps the canonical form. -/
theorem swf_sset (d : Nat → α) (m : List (Nat × α)) (k : Nat) (v : α) (h : swf d m = true) : swf d (sset d m k v) = true := by
  induction m with
  | nil => by_cases hv : v = d k <;> simp [sset, swf, hv]
  | cons x t ih =>
    obtain ⟨j, w⟩ := x
    simp only [swf, Bool.and_eq_true, bne_iff_ne, ne_eq] at h
    obtain ⟨⟨hw, ha⟩, ht⟩ := h
    by_cases h1 : k < j
    · by_cases hv : v = d k
      · simp [sset, h1, hv, swf, hw, ht]; simpa using ha
      · have hb : above k t = true := above_trans h1 t ha
        simp [sset, h1, hv, swf, hw, ht]
        exact ⟨by simpa using hb, by simpa using ha⟩
    · by_cases h2 : k = j
      · subst h2
        by_cases hv : v = d k
        · have hd : t.dropWhile (fun x => decide (x.1 ≤ k)) = t := by
            cases t with
            | nil => rfl
            | cons y t =>
              simp only [List.all_cons, Bool.and_eq_true, decide_eq_true_eq] at ha
              have : ¬ y.1 ≤ k := by omega
              simp [this]
          simp [sset, hv, hd, ht]
        · simp [sset, swf, hv, ht]; simpa using ha
      · have h3 : j < k := by omega
        have hs := above_sset d t j k v h3 ha
        simp [sset, h1, h2, swf, hw, ih ht]
        simpa using hs

omit [DecidableEq α] in
theorem above_skeep (f : Nat → Bool) (a : Nat) (m : List (Nat × α)) (h : above a m = true) : above a (skeep f m) = true := by
  simp only [above, List.all_eq_true, decide_eq_true_eq] at h ⊢
  intro x hx; exact h x (List.mem_filter.mp hx).1

/-- Dropping keys keeps the canonical form. -/
theorem swf_skeep (d : Nat → α) (f : Nat → Bool) (m : List (Nat × α)) (h : swf d m = true) : swf d (skeep f m) = true := by
  induction m with
  | nil => rfl
  | cons x t ih =>
    obtain ⟨j, w⟩ := x
    simp only [swf, Bool.and_eq_true, bne_iff_ne, ne_eq] at h
    obtain ⟨⟨hw, ha⟩, ht⟩ := h
    have := above_skeep f j t ha
    by_cases hj : f j = true
    · have e : skeep f ((j, w) :: t) = (j, w) :: skeep f t := by simp [skeep, hj]
      rw [e]; simp [swf, hw, ih ht]; simpa using this
    · have e : skeep f ((j, w) :: t) = skeep f t := by simp [skeep, hj]
      rw [e]; exact ih ht

/-! ## Byte memories -/

theorem wf_wrBytes (m : List (Nat × Byte)) (a : Nat) (bs : List Byte) (h : Memory.wf m = true) :
    Memory.wf (wrBytes m a bs) = true := by
  induction bs generalizing m a with
  | nil => exact h
  | cons b t ih => exact ih _ _ (swf_sset byte0 m a b h)

/-- A byte after a write of several: the written byte inside the range, the old one outside. -/
theorem sget_wrBytes (m : List (Nat × Byte)) (a k : Nat) (bs : List Byte) :
    sget byte0 (wrBytes m a bs) k = if a ≤ k ∧ k < a + bs.length then bs.getD (k - a) 0 else sget byte0 m k := by
  induction bs generalizing m a with
  | nil => simp [wrBytes]
  | cons b t ih =>
    simp only [wrBytes, ih, sget_sset, List.length_cons]
    by_cases h1 : k = a
    · subst h1; simp
    · by_cases h2 : a < k
      · have e : k - a = (k - (a + 1)) + 1 := by omega
        have i1 : (a + 1 ≤ k ∧ k < a + 1 + t.length) ↔ (a ≤ k ∧ k < a + (t.length + 1)) := by omega
        simp only [h1, if_false, e, List.getD_cons_succ]
        by_cases h3 : a ≤ k ∧ k < a + (t.length + 1)
        · rw [if_pos (i1.mpr h3), if_pos h3]
        · rw [if_neg (fun h => h3 (i1.mp h)), if_neg h3]
      · have n1 : ¬ (a + 1 ≤ k ∧ k < a + 1 + t.length) := by omega
        have n2 : ¬ (a ≤ k ∧ k < a + (t.length + 1)) := by omega
        rw [if_neg n1, if_neg n2, if_neg h1]

theorem length_leBytes (k n : Nat) : (leBytes k n).length = k := by
  induction k generalizing n with
  | zero => rfl
  | succ k ih => simp [leBytes, ih]

theorem length_rdBytes (m : List (Nat × Byte)) (a k : Nat) : (rdBytes m a k).length = k := by
  induction k generalizing a with
  | zero => rfl
  | succ k ih => simp [rdBytes, ih]

/-- Bytes written are the bytes read. -/
theorem rdBytes_wrBytes (m : List (Nat × Byte)) (a : Nat) (bs : List Byte) : rdBytes (wrBytes m a bs) a bs.length = bs := by
  have gen : ∀ (l : List (Nat × Byte)) (b k : Nat), rdBytes l b k = (List.range k).map fun j => sget byte0 l (b + j) := by
    intro l b k
    induction k generalizing b with
    | zero => rfl
    | succ k ih =>
      simp only [rdBytes, ih, List.range_succ_eq_map, List.map_cons, List.map_map, Nat.add_zero]
      congr 1
      apply List.map_congr_left
      intro j _; simp [Nat.add_assoc, Nat.add_comm 1 j]
  rw [gen]
  apply List.ext_getElem
  · simp
  · intro i h1 h2
    simp only [List.getElem_map, List.getElem_range, sget_wrBytes]
    have : a ≤ a + i ∧ a + i < a + bs.length := by simp at h1; omega
    rw [if_pos this]
    simp [List.getD, h2]

end Sys2Proof.Machine
end

