-- ==== Sys2Proof/Laws/State.lean ====
section
/-! SUPPORT. What each update of the state leaves alone: one simp lemma per update, its clauses one per field, each true by rfl; register fields after
an update. -/

namespace Sys2Proof.Machine

@[simp] theorem State.setf_frame (s : State) (f : Fld) (i v : Nat) :
    (s.setf f i v).pending = s.pending ∧ (s.setf f i v).fuses = s.fuses ∧ (s.setf f i v).pins = s.pins ∧
    (s.setf f i v).shadows = s.shadows ∧ (s.setf f i v).rdata = s.rdata ∧ (s.setf f i v).host = s.host ∧
    (s.setf f i v).depot = s.depot ∧ (s.setf f i v).scratch = s.scratch ∧ (s.setf f i v).outbox = s.outbox ∧
    (s.setf f i v).fresh = s.fresh ∧ (s.setf f i v).serial = s.serial ∧ (s.setf f i v).time = s.time ∧
    (s.setf f i v).eng = s.eng ∧ (s.setf f i v).tt = s.tt ∧ (s.setf f i v).posts = s.posts ∧
    (s.setf f i v).mesh = s.mesh ∧ (s.setf f i v).teams = s.teams ∧ (s.setf f i v).insts = s.insts ∧
    (s.setf f i v).qs = s.qs ∧ (s.setf f i v).sync = s.sync ∧ (s.setf f i v).aon = s.aon ∧
    (s.setf f i v).yards = s.yards ∧ (s.setf f i v).boot = s.boot ∧ (s.setf f i v).power = s.power ∧
    (s.setf f i v).net = s.net ∧ (s.setf f i v).links = s.links ∧ (s.setf f i v).arr = s.arr ∧
    (s.setf f i v).groom = s.groom ∧ (s.setf f i v).hitch = s.hitch :=
  ⟨rfl, rfl, rfl, rfl, rfl, rfl, rfl, rfl, rfl, rfl, rfl, rfl, rfl, rfl, rfl, rfl, rfl, rfl, rfl, rfl, rfl, rfl, rfl, rfl, rfl, rfl, rfl, rfl, rfl⟩

@[simp] theorem State.sat_frame (s : State) (f : Fld) (i n : Nat) :
    (s.sat f i n).pending = s.pending ∧ (s.sat f i n).fuses = s.fuses ∧ (s.sat f i n).pins = s.pins ∧
    (s.sat f i n).shadows = s.shadows ∧ (s.sat f i n).rdata = s.rdata ∧ (s.sat f i n).host = s.host ∧
    (s.sat f i n).depot = s.depot ∧ (s.sat f i n).scratch = s.scratch ∧ (s.sat f i n).outbox = s.outbox ∧
    (s.sat f i n).fresh = s.fresh ∧ (s.sat f i n).serial = s.serial ∧ (s.sat f i n).time = s.time ∧
    (s.sat f i n).eng = s.eng ∧ (s.sat f i n).tt = s.tt ∧ (s.sat f i n).posts = s.posts ∧ (s.sat f i n).mesh = s.mesh ∧
    (s.sat f i n).teams = s.teams ∧ (s.sat f i n).insts = s.insts ∧ (s.sat f i n).qs = s.qs ∧
    (s.sat f i n).sync = s.sync ∧ (s.sat f i n).aon = s.aon ∧ (s.sat f i n).yards = s.yards ∧
    (s.sat f i n).boot = s.boot ∧ (s.sat f i n).power = s.power ∧ (s.sat f i n).net = s.net ∧
    (s.sat f i n).links = s.links ∧ (s.sat f i n).arr = s.arr ∧ (s.sat f i n).groom = s.groom ∧
    (s.sat f i n).hitch = s.hitch :=
  ⟨rfl, rfl, rfl, rfl, rfl, rfl, rfl, rfl, rfl, rfl, rfl, rfl, rfl, rfl, rfl, rfl, rfl, rfl, rfl, rfl, rfl, rfl, rfl, rfl, rfl, rfl, rfl, rfl, rfl⟩

@[simp] theorem State.inc_frame (s : State) (f : Fld) (i n : Nat) :
    (s.inc f i n).pending = s.pending ∧ (s.inc f i n).fuses = s.fuses ∧ (s.inc f i n).pins = s.pins ∧
    (s.inc f i n).shadows = s.shadows ∧ (s.inc f i n).rdata = s.rdata ∧ (s.inc f i n).host = s.host ∧
    (s.inc f i n).depot = s.depot ∧ (s.inc f i n).scratch = s.scratch ∧ (s.inc f i n).outbox = s.outbox ∧
    (s.inc f i n).fresh = s.fresh ∧ (s.inc f i n).serial = s.serial ∧ (s.inc f i n).time = s.time ∧
    (s.inc f i n).eng = s.eng ∧ (s.inc f i n).tt = s.tt ∧ (s.inc f i n).posts = s.posts ∧ (s.inc f i n).mesh = s.mesh ∧
    (s.inc f i n).teams = s.teams ∧ (s.inc f i n).insts = s.insts ∧ (s.inc f i n).qs = s.qs ∧
    (s.inc f i n).sync = s.sync ∧ (s.inc f i n).aon = s.aon ∧ (s.inc f i n).yards = s.yards ∧
    (s.inc f i n).boot = s.boot ∧ (s.inc f i n).power = s.power ∧ (s.inc f i n).net = s.net ∧
    (s.inc f i n).links = s.links ∧ (s.inc f i n).arr = s.arr ∧ (s.inc f i n).groom = s.groom ∧
    (s.inc f i n).hitch = s.hitch :=
  ⟨rfl, rfl, rfl, rfl, rfl, rfl, rfl, rfl, rfl, rfl, rfl, rfl, rfl, rfl, rfl, rfl, rfl, rfl, rfl, rfl, rfl, rfl, rfl, rfl, rfl, rfl, rfl, rfl, rfl⟩

@[simp] theorem State.flag_frame (s : State) (f : Fld) (i : Nat) (b : Bool) :
    (s.flag f i b).pending = s.pending ∧ (s.flag f i b).fuses = s.fuses ∧ (s.flag f i b).pins = s.pins ∧
    (s.flag f i b).shadows = s.shadows ∧ (s.flag f i b).rdata = s.rdata ∧ (s.flag f i b).host = s.host ∧
    (s.flag f i b).depot = s.depot ∧ (s.flag f i b).scratch = s.scratch ∧ (s.flag f i b).outbox = s.outbox ∧
    (s.flag f i b).fresh = s.fresh ∧ (s.flag f i b).serial = s.serial ∧ (s.flag f i b).time = s.time ∧
    (s.flag f i b).eng = s.eng ∧ (s.flag f i b).tt = s.tt ∧ (s.flag f i b).posts = s.posts ∧
    (s.flag f i b).mesh = s.mesh ∧ (s.flag f i b).teams = s.teams ∧ (s.flag f i b).insts = s.insts ∧
    (s.flag f i b).qs = s.qs ∧ (s.flag f i b).sync = s.sync ∧ (s.flag f i b).aon = s.aon ∧
    (s.flag f i b).yards = s.yards ∧ (s.flag f i b).boot = s.boot ∧ (s.flag f i b).power = s.power ∧
    (s.flag f i b).net = s.net ∧ (s.flag f i b).links = s.links ∧ (s.flag f i b).arr = s.arr ∧
    (s.flag f i b).groom = s.groom ∧ (s.flag f i b).hitch = s.hitch :=
  ⟨rfl, rfl, rfl, rfl, rfl, rfl, rfl, rfl, rfl, rfl, rfl, rfl, rfl, rfl, rfl, rfl, rfl, rfl, rfl, rfl, rfl, rfl, rfl, rfl, rfl, rfl, rfl, rfl, rfl⟩

@[simp] theorem State.setMtc_frame (s : State) (u : Nat) :
    (s.setMtc u).pending = s.pending ∧ (s.setMtc u).fuses = s.fuses ∧ (s.setMtc u).pins = s.pins ∧
    (s.setMtc u).shadows = s.shadows ∧ (s.setMtc u).rdata = s.rdata ∧ (s.setMtc u).host = s.host ∧
    (s.setMtc u).depot = s.depot ∧ (s.setMtc u).scratch = s.scratch ∧ (s.setMtc u).outbox = s.outbox ∧
    (s.setMtc u).fresh = s.fresh ∧ (s.setMtc u).serial = s.serial ∧ (s.setMtc u).eng = s.eng ∧ (s.setMtc u).tt = s.tt ∧
    (s.setMtc u).posts = s.posts ∧ (s.setMtc u).mesh = s.mesh ∧ (s.setMtc u).teams = s.teams ∧
    (s.setMtc u).insts = s.insts ∧ (s.setMtc u).qs = s.qs ∧ (s.setMtc u).sync = s.sync ∧ (s.setMtc u).aon = s.aon ∧
    (s.setMtc u).yards = s.yards ∧ (s.setMtc u).boot = s.boot ∧ (s.setMtc u).power = s.power ∧ (s.setMtc u).net = s.net ∧
    (s.setMtc u).links = s.links ∧ (s.setMtc u).arr = s.arr ∧ (s.setMtc u).groom = s.groom ∧ (s.setMtc u).hitch = s.hitch :=
  ⟨rfl, rfl, rfl, rfl, rfl, rfl, rfl, rfl, rfl, rfl, rfl, rfl, rfl, rfl, rfl, rfl, rfl, rfl, rfl, rfl, rfl, rfl, rfl, rfl, rfl, rfl, rfl, rfl⟩

@[simp] theorem State.emit_frame (s : State) (o : OutEv) :
    (s.emit o).pending = s.pending ∧ (s.emit o).fuses = s.fuses ∧ (s.emit o).pins = s.pins ∧ (s.emit o).regs = s.regs ∧
    (s.emit o).shadows = s.shadows ∧ (s.emit o).rdata = s.rdata ∧ (s.emit o).host = s.host ∧ (s.emit o).depot = s.depot ∧
    (s.emit o).scratch = s.scratch ∧ (s.emit o).fresh = s.fresh ∧ (s.emit o).serial = s.serial ∧
    (s.emit o).time = s.time ∧ (s.emit o).eng = s.eng ∧ (s.emit o).tt = s.tt ∧ (s.emit o).posts = s.posts ∧
    (s.emit o).mesh = s.mesh ∧ (s.emit o).teams = s.teams ∧ (s.emit o).insts = s.insts ∧ (s.emit o).qs = s.qs ∧
    (s.emit o).sync = s.sync ∧ (s.emit o).aon = s.aon ∧ (s.emit o).yards = s.yards ∧ (s.emit o).boot = s.boot ∧
    (s.emit o).power = s.power ∧ (s.emit o).net = s.net ∧ (s.emit o).links = s.links ∧ (s.emit o).arr = s.arr ∧
    (s.emit o).groom = s.groom ∧ (s.emit o).hitch = s.hitch :=
  ⟨rfl, rfl, rfl, rfl, rfl, rfl, rfl, rfl, rfl, rfl, rfl, rfl, rfl, rfl, rfl, rfl, rfl, rfl, rfl, rfl, rfl, rfl, rfl, rfl, rfl, rfl, rfl, rfl, rfl⟩

@[simp] theorem State.wrHost_frame (s : State) (a : Nat) (bs : List Byte) :
    (s.wrHost a bs).pending = s.pending ∧ (s.wrHost a bs).fuses = s.fuses ∧ (s.wrHost a bs).pins = s.pins ∧
    (s.wrHost a bs).regs = s.regs ∧ (s.wrHost a bs).shadows = s.shadows ∧ (s.wrHost a bs).rdata = s.rdata ∧
    (s.wrHost a bs).depot = s.depot ∧ (s.wrHost a bs).scratch = s.scratch ∧ (s.wrHost a bs).outbox = s.outbox ∧
    (s.wrHost a bs).fresh = s.fresh ∧ (s.wrHost a bs).serial = s.serial ∧ (s.wrHost a bs).time = s.time ∧
    (s.wrHost a bs).eng = s.eng ∧ (s.wrHost a bs).tt = s.tt ∧ (s.wrHost a bs).posts = s.posts ∧
    (s.wrHost a bs).mesh = s.mesh ∧ (s.wrHost a bs).teams = s.teams ∧ (s.wrHost a bs).insts = s.insts ∧
    (s.wrHost a bs).qs = s.qs ∧ (s.wrHost a bs).sync = s.sync ∧ (s.wrHost a bs).aon = s.aon ∧
    (s.wrHost a bs).yards = s.yards ∧ (s.wrHost a bs).boot = s.boot ∧ (s.wrHost a bs).power = s.power ∧
    (s.wrHost a bs).net = s.net ∧ (s.wrHost a bs).links = s.links ∧ (s.wrHost a bs).arr = s.arr ∧
    (s.wrHost a bs).groom = s.groom ∧ (s.wrHost a bs).hitch = s.hitch :=
  ⟨rfl, rfl, rfl, rfl, rfl, rfl, rfl, rfl, rfl, rfl, rfl, rfl, rfl, rfl, rfl, rfl, rfl, rfl, rfl, rfl, rfl, rfl, rfl, rfl, rfl, rfl, rfl, rfl, rfl⟩

@[simp] theorem State.wrDepot_frame (s : State) (a : Nat) (bs : List Byte) :
    (s.wrDepot a bs).pending = s.pending ∧ (s.wrDepot a bs).fuses = s.fuses ∧ (s.wrDepot a bs).pins = s.pins ∧
    (s.wrDepot a bs).regs = s.regs ∧ (s.wrDepot a bs).shadows = s.shadows ∧ (s.wrDepot a bs).rdata = s.rdata ∧
    (s.wrDepot a bs).host = s.host ∧ (s.wrDepot a bs).scratch = s.scratch ∧ (s.wrDepot a bs).outbox = s.outbox ∧
    (s.wrDepot a bs).fresh = s.fresh ∧ (s.wrDepot a bs).serial = s.serial ∧ (s.wrDepot a bs).time = s.time ∧
    (s.wrDepot a bs).eng = s.eng ∧ (s.wrDepot a bs).tt = s.tt ∧ (s.wrDepot a bs).posts = s.posts ∧
    (s.wrDepot a bs).mesh = s.mesh ∧ (s.wrDepot a bs).teams = s.teams ∧ (s.wrDepot a bs).insts = s.insts ∧
    (s.wrDepot a bs).qs = s.qs ∧ (s.wrDepot a bs).sync = s.sync ∧ (s.wrDepot a bs).aon = s.aon ∧
    (s.wrDepot a bs).yards = s.yards ∧ (s.wrDepot a bs).boot = s.boot ∧ (s.wrDepot a bs).power = s.power ∧
    (s.wrDepot a bs).net = s.net ∧ (s.wrDepot a bs).links = s.links ∧ (s.wrDepot a bs).arr = s.arr ∧
    (s.wrDepot a bs).groom = s.groom ∧ (s.wrDepot a bs).hitch = s.hitch :=
  ⟨rfl, rfl, rfl, rfl, rfl, rfl, rfl, rfl, rfl, rfl, rfl, rfl, rfl, rfl, rfl, rfl, rfl, rfl, rfl, rfl, rfl, rfl, rfl, rfl, rfl, rfl, rfl, rfl, rfl⟩

@[simp] theorem State.wrScratch_frame (s : State) (a : Nat) (bs : List Byte) :
    (s.wrScratch a bs).pending = s.pending ∧ (s.wrScratch a bs).fuses = s.fuses ∧ (s.wrScratch a bs).pins = s.pins ∧
    (s.wrScratch a bs).regs = s.regs ∧ (s.wrScratch a bs).shadows = s.shadows ∧ (s.wrScratch a bs).rdata = s.rdata ∧
    (s.wrScratch a bs).host = s.host ∧ (s.wrScratch a bs).depot = s.depot ∧ (s.wrScratch a bs).outbox = s.outbox ∧
    (s.wrScratch a bs).fresh = s.fresh ∧ (s.wrScratch a bs).serial = s.serial ∧ (s.wrScratch a bs).time = s.time ∧
    (s.wrScratch a bs).eng = s.eng ∧ (s.wrScratch a bs).tt = s.tt ∧ (s.wrScratch a bs).posts = s.posts ∧
    (s.wrScratch a bs).mesh = s.mesh ∧ (s.wrScratch a bs).teams = s.teams ∧ (s.wrScratch a bs).insts = s.insts ∧
    (s.wrScratch a bs).qs = s.qs ∧ (s.wrScratch a bs).sync = s.sync ∧ (s.wrScratch a bs).aon = s.aon ∧
    (s.wrScratch a bs).yards = s.yards ∧ (s.wrScratch a bs).boot = s.boot ∧ (s.wrScratch a bs).power = s.power ∧
    (s.wrScratch a bs).net = s.net ∧ (s.wrScratch a bs).links = s.links ∧ (s.wrScratch a bs).arr = s.arr ∧
    (s.wrScratch a bs).groom = s.groom ∧ (s.wrScratch a bs).hitch = s.hitch :=
  ⟨rfl, rfl, rfl, rfl, rfl, rfl, rfl, rfl, rfl, rfl, rfl, rfl, rfl, rfl, rfl, rfl, rfl, rfl, rfl, rfl, rfl, rfl, rfl, rfl, rfl, rfl, rfl, rfl, rfl⟩

@[simp] theorem State.setTeam_frame (s : State) (t : Nat) (x : TeamRec) :
    (s.setTeam t x).pending = s.pending ∧ (s.setTeam t x).fuses = s.fuses ∧ (s.setTeam t x).pins = s.pins ∧
    (s.setTeam t x).regs = s.regs ∧ (s.setTeam t x).shadows = s.shadows ∧ (s.setTeam t x).rdata = s.rdata ∧
    (s.setTeam t x).host = s.host ∧ (s.setTeam t x).depot = s.depot ∧ (s.setTeam t x).scratch = s.scratch ∧
    (s.setTeam t x).outbox = s.outbox ∧ (s.setTeam t x).fresh = s.fresh ∧ (s.setTeam t x).serial = s.serial ∧
    (s.setTeam t x).time = s.time ∧ (s.setTeam t x).eng = s.eng ∧ (s.setTeam t x).tt = s.tt ∧
    (s.setTeam t x).posts = s.posts ∧ (s.setTeam t x).mesh = s.mesh ∧ (s.setTeam t x).insts = s.insts ∧
    (s.setTeam t x).qs = s.qs ∧ (s.setTeam t x).sync = s.sync ∧ (s.setTeam t x).aon = s.aon ∧
    (s.setTeam t x).yards = s.yards ∧ (s.setTeam t x).boot = s.boot ∧ (s.setTeam t x).power = s.power ∧
    (s.setTeam t x).net = s.net ∧ (s.setTeam t x).links = s.links ∧ (s.setTeam t x).arr = s.arr ∧
    (s.setTeam t x).groom = s.groom ∧ (s.setTeam t x).hitch = s.hitch :=
  ⟨rfl, rfl, rfl, rfl, rfl, rfl, rfl, rfl, rfl, rfl, rfl, rfl, rfl, rfl, rfl, rfl, rfl, rfl, rfl, rfl, rfl, rfl, rfl, rfl, rfl, rfl, rfl, rfl, rfl⟩

@[simp] theorem State.setYard_frame (s : State) (y : Nat) (x : YardRec) :
    (s.setYard y x).pending = s.pending ∧ (s.setYard y x).fuses = s.fuses ∧ (s.setYard y x).pins = s.pins ∧
    (s.setYard y x).regs = s.regs ∧ (s.setYard y x).shadows = s.shadows ∧ (s.setYard y x).rdata = s.rdata ∧
    (s.setYard y x).host = s.host ∧ (s.setYard y x).depot = s.depot ∧ (s.setYard y x).scratch = s.scratch ∧
    (s.setYard y x).outbox = s.outbox ∧ (s.setYard y x).fresh = s.fresh ∧ (s.setYard y x).serial = s.serial ∧
    (s.setYard y x).time = s.time ∧ (s.setYard y x).eng = s.eng ∧ (s.setYard y x).tt = s.tt ∧
    (s.setYard y x).posts = s.posts ∧ (s.setYard y x).mesh = s.mesh ∧ (s.setYard y x).teams = s.teams ∧
    (s.setYard y x).insts = s.insts ∧ (s.setYard y x).qs = s.qs ∧ (s.setYard y x).sync = s.sync ∧
    (s.setYard y x).aon = s.aon ∧ (s.setYard y x).boot = s.boot ∧ (s.setYard y x).power = s.power ∧
    (s.setYard y x).net = s.net ∧ (s.setYard y x).links = s.links ∧ (s.setYard y x).arr = s.arr ∧
    (s.setYard y x).groom = s.groom ∧ (s.setYard y x).hitch = s.hitch :=
  ⟨rfl, rfl, rfl, rfl, rfl, rfl, rfl, rfl, rfl, rfl, rfl, rfl, rfl, rfl, rfl, rfl, rfl, rfl, rfl, rfl, rfl, rfl, rfl, rfl, rfl, rfl, rfl, rfl, rfl⟩

@[simp] theorem State.touch_frame (s : State) (y : Nat) :
    (s.touch y).pending = s.pending ∧ (s.touch y).fuses = s.fuses ∧ (s.touch y).pins = s.pins ∧
    (s.touch y).regs = s.regs ∧ (s.touch y).shadows = s.shadows ∧ (s.touch y).rdata = s.rdata ∧
    (s.touch y).host = s.host ∧ (s.touch y).depot = s.depot ∧ (s.touch y).scratch = s.scratch ∧
    (s.touch y).outbox = s.outbox ∧ (s.touch y).fresh = s.fresh ∧ (s.touch y).serial = s.serial ∧
    (s.touch y).time = s.time ∧ (s.touch y).eng = s.eng ∧ (s.touch y).tt = s.tt ∧ (s.touch y).posts = s.posts ∧
    (s.touch y).mesh = s.mesh ∧ (s.touch y).teams = s.teams ∧ (s.touch y).insts = s.insts ∧ (s.touch y).qs = s.qs ∧
    (s.touch y).sync = s.sync ∧ (s.touch y).aon = s.aon ∧ (s.touch y).boot = s.boot ∧ (s.touch y).power = s.power ∧
    (s.touch y).net = s.net ∧ (s.touch y).links = s.links ∧ (s.touch y).arr = s.arr ∧ (s.touch y).groom = s.groom ∧
    (s.touch y).hitch = s.hitch :=
  ⟨rfl, rfl, rfl, rfl, rfl, rfl, rfl, rfl, rfl, rfl, rfl, rfl, rfl, rfl, rfl, rfl, rfl, rfl, rfl, rfl, rfl, rfl, rfl, rfl, rfl, rfl, rfl, rfl, rfl⟩

@[simp] theorem State.setLink_frame (s : State) (l : Nat) (x : LinkRec) :
    (s.setLink l x).pending = s.pending ∧ (s.setLink l x).fuses = s.fuses ∧ (s.setLink l x).pins = s.pins ∧
    (s.setLink l x).regs = s.regs ∧ (s.setLink l x).shadows = s.shadows ∧ (s.setLink l x).rdata = s.rdata ∧
    (s.setLink l x).host = s.host ∧ (s.setLink l x).depot = s.depot ∧ (s.setLink l x).scratch = s.scratch ∧
    (s.setLink l x).outbox = s.outbox ∧ (s.setLink l x).fresh = s.fresh ∧ (s.setLink l x).serial = s.serial ∧
    (s.setLink l x).time = s.time ∧ (s.setLink l x).eng = s.eng ∧ (s.setLink l x).tt = s.tt ∧
    (s.setLink l x).posts = s.posts ∧ (s.setLink l x).mesh = s.mesh ∧ (s.setLink l x).teams = s.teams ∧
    (s.setLink l x).insts = s.insts ∧ (s.setLink l x).qs = s.qs ∧ (s.setLink l x).sync = s.sync ∧
    (s.setLink l x).aon = s.aon ∧ (s.setLink l x).yards = s.yards ∧ (s.setLink l x).boot = s.boot ∧
    (s.setLink l x).power = s.power ∧ (s.setLink l x).net = s.net ∧ (s.setLink l x).arr = s.arr ∧
    (s.setLink l x).groom = s.groom ∧ (s.setLink l x).hitch = s.hitch :=
  ⟨rfl, rfl, rfl, rfl, rfl, rfl, rfl, rfl, rfl, rfl, rfl, rfl, rfl, rfl, rfl, rfl, rfl, rfl, rfl, rfl, rfl, rfl, rfl, rfl, rfl, rfl, rfl, rfl, rfl⟩

@[simp] theorem State.setQp_frame (s : State) (q : Nat) (x : QpRec) :
    (s.setQp q x).pending = s.pending ∧ (s.setQp q x).fuses = s.fuses ∧ (s.setQp q x).pins = s.pins ∧
    (s.setQp q x).regs = s.regs ∧ (s.setQp q x).shadows = s.shadows ∧ (s.setQp q x).rdata = s.rdata ∧
    (s.setQp q x).host = s.host ∧ (s.setQp q x).depot = s.depot ∧ (s.setQp q x).scratch = s.scratch ∧
    (s.setQp q x).outbox = s.outbox ∧ (s.setQp q x).fresh = s.fresh ∧ (s.setQp q x).serial = s.serial ∧
    (s.setQp q x).time = s.time ∧ (s.setQp q x).eng = s.eng ∧ (s.setQp q x).tt = s.tt ∧ (s.setQp q x).posts = s.posts ∧
    (s.setQp q x).mesh = s.mesh ∧ (s.setQp q x).teams = s.teams ∧ (s.setQp q x).insts = s.insts ∧
    (s.setQp q x).sync = s.sync ∧ (s.setQp q x).aon = s.aon ∧ (s.setQp q x).yards = s.yards ∧
    (s.setQp q x).boot = s.boot ∧ (s.setQp q x).power = s.power ∧ (s.setQp q x).net = s.net ∧
    (s.setQp q x).links = s.links ∧ (s.setQp q x).arr = s.arr ∧ (s.setQp q x).groom = s.groom ∧
    (s.setQp q x).hitch = s.hitch :=
  ⟨rfl, rfl, rfl, rfl, rfl, rfl, rfl, rfl, rfl, rfl, rfl, rfl, rfl, rfl, rfl, rfl, rfl, rfl, rfl, rfl, rfl, rfl, rfl, rfl, rfl, rfl, rfl, rfl, rfl⟩

@[simp] theorem State.setSub_frame (s : State) (l t : Nat) (x : SubLink) :
    (s.setSub l t x).pending = s.pending ∧ (s.setSub l t x).fuses = s.fuses ∧ (s.setSub l t x).pins = s.pins ∧
    (s.setSub l t x).regs = s.regs ∧ (s.setSub l t x).shadows = s.shadows ∧ (s.setSub l t x).rdata = s.rdata ∧
    (s.setSub l t x).host = s.host ∧ (s.setSub l t x).depot = s.depot ∧ (s.setSub l t x).scratch = s.scratch ∧
    (s.setSub l t x).outbox = s.outbox ∧ (s.setSub l t x).fresh = s.fresh ∧ (s.setSub l t x).serial = s.serial ∧
    (s.setSub l t x).time = s.time ∧ (s.setSub l t x).eng = s.eng ∧ (s.setSub l t x).tt = s.tt ∧
    (s.setSub l t x).posts = s.posts ∧ (s.setSub l t x).mesh = s.mesh ∧ (s.setSub l t x).teams = s.teams ∧
    (s.setSub l t x).insts = s.insts ∧ (s.setSub l t x).qs = s.qs ∧ (s.setSub l t x).sync = s.sync ∧
    (s.setSub l t x).aon = s.aon ∧ (s.setSub l t x).yards = s.yards ∧ (s.setSub l t x).boot = s.boot ∧
    (s.setSub l t x).power = s.power ∧ (s.setSub l t x).links = s.links ∧ (s.setSub l t x).arr = s.arr ∧
    (s.setSub l t x).groom = s.groom ∧ (s.setSub l t x).hitch = s.hitch :=
  ⟨rfl, rfl, rfl, rfl, rfl, rfl, rfl, rfl, rfl, rfl, rfl, rfl, rfl, rfl, rfl, rfl, rfl, rfl, rfl, rfl, rfl, rfl, rfl, rfl, rfl, rfl, rfl, rfl, rfl⟩

@[simp] theorem State.setBar_frame (s : State) (t : Nat) (x : BarSt) :
    (s.setBar t x).pending = s.pending ∧ (s.setBar t x).fuses = s.fuses ∧ (s.setBar t x).pins = s.pins ∧
    (s.setBar t x).regs = s.regs ∧ (s.setBar t x).shadows = s.shadows ∧ (s.setBar t x).rdata = s.rdata ∧
    (s.setBar t x).host = s.host ∧ (s.setBar t x).depot = s.depot ∧ (s.setBar t x).scratch = s.scratch ∧
    (s.setBar t x).outbox = s.outbox ∧ (s.setBar t x).fresh = s.fresh ∧ (s.setBar t x).serial = s.serial ∧
    (s.setBar t x).time = s.time ∧ (s.setBar t x).eng = s.eng ∧ (s.setBar t x).tt = s.tt ∧
    (s.setBar t x).posts = s.posts ∧ (s.setBar t x).mesh = s.mesh ∧ (s.setBar t x).teams = s.teams ∧
    (s.setBar t x).insts = s.insts ∧ (s.setBar t x).qs = s.qs ∧ (s.setBar t x).aon = s.aon ∧
    (s.setBar t x).yards = s.yards ∧ (s.setBar t x).boot = s.boot ∧ (s.setBar t x).power = s.power ∧
    (s.setBar t x).net = s.net ∧ (s.setBar t x).links = s.links ∧ (s.setBar t x).arr = s.arr ∧
    (s.setBar t x).groom = s.groom ∧ (s.setBar t x).hitch = s.hitch :=
  ⟨rfl, rfl, rfl, rfl, rfl, rfl, rfl, rfl, rfl, rfl, rfl, rfl, rfl, rfl, rfl, rfl, rfl, rfl, rfl, rfl, rfl, rfl, rfl, rfl, rfl, rfl, rfl, rfl, rfl⟩

@[simp] theorem State.updInst_frame (s : State) (p : Inst → Bool) (f : Inst → Inst) :
    (s.updInst p f).pending = s.pending ∧ (s.updInst p f).fuses = s.fuses ∧ (s.updInst p f).pins = s.pins ∧
    (s.updInst p f).regs = s.regs ∧ (s.updInst p f).shadows = s.shadows ∧ (s.updInst p f).rdata = s.rdata ∧
    (s.updInst p f).host = s.host ∧ (s.updInst p f).depot = s.depot ∧ (s.updInst p f).scratch = s.scratch ∧
    (s.updInst p f).outbox = s.outbox ∧ (s.updInst p f).fresh = s.fresh ∧ (s.updInst p f).serial = s.serial ∧
    (s.updInst p f).time = s.time ∧ (s.updInst p f).eng = s.eng ∧ (s.updInst p f).tt = s.tt ∧
    (s.updInst p f).posts = s.posts ∧ (s.updInst p f).mesh = s.mesh ∧ (s.updInst p f).teams = s.teams ∧
    (s.updInst p f).qs = s.qs ∧ (s.updInst p f).sync = s.sync ∧ (s.updInst p f).aon = s.aon ∧
    (s.updInst p f).yards = s.yards ∧ (s.updInst p f).boot = s.boot ∧ (s.updInst p f).power = s.power ∧
    (s.updInst p f).net = s.net ∧ (s.updInst p f).links = s.links ∧ (s.updInst p f).arr = s.arr ∧
    (s.updInst p f).groom = s.groom ∧ (s.updInst p f).hitch = s.hitch :=
  ⟨rfl, rfl, rfl, rfl, rfl, rfl, rfl, rfl, rfl, rfl, rfl, rfl, rfl, rfl, rfl, rfl, rfl, rfl, rfl, rfl, rfl, rfl, rfl, rfl, rfl, rfl, rfl, rfl, rfl⟩

@[simp] theorem State.setPost_frame (s : State) (p : Nat) (x : Post) :
    (s.setPost p x).pending = s.pending ∧ (s.setPost p x).fuses = s.fuses ∧ (s.setPost p x).pins = s.pins ∧
    (s.setPost p x).regs = s.regs ∧ (s.setPost p x).shadows = s.shadows ∧ (s.setPost p x).rdata = s.rdata ∧
    (s.setPost p x).host = s.host ∧ (s.setPost p x).depot = s.depot ∧ (s.setPost p x).scratch = s.scratch ∧
    (s.setPost p x).outbox = s.outbox ∧ (s.setPost p x).fresh = s.fresh ∧ (s.setPost p x).serial = s.serial ∧
    (s.setPost p x).time = s.time ∧ (s.setPost p x).eng = s.eng ∧ (s.setPost p x).tt = s.tt ∧
    (s.setPost p x).mesh = s.mesh ∧ (s.setPost p x).teams = s.teams ∧ (s.setPost p x).insts = s.insts ∧
    (s.setPost p x).qs = s.qs ∧ (s.setPost p x).sync = s.sync ∧ (s.setPost p x).aon = s.aon ∧
    (s.setPost p x).boot = s.boot ∧ (s.setPost p x).power = s.power ∧ (s.setPost p x).net = s.net ∧
    (s.setPost p x).links = s.links ∧ (s.setPost p x).arr = s.arr ∧ (s.setPost p x).groom = s.groom ∧
    (s.setPost p x).hitch = s.hitch := by
  unfold State.setPost
  split <;> exact ⟨rfl, rfl, rfl, rfl, rfl, rfl, rfl, rfl, rfl, rfl, rfl, rfl, rfl, rfl, rfl, rfl, rfl, rfl, rfl, rfl, rfl, rfl, rfl, rfl, rfl, rfl, rfl, rfl⟩

@[simp] theorem State.setfs_frame (l : List (Fld × Nat × Nat)) (s : State) :
    (s.setfs l).pending = s.pending ∧ (s.setfs l).fuses = s.fuses ∧ (s.setfs l).pins = s.pins ∧
    (s.setfs l).shadows = s.shadows ∧ (s.setfs l).rdata = s.rdata ∧ (s.setfs l).host = s.host ∧
    (s.setfs l).depot = s.depot ∧ (s.setfs l).scratch = s.scratch ∧ (s.setfs l).outbox = s.outbox ∧
    (s.setfs l).fresh = s.fresh ∧ (s.setfs l).serial = s.serial ∧ (s.setfs l).time = s.time ∧ (s.setfs l).eng = s.eng ∧
    (s.setfs l).tt = s.tt ∧ (s.setfs l).posts = s.posts ∧ (s.setfs l).mesh = s.mesh ∧ (s.setfs l).teams = s.teams ∧
    (s.setfs l).insts = s.insts ∧ (s.setfs l).qs = s.qs ∧ (s.setfs l).sync = s.sync ∧ (s.setfs l).aon = s.aon ∧
    (s.setfs l).yards = s.yards ∧ (s.setfs l).boot = s.boot ∧ (s.setfs l).power = s.power ∧ (s.setfs l).net = s.net ∧
    (s.setfs l).links = s.links ∧ (s.setfs l).arr = s.arr ∧ (s.setfs l).groom = s.groom ∧ (s.setfs l).hitch = s.hitch := by
  induction l generalizing s with
  | nil => exact ⟨rfl, rfl, rfl, rfl, rfl, rfl, rfl, rfl, rfl, rfl, rfl, rfl, rfl, rfl, rfl, rfl, rfl, rfl, rfl, rfl, rfl, rfl, rfl, rfl, rfl, rfl, rfl, rfl, rfl⟩
  | cons x t ih => obtain ⟨f, i, v⟩ := x; exact ih (s.setf f i v)

/-- What a command keeps (R377): the queue and the fuses are the old state's, all else the new one's. -/
@[simp] theorem State.keep_frame (s t : State) :
    (s.keep t).pending = s.pending ∧ (s.keep t).fuses = s.fuses ∧
    (s.keep t).pins = t.pins ∧ (s.keep t).regs = t.regs ∧ (s.keep t).shadows = t.shadows ∧ (s.keep t).rdata = t.rdata
    ∧ (s.keep t).host = t.host ∧ (s.keep t).depot = t.depot ∧ (s.keep t).scratch = t.scratch ∧ (s.keep t).outbox =
    t.outbox ∧ (s.keep t).fresh = t.fresh ∧ (s.keep t).serial = t.serial ∧ (s.keep t).time = t.time ∧ (s.keep t).eng =
    t.eng ∧ (s.keep t).tt = t.tt ∧ (s.keep t).posts = t.posts ∧ (s.keep t).mesh = t.mesh ∧ (s.keep t).teams = t.teams
    ∧ (s.keep t).insts = t.insts ∧ (s.keep t).qs = t.qs ∧ (s.keep t).sync = t.sync ∧ (s.keep t).aon = t.aon ∧ (s.keep
    t).yards = t.yards ∧ (s.keep t).boot = t.boot ∧ (s.keep t).power = t.power ∧ (s.keep t).net = t.net ∧ (s.keep
    t).links = t.links ∧ (s.keep t).arr = t.arr ∧ (s.keep t).groom = t.groom ∧ (s.keep t).hitch = t.hitch :=
  ⟨rfl, rfl, rfl, rfl, rfl, rfl, rfl, rfl, rfl, rfl, rfl, rfl, rfl, rfl, rfl, rfl, rfl, rfl, rfl, rfl, rfl, rfl, rfl, rfl, rfl, rfl, rfl, rfl, rfl, rfl⟩

/-- Commands that answer for the core domain. -/
theorem event_on (s : State) (f : State → State) (h : s.coreOn = true) : event s f = .next (s.keep (f s)) := by
  simp [event, h]

theorem event_off (s : State) (f : State → State) (h : s.coreOn = false) : event s f = .next s := by
  simp [event, h]

theorem portAccess_on (s : State) (f : State → State) (h : s.coreOn = true) :
    portAccess s f = .next (s.keep (f { s with rdata := 0 })) := by
  simp [portAccess, h]

theorem portAccess_off (s : State) (f : State → State) (h : s.coreOn = false) : portAccess s f = .fault .controlPortDead := by
  simp [portAccess, h]

/-! ## Register fields -/

theorem ctorIdx_lt (f : Fld) : f.ctorIdx < 512 := by cases f <;> decide

theorem ctorIdx_inj {f g : Fld} (h : f.ctorIdx = g.ctorIdx) : f = g := by
  rw [← Fld.ofNat_ctorIdx f, h, Fld.ofNat_ctorIdx]

/-- Keys of two fields differ unless field and index agree. -/
theorem fkey_inj {f g : Fld} {i j : Nat} (h : fkey f i = fkey g j) : f = g ∧ i = j := by
  unfold fkey at h
  have hf := ctorIdx_lt f
  have hg := ctorIdx_lt g
  have h1 : i = j := by omega
  subst h1
  exact ⟨ctorIdx_inj (by omega), rfl⟩

theorem State.rf_setf_same (s : State) (f : Fld) (i v : Nat) : (s.setf f i v).rf f i = v % 2 ^ fwidth f := by
  simp [State.rf, State.setf, sget_sset_same]

theorem State.rf_setf_other (s : State) (f g : Fld) (i j v : Nat) (h : ¬ (g = f ∧ j = i)) : (s.setf f i v).rf g j = s.rf g j := by
  have : fkey g j ≠ fkey f i := fun e => h (fkey_inj e)
  simp [State.rf, State.setf, sget_sset_other _ _ _ _ _ _ this]

/-- A field after a write of one. -/
theorem State.rf_setf (s : State) (f g : Fld) (i j v : Nat) :
    (s.setf f i v).rf g j = if g = f ∧ j = i then v % 2 ^ fwidth f else s.rf g j := by
  by_cases h : g = f ∧ j = i
  · obtain ⟨rfl, rfl⟩ := h; simp [State.rf_setf_same]
  · simp [h, State.rf_setf_other]

/-- A field depends only on the register file and the fuses. -/
theorem State.rf_congr {s t : State} (h : t.regs = s.regs) (hf : t.fuses = s.fuses) (f : Fld) (i : Nat) : t.rf f i = s.rf f i := by
  simp [State.rf, h, hf]

end Sys2Proof.Machine
end

