-- ==== Sys2Proof/Laws/Posts.lean ====
section
/-! SUPPORT. What writing a postilion does, and what an instruction does that only changes its postilion. -/

namespace Sys2Proof.Machine

@[simp] theorem State.post_setPost_same (s : State) (p : Nat) (x : Post) : (s.setPost p x).post p = x := by
  unfold State.setPost
  split <;> simp [State.post, State.touch, State.setYard, sget_sset_same]

theorem State.post_setPost_other (s : State) (p q : Nat) (x : Post) (h : q ≠ p) : (s.setPost p x).post q = s.post q := by
  unfold State.setPost
  split <;> simp [State.post, State.touch, State.setYard, sget_sset_other _ _ _ _ _ _ h]

@[simp] theorem State.rf_setPost (s : State) (p : Nat) (x : Post) (f : Fld) (i : Nat) : (s.setPost p x).rf f i = s.rf f i :=
  State.rf_congr (by simp) (by simp) f i

/-- A postilion that executes is neither stuck nor gated. -/
theorem quiet_of_runnable {s : State} {p : Nat} (h : s.runnable p = true) : (s.post p).quiet = false := by
  simp only [State.runnable, Bool.and_eq_true, beq_iff_eq] at h
  obtain ⟨⟨⟨hc, hw⟩, -⟩, -⟩ := h
  cases hcur : (s.post p).cur <;> simp_all [Post.quiet, Post.stuck]

/-- The yard records after a write of a postilion that was not quiet. -/
theorem State.yard_setPost {s : State} {p : Nat} (x : Post) (h : (s.post p).quiet = false) (y : Nat) :
    (s.setPost p x).yard y = if y = p / 16 then { s.yard y with quietAt := s.now } else s.yard y := by
  have hn : ({ s with posts := sset (fun _ => {}) s.posts p x } : State).now = s.now := rfl
  simp only [State.setPost, h, Bool.false_and, State.touch, State.setYard, State.yard]
  by_cases e : y = p / 16
  · subst e; simp [hn, sget_sset_same]
  · simp [hn, e, sget_sset_other _ _ _ _ _ _ e]

end Sys2Proof.Machine

namespace Sys2Proof

open Machine

/-- Writing a postilion that executes, as an instruction does: all else stays. -/
theorem postIs_setPost {s : State} {p : PostId} (h : s.runnable p = true) (x : Post) :
    PostIs s p x (s.keep (s.setPost p x)) := by
  refine ⟨by simp [State.post, State.keep]; exact State.post_setPost_same s p x, ⟨?_, ?_⟩, ?_⟩
  · intro q hq; exact State.post_setPost_other s p q x hq
  · intro y; exact State.yard_setPost x (quiet_of_runnable h) y
  · refine ⟨by simp, by simp, ?_, ?_⟩
    · intro q hq; cases q <;> simp_all [Part.Same]
    · intro f i _; exact State.rf_congr (by simp) (by simp) f i

/-- An instruction that only changes its postilion. -/
theorem does_postOnly {s : State} {p : PostId} {i : Instr} {f : Post → Post} (h : Runs s p i)
    (he : exec i s = event s fun s => s.postOnly p i f) : Does i s (PostIs s p (f (s.post p))) := by
  obtain ⟨hc, hr, hd⟩ := h
  refine ⟨_, ?_, postIs_setPost hr _⟩
  rw [he, event_on _ _ hc]
  simp [State.postOnly, State.postRun, hr, hd]

/-- Registers after a write of one. -/
theorem reg_setReg (x : Post) (d : GReg) (v : Word) (r : GReg) :
    (x.setReg d v).reg r = if r = 0 then 0 else if r = d then v else x.reg r := by
  by_cases hr : r = 0
  · subst hr; simp [Post.reg]
  · have hr' : (r : Nat) ≠ 0 := fun e => hr (Fin.ext e)
    by_cases hd : d = 0
    · subst hd; simp [Post.setReg, hr]
    · have hd' : (d : Nat) ≠ 0 := fun e => hd (Fin.ext e)
      by_cases e : r = d
      · subst e; simp [Post.setReg, Post.reg, hd', hr, sget_sset_same]
      · have e' : (r : Nat) ≠ d := fun h => e (Fin.ext h)
        simp [Post.setReg, Post.reg, hd', hr', hr, e, sget_sset_other _ _ _ _ _ _ e']

/-- Writing a register and the pc, seen as `WroteReg`. -/
theorem wroteReg_setReg (x : Post) (d : GReg) (v : Word) (pc : Nat) :
    WroteReg x { x.setReg d v with pc := pc } d v pc := by
  refine ⟨fun r => reg_setReg x d v r, ?_⟩
  by_cases hd : (d : Nat) = 0 <;> simp [Post.setReg, hd]

end Sys2Proof
end

