-- ==== Sys2Proof/Laws/Registers.lean ====
section
/-! SUPPORT. No two registers share an offset: the register at the offset of a register is that register (R375). -/

namespace Sys2Proof.Machine

/-- A sufficient condition that two register places share no offset. -/
def regsApart (g h : RegInfo) : Bool :=
  let last (g : RegInfo) := g.base + (g.n1 - 1) * g.s1 + (g.n2 - 1) * g.s2
  let inside (g h : RegInfo) := decide (h.base ≤ g.base) && decide (h.n2 * h.s2 ≤ (g.base - h.base) % h.s1)
    && (g.s1 == h.s1 && decide ((g.base - h.base) % h.s1 + (g.n2 - 1) * g.s2 < h.s1)
        || decide ((g.base - h.base) % h.s1 + (g.n1 - 1) * g.s1 + (g.n2 - 1) * g.s2 < h.s1))
  decide (last g < h.base) || decide (last h < g.base) || inside g h || inside h g

/-- What an index at an offset says. -/
theorem regIndex_some {g : RegInfo} {off i : Nat} (h : regIndex g off = some i) :
    ∃ a b, a < g.n1 ∧ b < g.n2 ∧ off = g.base + a * g.s1 + b * g.s2 ∧ (off - g.base) % g.s1 = b * g.s2
      ∧ (off - g.base) / g.s1 = a ∧ i = a * g.n2 + b := by
  unfold regIndex at h
  simp only [Bool.and_eq_true, decide_eq_true_eq, beq_iff_eq] at h
  split at h
  · rename_i hc
    obtain ⟨⟨⟨h1, h2⟩, h3⟩, h4⟩ := hc
    refine ⟨(off - g.base) / g.s1, (off - g.base) % g.s1 / g.s2, h2, h4, ?_, ?_, rfl, by simpa using h.symm⟩
    · have e1 := Nat.div_add_mod (off - g.base) g.s1
      have e2 := Nat.div_add_mod ((off - g.base) % g.s1) g.s2
      rw [h3] at e2
      rw [Nat.mul_comm _ g.s1, Nat.mul_comm _ g.s2]; omega
    · have e2 := Nat.div_add_mod ((off - g.base) % g.s1) g.s2
      rw [h3] at e2
      rw [Nat.mul_comm _ g.s2]; omega
  · simp at h

/-- A smaller multiple. -/
theorem mul_le_pred {a n s : Nat} (h : a < n) : a * s ≤ (n - 1) * s := Nat.mul_le_mul_right s (by omega)

/-- A place inside the stride of another, after its elements, shares no offset with it. -/
theorem inside_apart {g h : RegInfo} {off i j : Nat} (hg : regIndex g off = some i) (hh : regIndex h off = some j)
    (h1 : h.base ≤ g.base) (h2 : h.n2 * h.s2 ≤ (g.base - h.base) % h.s1)
    (h3 : (g.s1 = h.s1 ∧ (g.base - h.base) % h.s1 + (g.n2 - 1) * g.s2 < h.s1)
      ∨ (g.base - h.base) % h.s1 + (g.n1 - 1) * g.s1 + (g.n2 - 1) * g.s2 < h.s1) (hs : 0 < h.s2) : False := by
  obtain ⟨a, b, ha, hb, e, -, -, -⟩ := regIndex_some hg
  obtain ⟨a', b', ha', hb', -, e', -, -⟩ := regIndex_some hh
  have la := mul_le_pred (s := g.s1) ha
  have lb := mul_le_pred (s := g.s2) hb
  have lb' : b' * h.s2 < h.n2 * h.s2 := Nat.mul_lt_mul_of_pos_right hb' hs
  have d := Nat.div_add_mod (g.base - h.base) h.s1
  rcases h3 with ⟨es, h3⟩ | h3
  · have : (off - h.base) % h.s1 = (g.base - h.base) % h.s1 + b * g.s2 := by
      have : off - h.base = (g.base - h.base) % h.s1 + b * g.s2 + h.s1 * ((g.base - h.base) / h.s1 + a) := by
        rw [Nat.mul_add, Nat.mul_comm h.s1 a, ← es]; rw [← es] at d; omega
      rw [this, Nat.add_mul_mod_self_left, Nat.mod_eq_of_lt (by omega)]
    omega
  · have : (off - h.base) % h.s1 = (g.base - h.base) % h.s1 + a * g.s1 + b * g.s2 := by
      have : off - h.base = (g.base - h.base) % h.s1 + a * g.s1 + b * g.s2 + h.s1 * ((g.base - h.base) / h.s1) := by omega
      rw [this, Nat.add_mul_mod_self_left, Nat.mod_eq_of_lt (by omega)]
    omega

/-- Places that are apart share no offset. -/
theorem regsApart_sound {g h : RegInfo} (ha : regsApart g h = true) (hg : 0 < g.s2) (hh : 0 < h.s2) {off i j : Nat}
    (h1 : regIndex g off = some i) (h2 : regIndex h off = some j) : False := by
  simp only [regsApart, Bool.or_eq_true, Bool.and_eq_true, decide_eq_true_eq, beq_iff_eq] at ha
  rcases ha with ((hl | hl) | ⟨⟨h3, h4⟩, h5⟩) | ⟨⟨h3, h4⟩, h5⟩
  · obtain ⟨a, b, ha, hb, e, -⟩ := regIndex_some h1
    obtain ⟨a', b', -, -, e', -⟩ := regIndex_some h2
    have := mul_le_pred (s := g.s1) ha
    have := mul_le_pred (s := g.s2) hb
    omega
  · obtain ⟨a, b, ha, hb, e, -⟩ := regIndex_some h2
    obtain ⟨a', b', -, -, e', -⟩ := regIndex_some h1
    have := mul_le_pred (s := h.s1) ha
    have := mul_le_pred (s := h.s2) hb
    omega
  · exact inside_apart h1 h2 h3 h4 h5 hh
  · exact inside_apart h2 h1 h3 h4 h5 hg

/-- Each place of the list is apart from every later one. -/
def allApart : List RegInfo → Bool
  | [] => true
  | g :: t => t.all (regsApart g) && allApart t

theorem allRegs_apart : allApart (allRegs.map regInfo) = true := by decide +kernel

/-- Every place has room for its elements. -/
theorem regInfo_room (r : Reg) : 0 < (regInfo r).s2 ∧ 0 < (regInfo r).n2 ∧ (regInfo r).n2 * (regInfo r).s2 ≤ (regInfo r).s1 := by
  cases r <;> decide

theorem mem_allRegs (r : Reg) : r ∈ allRegs := by cases r <;> decide

/-- Of a list of registers apart, the search finds the one whose place has the offset. -/
theorem findSome_reg {s : State} {off i : Nat} {r : Reg} (hr : regIndex (regInfo r) off = some i) (ho : s.occupied r i = true) :
    ∀ l : List Reg, allApart (l.map regInfo) = true → r ∈ l →
      l.findSome? (fun r => match regIndex (regInfo r) off with
        | some i => if s.occupied r i then some (r, i) else none
        | none => none) = some (r, i)
  | [], _, hm => by simp at hm
  | q :: t, ha, hm => by
    simp only [List.map_cons, allApart, Bool.and_eq_true, List.all_eq_true, List.mem_map] at ha
    by_cases hq : q = r
    · subst hq; simp [hr, ho]
    · have hm' : r ∈ t := by
        rcases List.mem_cons.1 hm with h | h
        · exact absurd h.symm hq
        · exact h
      have hn : regIndex (regInfo q) off = none := by
        cases hi : regIndex (regInfo q) off with
        | none => rfl
        | some j => exact (regsApart_sound (ha.1 _ ⟨r, hm', rfl⟩) (regInfo_room q).1 (regInfo_room r).1 hi hr).elim
      simp [hn, findSome_reg hr ho t ha.2 hm']

/-- The register at an offset that its place has. -/
theorem regAt_of_regIndex {s : State} {r : Reg} {i off : Nat} (h : regIndex (regInfo r) off = some i) (ho : s.occupied r i = true) :
    s.regAt off = some (r, i) := findSome_reg h ho _ allRegs_apart (mem_allRegs r)

/-- The index at the offset of a register. -/
theorem regIndex_regOff (r : Reg) (i : Nat) (h : i < (regInfo r).n1 * (regInfo r).n2) : regIndex (regInfo r) (regOff r i) = some i := by
  obtain ⟨h1, h2, h3⟩ := regInfo_room r
  have hb : i % (regInfo r).n2 < (regInfo r).n2 := Nat.mod_lt _ h2
  have ha : i / (regInfo r).n2 < (regInfo r).n1 := Nat.div_lt_of_lt_mul (by rwa [Nat.mul_comm])
  have hl : i % (regInfo r).n2 * (regInfo r).s2 < (regInfo r).s1 :=
    Nat.lt_of_lt_of_le (Nat.mul_lt_mul_of_pos_right hb h1) h3
  have e : regOff r i - (regInfo r).base = i % (regInfo r).n2 * (regInfo r).s2 + (regInfo r).s1 * (i / (regInfo r).n2) := by
    unfold regOff; rw [Nat.mul_comm _ (regInfo r).s1]; omega
  have hd : (regOff r i - (regInfo r).base) / (regInfo r).s1 = i / (regInfo r).n2 := by
    rw [e, Nat.add_mul_div_left _ _ (by omega), Nat.div_eq_of_lt hl, Nat.zero_add]
  have hm : (regOff r i - (regInfo r).base) % (regInfo r).s1 = i % (regInfo r).n2 * (regInfo r).s2 := by
    rw [e, Nat.add_mul_mod_self_left, Nat.mod_eq_of_lt hl]
  have hle : (regInfo r).base ≤ regOff r i := by unfold regOff; omega
  unfold regIndex
  simp only [hd, hm, Nat.mul_mod_left, Nat.mul_div_cancel _ h1, hle, ha, hb]
  simp [Nat.div_add_mod']

/-- The register at its own offset, where the configuration has it. -/
theorem regAt_regOff (s : State) (r : Reg) (i : Nat) (h : i < (regInfo r).n1 * (regInfo r).n2) (ho : s.occupied r i = true) :
    s.regAt (regOff r i) = some (r, i) := regAt_of_regIndex (regIndex_regOff r i h) ho

/-- A write at a register's own offset writes that register. -/
theorem writeAt_regOff (s : State) (r : Reg) (i v : Nat) (h : i < (regInfo r).n1 * (regInfo r).n2) (ho : s.occupied r i = true) :
    s.writeAt (regOff r i) v = s.writeReg r i v (regOff r i) := by
  unfold State.writeAt; rw [regAt_regOff s r i h ho]

/-- A write through the control port to a register the configuration has. -/
theorem putWord_on {s : State} {r : Reg} {i : Nat} {v : Word} (hc : s.coreOn = true) (h : i < (regInfo r).n1 * (regInfo r).n2)
    (ho : s.occupied r i = true) :
    putWord r i v s = .next (s.keep (({ s with rdata := 0 } : State).writeReg r i v.toNat (regOff r i))) := by
  have ho' : State.occupied { s with rdata := 0 } r i = true := by cases r <;> exact ho
  unfold putWord portAccess
  rw [if_pos hc]
  exact congrArg (fun x => Host.Outcome.next (s.keep x)) (writeAt_regOff { s with rdata := 0 } r i v.toNat h ho')

end Sys2Proof.Machine
end

