-- ==== Sys2Proof/WellFormed.lean ====
section
/-! DEFINITION. Which commands can occur: an admin or work command's entry has its row's opcode (and ACT or ACTION where the
row names one), a carriage has as many payload bytes as its LEN field says, and lists are not longer than what they describe. `exec` is total and does not ask for it. -/

namespace Sys2Proof

/-- OPCODE byte of an entry (Table 10.2), and another byte of it. -/
def Entry.byte (e : Entry) (k : Nat) : Nat := (e.toNat / 2 ^ (8 * k)) % 256

/-- A carriage whose payload is (LEN + 1) × 64 B (R172). -/
def Carriage.wf (c : Carriage) : Bool := c.payload.length == (bitsOf c.hdr.toNat 94 88 + 1) * 64

/-- Well-formed commands. -/
def Instr.wf : Instr → Bool
  | .createSq _ e => e.byte 0 == 0x01
  | .createCq _ e => e.byte 0 == 0x02
  | .destroySq _ e => e.byte 0 == 0x03
  | .destroyCq _ e => e.byte 0 == 0x04
  | .defineTeam _ e => e.byte 0 == 0x05
  | .retireTeam _ e => e.byte 0 == 0x06
  | .loadTimetableNow _ e => e.byte 0 == 0x07 && e.byte 4 == 0
  | .loadTimetableAtMtc _ e => e.byte 0 == 0x07 && e.byte 4 == 1
  | .timetableImageChecked | .timetableSwap => true
  | .setTenant _ e => e.byte 0 == 0x08
  | .allocSync _ e => e.byte 0 == 0x09
  | .freeSync _ e => e.byte 0 == 0x0A
  | .linkEnable _ e => e.byte 0 == 0x0B && e.byte 5 == 0
  | .linkDisable _ e => e.byte 0 == 0x0B && e.byte 5 == 1
  | .linkRetrain _ e => e.byte 0 == 0x0B && e.byte 5 == 2
  | .linkReaim _ e => e.byte 0 == 0x0B && e.byte 5 == 3
  | .linkTest _ e => e.byte 0 == 0x0B && e.byte 5 == 4
  | .mirrorConfig _ e => e.byte 0 == 0x0C
  | .getLogAon _ e => e.byte 0 == 0x0D && e.byte 4 == 0
  | .getLogDump _ e => e.byte 0 == 0x0D && e.byte 4 == 1
  | .resetYard _ e => e.byte 0 == 0x0E
  | .fwActivate _ e => e.byte 0 == 0x0F
  | .setEndpoints _ e => e.byte 0 == 0x10
  | .setDetour _ e => e.byte 0 == 0x11
  | .allreduce _ e => e.byte 0 == 0x20
  | .reduceScatter _ e => e.byte 0 == 0x21
  | .allgather _ e => e.byte 0 == 0x22
  | .broadcast _ e => e.byte 0 == 0x23
  | .reduce _ e => e.byte 0 == 0x24
  | .alltoall _ e => e.byte 0 == 0x25
  | .gather _ e => e.byte 0 == 0x26
  | .scatter _ e => e.byte 0 == 0x27
  | .barrier _ e => e.byte 0 == 0x28
  | .rcug _ e => e.byte 0 == 0x30
  | .update _ e => e.byte 0 == 0x31
  | .norm _ e => e.byte 0 == 0x32
  | .put _ e => e.byte 0 == 0x40
  | .get _ e => e.byte 0 == 0x41
  | .atomic _ e => e.byte 0 == 0x42
  | .signalCommand _ e => e.byte 0 == 0x43
  | .offload _ e => e.byte 0 == 0x48
  | .fetch _ e => e.byte 0 == 0x49
  | .copy _ e => e.byte 0 == 0x50
  | .mirrorCommit _ e => e.byte 0 == 0x51
  | .mirrorCommitWriteSend | .mirrorCommitOutcome => true
  | .sqDoorbell .. | .cqHeadWrite .. | .cqArm .. | .cancel .. | .adminQueueEnable .. | .adminQueueDisable ..
  | .irqUnmask .. | .mtcLoad .. | .arm .. | .stopAtPeriod .. | .stopNow .. | .synObjSet .. | .synAdd ..
  | .fltStatusClear .. | .fltFirstClear .. | .fltReactWrite .. | .blockReset | .resetWinClear .. | .dozeRequest
  | .runRequest | .offRequest | .bootGo | .epochDecisionWrite .. | .debugHold .. | .registerWrite ..
  | .registerReadClear .. => true
  | .submissionFetch .. | .bindingRecordWrite .. | .completionPost .. | .interruptResponse .. | .commandTimeout ..
  | .quarantineEnd .. | .fenceEnd .. | .stageTick _ | .engineStart | .periodEnd | .realignment | .tickSend => true
  | .tickReceive _ slots _ => slots.length == 8
  | .timeCorrection | .slewComplete | .referenceLoss | .referenceReturn => true
  | .nop .. | .add .. | .sub .. | .and .. | .or .. | .xor .. | .shl .. | .shr .. | .addi .. | .movi .. | .mul ..
  | .beq .. | .bne .. | .blt .. | .jmp .. | .endSeg .. | .ld .. | .st .. | .stg .. | .send .. | .waitm .. | .waits ..
  | .signal .. | .xmit .. | .recv .. | .aop .. | .hrd .. | .hwr .. | .drd .. | .dwr .. | .waitx ..
  | .mailboxMessageArrive .. => true
  | .arrayOperationStart _ | .arrayOperationComplete _ | .governorStep | .groomJobStart | .groomJobEnd
  | .epochCopyComplete .. | .vehTileComplete .. | .scheduledCarriageSend .. | .unscheduledCarriageGrant .. => true
  | .carriageArrive _ c => c.wf
  | .crcVerdict .. => true
  | .dataReceive _ c _ | .putReceive _ c | .getReqReceive _ c | .getRspReceive _ c | .atomReqReceive _ c
  | .atomRspReceive _ c | .signalReceive _ c | .barrierArrive _ c | .barrierRelease _ c | .mgmtReqReceive _ c
  | .mgmtRspReceive _ c | .farWrReceive _ c | .farRdreqReceive _ c | .farRdrspReceive _ c | .mirrorReceive _ c => c.wf
  | .ackUpstreamSend .. | .ackUpstreamReceive .. | .ackDownstreamReceive .. | .ackDownstreamRepeat .. | .nakReceive ..
  | .replayTimeout .. | .replaySend .. | .recallReceive .. | .reinReceive .. | .haltReceive .. | .linkHaltReceive ..
  | .attributionPeriodEnd .. | .markSend .. => true
  | .markReceive _ _ skews _ => skews.length == 64
  | .berWindowEnd _ viol disp => viol.length == 64 && disp.length == 64
  | .laneLock .. => true
  | .alignComplete _ skews => skews.length == 64
  | .rtReqReceive .. | .rtRspReceive .. | .capReceive .. | .stepReqReceive .. | .stepAckReceive .. | .resultReceive ..
  | .stepStart .. | .rungChange .. | .prbsEnd .. | .trainingTimeout .. | .reaimLight .. | .reaimTimeout .. | .lightOn ..
  | .lightLoss .. | .probePulse .. | .litWaitExpiry .. | .laserFault .. | .bridleService .. | .gainChangeApply .. => true
  | .deadlockRaise .. | .yardDrainComplete .. | .coachmanRestart .. | .replay .. | .replayGuilty ..
  | .shadowWindowEnd .. | .safeNAssert | .safeNRelease | .collectorMismatch | .powerFailWarning | .coldReset
  | .aonPowerUp | .supplyUndervoltage .. | .supplySequenceError .. | .thermalThresholdCrossing .. | .aonOscillatorLoss
  | .coachmanWatchdogExpiry .. | .patrolScrubRead .. => true
  | .hitchReadResponse .. | .hitchWriteResponse .. | .hitchCreditReturn .. | .hitchBoundExpiry ..
  | .depotAccessComplete .. => true
  | .imageFetchComplete .. | .bootStepTimeout | .depotTrainingComplete | .pllLock | .rtReqSend .. | .capSend ..
  | .probePulseEnd .. | .prbsSync .. | .supplyGood .. | .jtagAccess .. | .cmMemUe .. | .cmTrap .. | .ctlPortViolation
  | .undefinedOpcode .. => true

end Sys2Proof
end

