-- ==== Sys2Proof/Tests/Slice0.lean ====
section
/-! SUPPORT. Tests of the model: ill-formed commands are refused by the check, postilion words written out from R76 decode to their
instructions, single steps give what the spec says, and the hypotheses of every statement are met by a concrete state (`wit_…`). -/

namespace Sys2Proof.Tests

open Machine

-- One kernel evaluation at a time.
set_option Elab.async false

/-! ## Helpers -/

/-- A segment of team 0. -/
def seg0 : SegEnt := ⟨0, 0, 0, false, false⟩

/-- The state in which postilion p is x, executing a segment of team 0, with word w at its pc. -/
def st (p : Nat) (x : Post) (w : BitVec 32) : State :=
  { posts := [(p, { x with cur := some seg0, iram := [(x.pc, w)] })] }

/-- The same with the word of instruction i. -/
def run (p : Nat) (x : Post) (i : Instr) : State := st p x ((encodePost i).getD 0)

/-- Register fields set to given values. -/
def fs (s : State) (l : List (Fld × Nat × Nat)) : State := l.foldl (fun (s : State) x => s.setf x.1 x.2.1 x.2.2) s

/-- The state after a command that answers a next state. -/
def after (c : Instr) (s : State) : State :=
  match exec c s with
  | .next t => t
  | _ => s

/-- A submission entry with the given bytes: (offset, value). -/
def en (l : List (Nat × Nat)) : Entry := BitVec.ofNat 512 (l.foldl (fun a x => a + x.2 * 2 ^ (8 * x.1)) 0)

/-- Pair q has fetched entry e. -/
def got (s : State) (q : Nat) (e : Entry) : State := { s with qs := { s.qs with fetched := [⟨q, e, 0, false⟩] } }

/-! ## Ill-formed commands -/

/-- Every admin and work row refuses an entry with another opcode byte (Table 10.2). -/
theorem test_wf_opcode :
    (∀ i ∈ ([.createSq 0 (en [(0, 0xFF)]), .createCq 0 (en [(0, 0xFF)]), .destroySq 0 (en [(0, 0xFF)]), .destroyCq 0 (en [(0, 0xFF)]),
      .defineTeam 0 (en [(0, 0xFF)]), .retireTeam 0 (en [(0, 0xFF)]), .loadTimetableNow 0 (en [(0, 0xFF)]),
      .loadTimetableAtMtc 0 (en [(0, 0xFF)]), .setTenant 0 (en [(0, 0xFF)]), .allocSync 0 (en [(0, 0xFF)]),
      .freeSync 0 (en [(0, 0xFF)]), .linkEnable 0 (en [(0, 0xFF)]), .linkDisable 0 (en [(0, 0xFF)]), .linkRetrain 0 (en [(0, 0xFF)]),
      .linkReaim 0 (en [(0, 0xFF)]), .linkTest 0 (en [(0, 0xFF)]), .mirrorConfig 0 (en [(0, 0xFF)]), .getLogAon 0 (en [(0, 0xFF)]),
      .getLogDump 0 (en [(0, 0xFF)]), .resetYard 0 (en [(0, 0xFF)]), .fwActivate 0 (en [(0, 0xFF)])] : List Instr), i.wf = false)
      ∧ (∀ i ∈ ([.setEndpoints 0 (en [(0, 0xFF)]), .setDetour 0 (en [(0, 0xFF)]), .allreduce 0 (en [(0, 0xFF)]),
        .reduceScatter 0 (en [(0, 0xFF)]), .allgather 0 (en [(0, 0xFF)]), .broadcast 0 (en [(0, 0xFF)]), .reduce 0 (en [(0, 0xFF)]),
        .alltoall 0 (en [(0, 0xFF)]), .gather 0 (en [(0, 0xFF)]), .scatter 0 (en [(0, 0xFF)]), .barrier 0 (en [(0, 0xFF)]),
        .rcug 0 (en [(0, 0xFF)]), .update 0 (en [(0, 0xFF)]), .norm 0 (en [(0, 0xFF)]), .put 0 (en [(0, 0xFF)]), .get 0 (en [(0, 0xFF)]),
        .atomic 0 (en [(0, 0xFF)]), .signalCommand 0 (en [(0, 0xFF)]), .offload 0 (en [(0, 0xFF)]), .fetch 0 (en [(0, 0xFF)]),
        .copy 0 (en [(0, 0xFF)]), .mirrorCommit 0 (en [(0, 0xFF)])] : List Instr), i.wf = false) := by
  decide +kernel

/-- The rows that name an ACT, an ACTION or a LOG refuse another one (10.5). -/
theorem test_wf_action :
    ∀ i ∈ ([.loadTimetableNow 0 (en [(0, 0x07), (4, 9)]), .loadTimetableAtMtc 0 (en [(0, 0x07), (4, 9)]),
      .linkEnable 0 (en [(0, 0x0B), (5, 9)]), .linkDisable 0 (en [(0, 0x0B), (5, 9)]), .linkRetrain 0 (en [(0, 0x0B), (5, 9)]),
      .linkReaim 0 (en [(0, 0x0B), (5, 9)]), .linkTest 0 (en [(0, 0x0B), (5, 9)]), .getLogAon 0 (en [(0, 0x0D), (4, 9)]),
      .getLogDump 0 (en [(0, 0x0D), (4, 9)])] : List Instr), i.wf = false := by
  decide +kernel

/-- A carriage whose payload is not (LEN + 1) × 64 B (R172), in every row that takes one. -/
theorem test_wf_carriage :
    let c : Carriage := { hdr := 0, payload := List.replicate 63 0, trl := 0 }
    ∀ i ∈ ([.carriageArrive 0 c, .dataReceive 0 c ⟨.reduce, 0, 0, 0, false, 0, 0⟩, .putReceive 0 c, .getReqReceive 0 c, .getRspReceive 0 c,
      .atomReqReceive 0 c, .atomRspReceive 0 c, .signalReceive 0 c, .barrierArrive 0 c, .barrierRelease 0 c, .mgmtReqReceive 0 c,
      .mgmtRspReceive 0 c, .farWrReceive 0 c, .farRdreqReceive 0 c, .farRdrspReceive 0 c, .mirrorReceive 0 c] : List Instr), i.wf = false := by
  decide +kernel

/-- A TICK carries its value in the slots of a column, a skew per lane (R210, R212). -/
theorem test_wf_lengths :
    (Instr.tickReceive 0 [0, 0, 0, 0, 0, 0, 0] 0).wf = false ∧ (Instr.markReceive 0 0 (List.replicate 65 0) 0).wf = false
      ∧ (Instr.alignComplete 0 (List.replicate 63 0)).wf = false ∧ (Instr.tickReceive 0 (List.replicate 8 0) 0).wf = true := by
  decide +kernel

/-! ## Postilion words written out from R76: op 31–26, d 25–22, a 21–18, b 17–14, imm14 13–0, imm22 21–0 -/

/-- ADDI g3, g2, 40: the example of section 3.4. -/
theorem test_word_addi : decodePost 5 0x20C80028 = .addi 5 3 2 40 := by decide

theorem test_word_alu :
    decodePost 0 0b000001_0001_0010_0011_00000000000000 = .add 0 1 2 3 ∧ decodePost 0 0b000110_1111_0000_1000_00000000000000 = .shl 0 15 0 8
      ∧ decodePost 0 0b001010_0100_0101_0110_00000000000000 = .mul 0 4 5 6 := by decide

theorem test_word_movi : decodePost 0 0b001001_0111_1000000000000000000001 = .movi 0 7 0x200001 := by decide

theorem test_word_control :
    decodePost 9 0b010010_0000_0001_0010_11111111111110 = .blt 9 1 2 0x3FFE ∧ decodePost 9 0b010011_0000_0000000000000000000011 = .jmp 9 3
      ∧ decodePost 9 0b010100_0000_0000000000000000000000 = .endSeg 9 := by decide

theorem test_word_memory :
    decodePost 1 0b011000_0001_0010_0000_00000000001000 = .ld 1 1 2 8 ∧ decodePost 1 0b011001_0000_0010_0011_00000000010000 = .st 1 2 3 16
      ∧ decodePost 1 0b011100_0001_0000_0000_00000000000010 = .stg 1 1 2 := by decide

theorem test_word_messages :
    decodePost 2 0b100000_0000_0001_0010_00000000000111 = .send 2 1 2 7 ∧ decodePost 2 0b100001_0011_0000_0000_00000000000100 = .waitm 2 3 4
      ∧ decodePost 2 0b100010_0000_0001_0010_00000000000001 = .waits 2 1 2 1 ∧ decodePost 2 0b100011_0000_0001_0010_00000000000000 = .signal 2 1 2 := by
  decide

theorem test_word_datapath :
    decodePost 3 0b101000_0000_0001_0000_00000000000101 = .xmit 3 1 5 ∧ decodePost 3 0b101011_0000_0010_0000_00000000000110 = .hrd 3 2 6
      ∧ decodePost 3 0b101110_0000_0011_0000_00000000000111 = .dwr 3 3 7 ∧ decodePost 3 0b111111_0000_0000_0000_00000000000000 = .undefinedOpcode 3 63 := by
  decide

/-! ## Postilion instructions -/

def xTop : Post := { pc := 4095, regs := [(2, 5)] }

theorem wit_PostilionArithmeticSetsItsRegister :
    ∀ i ∈ [Instr.nop 63, .add 63 0 15 2, .sub 63 15 0 2, .and 63 2 2 2, .or 63 1 2 3, .xor 63 1 2 3, .shl 63 1 2 2, .shr 63 1 2 2,
      .addi 63 2 2 0x3FFF, .movi 63 1 0x200000, .mul 63 2 2 2], Runs (run 63 xTop i) 63 i := by
  unfold Runs; decide +kernel

def xBr : Post := { iramLen := 8, regs := [(1, 1), (2, 0xFFFFFFFFFFFFFFFF)] }

theorem wit_PostilionBranchesGoToTheirTarget :
    (∀ i ∈ [Instr.beq 0 3 0 7, .bne 0 0 1 7, .blt 0 2 0 7, .jmp 0 7], Runs (run 0 xBr i) 0 i)
      ∧ (∀ i ∈ [Instr.beq 0 0 1 7, .bne 0 3 0 7, .blt 0 0 2 7], Runs (run 0 xBr i) 0 i)
      ∧ (∀ i ∈ [Instr.beq 0 3 0 8, .bne 0 0 1 0x3FFF, .blt 0 2 0 8, .jmp 0 8, .jmp 0 0x3FFFFF], Runs (run 0 xBr i) 0 i)
      ∧ xBr.reg 3 = xBr.reg 0 ∧ xBr.reg 0 ≠ xBr.reg 1 ∧ (xBr.reg 2).toInt < (xBr.reg 0).toInt
      ∧ Runs (st 0 xBr 0xFC000000) 0 (.undefinedOpcode 0 63) ∧ (st 0 xBr 0xFC000000).reaction 18 < 2
      ∧ (st 0 xBr 0xFC000000).rf .TT_TEAM_STATE 0 ≠ 1 := by
  unfold Runs; decide +kernel

def xMem : Post := { regs := [(1, 16376), (2, 16384), (3, 4)] }

theorem wit_PostilionLoadsAndStoresUseItsDataRam :
    ∀ i ∈ [Instr.ld 5 1 1 0, .ld 5 1 2 0, .ld 5 1 3 0, .st 5 1 3 0, .st 5 2 3 0x3FFF, .st 5 3 3 0, .stg 5 1 0, .stg 5 1 1, .stg 5 0 2,
      .stg 5 1 3, .stg 5 1 0x3FFF], Runs (run 5 xMem i) 5 i := by
  unfold Runs; decide +kernel

def aTag : TagOp := { tag := 7, kind := .hwr, desc := descOf [], serial := 0 }

theorem wit_EndFinishesTheSegment :
    let s0 := run 0 { tags := [aTag] } (.endSeg 0)
    let s1 := run 0 {} (.endSeg 0)
    let s2 := fs (run 0 { rest := [{ seg0 with eval := true }, { seg0 with team := 63 }] } (.endSeg 0)) [(.TT_EVAL_CTL_EVAL_EN, 0, 0)]
    let s3 := run 0 { dram := [(3, 2)] } (.endSeg 0)
    Runs s0 0 (.endSeg 0) ∧ Runs s1 0 (.endSeg 0) ∧ (s1.post 0).rest.dropWhile (s1.skipSeg 0) = []
      ∧ Runs s2 0 (.endSeg 0) ∧ (s2.post 0).rest.dropWhile (s2.skipSeg 0) = [{ seg0 with team := 63 }]
      ∧ Runs s3 0 (.endSeg 0) ∧ (s3.post 0).recState 0 0 = 2 ∧ (s3.post 0).recInst 0 0 = 0
      ∧ s3.moreSegs 0 0 ((s3.running 0).elim (s3.rf .TT_STATUS_STAGE_IDX) (·.last)) = false := by
  unfold Runs; decide +kernel

/-- Postilion 0 sends to postilion 0's own mailbox 7, of which it is the sender; n messages are on their way. -/
def sMail (n : Nat) (i : Instr) : State :=
  { run 0 { map := List.replicate 8 (0, 0), mbox := [(1, [5, 6])] } i with mesh := List.replicate n ⟨0, 0, 7, 9⟩ }

theorem wit_MailboxesCarryMessagesInOrder :
    (∀ n ∈ [3, 4], Runs (sMail n (.send 0 0 0 7)) 0 (.send 0 0 0 7) ∧ (sMail n (.send 0 0 0 7)).mayMail 0 0 7 = true
        ∧ (sMail n (.send 0 0 0 7)).boxLoad 0 7 = n)
      ∧ Runs (run 0 {} (.send 0 0 0 7)) 0 (.send 0 0 0 7) ∧ (run 0 {} (.send 0 0 0 7)).mayMail 0 0 7 = false
      ∧ Runs (sMail 0 (.waitm 0 1 0)) 0 (.waitm 0 1 0) ∧ ((sMail 0 (.waitm 0 1 0)).post 0).box 0 = []
      ∧ Runs (sMail 0 (.waitm 0 1 1)) 0 (.waitm 0 1 1) ∧ ((sMail 0 (.waitm 0 1 1)).post 0).box 1 = [5, 6]
      ∧ (sMail 1 (.nop 0)).coreOn = true
      ∧ (sMail 1 (.nop 0)).mesh.find? (fun y => y.src == 0 && y.dst == 0 && y.m == 7) = some ⟨0, 0, 7, 9⟩ := by
  unfold Runs; decide +kernel

/-- Object 5 is a semaphore of yard 0, with value 3. -/
def sObj (x : Post) (i : Instr) : State :=
  fs (run 0 x i) [(.SYN_FLAG_ALLOC, 5, 1), (.SYN_OBJ_VALUE, 5, 3), (.SYN_RANGE_BASE, 0, 0), (.SYN_RANGE_LIMIT, 0, 8)]

def xObj (v : Word) : Post := { regs := [(1, 5), (2, v)], tags := [aTag] }

/-- g1 names an object of endpoint 1. -/
def xFar : Post := { regs := [(1, 0x8000000100000005), (2, 1)] }

theorem wit_PostilionSyncAndTagWaits :
    let s3 := sObj (xObj 3) (.waits 0 1 2 0)
    let s4 := sObj (xObj 4) (.waits 0 1 2 0)
    let s5 := sObj (xObj 4) (.signal 0 1 2)
    let s6 := run 0 xFar (.signal 0 1 2)
    let s7 := fs { s6 with net := { s6.net with wins := [{ ep := 1, tenant := 0, team := 64, gen := 0, credits := 0 }] } }
      [(.RTE_EP_LO_VALID, 1, 1), (.RTE_EP_LO_TENANT_MASK, 1, 1)]
    Runs s3 0 (.waits 0 1 2 0) ∧ s3.ownObj 0 5 = true
      ∧ released (s3.rf .SYN_FLAG_KIND 5) (s3.rf .SYN_OBJ_VALUE 5) 3 false = true
      ∧ Runs s4 0 (.waits 0 1 2 0) ∧ s4.ownObj 0 5 = true
      ∧ released (s4.rf .SYN_FLAG_KIND 5) (s4.rf .SYN_OBJ_VALUE 5) 4 false = false
      ∧ Runs (run 0 xFar (.waits 0 1 2 1)) 0 (.waits 0 1 2 1) ∧ ¬ ((xFar.reg 1).toNat < 2 ^ 63)
      ∧ Runs s5 0 (.signal 0 1 2) ∧ s5.ownObj 0 5 = true ∧ s5.rf .SYN_FLAG_KIND 5 ≠ 1 ∧ s5.rf .SYN_OBJ_VALUE 5 + 4 < 2 ^ 63
      ∧ Runs (run 0 (xObj 4) (.signal 0 1 2)) 0 (.signal 0 1 2) ∧ (run 0 (xObj 4) (.signal 0 1 2)).ownObj 0 5 = false
      ∧ Runs s6 0 (.signal 0 1 2) ∧ s6.on .RTE_EP_LO_VALID 1 = false
      ∧ Runs s7 0 (.signal 0 1 2) ∧ s7.on .RTE_EP_LO_VALID 1 = true
      ∧ bitAt (s7.rf .RTE_EP_LO_TENANT_MASK 1) (s7.yardTenant 0) = true ∧ (s7.takeCredit 1 (s7.yardTenant 0) 64).isNone = true
      ∧ Runs (run 0 (xObj 128) (.waitx 0 2)) 0 (.waitx 0 2) ∧ (xObj 128).tags.any (fun t => 128 % 256 / 2 ^ t.tag % 2 == 1) = true
      ∧ Runs (run 0 (xObj 127) (.waitx 0 2)) 0 (.waitx 0 2)
      ∧ (xObj 127).tags.all (fun t => 127 % 256 / 2 ^ t.tag % 2 == 0) = true := by
  unfold Runs; decide +kernel

/-- A carriage of zero header fields. -/
def carZ : Carriage := { hdr := 0, payload := List.replicate 64 0, trl := 0 }

theorem wit_DatapathInstructionsTakeTheirTag :
    let at_ (p : Nat) (i : Instr) := run p { regs := [(1, 16352)] } i
    let gone (p : Nat) (i : Instr) := run p { regs := [(1, 16352)], missing := true } i
    let busy (p : Nat) (i : Instr) := run p { regs := [(1, 16352)], tags := [aTag] } i
    let ram (p : Nat) (i : Instr) := run p { regs := [(1, 16360)] } i
    let wrong : List (PostId × Instr) := [(11, .xmit 11 1 7), (10, .recv 10 1 7), (14, .aop 14 1 7), (15, .hrd 15 1 7), (13, .hwr 13 1 7),
      (14, .drd 14 1 7), (0, .dwr 0 1 7)]
    let good : List (PostId × Instr) := [(10, .xmit 10 1 7), (11, .recv 11 1 7), (12, .aop 12 1 7), (13, .aop 13 1 7), (14, .hrd 14 1 7),
      (14, .hwr 14 1 7), (15, .drd 15 1 7), (15, .dwr 15 1 7)]
    let sA : State := run 12 { regs := [(1, 16352)], dram := [(16352, 1), (16352 + 11, 0x20), (16352 + 23, 0x20), (16352 + 29, 1)] } (.aop 12 1 7)
    let sR : State := { at_ 1 (.recv 1 1 7) with net := { rx := [⟨0, 0, carZ⟩] } }
    (∀ x ∈ wrong, Runs (at_ x.1 x.2) x.1 x.2) ∧ (∀ x ∈ good, Runs (at_ x.1 x.2) x.1 x.2) ∧ (∀ x ∈ good, Runs (ram x.1 x.2) x.1 x.2)
      ∧ (∀ x ∈ good, Runs (busy x.1 x.2) x.1 x.2) ∧ (∀ x ∈ good, Runs (gone x.1 x.2) x.1 x.2)
      ∧ (at_ 10 (.xmit 10 1 7)).foreignLink 10 = false ∧ (at_ 11 (.recv 11 1 7)).foreignLink 11 = false
      ∧ (at_ 15 (.drd 15 1 7)).skipped 15 = false
      ∧ ((at_ 11 (.recv 11 1 7)).rxFor 11 ((at_ 11 (.recv 11 1 7)).newTag 7 .recv [])).isNone = true
      ∧ Runs sR 1 (.recv 1 1 7) ∧ (sR.rxFor 1 (sR.newTag 7 .recv ((sR.post 1).rdRam 16352 32))).isSome = true
      ∧ (at_ 12 (.aop 12 1 7)).aopBad ((at_ 12 (.aop 12 1 7)).arrOp 12 ((at_ 12 (.aop 12 1 7)).post 12) (((at_ 12 (.aop 12 1 7)).post 12).rdRam 16352 32) 7) = true
      ∧ Runs sA 12 (.aop 12 1 7) ∧ sA.aopBad (sA.arrOp 12 (sA.post 12) ((sA.post 12).rdRam 16352 32) 7) = false := by
  unfold Runs; decide +kernel

/-! ## Admin commands -/

def sQ0 (e : Entry) (l : List (Fld × Nat × Nat)) : State := got (fs State.reset l) 0 e

def eCq : Entry := en [(0, 0x02), (2, 7), (4, 1023), (8, 4096), (16, 16), (17, 31), (24, 8)]
def eSq : Entry := en [(0, 0x01), (2, 7), (4, 1), (8, 4096), (16, 4)]
def eDcq : Entry := en [(0, 0x04), (4, 1)]

theorem wit_QueuePairsAreCreatedAndTheirRingsRemoved :
    let s2 := sQ0 eCq []
    let s1 := sQ0 eSq [(.DB_STATUS_CQ_LIVE, 1, 1)]
    let s4 := sQ0 eDcq [(.DB_STATUS_CQ_LIVE, 1, 1)]
    Starts s2 0 0x02 eCq [(4, 2), (8, 8), (16, 1), (17, 1), (24, 8)]
      ∧ (ent eCq 4 2 = 1023 ∧ 1023 < s2.fuses.conf.queues ∧ ent eCq 8 8 % 4096 = 0 ∧ ent eCq 16 1 = 16 ∧ s2.rf .DB_STATUS_QUARANTINE 1023 = 0)
      ∧ ent eCq 17 1 ≤ 31 ∧ ent eCq 24 8 % 8 = 0 ∧ s2.rf .DB_STATUS_CQ_LIVE 1023 = 0 ∧ s2.rf .DB_STATUS_SQ_LIVE 1023 = 0
      ∧ Starts s1 0 0x01 eSq [(4, 2), (8, 8), (16, 1), (20, 2), (22, 2)]
      ∧ (ent eSq 4 2 = 1 ∧ 1 < s1.fuses.conf.queues ∧ ent eSq 8 8 % 4096 = 0 ∧ ent eSq 16 1 = 4 ∧ s1.rf .DB_STATUS_QUARANTINE 1 = 0)
      ∧ s1.rf .DB_STATUS_CQ_LIVE 1 ≠ 0 ∧ s1.rf .DB_STATUS_SQ_LIVE 1 = 0
      ∧ Starts s4 0 0x04 eDcq [(4, 2)] ∧ ent eDcq 4 2 = 1 ∧ s4.rf .DB_STATUS_CQ_LIVE 1 ≠ 0 ∧ s4.rf .DB_STATUS_SQ_LIVE 1 = 0 := by
  unfold Starts; decide +kernel

def eDsq : Entry := en [(0, 0x03), (4, 1)]

theorem wit_DestroySqEndsEveryCommandOfThePair :
    let s := sQ0 eDsq [(.DB_STATUS_SQ_LIVE, 1, 1)]
    let t := { s with qs := { s.qs with cmds := [⟨1, 9, 0, 0, .load⟩] } }
    Starts t 0 0x03 eDsq [(4, 2)] ∧ ent eDsq 4 2 = 1 ∧ 1 < t.fuses.conf.queues ∧ t.rf .DB_STATUS_SQ_LIVE 1 ≠ 0 ∧ t.teamNames 1 = false := by
  unfold Starts; decide +kernel

theorem wit_AdminCommandsOutOfServiceChangeNothing :
    ∀ op ∈ [0x01, 0x02, 0x05, 0x06, 0x08, 0x09, 0x0A, 0x0C, 0x0E, 0x10, 0x11],
      let s := sQ0 (en [(0, op)]) [(.FLT_CTL_OOS, 0, 1)]
      s.coreOn = true ∧ (s.start? 0 op (en [(0, op)])).isSome = true ∧ (s.oos || s.stable) = true := by decide +kernel

def eDef : Entry := en [(0, 0x05), (4, 63), (5, 255), (6, 3), (7, 1), (8, 1), (9, 16), (16, 2), (17, 1), (18, 1), (20, 5)]
def eRet : Entry := en [(0, 0x06), (4, 63), (5, 1)]

theorem wit_TeamsAreDefinedAndRetired :
    let s := sQ0 eDef [(.RTE_SLICE_EXT_X, 0, 2), (.RTE_SLICE_EXT_Y, 0, 1), (.RTE_SLICE_EXT_Z, 0, 1), (.DB_STATUS_SQ_LIVE, 5, 1),
      (.DB_STATUS_YARD, 5, 3)]
    let r := sQ0 eRet [(.TT_TEAM_STATE, 63, 2), (.TT_TEAM_GEN, 63, 1)]
    let g := sQ0 eRet [(.TT_TEAM_STATE, 63, 1)]
    Starts s 0 0x05 eDef [(4, 1), (5, 1), (6, 1), (7, 1), (8, 1), (9, 1), (10, 1), (12, 3), (16, 3), (20, 2)]
      ∧ firstBad (defineTeamBad eDef s) = none
      ∧ Starts r 0 0x06 eRet [(4, 1), (5, 1)] ∧ ent eRet 4 1 < r.fuses.conf.teams ∧ ent eRet 5 1 = r.rf .TT_TEAM_GEN 63
      ∧ r.rf .TT_TEAM_STATE 63 = 2 ∧ r.insts = [] ∧ r.qs.cmds = [] ∧ r.qs.fetched.any (fun f => teamOp (eOp f.e)) = false
      ∧ Starts g 0 0x06 eRet [(4, 1), (5, 1)] ∧ ent eRet 5 1 ≠ g.rf .TT_TEAM_GEN 63 := by
  unfold Starts; decide +kernel

def eAlloc : Entry := en [(0, 0x09), (4, 3), (6, 0xFFFF), (8, 2), (10, 2), (11, 63), (12, 1)]
def eFree : Entry := en [(0, 0x0A), (4, 3), (6, 6), (8, 2)]
def eTen : Entry := en [(0, 0x08), (4, 3), (5, 3), (6, 127), (8, 1), (12, 3068), (14, 3072), (16, 0x800000)]

/-- The smallest configuration. -/
def small (s : State) : State := { s with fuses := { conf := .pony } }

theorem wit_SyncObjectsAreAllocatedAndFreed :
    let r : List (Fld × Nat × Nat) := [(.SYN_RANGE_BASE, 3, 5), (.SYN_RANGE_LIMIT, 3, 8), (.TT_TEAM_STATE, 63, 1), (.TT_TEAM_YARD, 63, 3)]
    let a := sQ0 eAlloc r
    let f := sQ0 eFree r
    let t := small (sQ0 eTen [])
    Starts a 0 0x09 eAlloc [(4, 1), (6, 2), (8, 2), (10, 1), (11, 1), (12, 4)] ∧ firstBad (allocBad 0 eAlloc a) = none
      ∧ Starts f 0 0x0A eFree [(4, 1), (6, 2), (8, 2)] ∧ firstBad (freeBad 0 eFree f) = none
      ∧ Starts t 0 0x08 eTen [(4, 1), (5, 1), (6, 2), (8, 2), (12, 2), (14, 2), (16, 4)] := by
  unfold Starts; decide +kernel

theorem wit_SyncObjectsAreAllocatedAndFreed_tenant : firstBad (setTenantBad eTen (small (sQ0 eTen []))) = none := by decide +kernel

theorem wit_LinkControlMovesTheLink :
    let e (act : Nat) := en [(0, 0x0B), (4, 5), (5, act)]
    let held (act : Nat) := sQ0 (e act) []
    let s (act : Nat) : State := { sQ0 (e act) [(.LNK_STATE_STATE, 5, if act = 0 then 0 else 6)] with boot := { step := 7 } }
    (∀ act ∈ [0, 1, 2, 3, 4], Starts (s act) 0 0x0B (e act) [(4, 1), (5, 1)] ∧ ent (e act) 4 1 = 5 ∧ ent (e act) 5 1 = act
        ∧ linkWrong (s act) (e act) = false ∧ (s act).linkHeld (e act) = false)
      ∧ (held 0).linkHeld (e 0) = true ∧ Starts (held 0) 0 0x0B (e 0) [(4, 1), (5, 1)] := by
  unfold Starts; decide +kernel

def eLog (k : Nat) : Entry := en [(0, 0x0D), (4, k), (8, 4096), (20, 64)]
def eRst : Entry := en [(0, 0x0E), (4, 3), (5, 1)]
def eFw : Entry := en [(0, 0x0F), (8, 4096), (16, 64)]

theorem wit_LogsAndImagesAreServed :
    let s (e : Entry) := sQ0 e [(.FLT_CTL_OOS, 0, 1)]
    (∀ k ∈ [0, 1], (s (eLog k)).coreOn = true ∧ ((s (eLog k)).start? 0 0x0D (eLog k)).isSome = true
        ∧ formBad (eLog k) [(4, 1), (8, 8), (16, 4), (20, 4)] = none ∧ ent (eLog k) 20 4 = 64 ∧ ent (eLog k) 4 1 = k)
      ∧ (s eFw).coreOn = true ∧ ((s eFw).start? 0 0x0F eFw).isSome = true ∧ formBad eFw [(8, 8), (16, 4)] = none
      ∧ ent eFw 8 8 = 4096 ∧ ent eFw 16 4 = 64
      ∧ Starts (sQ0 eRst []) 0 0x0E eRst [(4, 1), (5, 1)] ∧ firstBad (resetYardBad eRst (sQ0 eRst [])) = none := by
  unfold Starts; decide +kernel

def eEps : Entry := en [(0, 0x10), (4, 0), (6, 1), (8, 4096)]
def eDet : Entry := en [(0, 0x11), (4, 1), (6, 0), (8, 1)]

theorem wit_EndpointChangesWaitForTheirTick :
    Starts (sQ0 eEps []) 0 0x10 eEps [(4, 2), (6, 2), (8, 8), (16, 8)] ∧ firstBad (setEndpointsBad eEps (sQ0 eEps [])) = none
      ∧ Starts (sQ0 eDet []) 0 0x11 eDet [(4, 2), (6, 2), (8, 1), (16, 8)] ∧ firstBad (setDetourBad eDet (sQ0 eDet [])) = none := by
  unfold Starts; decide +kernel

/-! ## Timetables and team commands -/

/-- A timetable image that R64 accepts: one team of two members, one variant, one program with one segment; CRC-32C by hand. -/
def imgWords : List (Nat × Nat) :=
  [(0, 0x40000236545446), (1, 0x7700000cc0), (2, 0x101006400020208), (3, 0x200), (4, 0x6000000040), (8, 0x1010200010001), (9, 0x110000000),
   (10, 0xc70), (13, 0x70), (14, 0x1000000c78), (15, 0xc8800000000), (16, 0x1), (398, 0x12000010000), (399, 0x2150000325000005),
   (400, 0x5000000005914000), (401, 0x100000000), (407, 0xf04d832e00000000)]

def imgBytes : List Byte := ((List.range 408).map fun k => leBytes 8 (sget (fun _ => 0) imgWords k)).flatten

/-- The image passes R64, with the stage length and the share of its header. -/
def okImage (b : List Byte) (code : Nat) : Bool :=
  match checkImage b code 64 (0, 0, 0) with
  | .inr im => im.stageUs == 8 && im.share == 2 && im.period == 2 && im.teams.length == 1
  | .inl _ => false

set_option maxRecDepth 100000 in
theorem test_image_accepted : okImage imgBytes 2 = true := by decide +kernel

def imNone : Image := ⟨0x77, 100, 1, 2, 1, [], [], []⟩
def teOne (op : Nat) : TeamEnt := ⟨0, 0, 1, 0, (2, 1, 1), false, (0, 0, 0), 16, [⟨0, 1, op, 0⟩]⟩

def imOne : Image := { imNone with teams := [teOne 0x20] }

theorem wit_TimetableLoadsAreCopiedCheckedAndSwapped :
    let e (k : Nat) := en [(0, 0x07), (4, k), (8, 4096), (16, 64), (24, 1000000)]
    let ld (b : List Byte) : State := { tt := { load := some ⟨0, 1, true, 100000, b⟩ } }
    let sAt : State := fs { tt := { active := some imNone } } [(.TT_STATUS_STATE, 0, 2), (.TT_STAGE_LEN_LEN_US, 0, 8), (.TT_UNSCHED_SHARE_SIXTEENTHS, 0, 2)]
    let sw (im : Image) : State := { tt := { standby := some im, swap := some ⟨0, 1, false, 0⟩ } }
    (∀ k ∈ [0, 1], Starts (sQ0 (e k) []) 0 0x07 (e k) [(4, 1), (8, 8), (16, 4), (24, 8)] ∧ ent (e k) 4 1 = k
        ∧ (sQ0 (e k) []).tt.load = none ∧ (sQ0 (e k) []).tt.swap = none)
      ∧ (ld []).coreOn = true ∧ checkImage [] (ld []).fuses.conf.code (ld []).nteam ((ld []).here 0, (ld []).here 1, (ld []).here 2) = .inl 1
      ∧ ((ld []).fuses.conf.code, (ld []).nteam, (ld []).here 0, (ld []).here 1, (ld []).here 2) = (2, 64, 0, 0, 0)
      ∧ (ld imgBytes).engSt = 0 ∧ (fs (ld imgBytes) [(.TT_STATUS_STATE, 0, 2)]).engSt ≠ 0
      ∧ sAt.atMtcOk { imNone with stageUs := 8, share := 2 } 100000 = false ∧ sAt.atMtcOk { imNone with stageUs := 8, share := 2 } 16000 = true
      ∧ sAt.now < 16000
      ∧ (sw imNone).coreOn = true ∧ (sw imNone).engSt = 0 ∧ imNone.teams.all (sw imNone).teamMatches = true
      ∧ imOne.teams.all (sw imOne).teamMatches = false := by
  unfold Starts; decide +kernel

/-- Endpoint 0 is this chip and 1 its neighbour in X; team 0 of both has one slot of the opcode and its commands on pair 1. -/
def sTeam (op : Nat) (e : Entry) : State :=
  got (fs { host := [(4096 + 36, 1)], teams := [(0, { ext := (2, 1, 1), queue := 1 })], tt := { active := some { imNone with teams := [teOne op] } } }
    [(.RTE_SLICE_EXT_X, 0, 2), (.RTE_SLICE_EXT_Y, 0, 1), (.RTE_SLICE_EXT_Z, 0, 1), (.TT_TEAM_STATE, 0, 1), (.DEP_STATUS_TRAINED, 0, 0xFFFF),
     (.SYN_BAR_VALID, 0, 1), (.RTE_EP_LO_VALID, 0, 1), (.RTE_EP_LO_VALID, 1, 1), (.RTE_EP_LO_X, 1, 1)]) 1 e

def eColl (op : Nat) : Entry := en [(0, op), (16, 65536), (24, 64)]
def eGroom (op d : Nat) : Entry := en [(0, op), (16, 65536), (24, 64), (34, d), (40, 1), (56, 4096)]
def eMove (op link : Nat) : Entry := en [(0, op), (16, 2 ^ 47 + if link = 7 then 0 else 2 ^ 48), (24, 64), (32, link)]
def eBar : Entry := en [(0, 0x28)]

def works : List (Nat × Entry × List (Nat × Nat) × (Entry → State → List (Bool × Nat × Nat))) :=
  [(0x20, eColl 0x20, collFields, collBad), (0x21, eColl 0x21, collFields, collBad), (0x22, eColl 0x22, collFields, collBad),
   (0x23, eColl 0x23, collFields, collBad), (0x24, eColl 0x24, collFields, collBad), (0x25, eColl 0x25, collFields, collBad),
   (0x26, eColl 0x26, collFields, collBad), (0x27, eColl 0x27, collFields, collBad), (0x28, eBar, collFields, barrierBad),
   (0x30, eGroom 0x30 1, groomFields, groomBad), (0x31, eGroom 0x31 1, groomFields, groomBad), (0x32, eGroom 0x32 0, groomFields, groomBad),
   (0x48, eMove 0x48 7, moveFields, moveBad), (0x49, eMove 0x49 7, moveFields, moveBad), (0x50, eColl 0x50, collFields, copyBad)]

theorem wit_TeamCommandsBindToTheirInstance :
    (∀ x ∈ works, let s := sTeam x.1 x.2.1
      Starts s 1 x.1 x.2.1 x.2.2.1 ∧ firstBad (teamBad 1 x.2.1 s) = none ∧ ent x.2.1 5 1 = s.rf .TT_TEAM_GEN 0
        ∧ firstBad (x.2.2.2 x.2.1 s) = none ∧ s.instanceOf 0 x.1 0 = some 0
        ∧ firstBad (teamBad 1 x.2.1 (fs s [(.TT_TEAM_GEN, 0, 1)])) = none ∧ ent x.2.1 5 1 ≠ (fs s [(.TT_TEAM_GEN, 0, 1)]).rf .TT_TEAM_GEN 0
        ∧ (s.setTeam 0 { s.team 0 with started := [(x.1, 1)] }).instanceOf 0 x.1 0 = none)
      ∧ (∀ op ∈ [0x48, 0x49], let s := sTeam op (eMove op 0)
        Starts s 1 op (eMove op 0) moveFields ∧ firstBad (teamBad 1 (eMove op 0) s) = none ∧ firstBad (moveBad (eMove op 0) s) = none
        ∧ bitAt (s.rf .RTE_EP_LO_TENANT_MASK 1) (s.yardTenant 0) = false) := by
  unfold Starts; decide +kernel

theorem wit_InvalidCommandsReportTheFirstFailedCheck :
    let e (op f : Nat) := en [(0, op), (1, f), (4, 0xFFFF)]
    (∀ op ∈ [0x01, 0x02, 0x03, 0x04, 0x05, 0x08, 0x0C, 0x0E, 0x10, 0x11],
      (sQ0 (e op 0x80) []).coreOn = true ∧ ((sQ0 (e op 0x80) []).start? 0 op (e op 0x80)).isSome = true
        ∧ ((sQ0 (e op 0x80) []).oos || (sQ0 (e op 0x80) []).stable) = false ∧ formBad (e op 0x80) [] = some (3, 1))
      ∧ formBad (e 0x03 0) [(4, 2)] = none ∧ firstBad (destroySqBad (e 0x03 0) (sQ0 (e 0x03 0) [])) = some (4, 4)
      ∧ ((sQ0 (e 0x03 0) []).start? 0 0x03 (e 0x03 0)).isSome = true := by decide +kernel

theorem wit_RemoteCommandsStartTheirOperation :
    let e (op : Nat) := en ([(0, op), (16, 2 ^ 48)] ++ if op < 0x42 then [(24, 2 ^ 31)] else [])
    (∀ op ∈ [0x40, 0x41, 0x42, 0x43], let s := sTeam op (e op)
      Starts s 1 op (e op) remoteFields ∧ firstBad (remoteBad 1 (e op) s) = none
        ∧ bitAt (s.rf .RTE_EP_LO_TENANT_MASK 1) (s.yardTenant (s.rf .DB_STATUS_YARD 1)) = false
        ∧ bitAt ((fs s [(.RTE_EP_LO_TENANT_MASK, 1, 1)]).rf .RTE_EP_LO_TENANT_MASK 1) (s.yardTenant (s.rf .DB_STATUS_YARD 1)) = true) := by
  unfold Starts; decide +kernel

theorem wit_MirrorIsConfiguredAndCommitted :
    let eC : Entry := en [(0, 0x0C), (4, 2), (12, 0), (16, 8192)]
    let eM : Entry := en [(0, 0x51), (8, 5)]
    let sC := sQ0 eC []
    let sM := got (fs State.reset [(.RTE_SLICE_EXT_X, 0, 1), (.RTE_SLICE_EXT_Y, 0, 1), (.RTE_SLICE_EXT_Z, 0, 1), (.GRM_MIR_CFG_OUT_EN, 0, 1),
      (.GRM_MIR_OUT_EPOCH_EPOCH, 0, 5)]) 1 eM
    let d : Cmd := ⟨1, 0, eM, 0, .mirror false⟩
    let sW : State := { qs := { cmds := [d] } }
    let c : Carriage := { carZ with payload := mgmtBytes offCommit (5 * 2 ^ 32 + 64) true }
    let sO (l : List (Fld × Nat × Nat)) : State := fs { net := { mgmtq := [c] } } ((.RTE_EP_LO_VALID, 0, 1) :: l)
    let dup (s : State) := (s.copyOf 5 fun k => s.on .GRM_MIR_COPY_CURRENT k && s.rf .GRM_MIR_COPY_BYTES k == 64)
    let wr (s : State) := (s.copyOf 5 fun k => s.rf .GRM_MIR_COPY_STATE k == 1)
    let i1 : Fld × Nat × Nat := (.GRM_MIR_CFG_IN_EN, 0, 1)
    let ep : Fld × Nat × Nat := (.GRM_MIR_COPY_EPOCH_EPOCH, 1, 5)
    Starts sC 0 0x0C eC [(4, 1), (6, 2), (8, 1), (12, 4), (16, 4)] ∧ firstBad (mirrorConfigBad eC sC) = none
      ∧ Starts sM 1 0x51 eM [(8, 8)] ∧ sM.sliceSet = true ∧ sM.rf .GRM_MIR_CFG_OUT_EN ≠ 0 ∧ sM.rf .GRM_MIR_OUT_EPOCH_EPOCH = ent eM 8 8
      ∧ sW.coreOn = true ∧ sW.safe = false ∧ sW.qs.cmds.find? (fun x => x.phase == .mirror false) = some d
      ∧ sW.groom.mirSent = sW.rf .GRM_MIR_OUT_STAGED ∧ sW.groom.mirOpen = 0 ∧ sW.rf .GRM_MIR_OUTSTAT_LOST = 0
      ∧ (fs sW [(.GRM_MIR_OUTSTAT_LOST, 0, 1)]).rf .GRM_MIR_OUTSTAT_LOST ≠ 0
      ∧ (sO []).coreOn = true ∧ (sO []).safe = false ∧ (sO []).commitWrite c = true ∧ (sO []).mirWriting = false
      ∧ mData c / 2 ^ 32 = 5 ∧ mData c % 2 ^ 32 = 64 ∧ (sO []).rf .GRM_MIR_CFG_IN_EN = 0
      ∧ dup (sO [i1, ep, (.GRM_MIR_COPY_CURRENT, 1, 1), (.GRM_MIR_COPY_BYTES, 1, 64)]) = some 1
      ∧ dup (sO [i1]) = none ∧ wr (sO [i1]) = none
      ∧ dup (sO [i1, ep, (.GRM_MIR_COPY_STATE, 1, 1), (.GRM_MIR_COPY_BYTES, 1, 63)]) = none
      ∧ wr (sO [i1, ep, (.GRM_MIR_COPY_STATE, 1, 1), (.GRM_MIR_COPY_BYTES, 1, 63)]) = some 1
      ∧ dup (sO [i1, ep, (.GRM_MIR_COPY_STATE, 1, 1), (.GRM_MIR_COPY_BYTES, 1, 64)]) = none
      ∧ wr (sO [i1, ep, (.GRM_MIR_COPY_STATE, 1, 1), (.GRM_MIR_COPY_BYTES, 1, 64)]) = some 1 := by
  unfold Starts; decide +kernel

/-! ## Registers -/

theorem wit_RegistersAreAlignedWordsAndNothingElseIsAccessed :
    0 < (regInfo .AON_MTC).n1 * (regInfo .AON_MTC).n2 ∧ State.reset.coreOn = true
      ∧ ¬ ((4 : BitVec 26).toNat % 8 = 0 ∧ (0xFF : BitVec 8) = 0xFF) ∧ ¬ ((8 : BitVec 26).toNat % 8 = 0 ∧ (0x7F : BitVec 8) = 0xFF) := by decide +kernel

theorem wit_RegisterReadsAnswerTheirValueAndClear :
    State.reset.coreOn = true ∧ State.reset.regAt 0x0100000 = some (.AON_MTC, 0) ∧ State.reset.regAt 0x3FFFFF8 = none
      ∧ (ramAt 0x3FFFFF8).isNone = true := by decide +kernel

theorem wit_RegisterWritesObeyAccessAndClass :
    State.reset.coreOn = true ∧ State.reset.regAt 0x0F00020 = some (.TT_START_MTC, 0) ∧ State.reset.runs .TT_START_MTC 0 = false
      ∧ regFields .TT_START_MTC = [.TT_START_MTC_START] ∧ (fieldSpec .TT_START_MTC_START).acc = .rw ∧ (fieldSpec .TT_START_MTC_START).cls = .s
      ∧ rangeOk .TT_START_MTC_START (fpart .TT_START_MTC_START (2 ^ 64 - 1)) = true
      ∧ (fs State.reset [(.TT_STATUS_STATE, 0, 1)]).runs .TT_START_MTC 0 = true ∧ fpart .TT_START_MTC_START (2 ^ 64 - 1) ≠ State.reset.rf .TT_START_MTC_START 0
      ∧ State.reset.regAt 0x0F00028 = some (.TT_PERIOD, 0) := by decide +kernel

/-- Pair 1 with rings of 16 entries, its completion queue's tail at 2 and its head at 0. -/
def sRing : State :=
  fs State.reset [(.DB_STATUS_SQ_LOG2, 1, 4), (.DB_STATUS_CQ_LOG2, 1, 4), (.DB_CQ_TAIL_TAIL, 1, 2)]

theorem wit_DoorbellsMoveTheirIndices :
    sRing.coreOn = true ∧ 1 < sRing.fuses.conf.queues ∧ 15 < 2 ^ sRing.sqLog 1 ∧ 2 ^ sRing.sqLog 1 ≤ 16
      ∧ (2 < 2 ^ sRing.cqLog 1 ∧ ringCount (sRing.cqLog 1) (sRing.rf .DB_CQ_HEAD_HEAD 1) 2
          ≤ ringCount (sRing.cqLog 1) (sRing.rf .DB_CQ_HEAD_HEAD 1) (sRing.rf .DB_CQ_TAIL_TAIL 1))
      ∧ ¬ (ringCount (sRing.cqLog 1) (sRing.rf .DB_CQ_HEAD_HEAD 1) 3
          ≤ ringCount (sRing.cqLog 1) (sRing.rf .DB_CQ_HEAD_HEAD 1) (sRing.rf .DB_CQ_TAIL_TAIL 1))
      ∧ State.reset.rf .DB_CQ_TAIL_TAIL 1 = State.reset.rf .DB_CQ_HEAD_HEAD 1 ∧ sRing.rf .DB_CQ_TAIL_TAIL 1 ≠ sRing.rf .DB_CQ_HEAD_HEAD 1
      ∧ (fs sRing [(.IRQ_DATA_MASK, 0, 0)]).rf .IRQ_DATA_MASK ((fs sRing [(.IRQ_DATA_MASK, 0, 0)]).cqVector 1) = 0 ∧ sRing.aon.irqOut < 32
      ∧ (sRing.remoteOf 1 0xFFFF).isNone = true := by decide +kernel

theorem wit_AdminQueueAndVectorMaskAreSwitched :
    let n := 31 + 4 * 2 ^ 8 + 16 * 2 ^ 16
    let s := fs State.reset [(.ADM_CTL_EN, 0, 1), (.ADM_CTL_SQ_LOG2, 0, 4), (.ADM_CTL_CQ_LOG2, 0, 16), (.ADM_CTL_VECTOR, 0, 31),
      (.IRQ_DATA_MASK, 31, 1), (.IRQ_DATA_PENDING, 31, 1)]
    s.coreOn = true ∧ State.reset.rf .ADM_CTL_EN = 0 ∧ n / 2 ^ 8 % 32 = 4 ∧ n / 2 ^ 16 % 32 = 16
      ∧ s.rf .ADM_CTL_SQ_LOG2 = n / 2 ^ 8 % 32 ∧ s.rf .ADM_CTL_CQ_LOG2 = n / 2 ^ 16 % 32 ∧ s.rf .ADM_CTL_VECTOR = n % 32
      ∧ s.rf .IRQ_DATA_MASK 31 ≠ 0 ∧ s.rf .IRQ_DATA_PENDING 31 ≠ 0 ∧ s.aon.irqOut < 32
      ∧ State.reset.rf .IRQ_DATA_PENDING 31 = 0 := by decide +kernel

/-- An engine that ARM accepts: an image without teams, time trusted and aligned, start two stages ahead. -/
def sArm : State :=
  fs { tt := { active := some { imNone with stageUs := 8, share := 2 } } }
    [(.AON_MTC_STATUS_TRUSTED, 0, 1), (.AON_MTC_STATUS_ALIGNED, 0, 1), (.TT_START_MTC_START, 0, 16000), (.TT_STAGE_LEN_LEN_US, 0, 8),
     (.TT_UNSCHED_SHARE_SIXTEENTHS, 0, 2)]

theorem wit_StageEngineFollowsItsControlRegister :
    sArm.coreOn = true ∧ sArm.engSt = 0 ∧ sArm.safe = false ∧ sArm.armErr = 0 ∧ State.reset.armErr ≠ 0 ∧ State.reset.engSt = 0
      ∧ (∀ k ∈ [1, 2, 3], (fs State.reset [(.TT_STATUS_STATE, 0, k)]).engSt = k ∧ (fs State.reset [(.TT_STATUS_STATE, 0, k)]).coreOn = true)
      ∧ (fs State.reset [(.SYN_TIME_CTL_ROOT, 0, 1)]).rf .SYN_TIME_CTL_ROOT ≠ 0 ∧ (fs State.reset [(.SYN_TIME_CTL_ROOT, 0, 1)]).mtc ≤ 0 * 65536
      ∧ (1 / 2 % 4 = 0 ∧ 3 / 2 % 4 ≠ 0) ∧ (2 % 2 = 0 ∧ 2 / 4 % 2 = 0) ∧ 6 % 2 = 0
      ∧ (fs State.reset [(.SYN_TIME_CTL_ROOT, 0, 0)]).rf .SYN_TIME_CTL_ROOT = 0 := by decide +kernel

theorem wit_DriverSetsAndAddsToSyncObjects :
    let s := fs State.reset [(.SYN_FLAG_ALLOC, 16383, 1), (.SYN_RANGE_BASE, 3, 16383), (.SYN_RANGE_LIMIT, 3, 16384)]
    s.coreOn = true ∧ 16383 < s.fuses.conf.syncObjs ∧ s.allocated 16383 = true ∧ s.rf .SYN_FLAG_KIND 16383 ≠ 1
      ∧ s.rf .SYN_OBJ_VALUE 16383 + (2 ^ 63 - 1) < 2 ^ 63 ∧ s.allocated 16382 = false
      ∧ (fs s [(.SYN_FLAG_KIND, 16383, 1)]).allocated 16383 = true ∧ (fs s [(.SYN_FLAG_KIND, 16383, 1)]).rf .SYN_FLAG_KIND 16383 = 1 := by
  decide +kernel

theorem wit_FaultCollectorRegistersAreWritten :
    State.reset.coreOn = true ∧ State.reset.aon.persist = [] ∧ ((List.range 64).all fun b => !State.reset.persists b) = true
      ∧ State.reset.rf .FLT_STATUS_SOURCES = 0 := by decide +kernel

theorem wit_PowerBootEpochAndHoldWritesAct :
    let s3 := fs State.reset [(.TT_EPOCH_DECISION, 63, 3)]
    let w : State := { qs := { fetched := [⟨1, en [(0, 0x20)], 0, false⟩] } }
    State.reset.coreOn = true ∧ State.reset.engSt = 0 ∧ State.reset.workOpen = false ∧ w.workOpen = true
      ∧ ({ boot := { step := 2 } } : State).boot.step = 2 ∧ ({ boot := { step := 2 } } : State).stable = false ∧ State.reset.boot.step ≠ 2
      ∧ 63 < s3.fuses.conf.teams ∧ s3.rf .TT_EPOCH_DECISION 63 = 3 ∧ State.reset.rf .TT_EPOCH_DECISION 63 ≠ 3
      ∧ State.reset.reaction 52 < 2 := by decide +kernel

/-! ## Queues -/

/-- Firmware runs; pair 0 is in service with rings of 16 entries and one entry, of opcode op, in host memory. -/
def sFetch (op : Nat) : State :=
  fs { boot := { step := 7 }, host := [(4096, BitVec.ofNat 8 op)] }
    [(.ADM_CTL_EN, 0, 1), (.ADM_CTL_SQ_LOG2, 0, 4), (.ADM_CTL_CQ_LOG2, 0, 4), (.ADM_SQ_BASE_ADDR, 0, 1), (.DB_SQ_TAIL_TAIL, 0, 1)]

theorem wit_SubmissionFetchTakesEntriesInOrder :
    let e (op : Nat) : Entry := BitVec.ofNat 512 (rdLe (sFetch op).host ((sFetch op).sqBase 0 + 64 * 0) 64)
    let dup : State := { sFetch 1 with qs := { dones := [plainDone 0 0 1 0 0] } }
    let b5 : State := { boot := { step := 5 } }
    State.reset.coreOn = true ∧ State.reset.coachAt 3 = false
      ∧ b5.coachAt 3 = true ∧ b5.safe = false ∧ b5.stable = false ∧ b5.firmwareOk.nextPair 3 = none
      ∧ ({ boot := { step := 6 } } : State).coachAt 3 = true ∧ ({ boot := { step := 6 } } : State).nextPair 3 = none
      ∧ (∀ op ∈ [0x00, 0x01], (sFetch op).coreOn = true ∧ (sFetch op).coachAt 0 = true ∧ (sFetch op).safe = false ∧ (sFetch op).boot.step ≠ 5
        ∧ (sFetch op).nextPair 0 = some 0 ∧ min 8 (min ((sFetch op).unfetched 0) ((sFetch op).fetchRoom 0)) = 1 ∧ (sFetch op).sqLog 0 ≤ 16
        ∧ (sFetch op).idTaken 0 (eId (e op)) = false ∧ definedOp (eOp (e op)) = (op == 1) ∧ subOpBad (e op) = none
        ∧ ((sFetch op).oos || (sFetch op).stable) = false)
      ∧ dup.nextPair 0 = some 0 ∧ min 8 (min (dup.unfetched 0) (dup.fetchRoom 0)) = 1 ∧ dup.idTaken 0 0 = true := by decide +kernel

/-- An entry with the bytes of a collective and FLAGS f. -/
def eFlag (op f : Nat) : Entry := en [(0, op), (1, f), (16, 65536), (24, 64)]

/-- Instance 1 of team 0 waits for the record of command (1, 9). -/
def sBind (ep : Bool) (l : List (Fld × Nat × Nat)) : State :=
  let e := eFlag 0x20 (b2n ep * 2)
  fs { teams := [(0, { ext := (2, 1, 1), queue := 1 })], qs := { cmds := [⟨1, 9, e, 0, .work 0 1⟩] },
       insts := [{ team := 0, gen := 0, n := 1, op := 0x20, cmd := some (1, 9), entry := e, epoch := ep }] } l

theorem wit_BindingRecordIsWrittenToTheRow :
    let s := sBind false []
    let ep := sBind true []
    let epS := sBind true [(.YRD_EPOCH_STAGE_SIZE_MIB, 0, 1)]
    let full : State := { s with posts := [(15, { dram := [(64 + 3, 2)] })] }
    (∀ s ∈ [sBind false [], sBind true [], sBind true [(.YRD_EPOCH_STAGE_SIZE_MIB, 0, 1)]],
      s.coreOn = true ∧ (s.insts.find? fun j => j.cmd == some (1, 9) && j.st == .waiting) = s.insts.head?
        ∧ s.coachOk 1 = true ∧ s.safe = false ∧ s.recFree 0 0 1 = true)
      ∧ (fs s [(.FLT_CTL_SAFE, 0, 1)]).safe = true ∧ full.recFree 0 0 1 = false
      ∧ ep.stagePlace 0 256 = none ∧ epS.unknownHeld 0 = false ∧ epS.stagePlace 0 256 = some 0 := by decide +kernel

theorem wit_CompletionsArePostedAndInterruptsAnswered :
    let d := plainDone 1 0xFFFF 0x20 0 0
    let s0 : State := { qs := { dones := [d], qps := [(1, { cqBase := 4096, mirror := 64 })] } }
    let l : List (Fld × Nat × Nat) := [(.DB_STATUS_CQ_LIVE, 1, 1), (.DB_STATUS_CQ_LOG2, 1, 16), (.DB_CQ_TAIL_TAIL, 1, 65535)]
    let s := fs s0 l
    let a := fs s0 (l ++ [(.DB_CQ_ARM_ARM, 1, 1), (.IRQ_DATA_MASK, 0, 0)])
    s.coreOn = true ∧ s.qs.dones.find? (fun x => x.q == 1 && x.id == 0xFFFF) = some d ∧ s0.cqLive 1 = false
      ∧ s.cqLive 1 = true ∧ s.safe = false ∧ d.after = none ∧ s.cqLog 1 ≤ 16 ∧ s.rf .DB_CQ_ARM_ARM 1 = 0 ∧ (s.qp 1).mirror ≠ 0
      ∧ a.cqLive 1 = true ∧ a.rf .DB_CQ_ARM_ARM 1 ≠ 0 ∧ a.rf .IRQ_DATA_MASK (a.cqVector 1) = 0 ∧ a.aon.irqOut < 32
      ∧ State.reset.aon.irqOut = 0 ∧ ({ aon := { irqOut := 1 } } : State).aon.irqOut ≠ 0
      ∧ ({ aon := { irqOut := 32, irqq := [(64, 1)] } } : State).aon.irqq = [(64, 1)] := by decide +kernel

theorem wit_IdentifiersAndTimersRunOut :
    let l : List (Fld × Nat × Nat) := [(.TT_TEAM_STATE, 63, 3), (.DB_STATUS_QUARANTINE, 1, 1)]
    let late : Fld × Nat × Nat := (.AON_MTC_MTC_NS, 0, 10 ^ 10)
    let cmd (ph : Phase) (st : InstSt) (op : Nat) : State :=
      fs { qs := { cmds := [⟨1, 7, en [(0, op)], 0, ph⟩], fetched := [⟨1, en [(0, 0x40), (2, 8)], 0, false⟩] }, insts := [{ team := 0, gen := 0, n := 0, op := op, st := st }] } [late]
    let s := fs State.reset l
    let r : Remote := { kind := 0x40, ep := 0, tenant := 0 }
    State.reset.coreOn = true ∧ s.rf .TT_TEAM_STATE 63 = 3 ∧ max (s.team 63).quarEnd ((s.team 63).lastTraffic + s.quarantine) ≤ 10 ^ 10
      ∧ (fs s [late]).now = 10 ^ 10 ∧ s.now < max (s.team 63).quarEnd ((s.team 63).lastTraffic + s.quarantine)
      ∧ State.reset.rf .TT_TEAM_STATE 63 ≠ 3 ∧ s.rf .DB_STATUS_QUARANTINE 1 ≠ 0
      ∧ max (s.qp 1).quarEnd ((s.qp 1).lastTraffic + s.quarantine) ≤ 10 ^ 10 ∧ s.now < max (s.qp 1).quarEnd ((s.qp 1).lastTraffic + s.quarantine)
      ∧ (fs s [(.FLT_CTL_SAFE, 0, 1)]).safe = true
      ∧ (∀ x ∈ [(Phase.mirror true, InstSt.ended, 0x51), (.remote r, .ended, 0x40), (.work 0 0, .waiting, 0x20), (.work 0 0, .bound, 0x20),
            (.work 0 0, .running, 0x28), (.work 0 0, .ended, 0x28), (.work 0 0, .running, 0x20)],
          (cmd x.1 x.2.1 x.2.2).safe = false ∧ (cmd x.1 x.2.1 x.2.2).cmd? 1 7 = some ⟨1, 7, en [(0, x.2.2)], 0, x.1⟩
            ∧ (cmd x.1 x.2.1 x.2.2).expired 1 (eOp (en [(0, x.2.2)])) 0 = true ∧ ((cmd x.1 x.2.1 x.2.2).insts.find? fun i => i.team == 0 && i.n == 0).isSome = true)
      ∧ (cmd .load .ended 0).cmd? 1 8 = none ∧ ((cmd .load .ended 0).qs.fetched.find? fun f => f.q == 1 && eId f.e == 8).isSome = true
      ∧ State.reset.expired 1 0x20 0 = false ∧ (cmd .load .ended 0).expired 1 0x40 0 = true := by decide +kernel

/-! ## Carriages -/

/-- A carriage of kind k for this chip from endpoint 0. -/
def car (cls k : Nat) (bs : List Byte) : Carriage :=
  mkCarriage { cls := cls, kind := k, dst := 0, src := 0, tenant := 0, yard := 0, ygen := 0, seq := 7, dgen := 0 } bs

/-- It has been accepted on port p. -/
def sAcc (p : Nat) (c : Carriage) (l : List (Fld × Nat × Nat)) : State := fs { net := { accepted := [⟨p, 0, c⟩] } } l

def objFields (kind v : Nat) : List (Fld × Nat × Nat) :=
  [(.SYN_FLAG_ALLOC, 5, 1), (.SYN_FLAG_KIND, 5, kind), (.SYN_OBJ_VALUE, 5, v), (.SYN_RANGE_LIMIT, 0, 8), (.SYN_RANGE_BASE, 0, 0)]

theorem wit_RemoteRequestsActAtTheirTarget :
    let put := car 1 1 (granule (2 ^ 47 + 64) 64 0 0 0 0 0 ++ List.replicate 64 9)
    let put0 := car 1 1 (granule 64 64 0 0 0 0 0 ++ List.replicate 64 9)
    let putN := car 1 1 (granule 64 64 0 1 5 0 0 ++ List.replicate 64 9)
    let sig (aop v stamp : Nat) := car 2 6 (granule 5 0 aop 0 0 v stamp)
    let gr (k : Nat) := car 1 k (granule 64 8 2 0 0 1 0)
    (∀ c ∈ [put, put0, putN], (sAcc 8 c []).coreOn = true ∧ ((sAcc 8 c []).takeAccepted 8 c [1]).isSome = true)
      ∧ gNotify put = false ∧ gNotify put0 = false ∧ gNotify putN = true ∧ (sAcc 8 putN []).carMisuse 0 5 false 0 = some 2
      ∧ isDepot ((sAcc 8 put []).aperture 0 (gTarget put)) = true ∧ isDepot ((sAcc 8 put0 []).aperture 0 (gTarget put0)) = false
      ∧ ((sAcc 0 (gr 2) []).takeAccepted 0 (gr 2) [2]).isSome = true ∧ ((sAcc 0 (gr 4) []).takeAccepted 0 (gr 4) [4]).isSome = true
      ∧ (∀ x ∈ [(0, 2 ^ 63 - 1, 0), (1, 2 ^ 63 - 1, 0)],
          ((sAcc 8 (sig x.1 x.2.1 x.2.2) (objFields 0 0)).takeAccepted 8 (sig x.1 x.2.1 x.2.2) [6]).isSome = true
            ∧ (sAcc 8 (sig x.1 x.2.1 x.2.2) (objFields 0 0)).carMisuse 0 5 (x.1 == 1) x.2.1 = none
            ∧ (sAcc 8 (sig x.1 x.2.1 x.2.2) (objFields 0 0)).lateEpoch 5 x.2.2 = false)
      ∧ (sAcc 8 (sig 1 (2 ^ 63) 0) (objFields 0 0)).carMisuse 0 5 true (2 ^ 63) = some 3
      ∧ (sAcc 8 (sig 0 1 1) (objFields 2 0)).lateEpoch 5 1 = true ∧ (sAcc 8 (sig 0 1 1) (objFields 2 0)).carMisuse 0 5 false 1 = none
      ∧ (State.reset.takeAccepted 8 put [1]).isNone = true ∧ (State.reset.takeAccepted 0 (gr 2) [2]).isNone = true := by decide +kernel

def rsp (k : Nat) : Carriage := car 1 k (List.replicate 64 9)

/-- An accepted carriage and an outstanding command. -/
def sRsp (c : Carriage) (d : Cmd) : State :=
  { qs := { cmds := [d] }, net := { accepted := [⟨8, 0, c⟩], wins := [{ ep := 0, tenant := 0, team := 64, gen := 0 }] } }

def req (op : Nat) : State :=
  sRsp (rsp (if op = 0x41 then 3 else 5)) ⟨1, 4, en [(0, op)], 0, .remote { kind := op, ep := 0, tenant := 0, out := [(7, 0, 64)] }⟩

def outcome (v : Nat) : Carriage := car 3 9 (mgmtBytes offCommit v true)

theorem wit_ResponsesReachTheirRequest :
    let mq (n : Nat) : State := { net := { accepted := [⟨8, 0, rsp 8⟩], mgmtq := List.replicate n carZ } }
    let cm (v : Nat) : State := sRsp (outcome v) ⟨1, 7, en [(0, 0x51)], 0, .mirror true⟩
    (∀ k ∈ [3, 5, 9], ((sAcc 8 (rsp k) []).takeAccepted 8 (rsp k) [k]).isSome = true)
      ∧ ((sAcc 8 (rsp 3) []).requestOf (rsp 3) 0x41).isNone = true ∧ ((sAcc 8 (rsp 5) []).requestOf (rsp 5) 0x42).isNone = true
      ∧ ((req 0x41).requestOf (rsp 3) 0x41).isSome = true ∧ ((req 0x41).takeAccepted 8 (rsp 3) [3]).isSome = true
      ∧ ((req 0x42).requestOf (rsp 5) 0x42).isSome = true ∧ ((req 0x42).takeAccepted 8 (rsp 5) [5]).isSome = true
      ∧ (∀ n ∈ [15, 16], ((mq n).takeAccepted 8 (rsp 8) [8]).isSome = true ∧ (mq n).net.mgmtq.length = n)
      ∧ ((sAcc 8 (rsp 9) []).commitCmd true).isNone = true
      ∧ (∀ v ∈ [0, 1, 2], ((cm v).takeAccepted 8 (outcome v) [9]).isSome = true ∧ ((cm v).commitCmd true).isSome = true ∧ mOff (outcome v) = offCommit
          ∧ mWrite (outcome v) = true ∧ cSrc (outcome v) = (cm v).rf .GRM_MIR_CFG_BUDDY_EP ∧ cSeq (outcome v) = 7 ∧ mData (outcome v) % 256 = v)
      ∧ (State.reset.takeAccepted 8 (rsp 3) [3]).isNone = true ∧ State.reset.coreOn = true := by decide +kernel

/-- A barrier carriage of level X of team 0. -/
def bar (ph sense : Nat) : Carriage :=
  mkCarriage { cls := 2, kind := 7, dst := 0, src := 0, tenant := 0, team := 0 } ([BitVec.ofNat 8 ph, 0, BitVec.ofNat 8 sense] ++ List.replicate 61 0)

def sBar (ph sense : Nat) (l : List (Fld × Nat × Nat)) : State :=
  fs { net := { accepted := [⟨0, 0, bar ph sense⟩] }, teams := [(0, { ext := (4, 1, 1) })] } l

theorem wit_BarrierCarriagesMoveTheTree :
    let v : Fld × Nat × Nat := (.SYN_BAR_VALID, 0, 1)
    let ax : Fld × Nat × Nat := (.TT_TEAM_AXES, 0, 1)
    (∀ ph ∈ [0, 1], ∀ sense ∈ [0, 1], bPhase (bar ph sense) = ph ∧ bSense (bar ph sense) = (sense == 1)
        ∧ ((sBar ph sense []).takeAccepted 0 (bar ph sense) [7]).isSome = true)
      ∧ (sBar 0 1 []).coreOn = true ∧ (sBar 0 1 []).rf .SYN_BAR_VALID (cTeam (bar 0 1)) = 0 ∧ (sBar 0 1 [v]).rf .SYN_BAR_VALID (cTeam (bar 0 1)) ≠ 0
      ∧ ((sBar 0 1 [v]).teamAxes 0).dropWhile (· != bLevel (bar 0 1)) = [] ∧ ((sBar 0 1 [v, ax]).teamAxes 0).dropWhile (· != bLevel (bar 0 1)) = [0]
      ∧ (((sBar 0 1 [v, ax]).bar 0).node 0).sense = bSense (bar 0 1) ∧ (((sBar 0 0 [v, ax]).bar 0).node 0).sense ≠ bSense (bar 0 0)
      ∧ (((sBar 0 1 [v, ax]).bar 0).node 0).count < (spanChildren (axisVal ((sBar 0 1 [v, ax]).team 0).ext 0) ((sBar 0 1 [v, ax]).rank 0 0)).length := by
  decide +kernel

/-- An instance of team 255 runs. -/
def withInst (op : Nat) (deg : Bool) (s : State) : State :=
  { s with insts := [{ team := 255, gen := 0, n := 0, op := op, st := .running, degraded := deg }] }

theorem wit_FarMirrorAndDataCarriagesAreTaken :
    let far (k : Nat) := car 0 k (granule (2 ^ 47 + 2 ^ 20 - 64) 64 0 0 0 0 0 ++ List.replicate 64 9)
    let win : List (Fld × Nat × Nat) := [(.GRM_FARWIN_EN, 5, 1), (.GRM_FARWIN_LIMIT_MIB, 5, 1)]
    let mir (o e : Nat) := car 0 13 (granule o 64 0 0 0 e 0 ++ List.replicate 64 9)
    let onM : List (Fld × Nat × Nat) := [(.GRM_MIR_CFG_IN_EN, 0, 1), (.GRM_MIR_CFG_IN_SIZE_MIB, 0, 2)]
    let cur : List (Fld × Nat × Nat) := [(.GRM_MIR_COPY_CURRENT, 1, 1), (.GRM_MIR_COPY_EPOCH_EPOCH, 1, 5)]
    let w (e : Nat) : List (Fld × Nat × Nat) := [(.GRM_MIR_COPY_STATE, 0, 1), (.GRM_MIR_COPY_EPOCH_EPOCH, 0, e)]
    let top := 2 ^ 20 - 64
    let dat (cls : Nat) := car cls 0 (List.replicate 64 0)
    let up : DataPlace := ⟨.flagsUp, 0, 0, 0, false, 1, 0⟩
    let rx : State := withInst 0x20 false { net := { rx := [⟨0, 3, dat 0⟩] } }
    (∀ k ∈ [10, 11], ((sAcc 5 (far k) []).takeAccepted 5 (far k) [k]).isSome = true ∧ (sAcc 5 (far k) []).farBad 5 (far k) (k == 10) = true
        ∧ (sAcc 5 (far k) win).farBad 5 (far k) (k == 10) = false ∧ (sAcc 5 (far k) win).coreOn = true)
      ∧ ((sAcc 5 (far 12) []).takeAccepted 5 (far 12) [12]).isSome = true ∧ cTeam (far 12) = 255
      ∧ ((sAcc 5 (far 12) []).running 255).isNone = true ∧ ((withInst 0x49 true (sAcc 5 (far 12) [])).running 255).isSome = true
      ∧ (∀ o ∈ [top, top + 64], ((sAcc 1 (mir o 5) onM).takeAccepted 1 (mir o 5) [13]).isSome = true ∧ gTarget (mir o 5) + gLen (mir o 5) = o + 64)
      ∧ (sAcc 1 (mir top 5) []).rf .GRM_MIR_CFG_IN_EN = 0 ∧ (sAcc 1 (mir top 5) onM).rf .GRM_MIR_CFG_IN_EN ≠ 0
      ∧ (sAcc 1 (mir top 5) onM).mirIn = 1 ∧ (sAcc 1 (mir top 5) onM).mirSize / 2 = 2 ^ 20
      ∧ (sAcc 1 (mir top 5) (onM ++ cur)).mirStale 5 = true ∧ (sAcc 1 (mir top 6) (onM ++ cur)).mirStale 6 = false
      ∧ (sAcc 1 (mir top 6) (onM ++ cur)).mirTarget = 0
      ∧ ((sAcc 1 (mir top 6) (onM ++ w 7)).rf .GRM_MIR_COPY_STATE 0 = 1 ∧ 6 < (sAcc 1 (mir top 6) (onM ++ w 7)).rf .GRM_MIR_COPY_EPOCH_EPOCH 0)
      ∧ (sAcc 1 (mir top 6) (onM ++ w 6)).rf .GRM_MIR_COPY_EPOCH_EPOCH 0 = gOp1 (mir top 6)
      ∧ (sAcc 1 (mir top 6) onM).rf .GRM_MIR_COPY_STATE 0 ≠ 1
      ∧ (State.reset.running (cTeam (dat 1))).isNone = true
      ∧ (∀ d ∈ [up, { up with kind := .flagsDown }], (withInst 0x20 false (sAcc 0 (dat 1) [])).canTake { team := 255, gen := 0, n := 0, op := 0x20 } d = (d == up))
      ∧ ((withInst 0x20 false (sAcc 0 (dat 1) [])).takeAccepted 0 (dat 1) [0]).isSome = true ∧ cClass (dat 1) = 1
      ∧ cClass (dat 0) = 0 ∧ (rx.running (cTeam (dat 0))).isSome = true ∧ (rx.takeRx 0 (dat 0)).isSome = true := by decide +kernel

/-! ## The router and link units -/

/-- Link 0 is ACTIVE with every group in use, in a slice of one chip. -/
def onL : List (Fld × Nat × Nat) :=
  [(.LNK_STATE_STATE, 0, 6), (.LNK_RUNG_GROUPS, 0, 15), (.RTE_SLICE_EXT_X, 0, 1), (.RTE_SLICE_EXT_Y, 0, 1), (.RTE_SLICE_EXT_Z, 0, 1)]

def sL (x : State) : State := fs x onL

/-- A sub-link of link 0. -/
def sSub (x : SubLink) (n : Net) : State := sL { net := { n with subs := [(0, x)] } }

theorem wit_CarriagesLeaveUnderTheNextNumber :
    let o2 : OutCar := ⟨0, 2, 8, false, 0, car 0 0 (List.replicate 64 0)⟩
    let o1 : OutCar := ⟨0, 0, 8, false, 0, car 2 6 (List.replicate 64 0)⟩
    let s2 : State := sL { net := { outq := [o2] } }
    let s1 : State := sL { net := { outq := [o1] } }
    let tg : TagOp := { tag := 0, kind := .xmit, desc := descOf [], serial := 1, blob := some { data := List.replicate 64 0 } }
    let sx : State := sL { posts := [(0, { cur := some seg0, tags := [tg] })] }
    let u (s : State) := ((s.closeAll).loseMirXmits).pumpReins 0
    let free (s : State) (t n : Nat) : Bool := s.subFree 0 t && s.retryRoom 0 t n
    (u State.reset).live 0 = false ∧ (u s2).live 0 = true ∧ (u s2).safe = false ∧ (u s2).inGuard = false ∧ u s2 = s2
      ∧ s2.coreOn = true ∧ (s2.net.outq.find? fun o => o.l == 0 && o.cls == 2 && free s2 (cTenant o.c) o.c.payload.length) = some o2
      ∧ (u sx).xmits 0 = [(0, tg)] ∧ free (u sx) 0 (tg.desc.len + 64) = true ∧ (u sx).xmitOk 0 tg { data := List.replicate 64 0 } = true
      ∧ (sL {}).xmits 0 = [] ∧ s1.net.reinq = [] ∧ (s1.net.outq.filter fun o => o.l == 0 && s1.grantable o) = [o1] ∧ s1.bubble o1 = true
      ∧ cClass o1.c = 2 ∧ (s2.net.outq.filter fun o => o.l == 0 && s2.grantable o) = [] := by decide +kernel

theorem wit_CarriagesArriveInOrderAndAreJudged :
    let c0 := setHop (car 1 0 (List.replicate 64 0)) 2047 0 false false false
    let c3 := setHop c0 2047 3 false false false
    let s0 := car 0 0 (List.replicate 64 0)
    let s := sSub { expect := 2047 } {}
    let g := sSub { expect := 2046 } {}
    let a (c : Carriage) : Arriving := { id := 0, l := 0, t := 0, c := c, at_ := 0 }
    let ju (c : Carriage) : State := fs (sL { net := { arriving := [a c] } }) [(.AON_MTC_MTC_NS, 0, 30)]
    let bad (c : Carriage) : Carriage := { c with payload := List.replicate 63 0 ++ [1] }
    (cHchk c0 = hchk (c0.hdr.toNat % 2 ^ 120) ∧ s.live 0 = true ∧ s.subGroups 0 0 ≠ [] ∧ s.coreOn = true) ∧ State.reset.live 0 = false
      ∧ cClass c0 = 1 ∧ cLsn c0 = (s.sub 0 0).expect ∧ cLsn c0 = ((g.sub 0 0).expect + 1) % 2048 ∧ (g.sub 0 0).expect < 2048
      ∧ (fs (ju c0) [(.AON_MTC_MTC_NS, 0, 29)]).net.arriving.find? (fun a => a.l == 0 && decide (a.at_ + 30 ≤ (fs (ju c0) [(.AON_MTC_MTC_NS, 0, 29)]).now)) = none
      ∧ (∀ c ∈ [bad c0, bad c3, c0, s0], (ju c).net.arriving.find? (fun a => a.l == 0 && decide (a.at_ + 30 ≤ (ju c).now)) = some (a c))
      ∧ crcGood (bad c0) = false ∧ cRetry c0 ≠ 3 ∧ crcGood (bad c3) = false ∧ cRetry c3 = 3
      ∧ crcGood c0 = true ∧ lenOk c0 = true ∧ crcGood s0 = true ∧ lenOk s0 = true ∧ cClass s0 = 0 := by decide +kernel

theorem wit_AcknowledgementsAndReplaysFollowTheNumbers :
    let en (n : Nat) (r : Bool) : RetryEnt := { lsn := n, c := car 1 0 (List.replicate 64 0), t := 0, replay := r }
    let up := mkSlot kAck (fieldsOf [(0, 0), (1, 2047), (3, 20)])
    let dn := mkSlot kAck (fieldsOf [(0, 1), (1, 5), (3, 2)])
    let nk := mkSlot kNak (fieldsOf [(0, 2047), (2, 0)])
    let rc := mkSlot kRecall (fieldsOf [(0, 5)])
    let vec (m : List Nat) : Vec := { id := 1, l := 0, t := 0, lsn := 5, crcOk := true, missing := m }
    let s := sSub { dirty := true, retry := [en 2047 false], repeats := [(5, 2, 0)] } {}
    let late := fs s [(.AON_MTC_MTC_NS, 0, 2000)]
    let arr : Arriving := { id := 0, l := 0, t := 0, c := car 1 0 (List.replicate 64 0), at_ := 0 }
    s.coreOn = true ∧ s.live 0 = true ∧ (s.sub 0 0).dirty = true ∧ s.safe = false ∧ s.net.reinq = [] ∧ State.reset.live 0 = false
      ∧ unitOk kAck nk = false ∧ unitOk kNak up = false ∧ unitOk kAck up = true ∧ slotAt up 1 1 = 0
      ∧ (s.sub 0 0).retry.all (fun e => e.mirror == 0) = true ∧ unitOk kAck dn = true ∧ slotAt dn 1 1 = 1
      ∧ (slotAt dn 2 2 % 2048 + 2048 - (s.sub 0 0).expect) % 2048 < 1024 ∧ (s.net.vecs.find? fun w => w.l == 0 && w.t == 0 && w.lsn == 5) = none
      ∧ (∀ m ∈ [[], [2]], (sSub {} { vecs := [vec m] }).net.vecs.find? (fun w => w.l == 0 && w.t == 0 && w.lsn == slotAt dn 2 2 % 2048) = some (vec m))
      ∧ (vec []).missing.contains (slotAt dn 4 1) = false ∧ (vec [2]).missing.contains (slotAt dn 4 1) = true
      ∧ (s.sub 0 0).repeats = [(5, 2, 0)] ∧ 0 ≤ s.now
      ∧ unitOk kNak nk = true ∧ (s.sub 0 0).retry.any (fun e => e.lsn == slotAt nk 1 2 % 2048) = true
      ∧ ((sSub {} {}).sub 0 0).retry.any (fun e => e.lsn == slotAt nk 1 2 % 2048) = false
      ∧ (late.sub 0 0).retry.any (fun e => e.lsn == 2047 && decide (e.t + 2000 ≤ late.now)) = true
      ∧ (s.sub 0 0).retry.any (fun e => e.lsn == 2047 && decide (e.t + 2000 ≤ s.now)) = false
      ∧ (sSub { retry := [en 7 true] } {}).subFree 0 0 = true ∧ (((sSub { retry := [en 7 true] } {}).sub 0 0).retry.find? fun e => e.replay) = some (en 7 true)
      ∧ s.subGroups 0 0 ≠ [] ∧ ((sSub {} { arriving := [arr] }).net.arriving.reverse.find? fun a => a.l == 0 && a.t == 0 && a.at_ == 0 && !a.recalled) = some arr
      ∧ unitOk kRecall rc = true ∧ unitOk kRecall nk = false := by decide +kernel

theorem wit_ReinsHaltsAndMarksAreTaken :
    let rein (dst : Nat) := mkSlot kRein (fieldsOf [(0, dst), (2, 1), (6, 3)])
    let halt (team reason : Nat) := mkSlot kHalt (fieldsOf [(0, team), (1, 0), (2, reason), (3, 1)])
    let w : Win := { ep := 1, tenant := 0, team := 64, gen := 0 }
    let s := sL {}
    let sW := sSub {} { wins := [w] }
    let seen : State := { s with aon := { halts := [⟨5, 0, 1, 0⟩] } }
    let at_ (n : Nat) : State := fs (sL { links := [(0, { attrib := 100 })] }) [(.AON_MTC_MTC_NS, 0, n)]
    s.coreOn = true ∧ s.live 0 = true ∧ State.reset.live 0 = false ∧ unitOk kRein (halt 5 1) = false ∧ unitOk kRein (rein 0) = true
      ∧ (reinOf (rein 0)).dst = s.self ∧ (s.net.wins.find? fun w => w.ep == (reinOf (rein 0)).src && w.tenant == 0 && w.gen == 0) = none
      ∧ (sW.net.wins.find? fun w => w.ep == (reinOf (rein 0)).src && w.tenant == (reinOf (rein 0)).tenant && w.gen == (reinOf (rein 0)).gen) = some w
      ∧ w.quarEnd ≤ sW.now ∧ (reinOf (rein 2)).dst ≠ s.self
      ∧ (∀ r ∈ [1, 2, 3, 4, 7], haltOk (halt 5 r) = true ∧ slotAt (halt 5 r) 1 1 = 5 ∧ slotAt (halt 5 r) 3 1 = r)
      ∧ slotAt (halt 5 1) 2 1 = 0 ∧ slotAt (halt 5 1) 4 2 = 1 ∧ s.haltSeen 5 0 1 = false ∧ seen.haltSeen 5 0 1 = true
      ∧ slotAt (halt 5 6) 3 1 = 6 ∧ (∀ r ∈ [3, 4, 5, 6], haltOk (halt 0xFF r) = true ∧ slotAt (halt 0xFF r) 1 1 = 0xFF ∧ slotAt (halt 0xFF r) 3 1 = r)
      ∧ ((at_ 100).link 0).attrib ≠ 0 ∧ ((at_ 100).link 0).attrib ≤ (at_ 100).now ∧ (at_ 99).now < ((at_ 99).link 0).attrib
      ∧ s.subGroups 0 0 ≠ [] ∧ (fs s [(.AON_MTC_MTC_NS, 0, 10 ^ 6)]).markDue 0 0 = true ∧ s.safe = false
      ∧ ((List.range 64).filter fun k => bitAt (s.rf .LNK_RUNG_GROUPS 0) (k / 16)).all (fun k => bitAt (2 ^ 64 - 1) k) = true := by decide +kernel

/-! ## Training and fibres -/

/-- Link 0 in state k with record x, its fields l, at instant n. -/
def sT (k : Nat) (x : LinkRec) (l : List (Fld × Nat × Nat)) (n : Nat := 0) : State :=
  fs { links := [(0, x)] } ((.LNK_STATE_STATE, 0, k) :: (.AON_MTC_MTC_NS, 0, n) :: l)

theorem wit_TrainingLocksAlignsAndMeasures :
    let lit : Fld × Nat × Nat := (.LNK_FIBRE_LIGHT, 0, 1)
    let all := 2 ^ 16 - 1
    let sk : List Nat := List.replicate 64 3
    let g (x : LinkRec) := bestGroups sk (fullGroups x.locked x.keep)
    let rsp (n t : Nat) := mkSlot kComma (2 + 256 * (t + n * 2 ^ 32))
    let trip (asked got : Nat) : State := sT 4 { rtAsked := asked, rtGot := got } []
    let lk := sT 2 {} [lit]
    lk.coreOn = true ∧ State.reset.inLock 0 = false ∧ State.reset.inAlign 0 = false
      ∧ lk.inLock 0 = true ∧ fullGroups ((lk.link 0).locked ||| lk.lockable 0 (all - 1)) (lk.link 0).keep = 0
      ∧ lk.linkSt 0 = 2 ∧ fullGroups ((lk.link 0).locked ||| lk.lockable 0 all) (lk.link 0).keep ≠ 0 ∧ (sT 3 {} []).inAlign 0 = true
      ∧ g {} = 0 ∧ g { locked := all } ≠ 0 ∧ ((sT 3 { locked := all, step := true } []).link 0).step = true ∧ (sT 3 {} []).linkSt 0 = 3
      ∧ (trip 0 0).inTrip 0 = true ∧ ((trip 15 0).link 0).rtAsked < 16 ∧ ((trip 15 0).link 0).rtAt + 1000 ≤ 1000 ∧ (sT 4 { rtAsked := 15 } [] 1000).now = 1000
      ∧ (trip 0 0).safe = false ∧ 16 ≤ ((trip 16 0).link 0).rtAsked
      ∧ trainOk 1 (mkSlot kComma 1) = true ∧ trainOk 1 (mkSlot kComma 2) = false ∧ trainOk 2 (mkSlot kComma 1) = false ∧ trainOk 2 (rsp 15 0) = true
      ∧ (slotAt (rsp 15 0) 6 1 + 1 = 16 ∧ ((trip 16 15).link 0).rtGot + 1 = 16 ∧ ((trip 16 14).link 0).rtGot + 1 ≠ 16 ∧ ((trip 16 15).link 0).step = false)
      ∧ ¬ (slotAt (rsp 14 0) 6 1 + 1 = ((trip 16 0).link 0).rtAsked)
      ∧ (((trip 16 15).link 0).rtSum + ((trip 16 15).t64 + 0 - ((trip 16 15).link 0).rtAt * 64 - slotAt (rsp 15 0) 2 4)) % 32 = 0
      ∧ (trip 16 15).linkSt 0 = 4 := by decide +kernel

theorem wit_CapsAndStepsSettleTheRung :
    let unit (ty a b c : Nat) := mkSlot kComma (ty + 256 * (a + 256 * b + 65536 * c))
    let cap (x : LinkRec) := sT 5 x []
    let act (rung capR : Nat) (n : Nat) := sT 6 {} [(.LNK_RUNG_RUNG, 0, rung), (.LNK_RUNG_CAP, 0, capR)] n
    let stp (x : LinkRec) (r : Nat) := sT 7 x [(.LNK_RUNG_RUNG, 0, r)] 1000
    (cap {}).coreOn = true ∧ (cap {}).linkSt 0 = 5 ∧ ((cap {}).link 0).caps = 0 ∧ (cap {}).safe = false
      ∧ ((sT 5 { caps := 1, capMask := 8 } [] 10000).link 0).capAt + 10000 ≤ (sT 5 { caps := 1, capMask := 8 } [] 10000).now
      ∧ ((cap { caps := 1, capMask := 8 }).link 0).keep &&& ((cap { caps := 1, capMask := 8 }).link 0).capMask ≠ 0
      ∧ ((cap { caps := 1, capMask := 0 }).link 0).keep &&& ((cap { caps := 1, capMask := 0 }).link 0).capMask = 0
      ∧ State.reset.linkSt 0 ≠ 5 ∧ trainOk 3 (unit 2 0 0 0) = false ∧ trainOk 3 (unit 3 3 3 0) = true
      ∧ bitAt ((cap { keep := 7 }).link 0).keep 3 = false ∧ bitAt ((cap {}).link 0).keep 3 = true ∧ slotAt (unit 3 3 3 0) 2 1 = 3 ∧ slotAt (unit 3 2 3 0) 2 1 ≠ 3
      ∧ (act 1 2 1000000).live 0 = true ∧ (act 1 2 1000000).rf .LNK_RUNG_RUNG < (act 1 2 1000000).rf .LNK_RUNG_CAP
      ∧ ((act 1 2 0).link 0).active + 1000000 ≤ (act 1 2 1000000).now ∧ (act 1 2 999999).now < ((act 1 2 0).link 0).active + 1000000
      ∧ (act 1 1 0).rf .LNK_RUNG_CAP ≤ (act 1 1 0).rf .LNK_RUNG_RUNG ∧ trainOk 4 (unit 5 0 0 0) = false ∧ trainOk 4 (unit 4 0 15 0) = true
      ∧ slotAt (unit 4 0 15 0) 2 1 + 1 = (act 1 2 0).rf .LNK_RUNG_RUNG
      ∧ (slotAt (unit 4 2 15 0) 2 1 = (act 1 2 0).rf .LNK_RUNG_RUNG + 1 ∧ slotAt (unit 4 2 15 0) 2 1 ≤ (act 1 2 0).rf .LNK_RUNG_CAP)
      ∧ (slotAt (unit 4 1 15 0) 2 1 + 1 ≠ (act 1 2 0).rf .LNK_RUNG_RUNG ∧ slotAt (unit 4 1 15 0) 2 1 ≠ (act 1 2 0).rf .LNK_RUNG_RUNG + 1)
      ∧ (stp { asked := true, target := 2 } 1).linkSt 0 = 7 ∧ ((stp { asked := true, target := 2 } 1).link 0).asked = true
      ∧ trainOk 5 (unit 5 2 15 1) = true ∧ slotAt (unit 5 2 15 1) 2 1 = 2 ∧ slotAt (unit 5 2 15 1) 4 1 = 1 ∧ slotAt (unit 5 2 15 0) 4 1 ≠ 1
      ∧ slotAt (unit 5 1 15 1) 2 1 ≠ 2 ∧ (act 1 2 0).linkSt 0 ≠ 7
      ∧ (stp { target := 0, stepAt := some 1000 } 1).now = 1000 ∧ ((stp { target := 0, stepAt := some 1000 } 1).link 0).target < (stp { target := 0, stepAt := some 1000 } 1).rf .LNK_RUNG_RUNG
      ∧ (stp { target := 1, stepAt := some 1000 } 1).rf .LNK_RUNG_RUNG ≤ ((stp { target := 1, stepAt := some 1000 } 1).link 0).target
      ∧ ((stp { stepAt := some 1001 } 1).link 0).stepAt = some 1001 := by decide +kernel

theorem wit_PatternsErrorsAndTimeoutsDecideTheLink :
    let res (r m : Nat) := mkSlot kComma (6 + 256 * (r + 256 * m))
    let pr (x : LinkRec) := sT 8 x [] 1000000
    let ber (r en n : Nat) := sT 6 {} [(.LNK_RUNG_RUNG, 0, r), (.LNK_RUNG_GROUPS, 0, 1), (.LNK_CTL_BER_LOWER_EN, 0, en)] n
    let win := 10240000000000 / 256
    (pr {}).coreOn = true ∧ (pr {}).linkSt 0 = 8 ∧ ((pr {}).link 0).t + prbsLen ((pr {}).link 0).target ≤ (pr {}).now ∧ (pr {}).safe = false
      ∧ ((pr {}).link 0).resultPeer = none ∧ ((pr { resultPeer := some 15 }).link 0).resultPeer = some 15
      ∧ ((pr { resultOwn := some 15 }).link 0).resultOwn = some 15 ∧ State.reset.linkSt 0 ≠ 8
      ∧ trainOk 6 (mkSlot kComma 5) = false ∧ trainOk 6 (res 0 15) = true ∧ slotAt (res 0 15) 2 1 = ((pr {}).link 0).target
      ∧ (sT 11 {} [(.LNK_PRBS_CTL_PATTERN, 0, 1)]).linkSt 0 = 11 ∧ (sT 11 {} [(.LNK_PRBS_CTL_PATTERN, 0, 1)]).rf .LNK_PRBS_CTL_PATTERN ≠ 0
      ∧ (ber 1 1 win).live 0 = true ∧ ((ber 1 1 win).link 0).berT * (ber 1 1 win).lineBits 0 + 10240000000000 ≤ (ber 1 1 win).now * (ber 1 1 win).lineBits 0
      ∧ (ber 1 1 win).rf .LNK_RUNG_RUNG ≠ 0 ∧ (ber 1 1 win).rf .LNK_CTL_BER_LOWER_EN ≠ 0 ∧ (ber 1 0 win).rf .LNK_CTL_BER_LOWER_EN = 0
      ∧ (let s := ber 1 1 win
         let s2 := ((((s.setf .LNK_BER_WINDOW_ERRORS 0 0).updLink 0 fun x => { x with berT := s.now }).sat .LNK_BER_LOWERINGS 0).fault 15 (.link 0))
         s2.live 0 = true ∧ s2.safe = false)
      ∧ ¬ (((ber 1 1 (win - 1)).link 0).berT * (ber 1 1 win).lineBits 0 + 10240000000000 ≤ (ber 1 1 (win - 1)).now * (ber 1 1 win).lineBits 0)
      ∧ State.reset.trainLimit 0 = none
      ∧ (∀ k ∈ [2, 3, 4, 5, 7, 8, 9], (sT k { resultOwn := some 15 } [] 2000000).linkSt 0 = k
          ∧ ((sT k { resultOwn := some 15 } [] 2000000).trainLimit 0).any (fun d => decide (d ≤ 2000000 ∧ 0 < d)) = true) := by decide +kernel

theorem wit_LightRunsFibresRingsAndGains :
    let off : State := { power := { off := true } }
    let lit : Fld × Nat × Nat := (.LNK_FIBRE_LIGHT, 0, 8)
    let acc : Fld × Nat × Nat := (.LNK_FIBRE_ACCESSIBLE, 0, 8)
    let gr (st : Fibre) (l : List (Fld × Nat × Nat)) (n : Nat) := sT 1 { groups := [(3, { st := st })] } (acc :: l) n
    let ring (k n : Nat) := sT 1 {} [(.LNK_RING_STATE, 127, k), (.PWR_STATE_CUR, 0, n)]
    off.coreOn = false ∧ (gr .off [] 0).coreOn = true ∧ (gr .off [] 0).lightAt 0 3 = false ∧ (gr .off [lit] 0).lightAt 0 3 = true
      ∧ (∀ st ∈ [Fibre.off, .probe], (gr st [] 100000000).accessible 0 3 = true ∧ (gr st [] 100000000).laserAllowed 0 3 = true
          ∧ ((gr st [] 100000000).group 0 3).st = st ∧ ((gr st [] 100000000).group 0 3).t + 100000000 ≤ (gr st [] 100000000).now)
      ∧ ¬ (((gr .off [] 99999999).group 0 3).t + 100000000 ≤ (gr .off [] 99999999).now)
      ∧ ((gr .probe [] 1500000).group 0 3).t + 1500000 ≤ (gr .probe [] 1500000).now ∧ (gr .probe [] 0).rf .LNK_FIBRE_LASER_ON < 16
      ∧ ((gr .litWait [] 2000000).group 0 3).st = .litWait ∧ ((gr .litWait [] 2000000).group 0 3).t + 2000000 ≤ (gr .litWait [] 2000000).now
      ∧ (gr .litWait [lit] 2000000).lightAt 0 3 = true ∧ (gr .litWait [] 1999999).now < ((gr .litWait [] 1999999).group 0 3).t + 2000000
      ∧ (gr .off [(.LNK_FIBRE_LASER_FAULT, 0, 8)] 0).faultAt 0 3 = true ∧ (gr .off [] 0).faultAt 0 3 = false
      ∧ (sT 10 {} [lit] 1000000).linkSt 0 = 10 ∧ (maskOf fun h => (sT 10 {} [lit] 1000000).lightAt 0 h && decide (((sT 10 {} [lit] 1000000).group 0 h).lightT + 1000000 ≤ 1000000)) ≠ 0
      ∧ (sT 10 {} [] 50000000).now = 50000000 ∧ ((sT 10 {} [] 0).link 0).t + 50000000 ≤ 50000000 ∧ State.reset.linkSt 0 ≠ 10
      ∧ (∀ k ∈ [0, 1, 3], (ring k 0).rf .LNK_RING_STATE (ringIx 0 127) = k ∧ (ring k 0).linkSt 0 ≠ 0 ∧ (ring k 0).rf .PWR_STATE_CUR ≠ 3)
      ∧ (ring 0 3).rf .PWR_STATE_CUR = 3
      ∧ sget (fun _ => 0) ((sT 6 { gains := [(63, 4)] } []).link 0).gains 63 = 4 ∧ sget (fun _ => 0) (State.reset.link 0).gains 63 = 0
      ∧ (sT 1 {} []).live 0 = false ∧ (sT 6 {} []).live 0 = true ∧ (sT 6 {} []).inGuard = false := by decide +kernel

/-! ## Time, array, groom unit, hitch and depot -/

def withTime (t : TimeSt) (l : List (Fld × Nat × Nat)) : State := fs { time := t } l

theorem wit_TicksCorrectTheMachineTime :
    let s := sT 6 {} [(.SYN_LINK_DELAY_VALID, 0, 1)] 1000
    let off : List (Fld × Nat × Nat) := [(.SYN_TIME_CTL_ROOT, 0, 0)]
    let mean (o : Int) := withTime { samples := List.replicate 16 o } off
    let ref := fs State.reset [(.FLT_STATUS_SOURCES, 0, 2 ^ 10)]
    s.coreOn = true ∧ s.time.lastSend < s.now / 1000 * 1000 ∧ s.safe = false ∧ ¬ (State.reset.time.lastSend < State.reset.now / 1000 * 1000)
      ∧ s.timeLink 0 = true ∧ State.reset.timeLink 0 = false ∧ tickValue [0, tickSlot (2 ^ 63)] = some (2 ^ 63) ∧ tickValue [1, 2] = none
      ∧ (mean 64).rf .SYN_TIME_CTL_ROOT = 0 ∧ 16 ≤ (mean 64).time.samples.length
      ∧ ((mean 4096).time.samples.take 16).foldl (· + ·) 0 = 65536 ∧ (65536 : Int).natAbs ≤ 16 * 64 * 64 ∧ (65536 : Int) % 16 = 0
      ∧ ¬ (16 ≤ (withTime { samples := List.replicate 15 0 } off).time.samples.length)
      ∧ (withTime { correcting := true } []).time.correcting = true ∧ (withTime { correcting := true } []).time.slew = 0
      ∧ (withTime { correcting := true } []).time.freeze = 0 ∧ State.reset.time.correcting = false
      ∧ State.reset.time.ref = .present ∧ (withTime { ref := .lost } []).time.ref = .lost
      ∧ ref.time.ref = .present ∧ ref.engSt = 0 ∧ (∀ k ∈ [0, 1, 2, 3, 4, 5], ref.linkSt k = 0) ∧ bitAt (ref.rf .FLT_STATUS_SOURCES) 10 = true
      ∧ ref.aon.windows = [] := by decide +kernel

theorem wit_TicksAreServedOnceInOrder :
    let s := fs State.reset [(.AON_MTC_MTC_NS, 0, 8000)]
    let at_ (k n : Nat) := fs State.reset [(.AON_MTC_MTC_NS, 0, n), (.TT_STATUS_STATE, 0, k)]
    s.coreOn = true ∧ s.time.lastTick < s.tickAt ∧ State.reset.tickAt ≤ State.reset.time.lastTick
      ∧ (at_ 1 8000).engSt = 1 ∧ (at_ 1 8000).rf .TT_START_MTC_START ≤ (at_ 1 8000).tickAt ∧ ¬ ((at_ 0 8000).engSt = 1)
      ∧ 2 ≤ (at_ 2 8000).engSt ∧ ((at_ 2 8000).stageAt (at_ 2 8000).tickAt = 0 ∨ (fs (at_ 2 8000) [(.TT_START_MTC_START, 0, 8000)]).stageAt 8000 = 0)
      ∧ (at_ 0 (s.stageLen * max 1 (s.rf .SYN_REALIGN_STAGES))).realignAt (s.stageLen * max 1 (s.rf .SYN_REALIGN_STAGES)) = true
      ∧ (s.engSt = 0 ∧ s.shadows = [] ∧ s.posts = [] ∧ s.insts = [] ∧ s.net.vecs = [] ∧ s.net.arriving = [] ∧ s.tt.swap = none
        ∧ s.eng.evalPending = none ∧ s.qs.cmds = [] ∧ s.yards = [] ∧ s.realignAt s.tickAt = false ∧ s.time.suppress = false
        ∧ s.rf .SYN_TIME_CTL_ROOT = 0 ∧ s.rf .DBG_TRACE_CTL_EN = 0) := by decide +kernel

/-- A move of one FP32 element from scratch address 0 to 64 on row 0, column 12, tag 0. -/
def opMove : ArrOp :=
  { row := 0, col := 12, tag := 0, serial := 1, desc := ([1, 0, 0, 0] ++ List.replicate 4 0 ++ [0, 0, 0, 0x20] ++ List.replicate 8 0 ++ [64, 0, 0, 0x20]
      ++ List.replicate 5 0 ++ [1, 0, 0]), team := 0, inst := 0, infmt := 0, outfmt := 0, mode := 0, scale := 0, tensor := 0, seed := 0 }

def sArr (o : ArrOp) (a : ArraySt) : State :=
  { arr := { a with queue := [o] }, posts := [(12, { tags := [{ tag := 0, kind := .aop, desc := descOf [], serial := 1 }] })] }

theorem wit_ArrayAndGovernorWorkInOrder :
    let s := sArr opMove {}
    let stream : ArrOp := { opMove with desc := opMove.desc.set 11 0x30 }
    let cur (d : Bool) (b : Blob) : State := { arr := { cur := some { op := opMove, srcs := [some b], discard := d } } }
    let gov (w n : Nat) (q : List ArrOp) : State := fs { power := { width := w }, arr := { queue := q } } [(.AON_MTC_MTC_NS, 0, n)]
    let stepTime := 3000 / max 1 (State.reset.rf .PWR_GOV_SLOPE)
    s.coreOn = true ∧ (cur true {}).arr.cur.isSome = true ∧ s.arr.cur = none ∧ ([].filter State.reset.opHeld : List ArrOp) = []
      ∧ s.arr.queue.filter s.opHeld = [opMove] ∧ s.opReady opMove = true ∧ opMove.sources.all (fun x => wKind x.1 != 3 && wKind x.1 != 4) = true
      ∧ (sArr stream {}).arr.queue.filter (sArr stream {}).opHeld = [stream] ∧ (sArr stream {}).opReady stream = false
      ∧ (cur true {}).arr.cur = some { op := opMove, srcs := [some {}], discard := true } ∧ (srcDeps [some {}]).isEmpty = true
      ∧ (srcDeps [some { data := List.replicate 64 0, marks := [(0, { deps := [5] })] }]).isEmpty = false
      ∧ (gov 0 0 []).now < (gov 0 0 []).power.lastStep + stepTime ∧ ¬ ((gov 15 3000 [opMove]).now < (gov 15 3000 [opMove]).power.lastStep + stepTime)
      ∧ (gov 15 3000 [opMove]).arr.queue ≠ [] ∧ (gov 15 3000 [opMove]).power.width < 16 ∧ 16 ≤ (gov 16 3000 [opMove]).power.width
      ∧ (gov 0 3000 []).power.width = 0 ∧ 0 < (gov 1 3000 []).power.width ∧ (gov 1 3000 []).power.lastOp + 160 ≤ (gov 1 3000 []).now
      ∧ (gov 1 3000 []).arr.queue = [] ∧ (gov 1 3000 []).arr.cur = none := by decide +kernel

theorem wit_GroomHitchAndDepotServeTheirRequests :
    let r (k : Nat) : GroomReq := ⟨0, 0, 0, k, 0, 0, 0⟩
    let g (k : Nat) (c : Option GroomJob) : State := { groom := { queue := [r k], job := c } }
    let i1 : Inst := { team := 63, gen := 0, n := 0, op := 0x20, st := .ended, decision := 1 }
    let h (wr : Bool) (len : Nat) : HitchReq := { port := 15, tag := 7, wr := wr, yg := 0, addr := 64, len := len, off := 0, t := 0, data := if wr then List.replicate len 9 else [], use := .tag ⟨0, 14, 0, 1⟩ }
    let sh (x : HitchReq) (n : Nat) : State := fs { hitch := { reqs := [x] } } [(.AON_MTC_MTC_NS, 0, n)]
    let cr (c b : Nat) : State := { hitch := { cred := [(15, c)], beats := [(15, b)] } }
    let dw : DepotReq := ⟨15, true, 0, List.replicate 64 9, 64, none, .farWrite⟩
    let bound := State.reset.rf .HCH_BOUND_BOUND_US * 1000
    (g 1 none).coreOn = true ∧ (g 1 (some { req := r 1 })).groom.job.isSome = true ∧ (g 1 none).groom.job = none ∧ (g 1 none).groom.queue = [r 1]
      ∧ (0 = (r 0).kind ∧ 3 < (r 4).kind) ∧ (g 3 none).jobConfirmed (r 3) = true ∧ (g 3 none).rf .YRD_STATE_STATE = 0 ∧ (r 3).kind = 3
      ∧ ({ g 1 none with arr := { marks := [(0, { deps := [1] })] } } : State).jobConfirmed (r 1) = false
      ∧ (g 1 (some { req := r 1 })).rf .GRM_START_VALID = 0 ∧ ((g 1 (some { req := r 1 })).running 0).isNone = true
      ∧ ({ insts := [i1] } : State).insts.find? (fun i => i.team == 63 && i.st == .ended && i.decision == 1) = some i1 ∧ State.reset.insts = []
      ∧ ({ hitch := { vehDone := [65535] } } : State).hitch.vehDone = [65535] ∧ State.reset.aon.irqOut < 32 ∧ State.reset.hitch.vehDone.head? ≠ some 0
      ∧ State.reset.reqOf 15 7 false = none ∧ State.reset.reqOf 15 7 true = none
      ∧ (sh (h false 512) 0).reqOf 15 7 false = some (h false 512) ∧ (sh (h false 512) 0).ygStale (h false 512) 0 = false
      ∧ (h false 512).beats + 1 < beatCount (h false 512).len
      ∧ (sh (h true 64) bound).reqOf 15 7 true = some (h true 64) ∧ (sh (h true 64) bound).pastBound (h true 64) = false
      ∧ (sh (h true 64) bound).vehAt 64 = none ∧ (h true 64).yg < 64 ∧ ((sh (h true 64) bound).post (⟨0, 14, 0, 1⟩ : TagRef).post).tags = []
      ∧ (∀ x ∈ [(63, 255), (64, 256)], sget (fun _ => 0) (cr x.1 x.2).hitch.cred 15 = x.1 ∧ sget (fun _ => 0) (cr x.1 x.2).hitch.beats 15 = x.2)
      ∧ (cr 63 255).hitch.waitq = [] ∧ (cr 63 255).hitch.reqs = []
      ∧ (sh (h true 64) (bound + 1)).pastBound (h true 64) = true ∧ (h true 64).late = false
      ∧ ({ hitch := { dreqs := [dw] } } : State).hitch.dreqs.find? (fun r => r.ch == 15) = some dw ∧ dw.addr + dw.data.length ≤ State.reset.depotSize
      ∧ State.reset.hitch.dreqs = [] ∧ (fs State.reset [(.DEP_SCRUB_EN, 0, 0)]).rf .DEP_SCRUB_EN = 0
      ∧ ((fs State.reset [(.DEP_SCRUB_EN, 0, 1)]).rf .DEP_SCRUB_EN ≠ 0 ∧ 64 * 1 < State.reset.depotSize) := by decide +kernel

/-! ## Faults, yard resets, start-up, safe state -/

theorem wit_FaultEventsAreLatchedLoggedAndAnswered :
    let masks : State := { aon := { windows := [⟨.yard 3, 100⟩, ⟨.block, 100⟩] } }
    let seen := fs State.reset [(.FLT_STATUS_SOURCES, 0, 2 ^ 64 - 1)]
    let safe := fs State.reset [(.FLT_REACT1_REACT, 0, 2 ^ 64 - 1), (.FLT_REACT0_REACT, 0, 2 ^ 64 - 1)]
    let lo := fs State.reset [(.FLT_REACT1_REACT, 0, 0), (.FLT_REACT0_REACT, 0, 0)]
    let pf := fs { pins := { pfwN := false } } [(.FLT_STATUS_SOURCES, 0, 2 ^ 9), (.FLT_PFW_ADDR_EN, 0, 1), (.FLT_PFW_ADDR_ADDR, 0, 1)]
    let hot : State := { power := { sensors := [(15, 20)] } }
    State.reset.coreOn = true
      ∧ (∀ x ∈ [(Origin.yard 3, 41), (Origin.yard 3, 42), (Origin.yard 3, 43)], masks.masked x.1 x.2 = true ∧ State.reset.masked x.1 x.2 = false)
      ∧ (∀ b ∈ [0, 6, 48], State.reset.masked .block b = false)
      ∧ (∀ b ∈ [0, 6, 41, 42, 43, 48], bitAt (seen.rf .FLT_STATUS_SOURCES) b = true ∧ bitAt (State.reset.rf .FLT_STATUS_SOURCES) b = false
          ∧ lo.reaction b < 2 ∧ 2 ≤ safe.reaction b)
      ∧ ({ pins := { pfwN := false } } : State).pins.pfwN = false ∧ State.reset.pins.pfwN = true
      ∧ (pf.fault 9).rf .FLT_PFW_ADDR_EN ≠ 0 ∧ (({ pins := { pfwN := false } } : State).fault 9).rf .FLT_PFW_ADDR_EN = 0
      ∧ bitAt (pf.rf .FLT_STATUS_SOURCES) 9 = true ∧ pf.aon.windows = []
      ∧ (∀ b ∈ [3, 25, 46, 47], hot.persists b = false) ∧ hot.engSt = 0 ∧ (fs hot [(.TT_STATUS_STATE, 0, 2)]).engSt ≠ 0
      ∧ dbgReads 0x2300000 = true ∧ 0x2300000 % 8 = 0 ∧ dbgReads 0x22FFFF8 = false ∧ (0x2300000 ≤ 0x23FFFF8 ∧ 0x23FFFF8 < 0x2400000) := by decide +kernel

theorem wit_YardResetsRunTheirSteps :
    let dl (l : List (Fld × Nat × Nat)) := fs { posts := [(48, { cur := some seg0, wait := .sync 5 1 false })] }
      ([(.SYN_DL_CTL_EN, 0, 1), (.AON_MTC_MTC_NS, 0, 10 ^ 10)] ++ l)
    let sy (x : YardRec) (l : List (Fld × Nat × Nat)) : State := fs { yards := [(3, x)] } l
    let i : Inst := { team := 0, gen := 0, n := 0, op := 0x20, st := .running }
    let z : Suspect := ⟨i, true⟩
    let now (n : Nat) : State := fs { sy { step := .replay, suspects := [z], replaying := some 0 } [(.AON_MTC_MTC_NS, 0, n)] with insts := [i] } []
    let tmo := State.reset.rf .DB_TIMEOUT_COLL_MS 0 * 1000000
    let seen : List (Fld × Nat × Nat) := [(.FLT_STATUS_SOURCES, 0, 2 ^ 39)]
    ((dl []).coreOn = true ∧ (dl []).rf .SYN_DL_CTL_EN ≠ 0 ∧ bitAt ((dl []).rf .SYN_DL_STATUS_RAISED) 3 = false ∧ (dl []).stuckYard 3 = true
        ∧ ((dl []).yard 3).quietAt + (dl []).rf .SYN_DL_CTL_WINDOW_US * 1000 ≤ (dl []).now)
      ∧ bitAt ((dl [(.FLT_STATUS_SOURCES, 0, 2 ^ 29)]).rf .FLT_STATUS_SOURCES) 29 = true ∧ (dl []).masked (.yard 3) 29 = false
      ∧ State.reset.stuckYard 3 = false
      ∧ ((sy { step := .draining } []).yard 3).step = .draining ∧ (sy { step := .draining } [(.AON_MTC_MTC_NS, 0, 10 ^ 10)]).drained 3 = true
      ∧ (State.reset.yard 3).step ≠ .draining ∧ (State.reset.yard 3).step ≠ .cleared ∧ (State.reset.yard 3).step ≠ .replay
      ∧ ((sy { step := .cleared, suspects := [z] } []).yard 3).step = .cleared ∧ ((sy { step := .cleared, suspects := [z] } []).yard 3).held = []
      ∧ (sy { step := .cleared, suspects := [z] } []).qs.cmds = [] ∧ (sy { step := .cleared, suspects := [z] } []).oos = false
      ∧ bitAt ((sy { step := .cleared } seen).rf .FLT_STATUS_SOURCES) (36 + 3) = true ∧ (sy { step := .cleared } seen).aon.windows = []
      ∧ (sy { step := .cleared } seen).qs.fetched = [] ∧ ((sy { step := .cleared } seen).yard 3).suspects = []
      ∧ ((sy { step := .replay } seen).yard 3).step = .replay ∧ ((sy { step := .replay } seen).yard 3).suspects = []
      ∧ ((sy { step := .replay, suspects := [z] } []).suspectNow z).isNone = true ∧ (now 0).suspectNow z = some i
      ∧ ((now 0).yard 3).replaying = some 0 ∧ ((sy { step := .replay, suspects := [z] } []).yard 3).replaying = none
      ∧ (now (tmo - 1)).now < 0 + (now 0).rf .DB_TIMEOUT_COLL_MS ((now 0).team 0).queue * 1000000
      ∧ 0 + (now 0).rf .DB_TIMEOUT_COLL_MS ((now 0).team 0).queue * 1000000 ≤ (now tmo).now := by decide +kernel

theorem wit_ResetsAndStartUpLeaveTheStatedState :
    let off : State := { power := { seqHold := true } }
    let lowN : State := { pins := { safeN := false } }
    let b (k : Nat) (n : Nat) : State := fs { boot := { step := k } } [(.AON_MTC_MTC_NS, 0, n)]
    let good (m : Nat) := fs State.reset [(.AON_SUPPLY_GOOD, 0, m)]
    Rising State.reset.regs ∧ NothingPersists State.reset ∧ State.reset.coreOn = true ∧ off.coreOn = false ∧ off.railsGood = false
      ∧ lowN.coreOn = true ∧ lowN.pins.safeN = false ∧ State.reset.pins.safeN = true ∧ State.reset.activeTeams = []
      ∧ (∀ l ∈ [0, 1, 2, 3, 4, 5], State.reset.linkSt l = 0) ∧ State.reset.boot.next = none
      ∧ State.reset.earlierGood 5 = false ∧ (good 31).earlierGood 5 = true ∧ ¬ (bitAt ((good 31).rf .AON_SUPPLY_GOOD) 5 = true)
      ∧ bitAt ((good 32).rf .AON_SUPPLY_GOOD) 5 = true ∧ (fs (good 4) [(.PWR_STATE_CUR, 0, 3)]).rf .PWR_STATE_CUR = 3
      ∧ bitAt ((good 4).rf .AON_SUPPLY_GOOD) 2 = true ∧ (good 4).rf .PWR_STATE_CUR ≠ 3
      ∧ bitAt ((fs State.reset [(.FLT_STATUS_SOURCES, 0, 4)]).rf .FLT_STATUS_SOURCES) 2 = true ∧ State.reset.aon.windows = []
      ∧ (b 1 0).boot.step = 1 ∧ State.reset.boot.step ≠ 3 ∧ (b 3 0).boot.step = 3 ∧ (b 3 0).imageFail (b 3 0).boot.addr (b 3 0).boot.len = some 2
      ∧ (b 7 0).bootLimit = none ∧ (b 5 0).bootLimit = some 500000000 ∧ (b 5 499999999).now < (b 5 499999999).boot.t + 500000000
      ∧ (b 5 500000000).boot.t + 500000000 ≤ (b 5 500000000).now ∧ (b 5 0).stable = false
      ∧ (b 3 (10 ^ 12)).bootLimit.any (fun n => decide (n ≤ 10 ^ 12)) = true ∧ ({ b 1 50000 with time := { ref := .lost } } : State).time.ref = .lost
      ∧ (b 6 0).boot.step = 6 ∧ (b 6 0).boot.held = [] ∧ (b 1 0).rf .AON_BOOT_FAILS + 1 < 3
      ∧ 3 ≤ (fs (b 3 0) [(.AON_BOOT_FAILS, 0, 2)]).rf .AON_BOOT_FAILS + 1 := by
  unfold Rising NothingPersists; decide +kernel

/-- An image header of R370 for 256 bytes, all else zero. -/
def fwHost : List (Nat × Byte) := [(4096, 0x46), (4097, 0x46), (4098, 0x57), (4099, 0x36), (4100, 1), (4103, 1), (4105, 1)]

/-- The two clauses on an accepted image: its signature and its key are free values (log entry 7), so the image is accepted when both say so. -/
theorem wit_images_are_accepted_when_their_signature_holds (s : State) (h : s.host = fwHost) (v : s.fuses.minVersion = 0)
    (k : Config.keyHashOk (rdBytes s.host (4096 + 32) 97) s.fuses.keyHash = true)
    (g : Config.signatureOk (rdBytes s.host 4096 256) s.fuses.keyHash = true) : s.imageFail 4096 256 = none := by
  have e0 : rdLe fwHost 4096 4 = 0x36574646 := by decide +kernel
  have e1 : rdLe fwHost 4100 2 = 1 := by decide +kernel
  have e2 : rdLe fwHost 4102 2 = 256 := by decide +kernel
  have e3 : rdLe fwHost 4104 4 = 256 := by decide +kernel
  simp [State.imageFail, k, g, v]
  rw [h]
  simp [e0, e1, e2, e3]

theorem wit_SafeStateStopsEngineTeamsAndLinks :
    let safe := fs State.reset [(.FLT_CTL_SAFE, 0, 1), (.FLT_STATUS_SOURCES, 0, 2 ^ 8)]
    State.reset.coreOn = true ∧ State.reset.safe = false ∧ safe.safe = true ∧ bitAt (safe.rf .FLT_STATUS_SOURCES) 8 = true
      ∧ State.reset.power.heldReset = false ∧ ({ power := { heldReset := true } } : State).power.heldReset = true
      ∧ (fs State.reset [(.TT_TEAM_STATE, 63, 1)]).rf .TT_TEAM_STATE 63 = 1 := by decide +kernel

/-! ## The whole machine -/

theorem wit_StepRunsTheFrontCommandOrOneReferenceEdge :
    ({ pending := [.stageTick false, .nop 0] } : State).pending = .stageTick false :: [.nop 0] ∧ State.reset.pending = [] := by decide +kernel

theorem wit_NoCommandIsRefusedAndOnlyADeadPortStops :
    let off : State := { power := { off := true }, pending := [.dozeRequest] }
    off.coreOn = false ∧ alwaysOn .dozeRequest = false ∧ exec .dozeRequest off = .fault .controlPortDead ∧ alwaysOn (.stageTick false) = false
      ∧ exec (.stageTick false) off = .next off := ⟨by decide +kernel, rfl, rfl, rfl, rfl⟩

theorem wit_FusedRegistersNeverChange :
    State.reset.coreOn = true ∧ fused .GLB_CFG0 = true ∧ State.reset.regVal .GLB_CFG0 0 = 0x4000_1000_4000_4002
      ∧ (match step { pending := [.registerWrite (BitVec.ofNat 26 (regOff .GLB_CFG0 0)) 0xFF 0] } with
        | .next t => t.regVal .GLB_CFG0 0
        | _ => 0) = 0x4000_1000_4000_4002 := by decide +kernel

theorem wit_EveryStepKeepsTheStateCanonical :
    Canonical State.reset ∧ (match step State.reset with
      | .next t => t.mtc
      | _ => 0) = 40960 := by
  unfold Canonical Rising; decide +kernel

theorem wit_TheTrailerTravelsUnchangedUnderARightHeaderCheck :
    let s := sSub { retry := [{ lsn := 7, c := car 1 0 (List.replicate 64 0), t := 0, replay := true }] } {}
    s.coreOn = true ∧ s.subFree 0 0 = true ∧ s.inGuard = false ∧ ((s.sub 0 0).retry.find? fun e => e.replay).isSome = true := by decide +kernel

theorem wit_PostilionWordsDecodeToTheirInstruction :
    encodePost (.waitx 63 15) = some 0xBC03C000 ∧ decodePost 63 0xBC03C000 = .waitx 63 15 ∧ decodePost 0 0x2C000000 = .undefinedOpcode 0 0x0B := by
  decide +kernel

/-! ## Single steps, with what the spec says of them -/

/-- Table 3.5: results wrap modulo 2^64. -/
theorem test_add_wraps :
    ((after (.add 0 1 2 2) (run 0 { regs := [(2, 0x8000000000000001)] } (.add 0 1 2 2))).post 0).reg 1 = 2 := by decide +kernel

/-- R71: a write to g0 is discarded, the pc advances. -/
theorem test_g0_discards :
    let x := (after (.movi 0 0 5) (run 0 {} (.movi 0 0 5))).post 0
    x.reg 0 = 0 ∧ x.pc = 1 := by decide +kernel

/-- Table 3.5: MOVI and ADDI sign-extend. -/
theorem test_movi_sign : ((after (.movi 0 1 0x3FFFFF) (run 0 {} (.movi 0 1 0x3FFFFF))).post 0).reg 1 = 0xFFFFFFFFFFFFFFFF := by decide +kernel

/-- Table 3.5: a shift uses bits 5–0 of the count. -/
theorem test_shl_count :
    ((after (.shl 0 1 2 3) (run 0 { regs := [(2, 3), (3, 65)] } (.shl 0 1 2 3))).post 0).reg 1 = 6 := by decide +kernel

/-- Table 3.5: BLT compares signed values; the offset counts from the branch itself (R76). -/
theorem test_blt_signed :
    ((after (.blt 0 2 0 2) (run 0 { iramLen := 8, regs := [(2, 0xFFFFFFFFFFFFFFFF)] } (.blt 0 2 0 2))).post 0).pc = 2 := by decide +kernel

/-- R11's example: with an 8 µs stage a write at 15.8 µs commits at 16 µs, one at 15.97 µs at 24 µs. -/
theorem test_shadow_commit :
    (fs State.reset [(.AON_MTC_MTC_NS, 0, 15800)]).commitTick = 16000 ∧ (fs State.reset [(.AON_MTC_MTC_NS, 0, 15970)]).commitTick = 24000 := by
  decide +kernel

/-- R81's example: team 5's instance 7 has its record at byte 704. -/
theorem test_record_address : recAddr 5 7 = 704 := by decide

/-- The example of 14.2: GLB_CFG0 of a Cob block. -/
theorem test_cfg0_cob : ({ fuses := { conf := .cob } } : State).regVal .GLB_CFG0 0 = 0x1000_0800_2000_2001 := by decide +kernel

/-- The example of 5.3: MULADD rounds the product before the sum, FP32. -/
theorem test_muladd_rounds_the_product :
    (({ opc := 0x07 } : OpCtx).element 0 (some 0x3F800800) (some 0x3F800800) (some 0xBF801000)).code = 0 := by decide +kernel

/-- The example of 5.5: into F8V, 230 rounds to 224 without saturation, 233 saturates to it; 225 saturates toward +∞. -/
theorem test_f8v_saturation :
    roundTo 4 0 0 (.int 230) = { code := 0x7E } ∧ roundTo 4 0 0 (.int 233) = { code := 0x7E, sat := true }
      ∧ roundTo 4 1 0 (.int 225) = { code := 0x7E, sat := true } := by decide +kernel

/-- The example of 5.7: 1 + 3 × 2^−10 into BF16 with stochastic rounding. -/
theorem test_stochastic_bf16 :
    (roundTo 1 8 0xB3C10F22 (.fin false 1027 (-10))).code = 0x3F81 ∧ (roundTo 1 8 0x5A0791DE (.fin false 1027 (-10))).code = 0x3F80 := by decide +kernel

/-- The entry of the example of 10.9. -/
theorem test_allreduce_entry :
    let e := en [(0, 0x20), (1, 0x02), (2, 0x23), (3, 0x01), (4, 0x09), (5, 0x03), (7, 0x04), (12, 0x20), (20, 0x20), (27, 0x02), (32, 1), (33, 1), (40, 0x11)]
    eOp e = 0x20 ∧ eId e = 0x0123 ∧ eEpoch e = true ∧ wTeam e = 9 ∧ wGen e = 3 ∧ mAmax (wMode e) = true ∧ wSrc e = 0x2000000000
      ∧ wDst e = 0x2000000000 ∧ wCount e = 33554432 ∧ wIn e = 1 ∧ wOut e = 1 := by decide +kernel

/-- Its completion: 23 01 00 08 42 00 05 20, 8 zero bytes, AMAX 00 00 60 40, POISON_FIRST FF FF FF FF. -/
theorem test_allreduce_completion :
    (fs State.reset [(.DB_SQ_HEAD_HEAD, 1, 0x42)]).doneBytes
      { q := 1, id := 0x0123, op := 0x20, status := 0, flags := 8, qgen := 5, amax := amaxBits 0 (decodeVal 1 0x4060), pfirst := 0xFFFFFFFF }
      = [0x23, 0x01, 0x00, 0x08, 0x42, 0x00, 0x05, 0x20, 0, 0, 0, 0, 0, 0, 0, 0, 0, 0, 0x60, 0x40, 0, 0, 0, 0, 0xFF, 0xFF, 0xFF, 0xFF, 0, 0, 0, 0] := by
  decide +kernel

/-- The check value of CRC-32C over "123456789" (log entry 8). -/
theorem test_crc32c : crc32c [0x31, 0x32, 0x33, 0x34, 0x35, 0x36, 0x37, 0x38, 0x39] = 0xE3069283 := by decide +kernel

/-- R267: a tail index that is not below 2^k is ignored and counted in BAD_DB. -/
theorem test_doorbell_out_of_range :
    let t := after (.sqDoorbell 1 16) sRing
    t.rf .DB_SQ_TAIL_TAIL 1 = 0 ∧ t.rf .DB_STATUS_BAD_DB 1 = 1 := by decide +kernel

/-- Table 2.3, R45: an untrusted time gives a TICK_OUT pulse of 48 ns at the tick. -/
theorem test_tick_out_untrusted :
    (after (.stageTick false) (fs State.reset [(.AON_MTC_MTC_NS, 0, 8000)])).outbox.contains (.tickOut 8000 48) = true := by decide +kernel

/-- Table 12.1, 12.6: FLT_STATUS bits clear by writing 1. -/
theorem test_status_clear :
    (after (.fltStatusClear 2) (fs State.reset [(.FLT_STATUS_SOURCES, 0, 7)])).rf .FLT_STATUS_SOURCES = 5 := by decide +kernel

/-- Table 9.2, R265: a write to SYN_ADDn adds to an allocated object of the yard. -/
theorem test_syn_add :
    (after (.synAdd 5 4) (sObj {} (.nop 0))).rf .SYN_OBJ_VALUE 5 = 7 := by decide +kernel

/-- The step on an empty queue is a core cycle of 0.625 ns; the one that ends a reference period is an edge of 8 ns (log entry 1, R31). -/
theorem test_idle_step :
    (match step State.reset with
      | .next t => (t.now, t.mtc)
      | _ => (9, 9)) = (0, 40960)
      ∧ (match step { time := { sub := 59 } } with
        | .next t => (t.now, t.time.sub)
        | _ => (9, 9)) = (8, 0) := by decide +kernel

/-! ## Witnesses of further clauses -/

theorem wit_EndFinishesTheSegment_next :
    let s := run 0 { rest := [{ seg0 with team := 63 }], dram := [(128 * 63 + 3, 1)] } (.endSeg 0)
    Runs s 0 (.endSeg 0) ∧ (s.post 0).tags = [] ∧ (s.post 0).cur = some seg0
      ∧ (s.post 0).rest.dropWhile (s.skipSeg 0) = [{ seg0 with team := 63 }] ∧ (s.running 63).isNone = true ∧ s.rf .TT_TEAM_INSTANCE 63 = 0
      ∧ (s.post 0).recState 63 0 = 1 ∧ (s.post 0).recInst 63 0 = 0 ∧ recAddr 63 0 = 128 * 63 := by
  unfold Runs; decide +kernel

theorem wit_PostilionSyncAndTagWaits_sent :
    let s6 := run 0 xFar (.signal 0 1 2)
    let s := fs { s6 with net := { s6.net with wins := [{ ep := 1, tenant := 0, team := 64, gen := 0, credits := 64 }] } }
      [(.RTE_EP_LO_VALID, 1, 1), (.RTE_EP_LO_TENANT_MASK, 1, 1)]
    Runs s 0 (.signal 0 1 2) ∧ s.on .RTE_EP_LO_VALID 1 = true ∧ bitAt (s.rf .RTE_EP_LO_TENANT_MASK 1) (s.yardTenant 0) = true
      ∧ (s.takeCredit 1 (s.yardTenant 0) 64).isSome = true := by
  unfold Runs; decide +kernel

/-- Link 5 is ACTIVE and none of its groups is tenant 0's. -/
def foreign : List (Fld × Nat × Nat) := [(.LNK_STATE_STATE, 5, 6)]

theorem wit_DatapathInstructionsTakeTheirTag_cases :
    let at_ (p : Nat) (i : Instr) := run p { regs := [(1, 16352)] } i
    let x := at_ 10 (.xmit 10 1 7)
    let d := descOf ((x.post 10).rdRam 16352 32)
    let area : State := { x with insts := [{ team := 0, gen := 0, n := 0, op := 0x30, st := .running, mirArea := (0, 64) }] }
    let dark : State := fs { x with groom := { mirStage := [(0, 0, 64, 0)] } } [(.GRM_MIR_CFG_OUT_EN, 0, 1), (.GRM_MIR_CFG_LINK, 0, 5)]
    let skip (p : Nat) (i : Instr) : State := { at_ p i with insts := [{ team := 0, gen := 0, n := 0, op := 0x30, st := .running, skip := some 6 }] }
    let h := run 14 { regs := [(1, 16352)], dram := [(16352 + 8, 64)] } (.hrd 14 1 7)
    let h1 : State := { h with hitch := { cred := [(0, 1)] } }
    let dH := descOf ((h.post 14).rdRam 16352 32)
    let hreqs (s : State) := hitchReqs (s.reqFor 14 false (tagRef 14 (s.newTag 7 .hrd ((s.post 14).rdRam 16352 32)))) (portFor 0) [] (s.hostPieces (s.instOf 14) dH.addr dH.len) 0
    let o : ArrOp := { row := 0, col := 12, tag := 0, serial := 1, desc := ([1, 0, 0, 0] ++ List.replicate 4 0 ++ [7, 0, 0, 0x30] ++ List.replicate 20 0), team := 0,
                       inst := 0, infmt := 0, outfmt := 0, mode := 0, scale := 0, tensor := 0, seed := 0 }
    let feeds : State := { skip 14 (.hrd 14 1 7) with arr := { cur := some { op := o, srcs := [none] } } }
    (∀ p ∈ [((10 : PostId), Instr.xmit 10 1 7), (11, .recv 11 1 7)], (fs (at_ p.1 p.2) foreign).foreignLink p.1 = true ∧ Runs (fs (at_ p.1 p.2) foreign) p.1 p.2)
      ∧ Runs area 10 (.xmit 10 1 7) ∧ area.foreignLink 10 = false ∧ area.mirUnstaged 10 d = true ∧ x.mirUnstaged 10 d = false
      ∧ (x.mirPlace 0 (colLink 10) d).isNone = true
      ∧ Runs dark 10 (.xmit 10 1 7) ∧ dark.mirUnstaged 10 d = false ∧ (dark.mirPlace 0 (colLink 10) d).isSome = true ∧ dark.mirDown (colLink 10) = true
      ∧ (skip 14 (.hrd 14 1 7)).skipped 14 = true ∧ (skip 15 (.drd 15 1 7)).skipped 15 = true ∧ (skip 14 (.hrd 14 1 7)).arr.cur = none
      ∧ Runs feeds 14 (.hrd 14 1 7) ∧ (feeds.arr.cur.bind fun k => k.feed 0 14 7 {}).isSome = true
      ∧ Runs h1 14 (.hrd 14 1 7) ∧ h1.skipped 14 = false ∧ (h1.post 14).missing = false ∧ h1.hitch.waitq = [] ∧ (hreqs h1).length = 1
      ∧ (hreqs h1).all (fun r => 0 < sget (fun _ => 0) h1.hitch.cred r.port) = true
      ∧ (hreqs { h with hitch := { cred := (List.range 16).map fun k => (k, 0) } }).all (fun r => r.port == 0) = true := by
  unfold Runs; decide +kernel

theorem wit_QueuePairsAreCreatedAndTheirRingsRemoved_destroyed :
    let s := sQ0 eDsq [(.DB_STATUS_SQ_LIVE, 1, 1)]
    let d := sQ0 eDcq [(.DB_STATUS_CQ_LIVE, 1, 1)]
    let w : State := { d with qs := { d.qs with dones := [{ plainDone 0 9 3 0 0 with after := some 1 }] } }
    Starts s 0 0x03 eDsq [(4, 2)] ∧ s.rf .DB_STATUS_SQ_LIVE 1 ≠ 0 ∧ s.teamNames 1 = false ∧ s.qs.cmds = [] ∧ s.qs.fetched.all (fun f => f.q != 1) = true
      ∧ s.insts = [] ∧ d.destroying 1 = false ∧ w.destroying 1 = true := by
  unfold Starts; decide +kernel

theorem wit_LinkControlMovesTheLink_reactions : State.reset.reaction 16 < 2 ∧ State.reset.reaction 45 < 2 := by decide +kernel

/-- The read of the descriptors or the fragment table of the entry that pair q has fetched returned an error. -/
def unread (s : State) (q : Nat) (e : Entry) : State := { s with qs := { s.qs with fetched := [⟨q, e, 0, true⟩] } }

theorem wit_TeamCommandsBindToTheirInstance_unread :
    let e := eGroom 0x30 1
    let s := unread (sTeam 0x30 e) 1 e
    Starts s 1 0x30 e groomFields ∧ firstBad (teamBad 1 e s) = none ∧ ((s.start? 1 0x30 e).any fun f => f.bad) = true ∧ (tableOf e).isSome = true
      ∧ tableOf (eColl 0x20) = none := by
  unfold Starts; decide +kernel

theorem wit_RemoteCommandsStartTheirOperation_unread :
    let e := en [(0, 0x40), (1, 1), (16, 2 ^ 48), (24, 64), (56, 4096)]
    let s := unread (sTeam 0x40 e) 1 e
    Starts s 1 0x40 e remoteFields ∧ ((s.start? 1 0x40 e).any fun f => f.bad) = true ∧ (tableOf e).isSome = true
      ∧ s.coreOn = true ∧ 1 < s.fuses.conf.queues ∧ (s.remoteOf 1 0).isNone = true ∧ (s.fetchedRemote 1 0).isSome = true := by
  unfold Starts; decide +kernel

theorem wit_InvalidCommandsReportTheFirstFailedCheck_destroyCq :
    (sQ0 (en [(0, 0x04), (1, 0x80)]) []).destroying 0 = false := by decide +kernel

theorem wit_DoorbellsMoveTheirIndices_cancel :
    let e := en [(0, 0x40), (2, 8)]
    let r : Remote := { kind := 0x40, ep := 1, tenant := 0, out := [(3, 0, 64)], sent := 1 }
    let o : OutCar := ⟨0, 2, 8, false, 0, mkCarriage { cls := 2, kind := 1, dst := 1, src := 0, tenant := 0, seq := 3 } []⟩
    let s : State := { qs := { fetched := [⟨1, e, 0, false⟩], cmds := [⟨1, 9, e, 0, .remote r⟩] }, net := { outq := [o] } }
    s.coreOn = true ∧ 1 < s.fuses.conf.queues ∧ s.remoteOf 1 8 = none ∧ s.fetchedRemote 1 8 = some ⟨1, e, 0, false⟩
      ∧ s.remoteOf 1 9 = some (⟨1, 9, e, 0, .remote r⟩, r) ∧ r.sent ≤ (s.net.outq.filter (r.owns s.self)).length
      ∧ s.remoteOf 1 7 = none ∧ s.fetchedRemote 1 7 = none := by decide +kernel

theorem wit_DriverSetsAndAddsToSyncObjects_postilion :
    let ok (s : State) (v : Nat) : Prop := ((s.post 0).reg 1).toNat < 2 ^ 63 ∧ ((s.post 0).reg 1).toNat % 2 ^ 14 = 5 ∧ s.ownObj 0 5 = true
      ∧ s.rf .SYN_FLAG_KIND 5 ≠ 1 ∧ s.rf .SYN_OBJ_VALUE 5 = 3 ∧ ((s.post 0).reg 2).toNat = v
    (Runs (sObj (xObj 3) (.waits 0 1 2 0)) 0 (.waits 0 1 2 0) ∧ ok (sObj (xObj 3) (.waits 0 1 2 0)) 3)
      ∧ (Runs (sObj (xObj 4) (.waits 0 1 2 0)) 0 (.waits 0 1 2 0) ∧ ok (sObj (xObj 4) (.waits 0 1 2 0)) 4)
      ∧ (Runs (sObj (xObj 3) (.waits 0 1 2 1)) 0 (.waits 0 1 2 1) ∧ ok (sObj (xObj 3) (.waits 0 1 2 1)) 3)
      ∧ (Runs (sObj (xObj 2) (.waits 0 1 2 1)) 0 (.waits 0 1 2 1) ∧ ok (sObj (xObj 2) (.waits 0 1 2 1)) 2)
      ∧ Runs (sObj (xObj 3) (.signal 0 1 2)) 0 (.signal 0 1 2) ∧ (sObj (xObj 3) (.signal 0 1 2)).coreOn = true
      ∧ 5 < (sObj (xObj 3) (.signal 0 1 2)).fuses.conf.syncObjs := by
  unfold Runs; decide +kernel

theorem wit_SubmissionFetchTakesEntriesInOrder_error :
    (1 : BitVec 8).getLsbD 0 = true ∧ (254 : BitVec 8).getLsbD 0 = false ∧ (sFetch 1).sqLog 0 ≤ 16 := by decide +kernel

theorem wit_CompletionsArePostedAndInterruptsAnswered_after :
    let d : Done := { plainDone 0 9 3 0 0 with after := some 1 }
    let x := plainDone 1 5 0x20 0x0A 0
    let y : Done := { plainDone 0 8 0x48 0 0 with inst := some (0, 1) }
    let r : HitchReq := { port := 0, tag := 0, wr := true, yg := 0, addr := 0, len := 64, off := 0, t := 0, own := some (0, 1), use := .groom 0 0 }
    let s (l : List Done) : State := fs { qs := { dones := l }, hitch := { reqs := [r] } } [(.DB_STATUS_CQ_LIVE, 0, 1), (.ADM_CTL_EN, 0, 1), (.ADM_CTL_CQ_LOG2, 0, 4)]
    (s [d]).qs.dones.find? (fun x => x.q == 0 && x.id == 9) = some d ∧ (∀ z ∈ (s [d]).qs.dones, z.q = 1 → z = d)
      ∧ (s [d, x]).qs.dones.find? (fun x => x.q == 0 && x.id == 9) = some d ∧ x ∈ (s [d, x]).qs.dones ∧ x ≠ d ∧ (s [d]).unacked d.inst = false
      ∧ (s [y]).qs.dones.find? (fun x => x.q == 0 && x.id == 8) = some y ∧ (s [y]).unacked y.inst = true
      ∧ (s [d]).cqLive 0 = true ∧ (s [d]).safe = false ∧ (s [d]).cqLog 0 ≤ 16 ∧ (s [d]).rf .DB_CQ_ARM_ARM 0 = 0 := by decide +kernel

theorem wit_IdentifiersAndTimersRunOut_more :
    let d : Done := { plainDone 0 9 3 0 0 with after := some 1 }
    let s := fs { qs := { dones := [d] } } [(.DB_STATUS_QUARANTINE, 1, 1)]
    let i : Inst := { team := 0, gen := 0, n := 0, op := 0x20, st := .bound, due := true }
    let c : Cmd := ⟨1, 7, en [(0, 0x20)], 0, .work 0 0⟩
    let w := fs { qs := { cmds := [c] }, insts := [i] } [(.AON_MTC_MTC_NS, 0, 10 ^ 10)]
    s.destroying 1 = true ∧ (fs State.reset [(.DB_STATUS_QUARANTINE, 1, 1)]).destroying 1 = false
      ∧ w.coreOn = true ∧ w.safe = false ∧ w.cmd? 1 7 = some c ∧ w.expired 1 0x20 0 = true ∧ w.insts.find? (fun i => i.team == 0 && i.n == 0) = some i := by
  decide +kernel

theorem wit_RemoteRequestsActAtTheirTarget_safe :
    let put := car 1 1 (granule 64 64 0 0 0 0 0 ++ List.replicate 64 9)
    (sAcc 8 put []).safe = false ∧ (sAcc 8 put [(.FLT_CTL_SAFE, 0, 1)]).safe = true ∧ State.reset.safe = false
      ∧ (req 0x41).safe = false ∧ (req 0x42).safe = false ∧ (fs (req 0x41) [(.FLT_CTL_SAFE, 0, 1)]).safe = true := by decide +kernel

theorem wit_BarrierCarriagesMoveTheTree_held :
    let v : List (Fld × Nat × Nat) := [(.SYN_BAR_VALID, 0, 1), (.TT_TEAM_AXES, 0, 1)]
    let s : State := sBar 0 1 v
    let out : State := { s with sync := { s.sync with bars := [(0, { held := [true, false], out := true })] } }
    (s.bar 0).held = [] ∧ (out.bar 0).held = [true, false] ∧ (out.bar 0).out = true ∧ ((out.bar 0).node 0).sense = bSense (bar 0 1)
      ∧ (out.takeAccepted 0 (bar 0 1) [7]).isSome = true
      ∧ ((out.bar 0).node 0).count < (spanChildren (axisVal (out.team 0).ext 0) (out.rank 0 0)).length := by decide +kernel

theorem wit_FarMirrorAndDataCarriagesAreTaken_reset :
    let dat (cls : Nat) := car cls 0 (List.replicate 64 0)
    let up : DataPlace := ⟨.flagsUp, 0, 0, 0, false, 1, 0⟩
    let s (k : Nat) : State := withInst 0x20 false (sAcc 0 (dat 1) [(.YRD_STATE_STATE, 0, k)])
    (∀ k ∈ [0, 1, 2], (s k).canTake { team := 255, gen := 0, n := 0, op := 0x20 } up = true
        ∧ ((s k).rf .YRD_STATE_STATE ((s k).rf .TT_TEAM_YARD (cTeam (dat 1))) == 1) = (k == 1)) ∧ cDst (dat 1) = (s 0).self := by decide +kernel

theorem wit_CarriagesLeaveUnderTheNextNumber_last :
    let o3 : OutCar := ⟨0, 3, 8, false, 0, car 1 0 (List.replicate 64 0)⟩
    let w : List (Fld × Nat × Nat) := [(.TT_UNSCHED_SHARE_SIXTEENTHS, 0, 16)]
    let s : State := fs (sL { net := { outq := [o3] } }) w
    let u : State := (s.closeAll.loseMirXmits).pumpReins 0
    let bad : OutCar := ⟨0, 2, 8, true, 4, car 0 0 (List.replicate 64 0)⟩
    let sb : State := sL { net := { outq := [bad], vecs := [{ id := 4, l := 1, t := 0, lsn := 5, crcOk := false, missing := [2] }] } }
    let q : State := sL { net := { outq := [⟨0, 2, 8, false, 0, car 0 0 (List.replicate 64 0)⟩], unitq := [(0, 0, mkSlot kAck 0), (1, 0, mkSlot kAck 0)] } }
    let tg : TagOp := { tag := 0, kind := .xmit, desc := descOf [], serial := 1, blob := some { data := List.replicate 64 0 } }
    let m : State := fs { groom := { mirStage := [(0, 0, 64, 0)] }, posts := [(10, { cur := some seg0, tags := [tg] })] }
      [(.GRM_MIR_CFG_OUT_EN, 0, 1), (.GRM_MIR_CFG_LINK, 0, 5)]
    u.live 0 = true ∧ u.safe = false ∧ u.inGuard = false ∧ (u.xmits 0).isEmpty = true
      ∧ (u.net.outq.find? fun o => o.l == 0 && o.cls == 2 && !(o.adv && u.idBad o.key)).isNone = true
      ∧ (u.net.outq.find? fun o => o.l == 0 && o.cls == 3 && (u.subFree 0 (cTenant o.c) && u.retryRoom 0 (cTenant o.c) o.c.payload.length)
          && u.mayStart 0 (cTenant o.c) (u.carTime 0 (cTenant o.c) o.c.payload.length)) = some o3
      ∧ (sL {}).net.outq = [] ∧ sb.idBad 4 = true ∧ (sb.net.outq.find? fun o => o.l == 0 && o.cls == 2 && !(o.adv && sb.idBad o.key)).isNone = true
      ∧ (waitingUnits q 0 0).length = 1 ∧ ((q.closeAll.loseMirXmits).pumpReins 0) = q
      ∧ (m.loseMirXmits.post 10).tags.length = 0 ∧ (m.post 10).tags.length = 1 := by decide +kernel

theorem wit_CarriagesArriveInOrderAndAreJudged_slots :
    let g := sSub { expect := 2046 } {}
    let fwd := car 0 0 (List.replicate 64 0)
    (g.sendsSched 0 0 = false ∧ waitingUnits g 0 0 = []) ∧ g.carOrigin 0 fwd = .car 0 none := by decide +kernel

theorem wit_AcknowledgementsAndReplaysFollowTheNumbers_waits :
    let dn := mkSlot kAck (fieldsOf [(0, 1), (1, 5), (3, 2)])
    let v (ok : Bool) : Vec := { id := 1, l := 0, t := 0, lsn := 5, crcOk := ok, missing := [2] }
    let s := sSub { dirty := true, busySched := true, busy := 1, repeats := [(5, 2, 0)] } { slots := [(0, 192)] }
    let f := sSub { dirty := true, repeats := [(5, 2, 0)], retry := [{ lsn := 7, c := car 1 0 [], t := 0, replay := true }] } {}
    let gd := fs (sL {}) [(.AON_MTC_MTC_NS, 0, 999900), (.TT_STAGE_LEN_LEN_US, 0, 1)]
    s.live 0 = true ∧ (s.sub 0 0).dirty = true ∧ s.net.reinq = [] ∧ s.net.reinWait = []
      ∧ s.sendsSched 0 0 = true ∧ 48 * (s.subGroups 0 0).length ≤ s.slotsUsed 0 0
      ∧ (f.sendsSched 0 0 = false ∧ waitingUnits f 0 0 = []) ∧ f.inGuard = false ∧ f.subFree 0 0 = true
      ∧ ((f.sub 0 0).retry.find? fun e => e.replay).isSome = true ∧ gd.inGuard = true
      ∧ (sSub {} { vecs := [v false] }).idBad 1 = true ∧ (sSub {} { vecs := [v true] }).idBad 1 = false
      ∧ ((sSub {} { vecs := [v false] }).net.vecs.find? fun w => w.l == 0 && w.t == 0 && w.lsn == slotAt dn 2 2 % 2048) = some (v false) := by
  decide +kernel

theorem wit_ReinsHaltsAndMarksAreTaken_more :
    let rb := mkSlot kRein (fieldsOf [(0, 0), (2, 1), (4, 4), (6, 1)])
    let i : Inst := { team := 0, gen := 0, n := 0, op := 0x48, st := .running, entry := en [(0, 0x48), (16, 2 ^ 48)] }
    let s := sL {}
    let far (x : State) : Bool := (reinOf rb).blocked && !(x.net.wins.any fun w => w.ep == (reinOf rb).src && w.tenant == (reinOf rb).tenant && w.gen == (reinOf rb).gen
      && !w.owed.isEmpty) && x.insts.any (x.farBlocked (reinOf rb))
    let al := sT 3 { t := 0 } [] 1000000
    let used := (List.range 64).filter fun k => (s.subGroups 0 0).contains (k / 16)
    unitOk kRein rb = true ∧ (reinOf rb).dst = s.self ∧ far s = false ∧ far { s with insts := [i] } = true
      ∧ al.live 0 = false ∧ al.inAlign 0 = true ∧ al.alignMarkDue 0 0 = true ∧ al.safe = false
      ∧ (sT 7 {} []).linkSt 0 = 7 ∧ (sT 7 {} []).live 0 = false ∧ State.reset.linkSt 0 ≠ 7
      ∧ (used.filter fun k => bitAt 0 k) = [] ∧ (used.filter fun k => bitAt (2 ^ 63) k) = [63] ∧ ((sL { links := [(0, { markMiss := 2 ^ 63 })] }).link 0).markMiss = 2 ^ 63
      ∧ ((used.filter fun k => !bitAt (2 ^ 63) k).any (bitAt (2 ^ 63))) = false ∧ used.length = 64 := by decide +kernel

theorem wit_CapsAndStepsSettleTheRung_both :
    let unit (ty a b c : Nat) := mkSlot kComma (ty + 256 * (a + 256 * b + 65536 * c))
    let s := sT 7 { asked := true, target := 2 } [(.LNK_RUNG_RUNG, 0, 1), (.LNK_RUNG_CAP, 0, 2)] 1000
    s.linkSt 0 = 7 ∧ s.safe = false ∧ (s.link 0).asked = true ∧ (s.link 0).stepAt = none ∧ trainOk 4 (unit 4 0 15 0) = true ∧ trainOk 4 (unit 4 2 15 0) = true
      ∧ slotAt (unit 4 0 15 0) 2 1 + 1 = s.rf .LNK_RUNG_RUNG 0 ∧ slotAt (unit 4 2 15 0) 2 1 + 1 ≠ s.rf .LNK_RUNG_RUNG 0 := by decide +kernel

theorem wit_PatternsErrorsAndTimeoutsDecideTheLink_counts :
    let pat (st n : Nat) := (sT st { prbs := [(63, { reg := List.replicate 31 true, run := n })] } [(.LNK_PRBS_CTL_PATTERN, 0, 1)])
    let y (s : State) := sget (fun _ => ({} : PrbsRec)) (s.link 0).prbs 63
    let ber (r e n : Nat) := sT 6 {} [(.LNK_RUNG_RUNG, 0, r), (.LNK_RUNG_GROUPS, 0, 1), (.LNK_BER_WINDOW_ERRORS, 0, e)] n
    let win := 10240000000000 / 256
    (pat 11 64).linkSt 0 = 11 ∧ (pat 11 64).rf .LNK_PRBS_CTL_PATTERN ≠ 0 ∧ (pat 8 64).linkSt 0 = 8 ∧ 64 ≤ (y (pat 11 64)).run
      ∧ prbsNext ((pat 11 64).prbsPattern 0 11) (y (pat 11 64)).reg = false ∧ prbsNext ((pat 8 64).prbsPattern 0 8) (y (pat 8 64)).reg = true
      ∧ (y (pat 8 63)).run = 63 ∧ (y (pat 8 63)).reg.length = (prbsTaps ((pat 8 63).prbsPattern 0 8)).1
      ∧ State.reset.linkSt 0 ≠ 8 ∧ State.reset.rf .LNK_PRBS_CTL_PATTERN = 0
      ∧ State.reset.coded 0 = false ∧ (ber 1 0 0).coded 0 = true ∧ (sT 9 {} []).coded 0 = true
      ∧ ¬ (((ber 1 0 0).link 0).berT * (ber 1 0 0).lineBits 0 + 10240000000000 ≤ (ber 1 0 0).now * (ber 1 0 0).lineBits 0)
      ∧ satAdd ((ber 1 10 win).rf .LNK_BER_WINDOW_ERRORS) 0 ≤ 10 ∧ 10 < satAdd ((ber 0 10 (4 * win)).rf .LNK_BER_WINDOW_ERRORS) 1
      ∧ (ber 0 10 (4 * win)).live 0 = true ∧ (ber 0 10 (4 * win)).rf .LNK_RUNG_RUNG = 0
      ∧ ((ber 0 10 (4 * win)).link 0).berT * (ber 0 10 (4 * win)).lineBits 0 + 10240000000000 ≤ (ber 0 10 (4 * win)).now * (ber 0 10 (4 * win)).lineBits 0 := by
  decide +kernel

theorem wit_LightRunsFibresRingsAndGains_more :
    let g (st n : Nat) := sT st { gains := [(63, 4)], prbs := [] } [] n
    let ring (ph : Nat) := sT 1 { rings := [(127, { phase := ph })] } [(.LNK_RING_STATE, 127, 2)]
    (g 1 0).live 0 = false ∧ (g 6 0).live 0 = true ∧ (g 6 7800).inGuard = true ∧ (g 6 7940).stage64 = (g 6 7940).inStage64 + 3840
      ∧ ¬ ((g 6 7940).stage64 < (g 6 7940).inStage64 + 3840) ∧ (g 6 7799).inGuard = false
      ∧ ((ring 1).ring 0 127).phase ≠ 0 ∧ (ring 1).rf .LNK_RING_STATE (ringIx 0 127) = 2
      ∧ (maskOf fun h => (sT 10 { aim := 8 } [(.LNK_FIBRE_LIGHT, 0, 15)] 1000000).lightAt 0 h && bitAt ((sT 10 { aim := 8 } [] 1000000).link 0).aim h) = 8 := by
  decide +kernel

theorem wit_TicksCorrectTheMachineTime_island :
    let off : State := { power := { seqHold := true } }
    off.coreOn = false ∧ off.time.ref = .present ∧ ({ off with time := { ref := .lost } } : State).time.ref = .lost
      ∧ ({ off with time := { ref := .lost } } : State).coreOn = false := by decide +kernel

theorem wit_TicksAreServedOnceInOrder_error :
    let s : State := fs { tt := { active := some imOne } } [(.AON_MTC_MTC_NS, 0, 8000)]
    s.coreOn = true ∧ s.time.lastTick < s.tickAt ∧ s.tt.active = some imOne ∧ State.reset.tt.active = none := by decide +kernel

/-- The array runs the first UPDATE operation of the groom unit's job 1. -/
def opUpd : ArrOp := { opMove with row := 0, upd := some ⟨1, 0, 16, none⟩ }

theorem wit_ArrayAndGovernorWorkInOrder_more :
    let gone : State := { arr := { queue := [opMove] } }
    let fed : State := { arr := { cur := some { op := { opMove with desc := opMove.desc.set 11 0x30 }, srcs := [none] } } }
    let job (d : Bool) : State := { groom := { job := some { req := ⟨0, 0, 0, 1, 0, 0, 0⟩, id := 1, dead := d } }, arr := { cur := some { op := opUpd, srcs := [], discard := d } } }
    let i : Inst := { team := 0, gen := 0, n := 0, op := 0x20, st := .running }
    gone.arr.cur = none ∧ gone.arr.queue = [opMove] ∧ gone.opHeld opMove = false
      ∧ (sArr opMove {}).opHeld opMove = true ∧ opMove.readsScr = true ∧ ({ opMove with desc := opMove.desc.set 11 0x30 } : ArrOp).readsScr = false
      ∧ (fed.arr.cur.any fun c => fed.stalls c) = true ∧ opMove.upd.isSome = false ∧ opUpd.upd.isSome = true
      ∧ ((job true).arr.cur.any fun c => c.discard && c.op.upd.isSome) = true
      ∧ (∀ j ∈ [i], j.hold = false ∨ j.st ≠ .running) := by decide +kernel

theorem wit_GroomHitchAndDepotServeTheirRequests_more :
    let r : GroomReq := ⟨0, 0, 0, 1, 0, 0, 0⟩
    let j (st : GroomStep) (w : Nat) (d : Bool) : GroomJob := { req := r, step := st, writes := w, dead := d }
    let g (x : GroomJob) : State := { groom := { job := some x } }
    let i1 : Inst := { team := 63, gen := 0, n := 5, op := 0x20, st := .ended, decision := 1 }
    let w : HitchReq := { port := 15, tag := 7, wr := true, yg := 0, addr := 64, len := 64, off := 0, t := 0, own := some (63, 5), use := .groom 0 0 }
    let e (q : List HitchReq) : State := { insts := [i1], hitch := { reqs := q } }
    let h : HitchReq := { port := 15, tag := 7, wr := false, yg := 1, addr := 64, len := 256, off := 0, t := 0, use := .tag ⟨0, 14, 0, 1⟩ }
    let fr : DepotReq := { ch := 15, wr := false, addr := 0, data := [], len := 64, use := .farRead 0 carZ }
    let d : State := { hitch := { dreqs := [fr] } }
    (j .ending 0 false).over = true ∧ (j .ending 1 false).over = false ∧ (j .gate 0 false).over = false ∧ (j .gate 3 true).over = true
      ∧ (g (j .ending 0 true)).backWrites (j .ending 0 true) = [] ∧ (g (j .ending 0 true)).rf .GRM_START_VALID 0 = 0
      ∧ ((g (j .ending 0 true)).running 0).isNone = true
      ∧ (e []).insts.find? (fun i => i.team == 63 && i.st == .ended && i.decision == 1) = some i1 ∧ (e []).unacked (some (63, 5)) = false ∧ (e [w]).unacked (some (63, 5)) = true
      ∧ h.beats + 1 = beatCount h.len ∧ State.reset.ygStale h 0 = true ∧ State.reset.ygStale { h with yg := 0 } 0 = false
      ∧ ({ hitch := { reqs := [h] } } : State).reqOf 15 7 false = some h ∧ ({ hitch := { reqs := [w] } } : State).reqOf 15 7 true = some w
      ∧ State.reset.ygStale w 1 = true
      ∧ d.hitch.dreqs.find? (fun r => r.ch == 15) = some fr ∧ fr.addr + fr.len ≤ d.depotSize ∧ State.reset.insts = [] := by decide +kernel

theorem wit_StepRunsTheFrontCommandOrOneReferenceEdge_idle :
    let off : State := { power := { seqHold := true } }
    let t (n : Nat) : State := { time := { sub := n } }
    off.pending = [] ∧ off.coreOn = false ∧ (t 58).pending = [] ∧ (t 58).coreOn = true ∧ (t 58).net.outq = [] ∧ (t 58).net.unitq = [] ∧ (t 58).insts = []
      ∧ (t 58).time.sub + 5 < 64 ∧ 64 ≤ (t 59).time.sub + 5 ∧ (t 58).time.freeze = 0 := by decide +kernel

end Sys2Proof.Tests
end

namespace Sys2Proof

open Machine

/-! # What a change leaves: `Part.Same`, `Frame` and `AllBut` compose (O21, O22, O23) -/

theorem Part.Same.refl (s : State) (p : Part) : p.Same s s := by cases p <;> rfl

theorem Part.Same.trans {s t u : State} {p : Part} (h : p.Same s t) (k : p.Same t u) : p.Same s u := by
  cases p <;> exact Eq.trans k h

/-- The queue and the fuses are no part. -/
theorem Part.Same.keep {s t : State} {p : Part} (h : p.Same s t) : p.Same s (s.keep t) := by cases p <;> exact h

theorem Frame.refl (ps : List Part) (fs : List (Fld × Nat)) (s : State) : Frame ps fs s s :=
  ⟨rfl, rfl, fun p _ => Part.Same.refl s p, fun _ _ _ => rfl⟩

theorem Frame.mono {ps qs : List Part} {fs gs : List (Fld × Nat)} {s t : State} (h : Frame ps fs s t) (hp : ps ⊆ qs)
    (hf : fs ⊆ gs) : Frame qs gs s t := by
  obtain ⟨h1, h2, h3, h4⟩ := h
  exact ⟨h1, h2, fun p hn => h3 p (fun hm => hn (hp hm)), fun f i hn => h4 f i (fun hm => hn (hf hm))⟩

theorem Frame.trans {ps : List Part} {fs : List (Fld × Nat)} {s t u : State} (h : Frame ps fs s t) (k : Frame ps fs t u) :
    Frame ps fs s u := by
  obtain ⟨h1, h2, h3, h4⟩ := h
  obtain ⟨k1, k2, k3, k4⟩ := k
  exact ⟨k1.trans h1, k2.trans h2, fun p hn => (h3 p hn).trans (k3 p hn), fun f i hn => (k4 f i hn).trans (h4 f i hn)⟩

theorem rf_keep {s t : State} (h : t.fuses = s.fuses) (f : Fld) (i : Nat) : (s.keep t).rf f i = t.rf f i :=
  State.rf_congr (s := t) (t := s.keep t) rfl h.symm f i

/-- What a command keeps of the state it made is the queue and the fuses, which a frame has as they were. -/
theorem Frame.keep {ps : List Part} {fs : List (Fld × Nat)} {s t : State} (h : Frame ps fs s t) : Frame ps fs s (s.keep t) := by
  obtain ⟨-, h2, h3, h4⟩ := h
  refine ⟨rfl, rfl, fun p hn => (h3 p hn).keep, fun f i hn => (rf_keep h2 f i).trans (h4 f i hn)⟩

/-- Setting one register field changes nothing else. -/
theorem frame_setf (s : State) (f : Fld) (i v : Nat) : Frame [] [(f, i)] s (s.setf f i v) := by
  refine ⟨rfl, rfl, fun p _ => ?_, fun g j hn => State.rf_setf_other s f g i j v fun h => hn ?_⟩
  · cases p <;> rfl
  · obtain ⟨rfl, rfl⟩ := h; exact List.mem_singleton.2 rfl

/-- The answer of the control port set: only the answer has changed. -/
theorem frame_rdata (s : State) (n : Nat) : Frame [.rdata] [] s { s with rdata := n } := by
  refine ⟨rfl, rfl, fun p hp => ?_, fun _ _ _ => rfl⟩
  cases p
  case rdata => exact absurd (List.mem_singleton.2 rfl) hp
  all_goals rfl

end Sys2Proof

namespace Sys2Proof.Machine

/-- Where the copies of register r stand: all offsets of the row are multiples of 8, and the last copy ends inside the window. -/
theorem regInfo_bounds (r : Reg) :
    (regInfo r).base % 8 = 0 ∧ (regInfo r).s1 % 8 = 0 ∧ (regInfo r).s2 % 8 = 0
      ∧ (regInfo r).base + ((regInfo r).n1 - 1) * (regInfo r).s1 + ((regInfo r).n2 - 1) * (regInfo r).s2 + 8 ≤ 2 ^ 26 := by
  cases r <;> decide

/-- Each copy of a register stands at a multiple of 8. -/
theorem regOff_aligned (r : Reg) (i : Nat) : regOff r i % 8 = 0 := by
  obtain ⟨hb, h1, h2, -⟩ := regInfo_bounds r
  have d1 := Nat.dvd_mul_left_of_dvd (Nat.dvd_of_mod_eq_zero h1) (i / (regInfo r).n2)
  have d2 := Nat.dvd_mul_left_of_dvd (Nat.dvd_of_mod_eq_zero h2) (i % (regInfo r).n2)
  exact Nat.mod_eq_zero_of_dvd (Nat.dvd_add (Nat.dvd_add (Nat.dvd_of_mod_eq_zero hb) d1) d2)

/-- Each copy of a register stands inside the 64 MiB window. -/
theorem regOff_in_window (r : Reg) (i : Nat) (h : i < (regInfo r).n1 * (regInfo r).n2) : regOff r i + 8 ≤ 2 ^ 26 := by
  obtain ⟨-, -, -, hl⟩ := regInfo_bounds r
  have h2 : 0 < (regInfo r).n2 := (regInfo_room r).2.1
  have ha := mul_le_pred (s := (regInfo r).s1) (Nat.div_lt_of_lt_mul (by rwa [Nat.mul_comm]) : i / (regInfo r).n2 < (regInfo r).n1)
  have hb := mul_le_pred (s := (regInfo r).s2) (Nat.mod_lt i h2)
  unfold regOff
  omega

/-- Each field lies in bits 63 to 0 of its register. -/
theorem fieldSpec_bits (f : Fld) : (fieldSpec f).lo ≤ (fieldSpec f).hi ∧ (fieldSpec f).hi < 64 := by
  cases f <;> decide

/-- An access that is narrower than 64 bits or misaligned is not whole. -/
theorem whole_eq_false {off : Nat} {be : BitVec 8} (h : ¬ (off % 8 = 0 ∧ be = 0xFF)) : whole off be = false := by
  simpa [whole, ← not_and_or] using h

theorem whole_of_aligned {off : Nat} (h : off % 8 = 0) : whole off 0xFF = true := by simp [whole, h]

/-- A register write through the control port that is not whole answers 0 and does nothing. -/
theorem exec_registerWrite_partial {s : State} (off : BitVec 26) (be : BitVec 8) (v : Word) (hc : s.coreOn = true)
    (h : ¬ (off.toNat % 8 = 0 ∧ be = 0xFF)) : exec (.registerWrite off be v) s = .next (s.keep { s with rdata := 0 }) := by
  show execRegisterWrite off be v s = _
  simp [execRegisterWrite, portAccess_on _ _ hc, whole_eq_false h]

/-- A register read that is not whole answers 0 and does nothing. -/
theorem exec_registerRead_partial {s : State} (off : BitVec 26) (be : BitVec 8) (hc : s.coreOn = true)
    (h : ¬ (off.toNat % 8 = 0 ∧ be = 0xFF)) : exec (.registerReadClear off be) s = .next (s.keep { s with rdata := 0 }) := by
  show execRegisterReadClear off be s = _
  simp [execRegisterReadClear, portAccess_on _ _ hc, whole_eq_false h]

/-- Settles O21: the rows of the register tables are read off, and an access that is not whole does nothing to the state whose
answer was cleared. -/
theorem registersAreAlignedWordsAndNothingElseIsAccessed : Obligations.RegistersAreAlignedWordsAndNothingElseIsAccessed := by
  refine ⟨fun r i h => ⟨regOff_aligned r i, regOff_in_window r i h⟩, fieldSpec_bits, fun s off be v hc h => ?_⟩
  exact ⟨⟨_, exec_registerWrite_partial off be v hc h, rfl, (frame_rdata s 0).keep⟩,
    ⟨_, exec_registerRead_partial off be hc h, rfl, (frame_rdata s 0).keep⟩⟩

/-- Field f of register index i goes back to its reset value where reading it clears it. -/
def State.clearRc (i : Nat) (s : State) (f : Fld) : State :=
  if (fieldSpec f).acc = .rc then s.setf f i (fldReset s.fuses f i) else s

/-- The fields of index i of a list that a read clears. -/
def rcFields (i : Nat) (l : List Fld) : List (Fld × Nat) := (l.filter fun f => (fieldSpec f).acc == .rc).map fun f => (f, i)

theorem clearRead_of_regAt {s : State} {off : Nat} {r : Reg} {i : Nat} (h : s.regAt off = some (r, i)) :
    s.clearRead off = (regFields r).foldl (State.clearRc i) s := by
  unfold State.clearRead; rw [h]; rfl

theorem clearRead_of_none {s : State} {off : Nat} (h : s.regAt off = none) : s.clearRead off = s := by
  unfold State.clearRead; rw [h]

theorem readAt_of_regAt {s : State} {off : Nat} {r : Reg} {i : Nat} (h : s.regAt off = some (r, i)) : s.readAt off = s.regVal r i := by
  unfold State.readAt; rw [h]

theorem readAt_of_none {s : State} {off : Nat} (h : s.regAt off = none) (hr : ramAt off = none) : s.readAt off = 0 := by
  unfold State.readAt; rw [h, hr]

/-- The answer of the control port does not bear on where a register stands. -/
theorem regAt_rdata (s : State) (n off : Nat) : ({ s with rdata := n } : State).regAt off = s.regAt off := by
  have ho : ∀ r i, ({ s with rdata := n } : State).occupied r i = s.occupied r i := fun r i => by cases r <;> rfl
  simp only [State.regAt, ho]

/-- Clearing the RC fields of a list changes nothing but them. -/
theorem frame_clearRc (i : Nat) (l : List Fld) (s : State) : Frame [] (rcFields i l) s (l.foldl (State.clearRc i) s) := by
  induction l generalizing s with
  | nil => exact Frame.refl _ _ s
  | cons f l ih =>
    have hl : rcFields i l ⊆ rcFields i (f :: l) := List.map_subset _ (List.filter_subset _ (List.subset_cons_self f l))
    refine Frame.trans ?_ ((ih _).mono (List.Subset.refl _) hl)
    unfold State.clearRc
    split
    · next hf => exact (frame_setf s f i _).mono (List.Subset.refl _) (by simp [rcFields, hf])
    · exact Frame.refl _ _ s

/-- Clearing the RC fields of a list leaves each of them at its reset value. -/
theorem rf_clearRc (i : Nat) (l : List Fld) (s : State) {f : Fld} (hm : f ∈ l) (hf : (fieldSpec f).acc = .rc) :
    (l.foldl (State.clearRc i) s).rf f i = fldReset s.fuses f i % 2 ^ fwidth f := by
  induction l generalizing s with
  | nil => cases hm
  | cons g l ih =>
    have hfu : (s.clearRc i g).fuses = s.fuses := by unfold State.clearRc; split <;> rfl
    by_cases hl : f ∈ l
    · exact hfu ▸ ih (s.clearRc i g) hl
    · obtain rfl : f = g := (List.mem_cons.1 hm).resolve_right hl
      have hn : (f, i) ∉ rcFields i l := by simp [rcFields, hl]
      rw [List.foldl_cons, (frame_clearRc i l _).2.2.2 f i hn, State.clearRc, if_pos hf, State.rf_setf_same]

/-- A whole read through the control port. -/
theorem exec_registerRead_whole {s : State} {off : BitVec 26} (hc : s.coreOn = true) (ha : off.toNat % 8 = 0) :
    exec (.registerReadClear off 0xFF) s = .next (s.keep (({ s with rdata := 0 } : State).readTo off.toNat)) := by
  show execRegisterReadClear off 0xFF s = _
  simp only [execRegisterReadClear, portAccess_on _ _ hc, whole_of_aligned ha, if_true]

/-- A read changes the answer and the fields that a read clears, nothing else. -/
theorem frame_readTo {s : State} {off : Nat} {fs : List (Fld × Nat)} (h : Frame [] fs s (s.clearRead off)) :
    Frame [.rdata] fs s (s.readTo off) :=
  (h.mono (by simp) (List.Subset.refl _)).trans ((frame_rdata _ _).mono (List.Subset.refl _) (by simp))

/-- Settles O22: the read clears its register's RC fields one after the other and answers the value from before. -/
theorem registerReadsAnswerTheirValueAndClear : Obligations.RegisterReadsAnswerTheirValueAndClear := by
  intro s off r i hc ha
  have h0 : Frame [.rdata] [] s { s with rdata := 0 } := frame_rdata s 0
  refine ⟨fun hr => ⟨_, exec_registerRead_whole hc ha, ?_, ?_, ?_⟩, fun hr hm => ⟨_, exec_registerRead_whole hc ha, ?_, ?_⟩⟩
  all_goals rw [← regAt_rdata s 0] at hr
  · exact readAt_of_regAt hr
  · intro f hf hrc
    have hk := (frame_clearRc i (regFields r) { s with rdata := 0 }).2.1
    rw [← rf_clearRc i (regFields r) { s with rdata := 0 } hf hrc, ← clearRead_of_regAt hr]
    rw [← clearRead_of_regAt hr] at hk
    exact rf_keep (t := State.readTo _ _) hk f i
  · refine Frame.keep ((h0.mono (List.Subset.refl _) (by simp)).trans (frame_readTo ?_))
    rw [clearRead_of_regAt hr]
    exact frame_clearRc i (regFields r) _
  · exact readAt_of_none hr hm
  · refine Frame.keep (h0.trans (frame_readTo ?_))
    rw [clearRead_of_none hr]
    exact Frame.refl _ _ _

end Sys2Proof.Machine

namespace Sys2Proof.Machine

/-! ## Writes of registers without an action of their own (O23) -/

/-- What writing field f of a register may leave changed besides the field: of the parts only shadow copies, stage engine and router,
no other field of the register, no shadow copy of another field. -/
structure FieldPut (f : Fld) (s t : State) : Prop where
  fuses : t.fuses = s.fuses
  parts : AllBut [.shadows, .eng, .net] s t
  others : ∀ g i, g ≠ f → (fieldSpec g).reg = (fieldSpec f).reg → t.rf g i = s.rf g i
  copies : ∀ x ∈ s.shadows, x.f ≠ f → x ∈ t.shadows

theorem FieldPut.refl (f : Fld) (s : State) : FieldPut f s s := ⟨rfl, fun p _ => Part.Same.refl s p, fun _ _ _ _ => rfl, fun _ h _ => h⟩

theorem FieldPut.trans {f : Fld} {s t u : State} (h : FieldPut f s t) (k : FieldPut f t u) : FieldPut f s u where
  fuses := k.fuses.trans h.fuses
  parts p hn := (h.parts p hn).trans (k.parts p hn)
  others g i hg hr := (k.others g i hg hr).trans (h.others g i hg hr)
  copies x hx hn := k.copies x (h.copies x hx hn) hn

/-- Setting a field of the register, or of another register altogether. -/
theorem fieldPut_setf (s : State) (f g : Fld) (i v : Nat) (h : g = f ∨ (fieldSpec g).reg ≠ (fieldSpec f).reg) : FieldPut f s (s.setf g i v) where
  fuses := rfl
  parts p _ := by cases p <;> rfl
  others e j he hr := by
    refine State.rf_setf_other s g e i j v fun hc => ?_
    obtain ⟨rfl, rfl⟩ := hc
    exact h.elim he fun hn => hn hr
  copies _ hx _ := hx

/-- A change of the shadow copies, the stage engine and the router that loses no copy of another field. -/
theorem fieldPut_of_regs {f : Fld} {s t : State} (hr : t.regs = s.regs) (hf : t.fuses = s.fuses) (hp : AllBut [.shadows, .eng, .net] s t)
    (hc : ∀ x ∈ s.shadows, x.f ≠ f → x ∈ t.shadows) : FieldPut f s t := ⟨hf, hp, fun g i _ _ => State.rf_congr hr hf g i, hc⟩

/-- A new generation of an endpoint moves fences, receive generations and windows: no field of RTE_EP_LO. -/
theorem fieldPut_genChanged {f : Fld} (hf : (fieldSpec f).reg = .RTE_EP_LO) (s : State) (e : Nat) : FieldPut f s (s.genChanged e) := by
  have hset : ∀ (u : State) (g : Fld) (i v : Nat), (fieldSpec g).reg ≠ .RTE_EP_LO → FieldPut f u (u.setf g i v) := fun u g i v hg =>
    fieldPut_setf u f g i v (.inr (hf ▸ hg))
  have hrx : ∀ (l : List Nat) (u : State), FieldPut f u (l.foldl (fun s t => s.setRxGen e t 0) u) := by
    intro l
    induction l with
    | nil => exact FieldPut.refl _
    | cons t l ih => exact fun u => (hset u .RTE_RXGEN_GENS _ _ (by decide)).trans (ih _)
  have hnet : ∀ (u : State) (n : Net), FieldPut f u { u with net := n } := by
    refine fun u n => fieldPut_of_regs rfl rfl (fun p hn => ?_) fun _ hx _ => hx
    cases p
    case net => simp at hn
    all_goals rfl
  unfold State.genChanged
  refine FieldPut.trans (FieldPut.trans (FieldPut.trans ?_ (hset _ .RTE_FENCE_ACTIVE _ _ (by decide))) (hrx _ _)) (hnet _ _)
  split
  · exact hnet _ _
  · exact hset _ .RTE_FENCE_OVERFLOW _ _ (by decide)

/-- The field's own earlier shadow copies go when it takes a value at once. -/
theorem fieldPut_dropShadows (s : State) (f : Fld) (i : Nat) :
    FieldPut f s { s with shadows := s.shadows.filter fun x => !(x.f == f && x.i == i) } := by
  refine fieldPut_of_regs rfl rfl (fun p hn => ?_) fun x hx hn => ?_
  · cases p
    case shadows => simp at hn
    all_goals rfl
  · simp [hx, hn]

theorem fieldPut_putNow (s : State) (f : Fld) (i v : Nat) : FieldPut f s (s.putNow f i v) := by
  have hd := fieldPut_dropShadows s f i
  have hs := fun u : State => fieldPut_setf u f f i v (.inl rfl)
  unfold State.putNow
  split
  · dsimp only
    split
    · exact hd
    · exact hd.trans ((hs _).trans (fieldPut_genChanged rfl _ _))
  · refine hd.trans ((hs _).trans (fieldPut_of_regs rfl rfl (fun p hn => ?_) fun _ hx _ => hx))
    cases p
    case eng => simp at hn
    all_goals rfl
  · exact hd.trans (hs _)

theorem fieldPut_shadowAt (s : State) (at_ : Nat) (f : Fld) (i v : Nat) : FieldPut f s (s.shadowAt at_ f i v) := by
  refine fieldPut_of_regs rfl rfl (fun p hn => ?_) fun x hx hn => ?_
  · cases p
    case shadows => simp at hn
    all_goals rfl
  · simp [State.shadowAt, hx, hn]

/-- Writing one field of a register, whatever its access type and class. -/
theorem fieldPut_putField (s0 : State) (i w : Nat) (a : State × Bool) (f : Fld) : FieldPut f a.1 (s0.putField i w a f).1 := by
  have hs := fun v => fieldPut_setf a.1 f f i v (.inl rfl)
  unfold State.putField
  dsimp only
  split
  · split
    · exact FieldPut.refl _ _
    · split
      · exact FieldPut.refl _ _
      · exact hs _
  · split
    · exact fieldPut_shadowAt _ _ _ _ _
    · exact fieldPut_putNow _ _ _ _
  · exact hs _
  · exact hs _
  · exact hs _
  · exact FieldPut.refl _ _

/-! ## The value that the written field takes -/

theorem fpart_lt (f : Fld) (w : Nat) : fpart f w < 2 ^ fwidth f := Nat.mod_lt _ (Nat.two_pow_pos _)

theorem rf_setf_fpart (s : State) (f : Fld) (i w : Nat) : (s.setf f i (fpart f w)).rf f i = fpart f w := by
  rw [State.rf_setf_same, Nat.mod_eq_of_lt (fpart_lt f w)]

/-- A field written at once holds its part of the value. -/
theorem rf_putNow (s : State) (f : Fld) (i w : Nat) : (s.putNow f i (fpart f w)).rf f i = fpart f w := by
  unfold State.putNow
  split
  · dsimp only
    split
    · assumption
    · rw [(fieldPut_genChanged (f := .RTE_EP_LO_X) rfl _ i).others .RTE_EP_LO_GEN i (by decide) rfl]
      exact rf_setf_fpart _ _ i w
  · exact rf_setf_fpart { s with shadows := _ } _ i w
  · exact rf_setf_fpart _ _ i w

/-- What Tables 0.4 and 0.5 say of field f after a write of w to its register of index i, where it is not refused: s is the state before the
write, t the one after. -/
def FieldWritten (s : State) (i w : Nat) (f : Fld) (t : State) : Prop :=
  ((fieldSpec f).acc = .rw → (fieldSpec f).cls ≠ .t → t.rf f i = fpart f w)
    ∧ ((fieldSpec f).acc = .rw → (fieldSpec f).cls = .t → s.runs (fieldSpec f).reg i = false → t.rf f i = fpart f w)
    ∧ ((fieldSpec f).acc = .rw → (fieldSpec f).cls = .t → s.runs (fieldSpec f).reg i = true → t.rf f i = s.rf f i
      ∧ ⟨s.commitTick, f, i, fpart f w⟩ ∈ t.shadows)
    ∧ ((fieldSpec f).acc = .w1c → t.rf f i = (s.rf f i - (s.rf f i &&& fpart f w)) % 2 ^ fwidth f)
    ∧ ((fieldSpec f).acc = .ro ∨ (fieldSpec f).acc = .rc → t.rf f i = s.rf f i)

/-- The write of field f to index i is not refused: it is no S field, or its value stays, or is in range while the owner is stopped. -/
def FieldTaken (s : State) (i w : Nat) (f : Fld) : Prop :=
  (fieldSpec f).acc = .rw → (fieldSpec f).cls = .s →
    fpart f w = s.rf f i ∨ (rangeOk f (fpart f w) = true ∧ s.runs (fieldSpec f).reg i = false)

section
variable {s : State} {i w : Nat} {a : State × Bool} {f : Fld}

theorem putField_rw_s (ha : (fieldSpec f).acc = .rw) (hc : (fieldSpec f).cls = .s) :
    s.putField i w a f = if fpart f w = s.rf f i then a
      else if !rangeOk f (fpart f w) || s.runs (fieldSpec f).reg i then (a.1, true) else (a.1.setf f i (fpart f w), a.2) := by
  simp only [State.putField, ha, hc]

theorem putField_rw_t (ha : (fieldSpec f).acc = .rw) (hc : (fieldSpec f).cls = .t) :
    s.putField i w a f = if s.runs (fieldSpec f).reg i then (a.1.shadowAt s.commitTick f i (fpart f w), a.2)
      else (a.1.putNow f i (fpart f w), a.2) := by
  simp only [State.putField, ha, hc]

theorem putField_rw_l (ha : (fieldSpec f).acc = .rw) (hc : (fieldSpec f).cls = .l) :
    s.putField i w a f = (a.1.setf f i (fpart f w), a.2) := by
  simp only [State.putField, ha, hc]

theorem putField_w1c (ha : (fieldSpec f).acc = .w1c) :
    s.putField i w a f = (a.1.setf f i (s.rf f i - (s.rf f i &&& fpart f w)), a.2) := by
  simp only [State.putField, ha]

theorem putField_ro_rc (ha : (fieldSpec f).acc = .ro ∨ (fieldSpec f).acc = .rc) : s.putField i w a f = a := by
  rcases ha with ha | ha <;> simp only [State.putField, ha]

/-- A field whose write is not refused is written. -/
theorem fieldWritten_putField (hf : a.1.rf f i = s.rf f i) (ht : FieldTaken s i w f) : FieldWritten s i w f (s.putField i w a f).1 := by
  refine ⟨fun ha hc => ?_, fun ha hc hr => ?_, fun ha hc hr => ?_, fun ha => ?_, fun ha => ?_⟩
  · cases hk : (fieldSpec f).cls with
    | s =>
      rw [putField_rw_s ha hk]
      split
      · next he => exact hf.trans he.symm
      · next he =>
        obtain ⟨hok, hr⟩ := (ht ha hk).resolve_left he
        simp [hok, hr, rf_setf_fpart]
    | t => exact absurd hk hc
    | l => rw [putField_rw_l ha hk]; exact rf_setf_fpart _ f i w
  · rw [putField_rw_t ha hc, hr]; exact rf_putNow a.1 f i w
  · rw [putField_rw_t ha hc, hr]; exact ⟨hf, by simp [State.shadowAt]⟩
  · rw [putField_w1c ha]; exact State.rf_setf_same _ _ _ _
  · rw [putField_ro_rc ha]; exact hf

/-- Where the write of a field is not refused, the flag of refusals stays. -/
theorem putField_taken (ht : FieldTaken s i w f) : (s.putField i w a f).2 = a.2 := by
  unfold FieldTaken at ht
  unfold State.putField
  dsimp only
  split
  · next ha hc =>
    split
    · rfl
    · next he =>
      obtain ⟨hok, hr⟩ := (ht ha hc).resolve_left he
      simp [hok, hr]
  · split <;> rfl
  all_goals rfl

end

/-- What is said of a written field stays true while other fields of its register are written. -/
theorem FieldWritten.mono {s t u : State} {i w : Nat} {f g : Fld} (h : FieldWritten s i w f t) (k : FieldPut g t u) (hn : f ≠ g)
    (hr : (fieldSpec f).reg = (fieldSpec g).reg) : FieldWritten s i w f u := by
  obtain ⟨h1, h2, h3, h4, h5⟩ := h
  have e : u.rf f i = t.rf f i := k.others f i hn hr
  exact ⟨fun ha hc => e.trans (h1 ha hc), fun ha hc hs => e.trans (h2 ha hc hs),
    fun ha hc hs => ⟨e.trans (h3 ha hc hs).1, k.copies _ (h3 ha hc hs).2 hn⟩, fun ha => e.trans (h4 ha), fun ha => e.trans (h5 ha)⟩

/-! ## The fields of a register one after the other -/

theorem regFields_nodup (r : Reg) : (regFields r).Nodup := by cases r <;> decide

theorem fieldSpec_reg {r : Reg} {f : Fld} (h : f ∈ regFields r) : (fieldSpec f).reg = r := by
  have : ∀ r, (regFields r).all (fun f => (fieldSpec f).reg == r) = true := fun r => by cases r <;> decide
  simpa using List.all_eq_true.1 (this r) f h

/-- Writing distinct fields of one register, none refused: each is written, what was written before stays so, no part besides shadow copies, stage
engine and router changes, and the flag of refusals stays. -/
theorem putField_fold {s : State} {i w : Nat} {r : Reg} (l : List Fld) (hd : l.Nodup) (hl : ∀ f ∈ l, (fieldSpec f).reg = r)
    (ht : ∀ f ∈ l, FieldTaken s i w f) (a : State × Bool) (ha : ∀ f ∈ l, a.1.rf f i = s.rf f i) :
    (∀ f ∈ l, FieldWritten s i w f (l.foldl (s.putField i w) a).1)
      ∧ (∀ f, (fieldSpec f).reg = r → f ∉ l → FieldWritten s i w f a.1 → FieldWritten s i w f (l.foldl (s.putField i w) a).1)
      ∧ (l.foldl (s.putField i w) a).1.fuses = a.1.fuses ∧ AllBut [.shadows, .eng, .net] a.1 (l.foldl (s.putField i w) a).1 ∧ (l.foldl (s.putField i w) a).2 = a.2 := by
  induction l generalizing a with
  | nil => exact ⟨by simp, fun _ _ _ h => h, rfl, fun p _ => Part.Same.refl _ p, rfl⟩
  | cons g l ih =>
    obtain ⟨hg, hd⟩ := List.nodup_cons.1 hd
    obtain ⟨hlg, hl⟩ := List.forall_mem_cons.1 hl
    obtain ⟨htg, ht⟩ := List.forall_mem_cons.1 ht
    obtain ⟨hag, ha⟩ := List.forall_mem_cons.1 ha
    have hp := fieldPut_putField s i w a g
    have hne : ∀ f ∈ l, f ≠ g := fun f hf he => hg (he ▸ hf)
    obtain ⟨h1, h2, hfu, h3, h4⟩ := ih hd hl ht (s.putField i w a g)
      fun f hf => (hp.others f i (hne f hf) ((hl f hf).trans hlg.symm)).trans (ha f hf)
    refine ⟨List.forall_mem_cons.2 ⟨h2 g hlg hg (fieldWritten_putField hag htg), h1⟩, fun f hr hn hw => ?_,
      hfu.trans hp.fuses, fun p hn => (hp.parts p hn).trans (h3 p hn), h4.trans (putField_taken htg)⟩
    obtain ⟨hfg, hfl⟩ := not_or.1 (mt List.mem_cons.2 hn)
    exact h2 f hr hfl (hw.mono hp hfg (hr.trans hlg.symm))

/-- A whole write through the control port to a register of the configuration. -/
theorem exec_registerWrite_whole {s : State} {off : BitVec 26} {v : Word} {r : Reg} {i : Nat} (hc : s.coreOn = true)
    (ha : off.toNat % 8 = 0) (hr : s.regAt off.toNat = some (r, i)) : exec (.registerWrite off 0xFF v) s =
      .next (s.keep (({ s with rdata := 0 } : State).writeReg r i v.toNat off.toNat)) := by
  show execRegisterWrite off 0xFF v s = _
  rw [← regAt_rdata s 0] at hr
  simp only [execRegisterWrite, portAccess_on _ _ hc, whole_of_aligned ha, if_true, State.writeAt, hr]

/-- The registers whose write has an action of its own. -/
def actingRegs : List Reg :=
  [.AON_MTC_LOAD, .TT_CTL, .TT_STAGE_LEN, .TT_EPOCH, .FLT_STATUS, .FLT_FIRST, .FLT_REACT0, .FLT_REACT1, .FLT_RESET,
    .AON_RESET_WIN, .DB_SQ_TAIL, .DB_CQ_HEAD, .DB_CQ_ARM, .DB_CANCEL, .IRQ_DATA, .SYN_OBJ, .SYN_ADD, .SYN_DL_CTL, .PWR_STATE,
    .CMR_BOOT_CTL, .RTE_SLICE, .DBG_HOLD, .ARR_SRG_KEY, .ARR_SRG_CTR, .ARR_SRG_TS, .GRM_MIR_CFG, .GRM_MIR_OUT_EPOCH, .GRM_MIR_OUT,
    .GRM_MIR_OUTSTAT, .GRM_MIR_COPY_EPOCH, .GRM_MIR_COPY, .GRM_MIR_COMMIT, .GRM_MIR_IN_DROPS]

/-- The write of any other register writes its fields. -/
theorem writeReg_plain {r : Reg} (h : r ∉ actingRegs) (s : State) (i v off : Nat) : s.writeReg r i v off = s.putReg r i v off := by
  unfold State.writeReg
  split
  case h_34 => rfl
  all_goals exact absurd (by simp [actingRegs]) h

/-- Whether a unit runs does not depend on the answer of the control port. -/
theorem runs_rdata (s : State) (n : Nat) (r : Reg) (i : Nat) : ({ s with rdata := n } : State).runs r i = s.runs r i := by
  cases r <;> rfl

/-- A write none of whose fields is refused writes the fields, and no more. -/
theorem putReg_taken {s : State} {r : Reg} {i w off : Nat} (ht : ∀ f ∈ regFields r, FieldTaken s i w f) :
    (∀ f ∈ regFields r, FieldWritten s i w f (s.putReg r i w off)) ∧ (s.putReg r i w off).fuses = s.fuses
      ∧ AllBut [.shadows, .eng, .net] s (s.putReg r i w off) := by
  obtain ⟨hw, -, hfu, hparts, hflag⟩ := putField_fold (regFields r) (regFields_nodup r) (fun f hf => fieldSpec_reg hf) ht (s, false) fun _ _ => rfl
  have hput : s.putReg r i w off = ((regFields r).foldl (s.putField i w) (s, false)).1 := by
    simp only [State.putReg, hflag, if_neg Bool.false_ne_true]
  rw [hput]
  exact ⟨hw, hfu, hparts⟩

/-- A write that would change the only field of a register, an S field whose owner runs, is refused. -/
theorem putReg_refused {s : State} {r : Reg} {f : Fld} {i w off : Nat} (hf : regFields r = [f]) (ha : (fieldSpec f).acc = .rw)
    (hc : (fieldSpec f).cls = .s) (hne : fpart f w ≠ s.rf f i) (hrun : s.runs r i = true) : s.putReg r i w off = s.cfgIgnored off := by
  have hr : (fieldSpec f).reg = r := fieldSpec_reg (hf ▸ List.mem_singleton.2 rfl)
  have hp : s.putField i w (s, false) f = (s, true) := by
    rw [putField_rw_s ha hc, if_neg hne, hr, hrun, Bool.or_true, if_pos rfl]
  simp only [State.putReg, hf, List.foldl_cons, List.foldl_nil, hp, if_true]

/-- A field written after the answer was cleared is written by the command. -/
theorem FieldWritten.answered {s t : State} {i w : Nat} {f : Fld} (h : FieldWritten { s with rdata := 0 } i w f t) (hf : t.fuses = s.fuses) :
    FieldWritten s i w f (s.keep t) := by
  obtain ⟨h1, h2, h3, h4, h5⟩ := h
  rw [runs_rdata] at h2 h3
  have e : (s.keep t).rf f i = t.rf f i := rf_keep hf f i
  exact ⟨fun ha hc => e.trans (h1 ha hc), fun ha hc hs => e.trans (h2 ha hc hs), fun ha hc hs => ⟨e.trans (h3 ha hc hs).1, (h3 ha hc hs).2⟩,
    fun ha => e.trans (h4 ha), fun ha => e.trans (h5 ha)⟩

/-- Settles O23: the register's fields are written one after the other, each as its access type and class say, and no write of one field undoes
that of another. -/
theorem registerWritesObeyAccessAndClass : Obligations.RegisterWritesObeyAccessAndClass := by
  intro s off v r i hc ha hr hp
  have he := exec_registerWrite_whole (v := v) hc ha hr
  rw [writeReg_plain hp] at he
  refine ⟨fun ht => ?_, fun f hf hacc hcls hne hrun => he.trans ?_⟩
  · have htaken : ∀ f ∈ regFields r, FieldTaken { s with rdata := 0 } i v.toNat f := fun f hf hacc hcls => by
      rw [fieldSpec_reg hf, runs_rdata]; exact ht f hf hacc hcls
    obtain ⟨hw, hfu, hparts⟩ := putReg_taken (off := off.toNat) htaken
    refine ⟨_, he, fun f hf => ?_, hparts .rdata (by decide), fun p hp => ?_⟩
    · have hfw := (hw f hf).answered hfu
      rwa [FieldWritten, fieldSpec_reg hf] at hfw
    · have hn : p ∉ [Part.rdata] ∧ p ∉ [Part.shadows, .eng, .net] := by revert hp; cases p <;> decide
      exact (((frame_rdata s 0).2.2.1 p hn.1).trans (hparts p hn.2)).keep
  · rw [putReg_refused (s := { s with rdata := 0 }) hf hacc hcls hne ((runs_rdata s 0 r i).trans hrun)]

end Sys2Proof.Machine

namespace Sys2Proof

open Machine

/-! # Every step keeps the state canonical (O58)

One lemma for each function of the model that answers a state, under the function's name and in the order of the model's files: a
canonical state stays canonical. Its proof follows the function's own shape: `h.f.g` is a chain of calls, `.ite` a branch, `.foldl` a
fold, `.upd` an update of components other than the register file and the three memories. The last part takes the commands one by
one. -/

section

variable {α : Type}

/-! ## Rising keys and canonical memories -/

theorem Rising.sublist {l m : List (Nat × α)} (h : Rising m) (hs : l.Sublist m) : Rising l := List.Pairwise.sublist hs h

/-- A key below all keys of a rising list may stand before it. -/
theorem rising_cons {k : Nat} {v : α} {m : List (Nat × α)} : Rising ((k, v) :: m) ↔ above k m = true ∧ Rising m := by
  simp [Rising, above, List.pairwise_cons]

/-- A write keeps the keys rising. -/
theorem Rising.sset [DecidableEq α] {m : List (Nat × α)} (h : Rising m) (d : Nat → α) (k : Nat) (v : α) : Rising (sset d m k v) := by
  induction m with
  | nil => unfold Machine.sset; split <;> simp [Rising]
  | cons x t ih =>
    obtain ⟨j, w⟩ := x
    obtain ⟨ha, ht⟩ := rising_cons.1 h
    unfold Machine.sset
    split
    · next hkj =>
      split
      · exact h
      · exact rising_cons.2 ⟨(above_cons ..).2 ⟨hkj, above_trans hkj t ha⟩, h⟩
    · next hkj =>
      split
      · next he =>
        split
        · exact ht.sublist (List.dropWhile_sublist _)
        · exact rising_cons.2 ⟨he ▸ ha, ht⟩
      · exact rising_cons.2 ⟨above_sset d t j k v (by omega) ha, ih ht⟩

end

/-! ## What a function of the model is built from: branches, folds, pairs -/

/-- Only the register file and the three memories matter. -/
theorem Canonical.upd {s : State} {pending fuses pins shadows rdata outbox fresh serial time eng tt posts mesh teams insts qs sync aon yards boot}
    {power net links arr groom hitch} (h : Canonical s) :
    Canonical ⟨pending, fuses, pins, s.regs, shadows, rdata, s.host, s.depot, s.scratch, outbox, fresh, serial, time, eng, tt, posts, mesh, teams,
      insts, qs, sync, aon, yards, boot, power, net, links, arr, groom, hitch⟩ := h

theorem Canonical.ite {c : Prop} [Decidable c] {s t : State} (hs : Canonical s) (ht : Canonical t) : Canonical (if c then s else t) := by
  split
  · exact hs
  · exact ht

theorem Canonical.foldl {β : Type} {f : State → β → State} {l : List β} {s : State} (h : Canonical s)
    (hf : ∀ s x, Canonical s → Canonical (f s x)) : Canonical (l.foldl f s) := by
  induction l generalizing s with
  | nil => exact h
  | cons x l ih => exact ih (hf s x h)

/-- A fold that carries a second value along. -/
theorem Canonical.foldl_fst {β γ : Type} {f : State × γ → β → State × γ} {l : List β} {p : State × γ} (h : Canonical p.1)
    (hf : ∀ p x, Canonical p.1 → Canonical (f p x).1) : Canonical (l.foldl f p).1 := by
  induction l generalizing p with
  | nil => exact h
  | cons x l ih => exact ih (hf p x h)

/-- What a command answers, if it is a next state, is canonical. -/
def CanonicalOut (o : Out) : Prop := ∀ t, o = .next t → Canonical t

theorem CanonicalOut.next {t : State} (h : Canonical t) : CanonicalOut (.next t) := fun _ he => by cases he; exact h

theorem CanonicalOut.fault {r : Fault} : CanonicalOut (.fault r) := fun _ he => by cases he

/-! ### State -/

theorem Canonical.reset : Canonical State.reset := ⟨List.Pairwise.nil, rfl, rfl, rfl⟩

/-! ### Ops -/

theorem Canonical.setf {s : State} {f i v} (h : Canonical s) : Canonical (s.setf f i v) := by
  obtain ⟨hr, hh, hd, hs⟩ := h
  exact ⟨Rising.sset hr _ _ _, hh, hd, hs⟩

theorem Canonical.sat {s : State} {f i n} (h : Canonical s) : Canonical (s.sat f i n) := h.setf

theorem Canonical.inc {s : State} {f i n} (h : Canonical s) : Canonical (s.inc f i n) := h.setf

theorem Canonical.flag {s : State} {f i b} (h : Canonical s) : Canonical (s.flag f i b) := h.setf

theorem Canonical.setfs {s : State} {l} (h : Canonical s) : Canonical (s.setfs l) := by
  induction l generalizing s with
  | nil => exact h
  | cons x l ih => exact ih h.setf

theorem Canonical.setMtc {s : State} {u} (h : Canonical s) : Canonical (s.setMtc u) := .upd h.setf

theorem Canonical.keep {s : State} {t : State} (ht : Canonical t) : Canonical (s.keep t) := ht

theorem CanonicalOut.event {s : State} {f : State → State} (h : Canonical s) (hf : ∀ s, Canonical s → Canonical (f s)) :
    CanonicalOut (event s f) := .next (.ite (hf s h).keep h)

theorem CanonicalOut.island {s : State} {f g : State → State} (hf : Canonical (f s)) (hg : Canonical (g s)) : CanonicalOut (island s f g) :=
  .next (Canonical.ite hf hg).keep

theorem CanonicalOut.portAccess {s : State} {f : State → State} (h : Canonical s) (hf : ∀ s, Canonical s → Canonical (f s)) :
    CanonicalOut (portAccess s f) := by
  unfold Machine.portAccess
  split
  · exact .next (hf { s with rdata := 0 } h).keep
  · exact .fault

theorem Canonical.when {s : State} {c} {f : State → State} (h : Canonical s) (hf : ∀ s, Canonical s → Canonical (f s)) :
    Canonical (s.when c f) := .ite (hf s h) h

theorem Canonical.wrHost {s : State} {a bs} (h : Canonical s) : Canonical (s.wrHost a bs) := by
  obtain ⟨hr, hh, hd, hs⟩ := h
  exact ⟨hr, wf_wrBytes _ _ _ hh, hd, hs⟩

theorem Canonical.wrDepot {s : State} {a bs} (h : Canonical s) : Canonical (s.wrDepot a bs) := by
  obtain ⟨hr, hh, hd, hs⟩ := h
  exact ⟨hr, hh, wf_wrBytes _ _ _ hd, hs⟩

theorem Canonical.wrScratch {s : State} {a bs} (h : Canonical s) : Canonical (s.wrScratch a bs) := by
  obtain ⟨hr, hh, hd, hs⟩ := h
  exact ⟨hr, hh, hd, wf_wrBytes _ _ _ hs⟩

theorem Canonical.wrLocal {s : State} {a bs} (h : Canonical s) : Canonical (s.wrLocal a bs) := .ite h.wrDepot h.wrHost

theorem Canonical.emit {s : State} {o} (h : Canonical s) : Canonical (s.emit o) := h

theorem Canonical.log {s : State} {typ unit detail body} (h : Canonical s) : Canonical (s.log typ unit detail body) := by
  unfold State.log
  dsimp only
  exact .ite (.sat (.setf (.upd (.ite h (.sat (.setf h)))))) (.setf (.upd (.ite h (.sat (.setf h)))))

theorem Canonical.message {s : State} {addr data} (h : Canonical s) : Canonical (s.message addr data) := .ite h h

theorem Canonical.vector {s : State} {v} (h : Canonical s) : Canonical (s.vector v) := .ite h.setf h.message

theorem Canonical.trace {s : State} {typ payload} (h : Canonical s) : Canonical (s.trace typ payload) := .ite h.emit.inc h

theorem Canonical.setTeam {s : State} {t x} (h : Canonical s) : Canonical (s.setTeam t x) := h

theorem Canonical.setYard {s : State} {y x} (h : Canonical s) : Canonical (s.setYard y x) := h

theorem Canonical.touch {s : State} {y} (h : Canonical s) : Canonical (s.touch y) := h.setYard

theorem Canonical.setPost {s : State} {p x} (h : Canonical s) : Canonical (s.setPost p x) := .ite h (.touch h)

theorem Canonical.setLink {s : State} {l x} (h : Canonical s) : Canonical (s.setLink l x) := h

theorem Canonical.setQp {s : State} {q x} (h : Canonical s) : Canonical (s.setQp q x) := h

theorem Canonical.setSub {s : State} {l t x} (h : Canonical s) : Canonical (s.setSub l t x) := h

theorem Canonical.setBar {s : State} {t x} (h : Canonical s) : Canonical (s.setBar t x) := h

/-! ### Clock -/

theorem Canonical.refEdge {s : State} (h : Canonical s) : Canonical (Machine.refEdge s) := .upd h.setf

/-! ### Segments -/

theorem Canonical.updInst {s : State} {p f} (h : Canonical s) : Canonical (s.updInst p f) := h

theorem Canonical.clearRec {s : State} {t n} (h : Canonical s) : Canonical (s.clearRec t n) := .foldl h fun _ _ h => .ite h.setPost h

theorem Canonical.dropInsts {s : State} {p} (h : Canonical s) : Canonical (s.dropInsts p) := .upd (.foldl h fun _ _ h => h.clearRec)

theorem Canonical.nextSeg {s : State} {p} (h : Canonical s) : Canonical (s.nextSeg p) := by
  unfold State.nextSeg
  dsimp only
  split
  · exact h.setPost
  · exact .upd h.setPost

theorem Canonical.endSegs {s : State} {t} (h : Canonical s) : Canonical (s.endSegs t) := .foldl h fun _ _ h => h.nextSeg

theorem Canonical.emptyBoxes {s : State} {t} (h : Canonical s) : Canonical (s.emptyBoxes t) := h

/-! ### PostAlu -/

theorem Canonical.postRun {s : State} {p i} {f : State → Post → State} (h : Canonical s) (hf : ∀ s x, Canonical s → Canonical (f s x)) :
    Canonical (s.postRun p i f) := .ite (hf _ _ h) h

theorem Canonical.postOnly {s : State} {p i f} (h : Canonical s) : Canonical (s.postOnly p i f) := h.postRun fun _ _ h => h.setPost

theorem Canonical.alu {s : State} {p i d a b f} (h : Canonical s) : Canonical (Machine.alu p i d a b f s) := h.postOnly

/-! ### NetOps -/

theorem Canonical.useSlot {s : State} {l t} (h : Canonical s) : Canonical (s.useSlot l t) := h

theorem Canonical.flushUnits {s : State} {l t} (h : Canonical s) : Canonical (s.flushUnits l t) := .foldl h fun _ _ h => h.emit

theorem Canonical.unit {s : State} {l t k fields} (h : Canonical s) : Canonical (s.unit l t k fields) :=
  .ite h.flushUnits.emit (.ite h.useSlot.emit h)

theorem Canonical.haltAll {s : State} {except slot gen reason ep} (h : Canonical s) : Canonical (s.haltAll except slot gen reason ep) :=
  .foldl h fun _ _ h => .ite h.unit h

theorem Canonical.noteHalt {s : State} {t gen ep} (h : Canonical s) : Canonical (s.noteHalt t gen ep) := h

theorem Canonical.haltTeam {s : State} {t reason} (h : Canonical s) : Canonical (s.haltTeam t reason) := h.haltAll.noteHalt

theorem Canonical.haltLink {s : State} {l reason} (h : Canonical s) : Canonical (s.haltLink l reason) := .ite (.foldl h fun _ _ h => h.unit) h

theorem Canonical.setWin {s : State} {w} (h : Canonical s) : Canonical (s.setWin w) := .ite h (.setf h)

theorem Canonical.openWin {s s1 : State} {ep tenant team w} (h : Canonical s) (he : s.openWin ep tenant team = some (s1, w)) : Canonical s1 := by
  unfold State.openWin at he
  split at he
  · cases he; exact h
  · split at he
    · cases he
    · cases he; exact .setWin h

theorem Canonical.takeCredit {s s1 : State} {ep tenant team w} (h : Canonical s)
    (he : s.takeCredit ep tenant team = some (s1, w)) : Canonical s1 := by
  unfold State.takeCredit at he
  split at he
  · cases he
  · next ho =>
    split at he
    · cases he
    · cases he; exact (h.openWin ho).setWin

theorem Canonical.giveCredit {s : State} {ep tenant team n} (h : Canonical s) : Canonical (s.giveCredit ep tenant team n) := by
  unfold State.giveCredit
  split
  · exact h
  · exact h.setWin

theorem Canonical.queueRein {s : State} {r0} (h : Canonical s) : Canonical (s.queueRein r0) := .ite h (.ite h h)

theorem Canonical.sendRein {s : State} {r} (h : Canonical s) : Canonical (s.sendRein r) := .foldl h fun _ _ h => h.queueRein

theorem Canonical.reinFor {s : State} {c blocked} (h : Canonical s) : Canonical (s.reinFor c blocked) := h.sendRein

theorem Canonical.setRxGen {s : State} {src tenant g} (h : Canonical s) : Canonical (s.setRxGen src tenant g) := h.setf

theorem Canonical.undoze {s : State} (h : Canonical s) : Canonical s.undoze := .ite h.setf h

theorem Canonical.refuse {s : State} {l c} (h : Canonical s) : Canonical (s.refuse l c) :=
  .ite (.reinFor (.ite h.sat.sat h.sat)) (.ite h.sat.sat h.sat)

theorem Canonical.touchFor {s : State} {c} (h : Canonical s) : Canonical (s.touchFor c) := .foldl h fun _ _ h => h.touch

theorem Canonical.receiveAt {s : State} {c port id} (h : Canonical s) : Canonical (s.receiveAt c port id) := by
  unfold State.receiveAt
  dsimp only
  split
  · exact .sat (.ite h.undoze h)
  · exact .sat (.ite h.undoze h)
  · exact .sat (.sat (.ite h.undoze h))
  · exact .refuse (.ite h.undoze h)
  · exact .sat (.ite h.undoze h)
  · exact .touchFor (.upd (.ite (.setRxGen (.ite h.undoze h)) (.ite h.undoze h)))

theorem Canonical.peak {s : State} {p} (h : Canonical s) : Canonical (s.peak p) := h

theorem Canonical.enqueue {s : State} {l port adv c} (h : Canonical s) : Canonical (s.enqueue l port adv c) := .peak h

theorem Canonical.inject {s : State} {c0 port0 inAxis0} (h : Canonical s) : Canonical (s.inject c0 port0 inAxis0) := by
  unfold State.inject
  dsimp only
  refine .ite (.ite h.sat h.enqueue) ?_
  split
  · exact h.enqueue
  · exact .receiveAt h
  · exact h.sat

theorem Canonical.owe {s : State} {ep tenant team seq q id} (h : Canonical s) : Canonical (s.owe ep tenant team seq q id) := by
  unfold State.owe
  split
  · exact h.setWin
  · exact h

theorem Canonical.unowe {s : State} {ep tenant team seq} (h : Canonical s) : Canonical (s.unowe ep tenant team seq) := by
  unfold State.unowe
  split
  · exact h.setWin
  · exact h

theorem Canonical.queueTraffic {s : State} {q} (h : Canonical s) : Canonical (s.queueTraffic q) := .ite h h.setQp

theorem Canonical.winTraffic {s : State} {c} (h : Canonical s) : Canonical (s.winTraffic c) := by
  unfold State.winTraffic
  split
  · exact h
  · dsimp only
    split
    · exact h.setWin.queueTraffic
    · exact h.setWin

theorem Canonical.uncredit {s : State} {o} (h : Canonical s) : Canonical (s.uncredit o) := by
  unfold State.uncredit
  split
  · exact h.setWin
  · exact h

theorem Canonical.freeReinStalls {s : State} (h : Canonical s) : Canonical s.freeReinStalls := h

theorem Canonical.sendCredited {s : State} {w} (h : Canonical s) : Canonical (s.sendCredited w) := by
  unfold State.sendCredited
  split
  · next ht => exact (h.takeCredit ht).owe.inject
  · exact h

theorem Canonical.pumpWaiting {s : State} (h : Canonical s) : Canonical s.pumpWaiting := .foldl h fun _ _ h => h.sendCredited

theorem Canonical.cancelOut {s : State} {p} (h : Canonical s) : Canonical (s.cancelOut p) := by
  unfold State.cancelOut
  extract_lets _ _ s1
  have h1 : Canonical s1 := .foldl h fun _ _ h => h.uncredit
  exact .ite h1.freeReinStalls.pumpWaiting h1

/-! ### Faults -/

theorem Canonical.finishWith {s : State} {d} (h : Canonical s) : Canonical (s.finishWith d) := h

theorem Canonical.finish {s : State} {q id op status result} (h : Canonical s) : Canonical (s.finish q id op status result) := h.finishWith

theorem Canonical.finishCmd {s : State} {c status result} (h : Canonical s) : Canonical (s.finishCmd c status result) := h.finish

theorem Canonical.finishInst {s : State} {i status result} (h : Canonical s) : Canonical (s.finishInst i status result) := by
  unfold State.finishInst
  split
  · exact .ite h.finishWith h
  · exact h

theorem Canonical.fltVector {s : State} (h : Canonical s) : Canonical s.fltVector := .ite h.vector h

theorem Canonical.first {s : State} {b} (h : Canonical s) : Canonical (s.first b) := .ite h (.ite h.setf h.setfs)

theorem Canonical.latch {s : State} {b o detail} (h : Canonical s) : Canonical (s.latch b o detail) := by
  unfold State.latch
  refine .ite h (.ite h.log.sat ?_)
  exact .ite h (.ite h.setf.log.first.trace h.setf.log.first.trace.fltVector)

theorem Canonical.clearBar {s : State} {t} (h : Canonical s) : Canonical (s.clearBar t) := .ite h h.setBar.setf

theorem Canonical.epochUnknown {s : State} {i} (h : Canonical s) : Canonical (s.epochUnknown i) := .ite h.setfs h

theorem Canonical.freeRecs {s : State} {t} (h : Canonical s) : Canonical (s.freeRecs t) := .foldl h fun _ _ h => .ite h h.setPost

theorem Canonical.abortCore {s : State} {t status} (h : Canonical s) : Canonical (s.abortCore t status) := by
  unfold State.abortCore
  dsimp only
  refine .upd (.dropInsts ?_)
  split
  · exact .foldl (.cancelOut (.upd h.setf.endSegs.emptyBoxes.freeRecs.clearBar)) fun _ _ h => h.epochUnknown
  · exact .foldl (.foldl (.foldl (.cancelOut
      (.upd h.setf.endSegs.emptyBoxes.freeRecs.clearBar)) fun _ _ h => h.epochUnknown) fun _ _ h => h.finishInst) fun _ _ h => h.finishCmd

theorem Canonical.sourceUpdate {s : State} (h : Canonical s) : Canonical s.sourceUpdate := by
  unfold State.sourceUpdate
  dsimp only
  exact .ite (.setf (.ite h (.upd h.setf))) (.ite (.setf (.ite h (.upd h.setf))) (.ite h (.upd h.setf)))

theorem Canonical.prbsTurn {s : State} {l st} (h : Canonical s) : Canonical (s.prbsTurn l st) := by
  unfold State.prbsTurn
  extract_lets _ s1
  have h1 : Canonical s1 := .ite (.setLink (.foldl h fun _ _ h => h.setf)) h
  exact .ite h1.emit h1

theorem Canonical.setLinkSt {s : State} {l st} (h : Canonical s) : Canonical (s.setLinkSt l st) := .ite h h.prbsTurn.trace.setf.setLink

theorem Canonical.mirInvalid0 {s : State} (h : Canonical s) : Canonical s.mirInvalid0 := .foldl h fun _ _ h => .ite h.setf.latch h

theorem Canonical.midChange {s : State} {l} (h : Canonical s) : Canonical (s.midChange l) := .ite h h

theorem Canonical.loseMirror {s : State} {es} (h : Canonical s) : Canonical (s.loseMirror es) := .ite h (.upd h.sat)

theorem Canonical.loseUnsent {s : State} {os} (h : Canonical s) : Canonical (s.loseUnsent os) := .ite h (.upd h.sat)

theorem Canonical.reroute {s : State} {l} (h : Canonical s) : Canonical (s.reroute l) := .foldl h fun _ _ h => h.inject

theorem Canonical.loseMove {s : State} {c} (h : Canonical s) : Canonical (s.loseMove c) := .ite h.updInst h

theorem Canonical.loseRetry {s : State} {l es} (h : Canonical s) : Canonical (s.loseRetry l es) := .foldl h fun _ _ h => h.loseMove.sat.latch

theorem Canonical.leave0 {s : State} {l st} (h : Canonical s) : Canonical (s.leave0 l st) := by
  unfold State.leave0
  extract_lets _ _ _ s2 s3 s5 _ _ s7 s4
  have h2 : Canonical s2 := .setLink (.setLinkSt (.ite h.sat.midChange h))
  have h3 : Canonical s3 := .ite h2 h2.setfs
  have h5 : Canonical s5 := .foldl h3 fun _ _ h => h.loseMirror.loseRetry.setSub
  have h7 : Canonical s7 := .setf (.loseUnsent (.upd h5))
  have h4 : Canonical s4 := .ite (.ite h7.mirInvalid0 h7) h3
  exact .ite h4.reroute.sourceUpdate h4

theorem Canonical.abortBound {s : State} (h : Canonical s) : Canonical s.abortBound := .dropInsts (.foldl h fun _ _ h => h.finishCmd)

theorem Canonical.timeStep {s : State} {m} (h : Canonical s) : Canonical (s.timeStep m) := .upd (.log (.sat (.upd h.setMtc)))

theorem Canonical.corrected {s : State} (h : Canonical s) : Canonical s.corrected := .flag (.setfs h)

theorem Canonical.correctStep {s : State} {m} (h : Canonical s) : Canonical (s.correctStep m) :=
  .ite (.corrected (.upd h.timeStep.setfs)) (.upd h.timeStep.setfs)

theorem Canonical.doWaitStep {s : State} (h : Canonical s) : Canonical s.doWaitStep := by
  unfold State.doWaitStep
  split
  · exact .ite h.correctStep h
  · exact h

theorem Canonical.stopEngine {s : State} (h : Canonical s) : Canonical s.stopEngine := .ite h (.doWaitStep (.abortBound (.upd h.setf.setf)))

theorem Canonical.lasersOff {s : State} {l every} (h : Canonical s) : Canonical (s.lasersOff l every) := h.setf.setLink.emit

theorem Canonical.safeEnter {s : State} (h : Canonical s) : Canonical s.safeEnter := by
  unfold State.safeEnter
  refine .ite h ?_
  extract_lets _ _ _ _ _ s2 _ s4 s5 s6
  have h2 : Canonical s2 := .foldl (.doWaitStep (.upd h.setf.setf)) fun _ _ h => h.abortCore
  have h4 : Canonical s4 := .foldl h2.setf.log fun _ _ h => h.haltTeam
  have h5 : Canonical s5 := .foldl h4 fun _ _ h => h.haltLink
  have h6 : Canonical s6 := .foldl h5 fun _ _ h => .lasersOff (.ite h h.leave0)
  exact .ite h6.latch h6

theorem Canonical.fault {s : State} {b o detail} (h : Canonical s) : Canonical (s.fault b o detail) := .ite h.latch.safeEnter h.latch

theorem Canonical.react {s : State} {t : State} {bs} (ht : Canonical t) : Canonical (s.react t bs) := .ite ht.safeEnter ht

theorem Canonical.leave {s : State} {l st} (h : Canonical s) : Canonical (s.leave l st) := h.leave0.react

theorem Canonical.mirInvalid {s : State} (h : Canonical s) : Canonical s.mirInvalid := h.mirInvalid0.react

theorem Canonical.cfgIgnored {s : State} {off} (h : Canonical s) : Canonical (s.cfgIgnored off) := h.log.fault

theorem Canonical.dropTeamCmds {s : State} {t status} (h : Canonical s) : Canonical (s.dropTeamCmds t status) :=
  .dropInsts (.foldl (.foldl h fun _ _ h => h.finishCmd) fun _ _ h => h.finish)

theorem Canonical.retireNow {s0 : State} {t q id} (h0 : Canonical s0) : Canonical (s0.retireNow t q id) := h0.dropTeamCmds.setf.setTeam.finish

theorem Canonical.retireCheck {s : State} {t} (h : Canonical s) : Canonical (s.retireCheck t) := by
  unfold State.retireCheck
  refine .ite h ?_
  split
  · exact h.retireNow
  · exact h

theorem Canonical.abortTeam {s : State} {t status} (h : Canonical s) : Canonical (s.abortTeam t status) :=
  .ite h (.ite h.abortCore.retireCheck.fault h.abortCore.retireCheck)

theorem Canonical.abortWithHalt {s : State} {t reason} (h : Canonical s) : Canonical (s.abortWithHalt t reason) := .ite h h.haltTeam.abortTeam

theorem Canonical.postFault {s : State} {p cause} (h : Canonical s) : Canonical (s.postFault p cause) := by
  unfold State.postFault
  dsimp only
  split
  · exact h.sat.setfs.fault.abortWithHalt
  · exact h.sat.setfs.fault

theorem Canonical.shadow {s : State} {d len} (h : Canonical s) : Canonical (s.shadow d len) := h

/-! ### SyncOps -/

theorem Canonical.wake {s : State} {n} (h : Canonical s) : Canonical (s.wake n) := .foldl h fun _ _ h => h.emit

theorem Canonical.setObj {s : State} {n v op} (h : Canonical s) : Canonical (s.setObj n v op) := h.setf.wake.trace

theorem Canonical.misuse {s : State} {cause obj ep} (h : Canonical s) : Canonical (s.misuse cause obj ep) := h.sat.setfs.log.fault

theorem Canonical.groomSignal {s : State} {n} (h : Canonical s) : Canonical (s.groomSignal n) := by
  unfold State.groomSignal
  split
  · exact h
  · exact h

theorem Canonical.objAdd {s : State} {n k} (h : Canonical s) : Canonical (s.objAdd n k) := .groomSignal (.ite h.setObj h.setObj.setf.misuse)

theorem Canonical.sendBar {s : State} {t a r phase sense absent} (h : Canonical s) : Canonical (s.sendBar t a r phase sense absent) := by
  unfold State.sendBar
  split
  · exact h
  · exact h.sendCredited

theorem Canonical.barDone {s : State} {t absent} (h : Canonical s) : Canonical (s.barDone t absent) := .upd (.foldl h fun _ _ h => h.finishInst)

theorem Canonical.onRelease {s : State} {t lv sense absent} (h : Canonical s) : Canonical (s.onRelease t lv sense absent) :=
  .barDone (.foldl h.flag.setObj.setBar fun _ _ h => h.sendBar)

theorem Canonical.onArrive {s : State} {t l sense absent} (h : Canonical s) : Canonical (s.onArrive t l sense absent) := by
  induction l generalizing s sense absent with
  | nil => exact h
  | cons a rest ih =>
    unfold State.onArrive
    refine .ite h.misuse (.ite h.setBar (.ite ?_ h.setBar.sendBar))
    split
    · exact h.setBar.onRelease
    · exact ih h.setBar

theorem Canonical.treeArrive {s : State} {t absent} (h : Canonical s) : Canonical (s.treeArrive t absent) := .ite h.setBar h.setBar.onArrive

theorem Canonical.heldArrive {s : State} {t} (h : Canonical s) : Canonical (s.heldArrive t) := by
  unfold State.heldArrive
  split
  · exact .ite h h.setBar.treeArrive
  · exact h

theorem Canonical.localArrive {s : State} {n absent} (h : Canonical s) : Canonical (s.localArrive n absent) :=
  .ite h.setBar.setObj h.setBar.setObj.treeArrive.heldArrive

theorem Canonical.localAdd {s : State} {n k} (h : Canonical s) : Canonical (s.localAdd n k) := .ite h.localArrive h.objAdd

/-! ### PostControl -/

theorem Canonical.jumpTo {s : State} {p x t} (h : Canonical s) : Canonical (s.jumpTo p x t) := .ite h.setPost h.postFault

theorem Canonical.branch {s : State} {p x c imm} (h : Canonical s) : Canonical (s.branch p x c imm) := .ite h.jumpTo h.setPost

theorem Canonical.endSeg {s : State} {p} (h : Canonical s) : Canonical (s.endSeg p) := by
  unfold State.endSeg
  dsimp only
  split
  · exact h
  · exact h.setPost.nextSeg

theorem Canonical.tagDone {s : State} {p tag serial} (h : Canonical s) : Canonical (s.tagDone p tag serial) := by
  unfold State.tagDone
  dsimp only
  refine .ite ?_ h
  split
  · exact h.setPost
  · exact h.setPost
  · exact .ite h.setPost.endSeg h.setPost
  · exact h.setPost

/-! ### QueueOps -/

theorem Canonical.invalid {s : State} {q e r d} (h : Canonical s) : Canonical (s.invalid q e r d) := h.finish

theorem Canonical.startCmd {s : State} {q op e fs onPair} {f : State → Fetched → State} (h : Canonical s)
    (hf : ∀ s ft, Canonical s → Canonical (f s ft)) : Canonical (s.startCmd q op e fs onPair f) := by
  unfold State.startCmd
  split
  · exact h
  · refine .ite h.finish ?_
    split
    · exact h.invalid
    · refine .ite h.invalid ?_
      split
      · exact .ite h.sat.finish (hf _ _ h)
      · exact hf _ _ h

theorem Canonical.adopt {s : State} {ft ph} (h : Canonical s) : Canonical (s.adopt ft ph) := h

theorem Canonical.adminCmd {s : State} {q op e fs bad} {eff : State → Fetched → State} (h : Canonical s)
    (hf : ∀ s ft, Canonical s → Canonical (eff s ft)) : Canonical (s.adminCmd q op e fs bad eff) := by
  refine h.startCmd fun _ _ h => ?_
  split
  · exact h.invalid
  · exact hf _ _ h

theorem Canonical.wrPieces {s : State} {l bs} (h : Canonical s) : Canonical (s.wrPieces l bs) := by
  induction l generalizing s bs with
  | nil => exact h
  | cons x l ih => exact ih h.wrLocal

theorem Canonical.shadowAt {s : State} {at_ f i v} (h : Canonical s) : Canonical (s.shadowAt at_ f i v) := h

/-! ### QueueAdmin -/

theorem Canonical.createSq {s : State} {e} (h : Canonical s) : Canonical (Machine.createSq e s) := h.setfs.setQp

theorem Canonical.createCq {s : State} {e} (h : Canonical s) : Canonical (Machine.createCq e s) := h.setfs.setQp

theorem Canonical.cancelCmds {s : State} {p} (h : Canonical s) : Canonical (s.cancelCmds p) := by
  unfold State.cancelCmds
  refine .foldl h fun _ _ h => ?_
  split
  · exact h.cancelOut
  · exact h.cancelOut
  · exact h

theorem Canonical.unbind {s : State} {p} (h : Canonical s) : Canonical (s.unbind p) := h.dropInsts

theorem Canonical.destroySq {s : State} {e} (h : Canonical s) : Canonical (Machine.destroySq e s) :=
  .setf (.unbind (.foldl (.foldl h.setf.cancelCmds fun _ _ h => h.finishCmd) fun _ _ h => h.finish))

theorem Canonical.destroyed {s : State} {p} (h : Canonical s) : Canonical (s.destroyed p) := h.setQp

/-! ### TeamAdmin -/

theorem Canonical.defineTeam {s : State} {e} (h : Canonical s) : Canonical (Machine.defineTeam e s) := h.setfs.setYard.setTeam

theorem Canonical.shrink {s : State} {e y z} (h : Canonical s) : Canonical (Machine.shrink e y s z) := .ite (.ite h.setf h.setf) h

theorem Canonical.setTenant {s : State} {e} (h : Canonical s) : Canonical (Machine.setTenant e s) :=
  .setf (.setf (.foldl (.ite (.setfs (.foldl h fun _ _ h => h.shrink)) (.foldl h fun _ _ h => h.shrink)) fun _ _ h => h.setf))

theorem Canonical.allocObj {s : State} {kind team prm n} (h : Canonical s) : Canonical (Machine.allocObj kind team prm s n) := h.setfs

theorem Canonical.allocSync {s : State} {e f} (h : Canonical s) : Canonical (Machine.allocSync e f s) := by
  unfold Machine.allocSync
  extract_lets _ _ s1 _
  have h1 : Canonical s1 := .foldl h fun _ _ h => h.allocObj
  exact .ite h1.setfs.setBar (.ite h1 h1)

theorem Canonical.freeObj {s : State} {n} (h : Canonical s) : Canonical (Machine.freeObj s n) := .ite h.setf.setfs.setBar (.upd h.setf)

/-! ### Timetable -/

theorem Canonical.loadPrograms {s : State} {v} (h : Canonical s) : Canonical (s.loadPrograms v) := by
  unfold State.loadPrograms
  refine .foldl h fun _ _ h => ?_
  split
  · exact h
  · exact h.setPost

theorem Canonical.selectVariant {s : State} {force} (h : Canonical s) : Canonical (s.selectVariant force) := by
  unfold State.selectVariant
  split
  · exact h
  · dsimp only
    split
    · exact .setfs h
    · exact .ite (.loadPrograms (.setfs h)) (.setfs h)

theorem Canonical.dropSwap {s : State} (h : Canonical s) : Canonical s.dropSwap := by
  unfold State.dropSwap
  split
  · exact .finish (.setfs h)
  · exact h

theorem Canonical.startLoad {s : State} {q e atMtc} (h : Canonical s) : Canonical (s.startLoad q e atMtc) :=
  .ite h (h.startCmd fun _ _ h => .upd h.dropSwap.adopt.setf)

theorem Canonical.loadOther {s : State} {q e} (h : Canonical s) : Canonical (s.loadOther q e) := .ite (h.startCmd fun _ _ h => h.invalid) h

theorem Canonical.imageChecked {s : State} {ld} (h : Canonical s) : Canonical (s.imageChecked ld) := by
  unfold State.imageChecked
  dsimp only
  split
  · exact .finish h
  · refine .ite (.ite (.upd (.setf h)) (.finish (.setf h))) ?_
    exact .ite (.finish (.setf h)) (.ite (.finish (.setf h)) (.setfs (.upd (.setf h))))

theorem Canonical.restartCounts {s : State} {x} (h : Canonical s) : Canonical (s.restartCounts x) := h.setf.setTeam

theorem Canonical.takeImage {s : State} {im} (h : Canonical s) : Canonical (s.takeImage im) :=
  .selectVariant (.setfs (.upd (.foldl h.abortBound fun _ _ h => h.restartCounts)))

theorem Canonical.doSwap {s : State} {r} (h : Canonical s) : Canonical (s.doSwap r) := by
  unfold State.doSwap
  dsimp only
  split
  · exact .finish (.setfs h)
  · exact .ite (.finish (.setfs h)) (.finish (.ite (.setf (.takeImage (.setfs h))) (.takeImage (.setfs h))))

/-! ### WorkChecks -/

theorem Canonical.bind {s : State} {ft t} (h : Canonical s) : Canonical (s.bind ft t) := by
  unfold State.bind
  dsimp only
  split
  · exact h.setTeam.finish
  · exact h

theorem Canonical.renumber {s : State} {t} (h : Canonical s) : Canonical (s.renumber t) := by
  unfold State.renumber
  dsimp only
  refine .foldl h fun _ _ h => ?_
  split
  · exact .ite h (.upd h.clearRec.updInst)
  · exact h

theorem Canonical.teamCmd {s : State} {q op e fs bad} (h : Canonical s) : Canonical (s.teamCmd q op e fs bad) := by
  unfold State.teamCmd
  refine h.startCmd fun _ _ h => ?_
  split
  · exact h.invalid
  · refine .ite h.finish ?_
    split
    · exact h.invalid
    · exact h.bind

/-! ### Operands -/

theorem Canonical.wrScr {s : State} {y o b} (h : Canonical s) : Canonical (s.wrScr y o b) := .upd h.wrScratch

theorem Canonical.dropRx {s : State} {row a} (h : Canonical s) : Canonical (s.dropRx row a) := h

theorem Canonical.putRx {s : State} {row a b} (h : Canonical s) : Canonical (s.putRx row a b) := h

theorem Canonical.putTx {s : State} {row a b op} (h : Canonical s) : Canonical (s.putTx row a b op) := h

theorem Canonical.dropStream {s : State} {row col tag} (h : Canonical s) : Canonical (s.dropStream row col tag) := h

theorem Canonical.updTag {s : State} {p tag serial f} (h : Canonical s) : Canonical (s.updTag p tag serial f) := h.setPost

theorem Canonical.updInstOf {s : State} {p f} (h : Canonical s) : Canonical (s.updInstOf p f) := by
  unfold State.updInstOf
  dsimp only
  split
  · exact h.updInst
  · exact h

theorem Canonical.noteWithheld {s : State} {i o m} (h : Canonical s) : Canonical (s.noteWithheld i o m) := h.updInst

theorem Canonical.issueReq {s : State} {r} (h : Canonical s) : Canonical (s.issueReq r) := .emit (.setYard h)

theorem Canonical.groomWrote {s : State} {job} (h : Canonical s) : Canonical (s.groomWrote job) := by
  unfold State.groomWrote
  split
  · exact .ite h h
  · exact h

theorem Canonical.issueFor {s : State} {r} (h : Canonical s) : Canonical (s.issueFor r) := by
  unfold State.issueFor
  split
  · exact .ite h.issueReq.groomWrote h.issueReq
  · exact h.issueReq

theorem Canonical.pumpHitch {s : State} (h : Canonical s) : Canonical s.pumpHitch := .foldl h fun _ _ h => .ite h.issueFor h

theorem Canonical.hitchAdd {s : State} {rs} (h : Canonical s) : Canonical (s.hitchAdd rs) := .pumpHitch h

theorem Canonical.depotAdd {s : State} {rs} (h : Canonical s) : Canonical (s.depotAdd rs) := h

theorem Canonical.noteGranules {s : State} {i a b} (h : Canonical s) : Canonical (s.noteGranules i a b) := by
  unfold State.noteGranules
  split
  · exact h
  · refine .foldl h fun _ _ h => .ite ?_ h
    split
    · exact h.noteWithheld
    · exact h

theorem Canonical.writeRun {s : State} {p t i bytes run} (h : Canonical s) : Canonical (s.writeRun p t i bytes run) := by
  unfold State.writeRun
  dsimp only
  split
  · exact h.updInstOf.depotAdd.updTag
  · exact .ite h.depotAdd.updTag (.hitchAdd (.ite h.updTag.updInstOf h.updTag))

theorem Canonical.issueWrite {s : State} {p t b} (h : Canonical s) : Canonical (s.issueWrite p t b) := by
  unfold State.issueWrite
  extract_lets _ _ _ _ s2
  have h2 : Canonical s2 := .foldl h.updTag.noteGranules fun _ _ h => h.writeRun
  exact .ite h2.tagDone h2

theorem Canonical.pumpPostWrites {s : State} {p} (h : Canonical s) : Canonical (s.pumpPostWrites p) := by
  unfold State.pumpPostWrites
  refine .foldl h fun _ _ h => ?_
  split
  · exact .ite h.issueWrite h
  · exact h

theorem Canonical.pumpWrites {s : State} (h : Canonical s) : Canonical s.pumpWrites := .foldl h fun _ _ h => h.pumpPostWrites.pumpPostWrites

/-! ### PostData -/

theorem Canonical.dataOp {s : State} {p i a imm own} {f : State → Post → List Byte → Nat → State} (h : Canonical s)
    (hf : ∀ s x bs tag, Canonical s → Canonical (f s x bs tag)) :
    Canonical (s.dataOp p i a imm own f) :=
  h.postRun fun _ _ h => .ite h.postFault (.ite h.postFault (.ite h.setPost (hf _ _ _ _ h)))

theorem Canonical.takeTag {s : State} {p x t} (h : Canonical s) : Canonical (s.takeTag p x t) := .upd h.setPost

theorem Canonical.loseMirXmit {s : State} {p t} (h : Canonical s) : Canonical (s.loseMirXmit p t) := .tagDone (.upd h.sat)

theorem Canonical.tryRecv {s : State} {p t} (h : Canonical s) : Canonical (s.tryRecv p t) := by
  unfold State.tryRecv
  split
  · exact h
  · exact .tagDone h

theorem Canonical.streamReady {s : State} {p t b} (h : Canonical s) : Canonical (s.streamReady p t b) := by
  unfold State.streamReady
  split
  · exact .tagDone h
  · exact .tagDone h

theorem Canonical.readOp {s : State} {p x t} (h : Canonical s) : Canonical (s.readOp p x t) := by
  unfold State.readOp
  dsimp only
  refine .ite h.takeTag.dropStream.streamReady (.ite h.takeTag.dropStream.streamReady ?_)
  exact .ite h.takeTag.dropStream.updTag.depotAdd h.takeTag.dropStream.updTag.hitchAdd

theorem Canonical.issueAop {s : State} {p x bs o} (h : Canonical s) : Canonical (s.issueAop p x bs o) :=
  .foldl (.upd h.takeTag.updInst) fun _ _ h => h.setf

/-! ### ArrayEvents -/

theorem Canonical.eatStreams {s : State} {o} (h : Canonical s) : Canonical (s.eatStreams o) :=
  .foldl h fun _ _ h => .ite h.dropStream (.ite h.dropStream h)

theorem Canonical.arrStart {s : State} (h : Canonical s) : Canonical s.arrStart := by
  unfold State.arrStart
  split
  · exact .ite h (.trace (.ite (.eatStreams h) h))
  · exact h

theorem Canonical.scrEcc {s : State} {r} (h : Canonical s) : Canonical (s.scrEcc r) := by
  unfold State.scrEcc
  split
  · exact h
  · exact h.fault
  · exact h.fault
  · exact .fault h

theorem Canonical.countRes {s : State} {o r} (h : Canonical s) : Canonical (s.countRes o r) := h.updInst

theorem Canonical.fillSink {s : State} {o col b} (h : Canonical s) : Canonical (s.fillSink o col b) := by
  unfold State.fillSink
  dsimp only
  split
  · exact h.updTag.pumpPostWrites
  · exact h

theorem Canonical.storeRes {s : State} {o b} (h : Canonical s) : Canonical (s.storeRes o b) := by
  unfold State.storeRes
  split
  · exact h.wrScr
  · exact h.putTx
  · exact h.fillSink
  · exact h.fillSink
  · exact h

theorem Canonical.arrDone {s : State} {parity} (h : Canonical s) : Canonical (s.arrDone parity) := by
  unfold State.arrDone
  split
  · exact h
  · refine .ite h ?_
    extract_lets _ _ _ _ _ s1 _ _ _
    have h1 : Canonical s1 := .inc (.upd (.ite h.fault h))
    exact .ite h1 (.tagDone (.storeRes (.ite h1.countRes h1)))

theorem Canonical.mapBlobs {s : State} {f} (h : Canonical s) : Canonical (s.mapBlobs f) := h

theorem Canonical.spliceScr {s : State} {p src} (h : Canonical s) : Canonical (s.spliceScr p src) := .foldl h fun _ _ h => .ite h.wrScratch h

theorem Canonical.spliceAll {s : State} {p src} (h : Canonical s) : Canonical (s.spliceAll p src) := h.mapBlobs.spliceScr

theorem Canonical.reexec {s : State} {serial} (h : Canonical s) : Canonical (s.reexec serial) := by
  unfold State.reexec
  split
  · exact h
  · exact .upd h.spliceAll

theorem Canonical.refresh {s : State} {id b} (h : Canonical s) : Canonical (s.refresh id b) := .foldl h.spliceAll fun _ _ h => h.reexec

theorem Canonical.stale {s : State} {id} (h : Canonical s) : Canonical (s.stale id) := by
  unfold State.stale
  dsimp only
  refine .upd (.foldl h fun _ _ h => ?_)
  split
  · exact h
  · exact .foldl h fun _ _ h => .ite h.wrScratch h

theorem Canonical.dropKept {s : State} (h : Canonical s) : Canonical s.dropKept := .upd (.foldl h fun _ _ h => h.countRes)

theorem Canonical.settleMarks {s : State} {id} (h : Canonical s) : Canonical (s.settleMarks id) := .pumpWrites (.dropKept h)

theorem Canonical.governor {s : State} (h : Canonical s) : Canonical s.governor := .ite h (.ite (.sat h) (.ite h h))

/-! ### GroomEvents -/

theorem Canonical.setJob {s : State} {j} (h : Canonical s) : Canonical (s.setJob j) := h

theorem Canonical.jobInst {s : State} {j f} (h : Canonical s) : Canonical (s.jobInst j f) := h.updInst

theorem Canonical.groomRead {s : State} {j part a n} (h : Canonical s) : Canonical (s.groomRead j part a n).1 := by
  unfold State.groomRead
  split
  · exact h
  · split
    · exact h.depotAdd
    · exact h.hitchAdd

theorem Canonical.groomReads {s : State} {j xs} (h : Canonical s) : Canonical (s.groomReads j xs) :=
  (foldl_fst (p := (s.setJob j, j)) h.setJob fun _ _ h => h.groomRead).setJob

theorem Canonical.groomWrite {s : State} {w} (h : Canonical s) : Canonical (s.groomWrite w) := by
  unfold State.groomWrite
  split
  · exact h
  · exact .ite h.setJob.depotAdd.groomWrote h.setJob.hitchAdd

theorem Canonical.groomAck {s : State} {id} (h : Canonical s) : Canonical (s.groomAck id) := by
  unfold State.groomAck
  split
  · exact .ite h.setJob h
  · exact h

theorem Canonical.groomBegun {s : State} {id part} (h : Canonical s) : Canonical (s.groomBegun id part) := by
  unfold State.groomBegun
  split
  · exact .ite h.setJob h
  · exact h

theorem Canonical.stageMirror {s : State} {r epoch bs} (h : Canonical s) : Canonical (s.stageMirror r epoch bs) :=
  .upd (.inc (.wrScr (.ite h (.upd h.setfs))))

theorem Canonical.mirrorJob {s : State} {j} (h : Canonical s) : Canonical (s.mirrorJob j) := by
  unfold State.mirrorJob
  refine .ite h ?_
  split
  · exact h
  · exact h.stageMirror

theorem Canonical.takeMirArea {s : State} {j} (h : Canonical s) : Canonical (s.takeMirArea j) := .jobInst h

theorem Canonical.nextUpd {s : State} {j} (h : Canonical s) : Canonical (s.nextUpd j) := .ite h.mirrorJob.setJob (.groomReads h)

theorem Canonical.groomSkip {s : State} {j st} (h : Canonical s) : Canonical (s.groomSkip j st) :=
  .ite h.jobInst.setJob.sat (.ite h.jobInst.setJob.sat h.jobInst.setJob)

theorem Canonical.groomGate {s : State} {j} (h : Canonical s) : Canonical (s.groomGate j) := by
  unfold State.groomGate
  split
  · exact h.groomSkip
  · exact h.nextUpd

theorem Canonical.groomGot {s : State} {id part a bs bad} (h : Canonical s) : Canonical (s.groomGot id part a bs bad) := by
  unfold State.groomGot
  split
  · exact .ite (.ite h.groomGate h.setJob) h
  · exact h

theorem Canonical.noteHeld {s : State} {j els} (h : Canonical s) : Canonical (s.noteHeld j els) := by
  unfold State.noteHeld
  refine .foldl h fun _ _ h => ?_
  split
  · exact h.noteWithheld
  · exact h

theorem Canonical.updDone {s : State} {c parity} (h : Canonical s) : Canonical (s.updDone c parity) := by
  unfold State.updDone
  refine .ite h ?_
  extract_lets _ _ _ s1
  have h1 : Canonical s1 := .inc (.upd (.ite h.fault h))
  split
  · refine .ite h1 ?_
    dsimp only
    split
    · exact .nextUpd (.foldl h1.jobInst.noteHeld.setJob fun _ _ h => h.groomWrite)
    · exact .foldl h1.jobInst.noteHeld.setJob fun _ _ h => h.groomWrite
  · exact h1

theorem Canonical.arrEnd {s : State} {parity} (h : Canonical s) : Canonical (s.arrEnd parity) := by
  unfold State.arrEnd
  split
  · exact .ite h.updDone h.arrDone
  · exact h

theorem Canonical.normJob {s : State} {j} (h : Canonical s) : Canonical (s.normJob j) := by
  unfold State.normJob
  dsimp only
  refine .ite ?_ h.setJob.jobInst.groomWrite
  split
  · exact h.setJob.jobInst.noteWithheld
  · exact h.setJob.jobInst

theorem Canonical.groomBegin {s : State} {j} (h : Canonical s) : Canonical (s.groomBegin j) := by
  unfold State.groomBegin
  dsimp only
  exact .ite h.groomSkip (.ite h.normJob (.ite h.takeMirArea.groomGate h.takeMirArea.groomReads))

theorem Canonical.groomStart {s : State} (h : Canonical s) : Canonical s.groomStart := by
  unfold State.groomStart
  split
  · exact .ite h (.ite h (.groomBegin (.trace (.setfs h))))
  · exact h

theorem Canonical.groomEnd {s : State} (h : Canonical s) : Canonical s.groomEnd := by
  unfold State.groomEnd
  split
  · exact h
  · refine .ite h ?_
    extract_lets _ _ _ s1 _
    have h1 : Canonical s1 := .foldl (.upd (.ite h h.groomWrote)) fun _ _ h => h.wrHost
    exact .ite h1.setfs.inc.localAdd h1.setfs.inc

theorem Canonical.groomCut {s : State} {y} (h : Canonical s) : Canonical (s.groomCut y) := by
  unfold State.groomCut
  dsimp only
  split
  · exact .ite (.ite (.fault (.setfs h)) (.setfs h)) h
  · exact h

/-! ### Remote -/

theorem Canonical.setRemote {s : State} {q id r} (h : Canonical s) : Canonical (s.setRemote q id r) := h

theorem Canonical.sendPiece {s s1 : State} {c r r1 y o n} (h : Canonical s) (he : s.sendPiece c r y o n = some (s1, r1)) : Canonical s1 := by
  unfold State.sendPiece at he
  split at he
  · cases he
  · next ht => cases he; exact (h.takeCredit ht).owe.setRemote.inject

theorem Canonical.sendPieces {s : State} {n c r y} (h : Canonical s) : Canonical (State.sendPieces n s c r y) := by
  induction n generalizing s r with
  | zero => exact h
  | succ n ih =>
    unfold State.sendPieces
    split
    · exact h
    · dsimp only
      split
      · exact h
      · next hp => exact ih (h.sendPiece hp)

theorem Canonical.pumpRemotes {s : State} (h : Canonical s) : Canonical s.pumpRemotes := by
  unfold State.pumpRemotes
  refine .foldl h fun _ _ h => ?_
  split
  · exact h.sendPieces
  · exact h

theorem Canonical.remoteDone {s : State} {q id} (h : Canonical s) : Canonical (s.remoteDone q id) := by
  unfold State.remoteDone
  split
  · split
    · exact .ite h.finishCmd h
    · exact h
  · exact h

theorem Canonical.remoteCmd {s : State} {q op e} (h : Canonical s) : Canonical (s.remoteCmd q op e) := by
  unfold State.remoteCmd
  refine h.startCmd fun _ _ h => ?_
  split
  · exact h.invalid
  · exact .ite h.finish h.adopt.pumpRemotes

theorem Canonical.cancelRemote {s : State} {c r} (h : Canonical s) : Canonical (s.cancelRemote c r) :=
  .ite h.cancelOut.finishCmd h.cancelOut.setRemote.remoteDone

theorem Canonical.dbCancel {s : State} {q id} (h : Canonical s) : Canonical (s.dbCancel q id) := by
  unfold State.dbCancel
  split
  · exact h.cancelRemote
  · split
    · exact .finish h
    · exact h.sat

theorem Canonical.remoteTimeout {s : State} {c r} (h : Canonical s) : Canonical (s.remoteTimeout c r) := by
  unfold State.remoteTimeout
  dsimp only
  split
  · exact .foldl h fun _ _ h => h.finishCmd
  · exact .sat (.upd (.setWin (.foldl h fun _ _ h => h.finishCmd)))

theorem Canonical.reinOne {s : State} {ep tenant team blocked} (h : Canonical s) : Canonical (s.reinOne ep tenant team blocked) := by
  unfold State.reinOne
  split
  · exact h
  · dsimp only
    split
    · exact h.giveCredit
    · split
      · split
        · exact h.giveCredit.unowe.queueTraffic.setRemote.remoteDone
        · exact h.giveCredit.unowe.queueTraffic
      · exact h.giveCredit.unowe.queueTraffic

theorem Canonical.reinMany {s : State} {ep tenant team blocked n} (h : Canonical s) : Canonical (s.reinMany ep tenant team blocked n) := by
  induction n generalizing s with
  | zero => exact h
  | succ n ih => exact ih h.reinOne

theorem Canonical.reinHere {s : State} {r} (h : Canonical s) : Canonical (s.reinHere r) := by
  unfold State.reinHere
  refine .ite h.updInst ?_
  split
  · exact h.sat
  · exact .ite h.sat h.reinMany.freeReinStalls.pumpWaiting.pumpRemotes

theorem Canonical.takeAccepted {s t : State} {p c kinds} (h : Canonical s) (he : s.takeAccepted p c kinds = some t) : Canonical t := by
  unfold State.takeAccepted at he
  split at he
  · cases he; exact h
  · cases he

theorem Canonical.dropMisuse {s : State} {c cause n} (h : Canonical s) : Canonical (s.dropMisuse c cause n) := h.sat.misuse.reinFor

theorem Canonical.carAdd {s : State} {n k stamp ep} (h : Canonical s) : Canonical (s.carAdd n k stamp ep) :=
  .ite h.sat (.ite h.setObj h.setObj.setf.misuse)

theorem Canonical.putArrive {s : State} {c} (h : Canonical s) : Canonical (s.putArrive c) := by
  unfold State.putArrive
  dsimp only
  split
  · exact h.dropMisuse
  · exact .reinFor (.ite h.wrLocal.carAdd h.wrLocal)

theorem Canonical.respond {s : State} {c kind bs} (h : Canonical s) : Canonical (s.respond c kind bs) := h.inject

theorem Canonical.atomArrive {s : State} {c} (h : Canonical s) : Canonical (s.atomArrive c) := h.wrLocal.respond

theorem Canonical.responseHere {s : State} {c op} (h : Canonical s) : Canonical (s.responseHere c op) := by
  unfold State.responseHere
  split
  · exact h.sat
  · exact h.wrPieces.giveCredit.unowe.queueTraffic.setRemote.remoteDone.freeReinStalls.pumpWaiting.pumpRemotes

theorem Canonical.signalArrive {s : State} {c} (h : Canonical s) : Canonical (s.signalArrive c) := by
  unfold State.signalArrive
  dsimp only
  split
  · exact h.dropMisuse
  · exact .reinFor (.ite h.setObj h.carAdd)

theorem Canonical.barrierHere {s : State} {c} (h : Canonical s) : Canonical (s.barrierHere c) := by
  unfold State.barrierHere
  dsimp only
  refine .ite h.reinFor.misuse (.ite ?_ h.reinFor.onRelease.heldArrive)
  split
  · exact h.reinFor.misuse
  · exact .ite h.reinFor.misuse h.reinFor.onArrive.heldArrive

/-! ### Ports -/

theorem Canonical.wrTile {s : State} {base o bs} (h : Canonical s) : Canonical (s.wrTile base o bs) := by
  induction bs generalizing s o with
  | nil => exact h
  | cons b t ih => exact ih h.wrHost

theorem Canonical.wrHitch {s : State} {a bs} (h : Canonical s) : Canonical (s.wrHitch a bs) := by
  unfold State.wrHitch
  split
  · exact .ite h.wrTile h.wrHost
  · exact h.wrHost

theorem Canonical.vehCount {s : State} {y a n} (h : Canonical s) : Canonical (s.vehCount y a n) := by
  unfold State.vehCount
  split
  · exact h
  · exact .ite h h

theorem Canonical.vehReport {s : State} {tile} (h : Canonical s) : Canonical (s.vehReport tile) := by
  unfold State.vehReport
  split
  · exact .ite (.inc (.message h)) h
  · exact h

theorem Canonical.dropReq {s : State} {r} (h : Canonical s) : Canonical (s.dropReq r) := .upd h.touch

theorem Canonical.updReq {s : State} {r f} (h : Canonical s) : Canonical (s.updReq r f) := h

theorem Canonical.lateResponse {s : State} {r} (h : Canonical s) : Canonical (s.lateResponse r) := .ite h.sat.fault h

theorem Canonical.staleResponse {s : State} {r} (h : Canonical s) : Canonical (s.staleResponse r) := h.sat.fault

theorem Canonical.ownBad {s : State} {own} (h : Canonical s) : Canonical (s.ownBad own) := by
  unfold State.ownBad
  split
  · exact h
  · exact h

theorem Canonical.readPart {s : State} {u o d bad} (h : Canonical s) : Canonical (s.readPart u o d bad) := by
  unfold State.readPart
  dsimp only
  split
  · exact .ite h.updTag.streamReady h.updTag
  · exact h.updTag

theorem Canonical.writePart {s : State} {u} (h : Canonical s) : Canonical (s.writePart u) := by
  unfold State.writePart
  dsimp only
  split
  · exact .ite h.updTag.tagDone h.updTag
  · exact h.updTag

theorem Canonical.readDone {s : State} {r} (h : Canonical s) : Canonical (s.readDone r) := by
  unfold State.readDone
  dsimp only
  split
  · exact .readPart (.dropReq (.ite h.ownBad h))
  · exact .groomGot (.dropReq (.ite h.ownBad h))

theorem Canonical.readBegins {s : State} {u} (h : Canonical s) : Canonical (s.readBegins u) := by
  unfold State.readBegins
  split
  · exact h.updTag
  · exact h.groomBegun

theorem Canonical.readBeat {s : State} {port tag yg last err data} (h : Canonical s) : Canonical (s.readBeat port tag yg last err data) := by
  unfold State.readBeat
  split
  · exact h.fault
  · refine .ite (.ite h.dropReq.staleResponse.lateResponse h.staleResponse) ?_
    extract_lets _ _ _ s2
    have h2 : Canonical s2 := .lateResponse (.updReq (.ite h.sat h))
    refine .ite (.ite h2.readDone h2.fault.readDone) ?_
    exact .ite (.fault (.updReq (.ite h.sat h))) (.readBegins (.updReq (.ite h.sat h)))

theorem Canonical.writeResponse {s : State} {port tag yg err} (h : Canonical s) : Canonical (s.writeResponse port tag yg err) := by
  unfold State.writeResponse
  split
  · exact h.fault
  · extract_lets _ s2 _ s4
    have h2 : Canonical s2 := .ite h.dropReq.wrHitch h.dropReq
    have h4 : Canonical s4 := .ite h2.lateResponse.vehCount h2.lateResponse.sat.ownBad
    refine .ite h2.staleResponse.lateResponse ?_
    split
    · exact h4.writePart
    · exact h4.groomAck

theorem Canonical.sendBeat {s : State} {port} (h : Canonical s) : Canonical (s.sendBeat port) := by
  unfold State.sendBeat
  split
  · exact h
  · exact h

theorem Canonical.hitchCredit {s : State} {port beat} (h : Canonical s) : Canonical (s.hitchCredit port beat) :=
  .ite (.ite h.fault (.sendBeat h)) (.ite h.fault (.pumpHitch h))

theorem Canonical.boundExpiry {s : State} {port tag} (h : Canonical s) : Canonical (s.boundExpiry port tag) := by
  unfold State.boundExpiry
  split
  · exact .ite h.updReq.fault h
  · exact h

theorem Canonical.pumpRecv {s : State} (h : Canonical s) : Canonical s.pumpRecv := .foldl h fun _ _ h => .foldl h fun _ _ h => .ite h.tryRecv h

theorem Canonical.farRsp {s : State} {l c} (h : Canonical s) : Canonical (s.farRsp l c) := .pumpRecv h

theorem Canonical.farAnswer {s : State} {l c bs ue} (h : Canonical s) : Canonical (s.farAnswer l c bs ue) := h

theorem Canonical.mirrorHere {s : State} {l c} (h : Canonical s) : Canonical (s.mirrorHere l c) := by
  unfold State.mirrorHere
  dsimp only
  exact .ite h.sat (.ite h.sat (.ite h.sat (.ite h.sat (.depotAdd (.ite h h.setfs)))))

theorem Canonical.depotUe {s : State} {ch addr} (h : Canonical s) : Canonical (s.depotUe ch addr) := h.sat.setfs.fault

theorem Canonical.moveDone {s : State} {r t n off ue} (h : Canonical s) : Canonical (s.moveDone r t n off ue) := by
  unfold State.moveDone
  split
  · exact h
  · exact .updInst (.ite h (.foldl h fun _ _ h => h.wrPieces))

theorem Canonical.depotUser {s0 : State} {r ue} (h0 : Canonical s0) : Canonical (s0.depotUser r ue) := by
  unfold State.depotUser
  dsimp only
  split
  · exact .ite (.writePart (.touch (.ite h0.ownBad h0))) (.readPart (.touch (.ite h0.ownBad h0)))
  · exact .ite (.groomAck (.touch (.ite h0.ownBad h0))) (.groomGot (.touch (.ite h0.ownBad h0)))
  · exact .moveDone (.touch (.ite h0.ownBad h0))
  · exact .ite h0.ownBad h0
  · exact .farAnswer (.ite h0.ownBad h0)
  · exact .ite (.inc (.ite h0.ownBad h0)) (.ite h0.ownBad h0)

theorem Canonical.depotDone {s : State} {ch ue} (h : Canonical s) : Canonical (s.depotDone ch ue) := by
  unfold State.depotDone
  split
  · exact h
  · extract_lets _ _ _ _ s2 _
    have h2 : Canonical s2 := .foldl h fun _ _ h => h.depotUe
    exact .depotUser (.ite h2.wrDepot h2)

theorem Canonical.scrub {s : State} {a r} (h : Canonical s) : Canonical (s.scrub a r) := by
  unfold State.scrub
  refine .ite h ?_
  split
  · exact h
  · exact h.sat.fault
  · exact h.sat.fault
  · exact h.depotUe

/-! ### Collective -/

theorem Canonical.sendRun {s : State} {t gen own x} (h : Canonical s) : Canonical (s.sendRun t gen own x) := by
  unfold State.sendRun
  dsimp only
  split
  · exact h
  · exact h.sendCredited

theorem Canonical.countOut {s : State} {i o} (h : Canonical s) : Canonical (s.countOut i o) := h.updInst

theorem Canonical.updNow {s : State} {i f} (h : Canonical s) : Canonical (s.updNow i f) := h.updInst

theorem Canonical.levelDone {s : State} {i kind axes k} (h : Canonical s) : Canonical (s.levelDone i kind axes k) := h.updNow

theorem Canonical.putPart {s : State} {i p} (h : Canonical s) : Canonical (s.putPart i p) := h.updNow

theorem Canonical.putBytes {s : State} {i o bs f} (h : Canonical s) : Canonical (s.putBytes i o bs f) :=
  .ite h (.ite h.noteWithheld (.ite h.wrDepot.updNow h.wrPieces.updNow))

theorem Canonical.putCodes {s : State} {i x codes f} (h : Canonical s) : Canonical (s.putCodes i x codes f) := h.putBytes.updNow

theorem Canonical.putMoved {s : State} {i x codes f} (h : Canonical s) : Canonical (s.putMoved i x codes f) := .ite h.putCodes h.countOut.putCodes

theorem Canonical.exchange {s : State} {i src x vals f axes} (h : Canonical s) : Canonical (s.exchange i src x vals f axes).1 := by
  unfold State.exchange
  dsimp only
  split
  · exact h.levelDone
  · exact .levelDone (.ite h.putCodes h.putMoved)

theorem Canonical.stageGrad {s : State} {i x vals f} (h : Canonical s) : Canonical (s.stageGrad i x vals f) := h.wrScr.updNow

theorem Canonical.putParams {s : State} {i x vals f} (h : Canonical s) : Canonical (s.putParams i x vals f) := .updNow (.ite h h.putBytes)

theorem Canonical.keepGath {s : State} {i r x vals f} (h : Canonical s) : Canonical (s.keepGath i r x vals f) := by
  unfold State.keepGath
  refine .ite h.putMoved (.ite h.putCodes ?_)
  exact .ite h.putParams (.ite h.putCodes (.ite h.stageGrad h.updNow))

theorem Canonical.gathHere {s : State} {i r o a x vals f} (h : Canonical s) : Canonical (s.gathHere i r o a x vals f).1 := by
  unfold State.gathHere
  dsimp only
  split
  · exact h.keepGath.levelDone.exchange
  · exact h.keepGath.levelDone

theorem Canonical.climb {s : State} {i r o axes x vals f} (h : Canonical s) : Canonical (s.climb i r o axes x vals f).1 := by
  unfold State.climb
  dsimp only
  split
  · exact h.levelDone
  · exact h.keepGath.levelDone.levelDone

theorem Canonical.gathBegin {s : State} {i r o x vals f} (h : Canonical s) : Canonical (s.gathBegin i r o x vals f).1 := by
  unfold State.gathBegin
  dsimp only
  split
  · exact h.climb
  · exact h.keepGath.levelDone

theorem Canonical.redEnd {s : State} {i r o x vals f} (h : Canonical s) : Canonical (s.redEnd i r o x vals f).1 := by
  unfold State.redEnd
  dsimp only
  split
  · split
    · exact h.keepGath.levelDone.exchange
    · exact h.keepGath.levelDone
  · split
    · exact h.exchange
    · split
      · exact h.keepGath.levelDone
      · exact h.keepGath

theorem Canonical.redStep {s : State} {i first r o a rest} (h : Canonical s) : Canonical (s.redStep i first r o a rest).1 := by
  unfold State.redStep
  dsimp only
  split
  · exact h
  · split
    · exact h.countOut.updNow.levelDone
    · exact h.countOut.updNow.levelDone

theorem Canonical.redBegin {s : State} {i r o axes first v} (h : Canonical s) : Canonical (s.redBegin i r o axes first v).1 := by
  induction axes generalizing s first v with
  | nil =>
    unfold State.redBegin
    split
    · exact h.redEnd
    · exact h
  | cons a rest ih =>
    unfold State.redBegin
    extract_lets s1
    have h1 : Canonical s1 := by
      unfold s1
      split
      · exact h.putPart
      · exact h
    split
    · exact .ite h1.updNow h1
    · split
      · dsimp only
        split
        · exact ih h1.redStep
        · exact h1.redStep
      · exact h1

theorem Canonical.redHere {s : State} {i r o a q vals f} (h : Canonical s) : Canonical (s.redHere i r o a q vals f).1 := h.putPart.redBegin

theorem Canonical.redStart {s : State} {i g} (h : Canonical s) : Canonical (s.redStart i g).1 := h.redBegin

theorem Canonical.eachGran {α : Type} {s : State} {f : State → α → State × List Send} {gs : List α} (h : Canonical s)
    (hf : ∀ s g, Canonical s → Canonical (f s g).1) : Canonical (s.eachGran f gs).1 := .foldl_fst (p := (s, [])) h fun _ _ h => hf _ _ h

theorem Canonical.openFolds {s : State} {i} (h : Canonical s) : Canonical (s.openFolds i) := by
  unfold State.openFolds
  dsimp only
  exact .updNow (.eachGran h.updNow fun _ _ h => h.redBegin)

theorem Canonical.openSends {s : State} {i} (h : Canonical s) : Canonical (s.openSends i) := .foldl h.updNow fun _ _ h => h.sendRun

theorem Canonical.sendRuns {s : State} {i xs} (h : Canonical s) : Canonical (s.sendRuns i xs) :=
  .openSends (.foldl h.updNow fun _ _ h => h.openFolds)

theorem Canonical.degBegin {s : State} {i} (h : Canonical s) : Canonical (s.degBegin i).1 := by
  unfold State.degBegin
  dsimp only
  split
  · exact h.eachGran fun _ _ h => h.redStart
  · exact h.eachGran fun _ _ h => h.redStart
  · exact h.eachGran fun _ _ h => h.redStart
  · exact h.eachGran fun _ _ h => h.redStart
  · exact h.eachGran fun _ _ h => h.gathBegin
  · split
    · exact h.eachGran fun _ _ h => h.putMoved.levelDone
    · exact h
  · exact h.eachGran fun _ _ h => h.exchange
  · exact h.eachGran fun _ _ h => h.exchange
  · split
    · exact h.eachGran fun _ _ h => h.exchange
    · exact h
  · exact h

theorem Canonical.dataGran {s : State} {i d x vals f} (h : Canonical s) : Canonical (s.dataGran i d x vals f).1 := by
  unfold State.dataGran
  dsimp only
  split
  · exact h
  · split
    · exact h.redHere
    · exact h.gathHere
    · exact h.climb
    · exact h.putMoved.levelDone
    · exact h

theorem Canonical.dataRun {s : State} {i d c} (h : Canonical s) : Canonical (s.dataRun i d c) := by
  unfold State.dataRun
  dsimp only
  split
  · exact (h.eachGran fun _ _ h => h.exchange).sendRuns
  · exact (h.eachGran fun _ _ h => h.dataGran).sendRuns

/-! ### Closing -/

theorem Canonical.sendEx {s : State} {i a r up f bs} (h : Canonical s) : Canonical (s.sendEx i a r up f bs) := by
  unfold State.sendEx
  dsimp only
  split
  · exact h
  · exact .ite h.sendCredited h

theorem Canonical.dropInst {s : State} {i} (h : Canonical s) : Canonical (s.dropInst i) := h

theorem Canonical.setInst {s : State} {i f} (h : Canonical s) : Canonical (s.setInst i f) := h.updInst

theorem Canonical.endEpoch {s : State} {i} (h : Canonical s) : Canonical (s.endEpoch i) := by
  unfold State.endEpoch
  split
  · exact h.setInst
  · exact h.finishInst.dropInst
  · exact h.finishInst.setfs.setInst.fault

theorem Canonical.closeRec {s : State} {i} (h : Canonical s) : Canonical (s.closeRec i) := .foldl h fun _ _ h => .ite h.setPost h

theorem Canonical.endInst {s0 : State} {i} (h0 : Canonical s0) : Canonical (s0.endInst i) := by
  unfold State.endInst
  extract_lets _ _ s1 _ s3
  have h1 : Canonical s1 := .ite h0.closeRec.sat h0.closeRec
  have h3 : Canonical s3 := .ite (.endEpoch (.ite h1.sat h1)) (.dropInst (.finishInst (.ite h1.sat h1)))
  exact .ite (.ite h0.closeRec.setInst h0.closeRec.dropInst) h3.retireCheck

theorem Canonical.epochCopy {s : State} {t} (h : Canonical s) : Canonical (s.epochCopy t) := by
  unfold State.epochCopy
  split
  · exact h
  · exact .ite h (.dropInst (.finishInst (.foldl h fun _ _ h => h.wrPieces)))

theorem Canonical.addNorm {s : State} {a f vals} (h : Canonical s) : Canonical (s.addNorm a f vals).1 := h.wrScratch

theorem Canonical.normOwn {s : State} {i} (h : Canonical s) : Canonical (s.normOwn i) :=
  .updNow (.wrScratch (.foldl_fst h.wrScratch fun _ _ h => h.addNorm))

theorem Canonical.groomAsk {s : State} {i kind} (h : Canonical s) : Canonical (s.groomAsk i kind) := h

theorem Canonical.gathStart {s : State} {i0 r} (h : Canonical s) : Canonical (s.gathStart i0 r) := by
  unfold State.gathStart
  dsimp only
  exact .sendRuns (.eachGran h.updNow fun _ _ h => h.gathBegin)

theorem Canonical.normValid {s : State} {i} (h : Canonical s) : Canonical (s.normValid i) := by
  unfold State.normValid
  dsimp only
  exact .ite h.updNow (.ite (.ite h.wrScratch h.wrScratch.gathStart) h.wrScratch.groomAsk)

theorem Canonical.normDown {s : State} {i f bs} (h : Canonical s) : Canonical (s.normDown i f bs) := .foldl h fun _ _ h => h.sendEx

theorem Canonical.normPump {s : State} {i0} (h : Canonical s) : Canonical (s.normPump i0) := by
  unfold State.normPump
  dsimp only
  refine .ite h ?_
  split
  · exact .foldl h.wrScratch.updNow fun _ _ h => h.sendEx
  · exact .normValid (.foldl h.wrScratch.updNow fun _ _ h => h.normDown)

theorem Canonical.normHere {s : State} {i0 o f bs} (h : Canonical s) : Canonical (s.normHere i0 o f bs) := by
  unfold State.normHere
  extract_lets _ _ _ s2 _ _
  have h2 : Canonical s2 := .updNow (.normDown (.ite h h.wrScratch))
  exact .ite h2.wrScratch.normValid h2

theorem Canonical.normStart {s : State} {i0} (h : Canonical s) : Canonical (s.normStart i0) := .ite h.normOwn.updNow.normPump h

theorem Canonical.barStart {s : State} {i} (h : Canonical s) : Canonical (s.barStart i) := by
  unfold State.barStart
  dsimp only
  exact .ite (.ite h.dropInst.localArrive h.dropInst) (.ite h.setInst.localArrive h.finishInst.dropInst.misuse)

theorem Canonical.copyInst {s : State} {i} (h : Canonical s) : Canonical (s.copyInst i) := .ite h.wrPieces h.countOut.wrPieces

theorem Canonical.moveFar {s : State} {i} (h : Canonical s) : Canonical (s.moveFar i) := .foldl h fun _ _ h => h

theorem Canonical.moveInst {s : State} {i} (h : Canonical s) : Canonical (s.moveInst i) := .ite h.moveFar h.depotAdd

theorem Canonical.degNow {s : State} {i} (h : Canonical s) : Canonical (s.degNow i) := by
  unfold State.degNow
  split
  · exact h.barStart
  · exact .ite h.endInst h.groomAsk
  · exact h.normStart
  · exact .ite h.endInst h.moveInst
  · exact .ite h.endInst h.moveInst
  · exact .ite h.endInst h.copyInst.endInst
  · exact h.degBegin.sendRuns.normStart

theorem Canonical.degRun {s : State} {i} (h : Canonical s) : Canonical (s.degRun i) := .ite h.setInst h.degNow

theorem Canonical.heldRuns {s : State} (h : Canonical s) : Canonical s.heldRuns := .foldl h fun _ _ h => .ite h.setInst.degNow h

theorem Canonical.closeDown {s : State} {i f amax} (h : Canonical s) : Canonical (s.closeDown i f amax) :=
  .foldl (.ite h.updNow.setfs h.updNow) fun _ _ h => h.sendEx

theorem Canonical.closeUp {s : State} {i0} (h : Canonical s) : Canonical (s.closeUp i0) := by
  unfold State.closeUp
  dsimp only
  refine .ite h ?_
  split
  · exact h.updNow.sendEx
  · exact h.updNow.closeDown

theorem Canonical.startDue {s : State} {t} (h : Canonical s) : Canonical (s.startDue t) := by
  unfold State.startDue
  refine .ite h ?_
  split
  · exact h.setInst.degRun
  · exact h

theorem Canonical.closePump {s : State} {i0} (h : Canonical s) : Canonical (s.closePump i0) := .ite h.closeUp.endInst.startDue h.closeUp

theorem Canonical.closeAll {s : State} (h : Canonical s) : Canonical s.closeAll := .foldl h fun _ _ h => h.closePump

theorem Canonical.takeRx {s t : State} {p c} (h : Canonical s) (he : s.takeRx p c = some t) : Canonical t := by
  unfold State.takeRx at he
  split at he
  · cases he; exact h
  · cases he

theorem Canonical.dataHere {s : State} {i0 d c} (h : Canonical s) : Canonical (s.dataHere i0 d c) := by
  unfold State.dataHere
  dsimp only
  split
  · exact h.updNow.closePump
  · exact h.closeDown.closePump
  · exact h.updNow.normPump
  · exact h.normHere.closePump
  · exact h.dataRun.normStart.closePump

theorem Canonical.dataReceive {s : State} {p c d} (h : Canonical s) : Canonical (s.dataReceive p c d) := by
  unfold State.dataReceive
  split
  · exact h
  · refine .ite h (.ite (.ite ?_ h) ?_)
    · split
      · next ht => exact (h.takeRx ht).dataHere
      · exact h
    · split
      · next ht =>
        have h1 := h.takeAccepted ht
        exact .dataHere (.ite h1.reinFor h1)
      · exact h

theorem Canonical.mirrorSend {s : State} {i r} (h : Canonical s) : Canonical (s.mirrorSend i r) := by
  unfold State.mirrorSend
  split
  · exact h
  · exact .foldl h fun _ _ h => h

theorem Canonical.afterJob {s0 : State} {r} (h0 : Canonical s0) : Canonical (s0.afterJob r) := by
  unfold State.afterJob
  split
  · exact h0
  · refine .ite h0 ?_
    dsimp only
    split
    · exact .ite (.closePump (.gathStart (.ite h0 h0.mirrorSend))) (.ite h0 h0.mirrorSend)
    · exact .startDue (.endInst (.ite h0 h0.mirrorSend))
    · exact .closePump (.updNow (.ite h0 h0.mirrorSend))
    · exact .ite h0 h0.mirrorSend

theorem Canonical.movesDone {s : State} (h : Canonical s) : Canonical s.movesDone := .foldl h fun _ _ h => h.endInst.startDue

theorem Canonical.fetchHere {s : State} {i c} (h : Canonical s) : Canonical (s.fetchHere i c) :=
  .movesDone (.updNow (.ite h.updNow h.wrPieces.updNow))

/-! ### Router -/

theorem Canonical.noteTraffic {s : State} {c} (h : Canonical s) : Canonical (s.noteTraffic c) := .ite (.setTeam (.ite h.touch h)) (.ite h.touch h)

theorem Canonical.sendOn {s : State} {l t c mirror} (h : Canonical s) : Canonical (s.sendOn l t c mirror) :=
  h.flushUnits.setSub.emit.trace.noteTraffic.winTraffic

theorem Canonical.reinLeave {s : State} {r} (h : Canonical s) : Canonical (s.reinLeave r) := by
  unfold State.reinLeave
  refine .ite h.reinHere ?_
  split
  · exact .ite h.unit h.queueRein
  · exact h.sat

theorem Canonical.pumpReins {s : State} {l} (h : Canonical s) : Canonical (s.pumpReins l) :=
  .foldl (.upd (.foldl h fun _ _ h => h.reinLeave)) fun _ _ h => h.queueRein

theorem Canonical.loseMirXmits {s : State} (h : Canonical s) : Canonical s.loseMirXmits := .ite h (.foldl h fun _ _ h => h.loseMirXmit)

theorem Canonical.noteMirror {s : State} {n} (h : Canonical s) : Canonical (s.noteMirror n) := .ite h h

theorem Canonical.sendXmit {s : State} {p t b} (h : Canonical s) : Canonical (s.sendXmit p t b) := by
  unfold State.sendXmit
  dsimp only
  exact .tagDone (.noteMirror (.ite h.sendOn (.upd h.sendOn)))

theorem Canonical.ackDown {s : State} {l t n j} (h : Canonical s) : Canonical (s.ackDown l t n j) := h.unit.setSub

theorem Canonical.sendFwd {s : State} {o} (h : Canonical s) : Canonical (s.sendFwd o) := by
  unfold State.sendFwd
  extract_lets _ _ _ _ _ _ s1 _
  have h1 : Canonical s1 := .ite (.noteMirror (.sendOn h)) (.foldl (.sendOn h) fun _ _ h => h.ackDown)
  exact .ite h1 h1

theorem Canonical.schedSend {s0 : State} {l} (h0 : Canonical s0) : Canonical (s0.schedSend l) := by
  unfold State.schedSend
  extract_lets s _ _
  have h : Canonical s := h0.closeAll.loseMirXmits.pumpReins
  refine .ite h ?_
  split
  · exact h.sendFwd
  · split
    · split
      · exact h.sendXmit
      · exact h
    · split
      · exact h.sendFwd
      · exact h

theorem Canonical.blocked {s : State} {port} (h : Canonical s) : Canonical (s.blocked port) := h

theorem Canonical.routerCycle {s : State} (h : Canonical s) : Canonical s.routerCycle :=
  .foldl (.foldl h fun _ _ h => .ite h.blocked h) fun _ _ h => .ite h h.flushUnits

theorem Canonical.grant {s : State} {o} (h : Canonical s) : Canonical (s.grant o) := .sendOn h

theorem Canonical.unschedGrant {s0 : State} {l} (h0 : Canonical s0) : Canonical (s0.unschedGrant l) := by
  unfold State.unschedGrant
  dsimp only
  split
  · exact h0.pumpReins.grant
  · split
    · exact h0.pumpReins.grant
    · split
      · exact h0.pumpReins
      · exact .grant (.upd h0.pumpReins)

theorem Canonical.ackOnward {s : State} {id} (h : Canonical s) : Canonical (s.ackOnward id) :=
  .upd (.foldl h fun _ _ h => .ite h (.foldl h fun _ _ h => h.ackDown))

theorem Canonical.dropHeld {s : State} {id} (h : Canonical s) : Canonical (s.dropHeld id) := h

theorem Canonical.settle {s : State} {id} (h : Canonical s) : Canonical (s.settle id) :=
  .foldl (.dropHeld (.settleMarks (.ackOnward h))) fun _ _ h => h.receiveAt

theorem Canonical.checkVec {s : State} {id} (h : Canonical s) : Canonical (s.checkVec id) := by
  unfold State.checkVec
  split
  · exact .ite h.settle h
  · exact h

theorem Canonical.recallOnward {s : State} {id} (h : Canonical s) : Canonical (s.recallOnward id) :=
  .upd (.foldl h fun _ _ h => .ite h (.sat (.ite h.emit h.unit)))

theorem Canonical.invalidate {s : State} {id} (h : Canonical s) : Canonical (s.invalidate id) := .recallOnward (.stale h)

theorem Canonical.mapFwd {s : State} {id f} (h : Canonical s) : Canonical (s.mapFwd id f) := h

theorem Canonical.sendAgain {s : State} {l t lsn c} (h : Canonical s) : Canonical (s.sendAgain l t lsn c) := h.setSub

theorem Canonical.resend {s : State} {id c} (h : Canonical s) : Canonical (s.resend id c) := .upd (.foldl h fun _ _ h => h.sendAgain)

theorem Canonical.loseCar {s : State} {id} (h : Canonical s) : Canonical (s.loseCar id) := .resend (.settle (.mapFwd (.refresh h)))

theorem Canonical.nak {s : State} {l t n reason} (h : Canonical s) : Canonical (s.nak l t n reason) := h.unit.sat

theorem Canonical.rxPut {s : State} {l id c} (h : Canonical s) : Canonical (s.rxPut l id c) := .ite h h

theorem Canonical.rxFix {s : State} {id c} (h : Canonical s) : Canonical (s.rxFix id c) := h

theorem Canonical.classZero {s : State} {l id c again} (h : Canonical s) : Canonical (s.classZero l id c again) := by
  unfold State.classZero
  extract_lets _ _ _ _ _ _ s2 _ _ _
  have h2 : Canonical s2 := .ite (.pumpRecv (.ite (.rxFix h) (.rxPut h))) h
  exact .ite (.resend (.refresh (.mapFwd (.ite h2 h2)))) (.ite h2 h2)

theorem Canonical.arrive {s : State} {l c} (h : Canonical s) : Canonical (s.arrive l c) := by
  unfold State.arrive
  dsimp only
  refine .ite ?_ ?_
  · refine .ite (.classZero (.noteTraffic (.upd (.setSub (.foldl h fun _ _ h => h.nak))))) ?_
    exact .noteTraffic (.upd (.setSub (.foldl h fun _ _ h => h.nak)))
  · split
    · exact .ite (.classZero (.upd (.ite h.invalidate h))) (.upd (.ite h.invalidate h))
    · exact .ite (.ite (.classZero h) h) h.setSub

theorem Canonical.carArrive {s : State} {l c} (h : Canonical s) : Canonical (s.carArrive l c) := .ite h h.arrive

theorem Canonical.outcome {s : State} {l t n} (h : Canonical s) : Canonical (s.outcome l t n) := h.setSub

theorem Canonical.dropRow {s : State} {l c r} (h : Canonical s) : Canonical (s.dropRow l c r) :=
  .ite h.sat (.ite h.sat (.ite h.sat.sat (.ite h.refuse h.sat)))

theorem Canonical.copyHere {s : State} {a} (h : Canonical s) : Canonical (s.copyHere a) := .ite (.touchFor h) h.dropRow

theorem Canonical.routeOn {s : State} {a} (h : Canonical s) : Canonical (s.routeOn a) :=
  .ite h.dropRow (.ite h.receiveAt (.ite h.copyHere.inject h.inject))

theorem Canonical.schedGood {s : State} {a} (h : Canonical s) : Canonical (s.schedGood a) := by
  unfold State.schedGood
  dsimp only
  refine .checkVec (.ite (.ite (.dropRow h) (.ite (.dropRow h) h)) ?_)
  exact .ite (.upd (.dropRow h)) (.ite (.touchFor h) h)

theorem Canonical.verdictBad {s : State} {a} (h : Canonical s) : Canonical (s.verdictBad a) := by
  unfold State.verdictBad
  dsimp only
  refine .ite (.ite (.outcome (.fault (.ite h h.sat))) h.nak) ?_
  exact .ite (.ite h.sat.fault.outcome.loseCar h.sat.fault.outcome) (.ite (.invalidate (.ite h h.nak)) (.ite h h.nak))

theorem Canonical.verdict {s : State} {l} (h : Canonical s) : Canonical (s.verdict l) := by
  unfold State.verdict
  split
  · exact h
  · dsimp only
    exact .ite (.verdictBad h) (.ite (.outcome h) (.ite (.schedGood (.outcome h)) (.routeOn (.outcome h))))

/-! ### Cycle -/

theorem Canonical.cycle {s : State} (h : Canonical s) : Canonical (Machine.cycle s) := .ite (.refEdge h) (.ite h (.refEdge h))

theorem Canonical.idle {s : State} (h : Canonical s) : Canonical (Machine.idle s) := .cycle (.ite h.routerCycle.heldRuns.movesDone h)

/-! ### Replay -/

theorem Canonical.dropWork {s : State} {t} (h : Canonical s) : Canonical (s.dropWork t) := by
  unfold State.dropWork
  dsimp only
  split
  · exact .ite (.groomCut h) h
  · exact h

theorem Canonical.rerun {s : State} {i} (h : Canonical s) : Canonical (s.rerun i) := by
  unfold State.rerun
  dsimp only
  refine .degRun ?_
  split
  · exact .upd h.endSegs.dropWork.setInst
  · exact h.endSegs.dropWork.setInst

theorem Canonical.badUnit {s : State} {l} (h : Canonical s) : Canonical (s.badUnit l) := h.sat.fault

theorem Canonical.hangHalt {s : State} {t} (h : Canonical s) : Canonical (s.hangHalt t) := by
  unfold State.hangHalt
  refine .ite h ?_
  split
  · exact .ite h (.ite h.rerun h.abortWithHalt)
  · exact h

theorem Canonical.applyHalt {s : State} {t gen reason ep} (h : Canonical s) : Canonical (s.applyHalt t gen reason ep) :=
  .ite h (.ite h.hangHalt h.abortTeam)

theorem Canonical.halt {s : State} {l v} (h : Canonical s) : Canonical (s.halt l v) := .ite h.badUnit (.applyHalt (.noteHalt (.ite h h.haltAll)))

/-! ### LinkUnits -/

theorem Canonical.ackUp {s : State} {l t} (h : Canonical s) : Canonical (s.ackUp l t) := h.unit.setSub

theorem Canonical.ackMirror {s : State} {es} (h : Canonical s) : Canonical (s.ackMirror es) := .ite h (.upd h.inc)

theorem Canonical.ackMoves {s : State} {es} (h : Canonical s) : Canonical (s.ackMoves es) := .foldl h fun _ _ h => h.updInst

theorem Canonical.ackedUp {s : State} {l t n f0 f1} (h : Canonical s) : Canonical (s.ackedUp l t n f0 f1) := h.ackMirror.ackMoves.setSub.movesDone

theorem Canonical.ackPass {s : State} {id j} (h : Canonical s) : Canonical (s.ackPass id j) := .foldl h fun _ _ h => .ite h.ackDown h

theorem Canonical.ackedDown {s : State} {l t n j} (h : Canonical s) : Canonical (s.ackedDown l t n j) := by
  unfold State.ackedDown
  dsimp only
  split
  · exact .ite (.ite h h) h
  · exact .ite (.ite h h) (.ite h (.checkVec (.ackPass h)))

theorem Canonical.ackAgain {s : State} {l t} (h : Canonical s) : Canonical (s.ackAgain l t) := by
  unfold State.ackAgain
  dsimp only
  split
  · exact .ite h.unit.setSub h
  · exact h

theorem Canonical.naked {s : State} {l t n} (h : Canonical s) : Canonical (s.naked l t n) := .ite h.setSub h

theorem Canonical.sendReplay {s : State} {l t} (h : Canonical s) : Canonical (s.sendReplay l t) := by
  unfold State.sendReplay
  dsimp only
  split
  · exact h
  · exact h.setSub.emit.trace.sat

theorem Canonical.lsnOpen {s : State} {l t n} (h : Canonical s) : Canonical (s.lsnOpen l t n) := .ite h h.setSub

theorem Canonical.recallName {s : State} {l t n} (h : Canonical s) : Canonical (s.recallName l t n) := by
  unfold State.recallName
  dsimp only
  split
  · exact h.sat
  · exact .invalidate (.lsnOpen (.upd h.sat))

theorem Canonical.recallEoc {s : State} {l t} (h : Canonical s) : Canonical (s.recallEoc l t) := by
  unfold State.recallEoc
  dsimp only
  split
  · exact .upd h.sat
  · exact h.sat.setSub

theorem Canonical.linkHalt {s : State} {l reason} (h : Canonical s) : Canonical (s.linkHalt l reason) := .ite h.leave (.ite h.setLink h.setLink)

/-! ### Fibre -/

theorem Canonical.setGroup {s : State} {l g x} (h : Canonical s) : Canonical (s.setGroup l g x) := h.setLink

theorem Canonical.laser {s : State} {l g b} (h : Canonical s) : Canonical (s.laser l g b) := .ite h h.setf.emit

theorem Canonical.startFibre {s : State} {l} (h : Canonical s) : Canonical (s.startFibre l) :=
  .foldl h.setf fun _ _ h => .ite h (.ite (.ite h.setGroup.laser h) h.laser)

theorem Canonical.ringsOff {s : State} {l} (h : Canonical s) : Canonical (s.ringsOff l) := .setLink (.foldl h fun _ _ h => h.setf)

theorem Canonical.updLink {s : State} {l f} (h : Canonical s) : Canonical (s.updLink l f) := h.setLink

theorem Canonical.setRung {s : State} {l rung} (h : Canonical s) : Canonical (s.setRung l rung) := .ite h h.setf.updLink

theorem Canonical.toDark {s : State} {l} (h : Canonical s) : Canonical (s.toDark l) := h.leave.setRung.setfs.updLink

theorem Canonical.failDark {s : State} {l why} (h : Canonical s) : Canonical (s.failDark l why) := h.setf.toDark

theorem Canonical.unlock {s : State} {l} (h : Canonical s) : Canonical (s.unlock l) := .foldl h.updLink fun _ _ h => h.setf

theorem Canonical.toLock {s : State} {l rung keep step} (h : Canonical s) : Canonical (s.toLock l rung keep step) := h.leave.unlock.setRung.updLink

theorem Canonical.quick {s : State} {l rung keep why} (h : Canonical s) : Canonical (s.quick l rung keep why) :=
  h.sat.leave.unlock.setRung.setfs.setfs.updLink

theorem Canonical.dropGroup {s : State} {l g why} (h : Canonical s) : Canonical (s.dropGroup l g why) := by
  unfold State.dropGroup
  dsimp only
  exact .ite (.ite h (.ite h.failDark (.ite h.setf.setf.updLink h.quick))) (.ite (.ite h.failDark h.updLink) h)

theorem Canonical.loss {s : State} {l g} (h : Canonical s) : Canonical (s.loss l g) := .ite h (.ite (.ite h.sat.latch h.sat) h.sat.fault)

theorem Canonical.setPresent {s : State} {l g b} (h : Canonical s) : Canonical (s.setPresent l g b) := h.setf

theorem Canonical.openFibre {s : State} {l g} (h : Canonical s) : Canonical (s.openFibre l g) := by
  unfold State.openFibre
  dsimp only
  refine .ite h ?_
  split
  · exact .ite (.ite h.setGroup h.setGroup.laser) h
  · exact h

theorem Canonical.rise {s : State} {l g} (h : Canonical s) : Canonical (s.rise l g) := .ite h h.setf.setGroup

theorem Canonical.darkToLock {s : State} {l} (h : Canonical s) : Canonical (s.darkToLock l) := .ite h (.ite h.toLock (.ite h.updLink h))

theorem Canonical.lightGone {s : State} {l g} (h : Canonical s) : Canonical (s.lightGone l g) :=
  .dropGroup (.loss (.ite h.setf.setGroup.laser h.setf.setGroup))

theorem Canonical.pulse {s : State} {l g} (h : Canonical s) : Canonical (s.pulse l g) := .ite h.setGroup.laser h

theorem Canonical.laserFaulted {s : State} {l g} (h : Canonical s) : Canonical (s.laserFaulted l g) := h.setf.laser.setGroup.fault.loss.dropGroup

/-! ### LinkAdmin -/

theorem Canonical.linkAct {s : State} {l act} (h : Canonical s) : Canonical (s.linkAct l act) := by
  unfold State.linkAct
  split
  · exact h.toDark.updLink.startFibre
  · exact h.haltLink.leave.lasersOff.setRung.setf.ringsOff
  · dsimp only
    split
    · exact h.haltLink.toDark.shadow
    · exact h.haltLink.toDark
  · exact h.haltLink.leave.updLink
  · exact h.haltLink.leave.setRung.startFibre

theorem Canonical.linkDo {s : State} {q id e} (h : Canonical s) : Canonical (s.linkDo q id e) := .ite h.invalid h.linkAct.finish

theorem Canonical.linkControl {s : State} {q act e} (h : Canonical s) : Canonical (s.linkControl q act e) :=
  .ite h (h.adminCmd fun _ _ h => .ite h h.linkDo)

theorem Canonical.releaseHeld {s : State} (h : Canonical s) : Canonical s.releaseHeld := by
  unfold State.releaseHeld
  dsimp only
  refine .foldl h fun _ _ h => ?_
  split
  · exact h.linkDo
  · exact h

theorem Canonical.linkOther {s : State} {q e} (h : Canonical s) : Canonical (s.linkOther q e) := .ite (h.adminCmd fun _ _ h => h) h

/-! ### Training -/

theorem Canonical.train {s : State} {l ty fields} (h : Canonical s) : Canonical (s.train l ty fields) := h.emit

theorem Canonical.toPart {s : State} {l st part} (h : Canonical s) : Canonical (s.toPart l st part) := .ite h.updLink h.setLinkSt

theorem Canonical.marksZero {s : State} {l} (h : Canonical s) : Canonical (s.marksZero l) := .foldl h fun _ _ h => h.setSub

theorem Canonical.setDfe {s : State} {l k x} (h : Canonical s) : Canonical (s.setDfe l k x) := h.updLink

theorem Canonical.setGain {s : State} {l k r} (h : Canonical s) : Canonical (s.setGain l k r) := h.setf.setDfe

theorem Canonical.toActive {s : State} {l} (h : Canonical s) : Canonical (s.toActive l) := h.setLinkSt.marksZero.setf.updLink.sourceUpdate.midChange

theorem Canonical.laneLocked {s : State} {l m0} (h : Canonical s) : Canonical (s.laneLocked l m0) := by
  unfold State.laneLocked
  extract_lets _ _ s1
  have h1 : Canonical s1 := .updLink (.foldl h fun _ _ h => .ite h.setf h)
  exact .ite h1.toPart.marksZero h1

theorem Canonical.deskew {s : State} {l m sk} (h : Canonical s) : Canonical (s.deskew l m sk) := .foldl h fun _ _ h => .ite h.setf h

theorem Canonical.aligned {s : State} {l sk} (h : Canonical s) : Canonical (s.aligned l sk) := by
  unfold State.aligned
  extract_lets _ _ _ s2
  have h2 : Canonical s2 := .ite h.deskew.updLink.setf h.deskew.updLink
  exact .ite h (.ite h2.setLinkSt h2.toPart)

theorem Canonical.rtAsk {s : State} {l} (h : Canonical s) : Canonical (s.rtAsk l) := h.train.updLink

theorem Canonical.tripDone {s : State} {l} (h : Canonical s) : Canonical (s.tripDone l) := .ite h.toActive h.setLinkSt.updLink

theorem Canonical.setDelay {s : State} {l sum} (h : Canonical s) : Canonical (s.setDelay l sum) := .upd h.setfs

theorem Canonical.rtGot {s : State} {l v sub} (h : Canonical s) : Canonical (s.rtGot l v sub) := .ite h (.ite h.updLink.setDelay.tripDone h.updLink)

theorem Canonical.capColumn {s : State} {l} (h : Canonical s) : Canonical (s.capColumn l) := .updLink (.foldl h fun _ _ h => h.train)

theorem Canonical.capsDone {s : State} {l groups} (h : Canonical s) : Canonical (s.capsDone l groups) :=
  .toActive (.setfs (.setRung (.foldl h fun _ _ h => h.setSub)))

theorem Canonical.capOut {s : State} {l} (h : Canonical s) : Canonical (s.capOut l) := .ite h.capColumn.capsDone h.capColumn

theorem Canonical.capIn {s : State} {l g v} (h : Canonical s) : Canonical (s.capIn l g v) :=
  .ite h (.ite h.setf.dropGroup (.ite h.updLink.capColumn.capsDone h.updLink))

theorem Canonical.askStep {s : State} {l rung} (h : Canonical s) : Canonical (s.askStep l rung) := h.train.leave.updLink

theorem Canonical.ackStep {s : State} {l rung mask ok} (h : Canonical s) : Canonical (s.ackStep l rung mask ok) := h.train

theorem Canonical.stepReq {s : State} {l rung mask} (h : Canonical s) : Canonical (s.stepReq l rung mask) :=
  .ite h.ackStep (.updLink (.ite h.ackStep.leave h.ackStep))

theorem Canonical.rungChanged {s : State} {l} (h : Canonical s) : Canonical (s.rungChanged l) := .ite h.setf.updLink.quick h.toLock.setfs.updLink

theorem Canonical.keepRung {s : State} {l} (h : Canonical s) : Canonical (s.keepRung l) := h.setf.updLink.quick

theorem Canonical.choose {s : State} {l} (h : Canonical s) : Canonical (s.choose l) := by
  unfold State.choose
  dsimp only
  split
  · exact .ite h.setf.setLinkSt.updLink h.keepRung
  · exact h

theorem Canonical.prbsEnded {s : State} {l errs} (h : Canonical s) : Canonical (s.prbsEnded l errs) := h.train.updLink.choose

theorem Canonical.prbsBits {s : State} {l k bits} (h : Canonical s) : Canonical (s.prbsBits l k bits) :=
  .ite (.sat (.ite h.updLink.setf h.updLink)) (.ite h.updLink.setf h.updLink)

theorem Canonical.trainFail {s : State} {l} (h : Canonical s) : Canonical (s.trainFail l) := by
  unfold State.trainFail
  split
  · exact h.failDark
  · exact h.failDark
  · exact h.failDark
  · exact h.failDark
  · exact h.toActive
  · exact h.keepRung
  · exact h.failDark
  · exact h

theorem Canonical.lineErrs {s : State} {l viol disp} (h : Canonical s) : Canonical (s.lineErrs l viol disp) := by
  unfold State.lineErrs
  dsimp only
  exact .ite (.setf (.foldl h fun _ _ h => h.sat.sat)) (.foldl h fun _ _ h => h.sat.sat)

theorem Canonical.berEnd {s : State} {l} (h : Canonical s) : Canonical (s.berEnd l) := by
  unfold State.berEnd
  extract_lets _ _ s2
  have h2 : Canonical s2 := h.setf.updLink.sat.fault
  exact .ite h.setf.updLink (.ite h.setf.updLink.sat (.ite h2 h2.askStep))

theorem Canonical.markIn {s : State} {l t lanes sk} (h : Canonical s) : Canonical (s.markIn l t lanes sk) := by
  unfold State.markIn
  dsimp only
  exact .ite h (.foldl (.updLink (.foldl h fun _ _ h => h.setf)) fun _ _ h => h.loss.dropGroup)

/-! ### Bridle -/

theorem Canonical.setHeater {s : State} {l k h} (hs : Canonical s) : Canonical (s.setHeater l k h) :=
  .ite hs (.upd (.setf (.foldl hs fun _ _ h => h.setf)))

theorem Canonical.setRing {s : State} {l k x} (h : Canonical s) : Canonical (s.setRing l k x) := h.updLink

theorem Canonical.sweep {s : State} {l k failed} (h : Canonical s) : Canonical (s.sweep l k failed) := h.setHeater.setf.sat.setRing

theorem Canonical.ringFail {s : State} {l k} (h : Canonical s) : Canonical (s.ringFail l k) := h.setf.fault.loss.dropGroup

theorem Canonical.sweepServe {s : State} {l k v} (h : Canonical s) : Canonical (s.sweepServe l k v) :=
  .ite h.setRing (.ite (.ite h.ringFail h.sweep) h.setRing.setHeater)

theorem Canonical.unlockRing {s : State} {l k} (h : Canonical s) : Canonical (s.unlockRing l k) := h.sweep

theorem Canonical.lockServe {s : State} {l k v} (h : Canonical s) : Canonical (s.lockServe l k v) := by
  unfold State.lockServe
  dsimp only
  exact .ite (.ite h.unlockRing h.setRing) (.ite h.unlockRing (.ite h.setf.setRing h.setRing))

theorem Canonical.trackServe {s : State} {l k v} (h : Canonical s) : Canonical (s.trackServe l k v) :=
  .ite h.setRing.lockServe h.setRing.setHeater.lockServe

theorem Canonical.newRange {s : State} {l k r} (h : Canonical s) : Canonical (s.newRange l k r) := .ite h.updLink h.setGain

theorem Canonical.gainServe {s : State} {l k v} (h : Canonical s) : Canonical (s.gainServe l k v) := by
  unfold State.gainServe
  dsimp only
  exact .ite h.setGain.setRing (.ite h (.ite h.setRing.newRange (.ite h.setRing.newRange h.setRing)))

theorem Canonical.dfeServe {s : State} {l k} (h : Canonical s) : Canonical (s.dfeServe l k) := .ite h (.upd h.setDfe)

theorem Canonical.bridle {s : State} {l k v} (h : Canonical s) : Canonical (s.bridle l k v) := by
  unfold State.bridle
  extract_lets _ _ _ s2 _
  have h2 : Canonical s2 := .ite h.emit.sweepServe h.emit.trackServe
  split
  · exact h.sweep.emit
  · exact h
  · exact .ite (.gainServe (.ite h2.dfeServe h2)) (.ite h2.dfeServe h2)

/-! ### QueueEvents -/

theorem Canonical.doneAtFetch {s : State} {q e status result} (h : Canonical s) : Canonical (s.doneAtFetch q e status result) := h

theorem Canonical.readErr {s : State} {y a} (h : Canonical s) : Canonical (s.readErr y a) := h.sat

theorem Canonical.takeEntry {s : State} {q e bad} (h : Canonical s) : Canonical (s.takeEntry q e bad) := by
  unfold State.takeEntry
  refine .ite h.doneAtFetch ?_
  dsimp only
  refine .ite (.ite h.doneAtFetch h.doneAtFetch) ?_
  split
  · refine .ite h.doneAtFetch ?_
    split
    · exact h.doneAtFetch
    · exact h.doneAtFetch
  · exact h

theorem Canonical.fetchN {s : State} {y q ue tbl k n} (h : Canonical s) : Canonical (s.fetchN y q ue tbl k n) := by
  induction n generalizing s k with
  | zero => exact h
  | succ n ih => exact ih (.ite h.setf.readErr h.setf.takeEntry)

theorem Canonical.firmwareOk {s : State} (h : Canonical s) : Canonical s.firmwareOk := .ite (.upd h.setf) h

theorem Canonical.fetchTurn {s0 : State} {y ue tbl} (h0 : Canonical s0) : Canonical (s0.fetchTurn y ue tbl) := by
  unfold State.fetchTurn
  refine .ite h0 ?_
  dsimp only
  split
  · exact h0.firmwareOk
  · exact h0.firmwareOk.setYard.fetchN

theorem Canonical.writeRecord {s : State} {i id stage len} (h : Canonical s) : Canonical (s.writeRecord i id stage len) :=
  .updInst (.foldl h fun _ _ h => h.setPost)

theorem Canonical.bindRecord {s : State} {q id} (h : Canonical s) : Canonical (s.bindRecord q id) := by
  unfold State.bindRecord
  split
  · exact h
  · dsimp only
    refine .ite h (.ite h.writeRecord ?_)
    refine .ite h ?_
    split
    · exact h.writeRecord
    · exact h

theorem Canonical.postDone {s : State} {d} (h : Canonical s) : Canonical (s.postDone d) := by
  unfold State.postDone
  extract_lets _ _ _ _ s2 _ _ _ s5
  have h2 : Canonical s2 := .ite h.wrHost.setf.wrHost h.wrHost.setf
  have h5 : Canonical s5 := by
    unfold s5
    split
    · exact .destroyed (.trace h2)
    · exact .trace h2
  exact .ite h5.setf.vector h5

theorem Canonical.irqAnswer {s : State} {err} (h : Canonical s) : Canonical (s.irqAnswer err) := by
  unfold State.irqAnswer
  refine .ite h ?_
  extract_lets _ s1
  have h1 : Canonical s1 := by
    unfold s1
    split
    · exact h
    · exact h
  exact .ite h1.fault h1

theorem Canonical.quarantineOver {s : State} {what} (h : Canonical s) : Canonical (s.quarantineOver what) := by
  unfold State.quarantineOver
  split
  · exact .ite h.setf h
  · dsimp only
    refine .ite (.pumpRemotes (.pumpWaiting (.freeReinStalls h))) ?_
    exact .ite (.pumpRemotes (.pumpWaiting (.freeReinStalls (.setf h)))) h
  · exact .ite h.setf h

theorem Canonical.fenceOver {s : State} {ep} (h : Canonical s) : Canonical (s.fenceOver ep) := .setf h

/-! ### TimeEvents -/

theorem Canonical.sendTicks {s : State} (h : Canonical s) : Canonical s.sendTicks := .foldl h fun _ _ h => .ite (.foldl h fun _ _ h => h.emit) h

theorem Canonical.tickHere {s : State} {l slots sub} (h : Canonical s) : Canonical (s.tickHere l slots sub) := by
  unfold State.tickHere
  split
  · exact h
  · exact .ite (.upd h.setfs) h.setfs

theorem Canonical.correct {s : State} {m} (h : Canonical s) : Canonical (s.correct m) := .ite (.setfs h) (.ite h.correctStep (.fault (.setfs h)))

theorem Canonical.applyMean {s : State} {sum} (h : Canonical s) : Canonical (s.applyMean sum) := .correct (.upd h.setf.setf)

theorem Canonical.noteLate {s : State} {ps} (h : Canonical s) : Canonical (s.noteLate ps) := h.setf

theorem Canonical.noteOverrun {s : State} {t} (h : Canonical s) : Canonical (s.noteOverrun t) := h.sat.setfs

theorem Canonical.cutInstances {s : State} (h : Canonical s) : Canonical s.cutInstances :=
  .foldl (.ite h h.noteLate) fun _ _ h => h.noteOverrun.abortWithHalt

theorem Canonical.cutEngine {s : State} (h : Canonical s) : Canonical s.cutEngine := .ite h h.cutInstances.stopEngine

theorem Canonical.toOscillator {s : State} (h : Canonical s) : Canonical s.toOscillator := .setfs (.setMtc h)

theorem Canonical.loseReference {s : State} (h : Canonical s) : Canonical s.loseReference :=
  .foldl h.toOscillator.fault.cutEngine fun _ _ h => .ite h h.leave

theorem Canonical.regainReference {s : State} (h : Canonical s) : Canonical s.regainReference := .setfs h

theorem Canonical.maybeRegain {s : State} (h : Canonical s) : Canonical s.maybeRegain := .ite h.regainReference h

/-! ### Work -/

theorem Canonical.moveCmd {s : State} {q op e} (h : Canonical s) : Canonical (s.moveCmd q op e) := by
  unfold State.moveCmd
  dsimp only
  split
  · exact h
  · exact .ite h.finish h.teamCmd

/-! ### FaultEvents -/

theorem Canonical.relatch {s : State} {mask} (h : Canonical s) : Canonical (s.relatch mask) := .foldl h fun _ _ h => .ite h.fault h

theorem Canonical.applyThermal {s : State} (h : Canonical s) : Canonical s.applyThermal := h.setfs

theorem Canonical.showTemps {s : State} (h : Canonical s) : Canonical s.showTemps := h.setfs

theorem Canonical.thermal {s : State} {x t} (h : Canonical s) : Canonical (s.thermal x t) := by
  unfold State.thermal
  extract_lets _ _ _ s2 _
  have h2 : Canonical s2 := by
    unfold s2
    split
    · exact h
    · exact h
  exact .relatch (.ite h2.showTemps.applyThermal h2.showTemps)

theorem Canonical.powerFail {s : State} (h : Canonical s) : Canonical s.powerFail := .ite (.wrHost (.fault h)) (.fault h)

/-! ### YardReset -/

theorem Canonical.dump {s : State} {y cause run} (h : Canonical s) : Canonical (s.dump y cause run) := .ite h h.wrHost.setf.inc

theorem Canonical.completeOos {s : State} (h : Canonical s) : Canonical s.completeOos :=
  .foldl (.foldl h fun _ _ h => h.finish) fun _ _ h => h.finishCmd

theorem Canonical.abortReset {s : State} {t} (h : Canonical s) : Canonical (s.abortReset t) := by
  unfold State.abortReset
  refine .ite h ?_
  dsimp only
  exact .ite h.haltTeam.abortCore.retireCheck.fault h.haltTeam.abortCore.retireCheck

theorem Canonical.finishReset {s : State} {y} (h : Canonical s) : Canonical (s.finishReset y) := by
  unfold State.finishReset
  dsimp only
  split
  · exact h.setf.setf.fault.setYard.finish
  · exact h.setf.setf.fault.setYard

theorem Canonical.goOos {s : State} (h : Canonical s) : Canonical s.goOos := by
  unfold State.goOos
  dsimp only
  refine .foldl (.foldl h.setf.fault.completeOos fun _ _ h => h.abortReset) fun _ _ h => ?_
  split
  · exact h.setf
  · exact h.finishReset
  · exact h.setYard

theorem Canonical.abortHeld {s : State} {y t} (h : Canonical s) : Canonical (s.abortHeld y t) := h.abortReset.setYard

theorem Canonical.beginReset {s : State} {y replay kept} (h : Canonical s) : Canonical (s.beginReset y replay kept) := by
  unfold State.beginReset
  extract_lets _ _ _ s3 _ _ s5 _ s6 _ _ _ _ _ s10
  have h3 : Canonical s3 := by
    unfold s3
    split
    · exact .shadow (.upd h.setf.sat.log)
    · exact .upd h.setf.sat.log
  have h5 : Canonical s5 := .ite h3.setYard.goOos h3.setYard
  have h6 : Canonical s6 := .foldl h5 fun _ _ h => h.abortHeld
  have h10 : Canonical s10 := .groomCut (.upd (.cancelOut h6))
  exact .ite h10.mirInvalid h10

theorem Canonical.startReset {s : State} {y replay cmd} (h : Canonical s) : Canonical (s.startReset y replay cmd) :=
  .beginReset (.setYard (.dump (.foldl h fun _ _ h => h.endInst)))

theorem Canonical.yardTick {s : State} {y} (h : Canonical s) : Canonical (s.yardTick y) :=
  .ite h (.setYard (.upd (.foldl h fun _ _ h => h.setPost)))

theorem Canonical.clearYard {s : State} {y} (h : Canonical s) : Canonical (s.clearYard y) := by
  obtain ⟨hr, hh, hd, hs⟩ := h
  exact .foldl (.setf (.inc ⟨hr, hh, hd, swf_skeep byte0 (fun a => !(a / 2 ^ 26 == y)) _ hs⟩)) fun _ _ h => h.setPost

theorem Canonical.restartCoach {s : State} {y} (h : Canonical s) : Canonical (s.restartCoach y) := by
  unfold State.restartCoach
  extract_lets _ s1 s2 _ _ _
  have h1 : Canonical s1 := .foldl h fun _ _ h => .ite h.finishWith h
  have h2 : Canonical s2 := .foldl h1 fun _ _ h => h.finishCmd
  exact .ite h2.updInst.setYard.finishReset h2.updInst.setYard.setYard.setf

theorem Canonical.popSuspect {s : State} {y status} (h : Canonical s) : Canonical (s.popSuspect y status) := by
  unfold State.popSuspect
  split
  · exact h.setYard.log
  · exact h

theorem Canonical.replayMove {s : State} {y} (h : Canonical s) : Canonical (s.replayMove y) := by
  unfold State.replayMove
  split
  · exact h.finishReset
  · split
    · exact h.popSuspect
    · exact .ite h h.setYard.setf.rerun

theorem Canonical.guilty {s : State} {y x i} (h : Canonical s) : Canonical (s.guilty y x i) :=
  h.dump.finishInst.haltTeam.abortTeam.popSuspect.beginReset

theorem Canonical.hang {s : State} {t} (h : Canonical s) : Canonical (s.hang t) := .ite h.fault.haltTeam.startReset (.ite h.fault h)

theorem Canonical.workTimeout {s : State} {c t n} (h : Canonical s) : Canonical (s.workTimeout c t n) := by
  unfold State.workTimeout
  split
  · exact h
  · exact .ite h.finishCmd.clearRec.sat.updInst (.ite h.finishCmd.dropInsts (.ite h.finishCmd (.ite h.hang h)))

theorem Canonical.fetchedTimeout {s : State} {f} (h : Canonical s) : Canonical (s.fetchedTimeout f) := .finish (.ite h.setTeam h)

theorem Canonical.timeout {s : State} {q id} (h : Canonical s) : Canonical (s.timeout q id) := by
  unfold State.timeout
  split
  · refine .ite h ?_
    split
    · exact h.remoteTimeout
    · exact h.workTimeout
    · exact h.finishCmd.fault
    · exact h
  · split
    · exact .ite h.fetchedTimeout h
    · exact h

theorem Canonical.raise {s : State} {y} (h : Canonical s) : Canonical (s.raise y) := h.fault.setf.sat.log

/-! ### PowerBoot -/

theorem Canonical.sense {s : State} (h : Canonical s) : Canonical s.sense :=
  .relatch (.applyThermal (.showTemps (.foldl h.setfs fun _ _ h => h.setf)))

theorem Canonical.resetTo {s : State} {cause block window} (h : Canonical s) : Canonical (s.resetTo cause block window) := by
  obtain ⟨hr, hh, -, -⟩ := h
  exact .setf ⟨.sublist hr List.filter_sublist, hh, rfl, rfl⟩

theorem Canonical.blockReset {s : State} (h : Canonical s) : Canonical s.blockReset :=
  .sense (.upd (.setf (.resetTo (.foldl (.foldl h fun _ _ h => h.haltTeam) fun _ _ h => h.haltLink))))

theorem Canonical.askReset {s : State} (h : Canonical s) : Canonical s.askReset := .ite h.blockReset h

theorem Canonical.rail {s : State} {r b} (h : Canonical s) : Canonical (s.rail r b) := h.setfs

theorem Canonical.sequence {s : State} (h : Canonical s) : Canonical s.sequence := .upd h.resetTo

theorem Canonical.toOff {s : State} (h : Canonical s) : Canonical s.toOff := by
  unfold State.toOff
  dsimp only
  refine .setfs (.foldl ?_ fun _ _ h => .ite h h.linkAct)
  exact .ite h (.dropInsts (.foldl (.foldl h fun _ _ h => h.finish) fun _ _ h => h.finishCmd))

theorem Canonical.powerReq {s : State} {v} (h : Canonical s) : Canonical (s.powerReq v) := by
  unfold State.powerReq
  split
  · exact h.setf.undoze
  · exact .ite (.ite h.setf.setf h.setf) h.cfgIgnored
  · exact h.cfgIgnored
  · exact h.setf.toOff

theorem Canonical.failStart {s : State} {code} (h : Canonical s) : Canonical (s.failStart code) :=
  .ite (.sense (.upd h.setf.setf.resetTo)) h.setf.setf.resetTo.setfs.sense

theorem Canonical.bootTo {s : State} {k} (h : Canonical s) : Canonical (s.bootTo k) := h

theorem Canonical.bootGo {s : State} (h : Canonical s) : Canonical s.bootGo := .ite h (.bootTo h)

theorem Canonical.bootLate {s : State} (h : Canonical s) : Canonical s.bootLate := by
  unfold State.bootLate
  split
  · exact .ite h.loseReference h
  · exact h.failStart
  · exact h.failStart
  · exact .ite (.upd h.fault) h.fault.failStart

/-! ### StageTick -/

theorem Canonical.overrun {s : State} {t} (h : Canonical s) : Canonical (s.overrun t) := h.noteOverrun.fault.abortWithHalt

theorem Canonical.sampleDone {s0 : State} (h0 : Canonical s0) : Canonical s0.sampleDone := .foldl h0.loseMirXmits.noteLate fun _ _ h => h.overrun

theorem Canonical.loseVec {s : State} {v} (h : Canonical s) : Canonical (s.loseVec v) := .ite h.sat.loseCar h

theorem Canonical.markLate {s : State} (h : Canonical s) : Canonical s.markLate := h

theorem Canonical.endTag {s : State} {p t} (h : Canonical s) : Canonical (s.endTag p t) := by
  unfold State.endTag
  split
  · exact h.sat.putRx.updInstOf
  · exact .ite h h.noteGranules
  · exact .ite h h.noteGranules
  · exact h

theorem Canonical.declareLost {s : State} (h : Canonical s) : Canonical s.declareLost :=
  .upd (.foldl (.pumpWrites (.foldl (.foldl h.markLate fun _ _ h => h.loseVec) fun _ _ h => .foldl h fun _ _ h => h.endTag))
  fun _ _ h => .foldl h fun _ _ h => h.endTag)

theorem Canonical.genChanged {s : State} {e} (h : Canonical s) : Canonical (s.genChanged e) :=
  .upd (.foldl (.setf (.ite h h.sat)) fun _ _ h => h.setRxGen)

theorem Canonical.commitOne {s : State} {inside x} (h : Canonical s) : Canonical (State.commitOne inside s x) := by
  unfold State.commitOne
  split
  · exact .ite h (.upd h.setf)
  · exact .ite h h.setf.genChanged
  · exact h.setf

theorem Canonical.doneAt {s : State} {t} (h : Canonical s) : Canonical (s.doneAt t) := .foldl h fun _ _ h => h.finishCmd

theorem Canonical.dropCorrection {s : State} (h : Canonical s) : Canonical s.dropCorrection := .setfs h

theorem Canonical.rootTick {s : State} {was} (h : Canonical s) : Canonical (s.rootTick was) :=
  .sourceUpdate (.upd (.ite (.dropCorrection (.ite h.setfs h)) (.ite h.setfs h)))

theorem Canonical.commitTick3 {s : State} {t} (h : Canonical s) : Canonical (s.commitTick3 t) := by
  unfold State.commitTick3
  dsimp only
  refine .rootTick (.doneAt ?_)
  refine .foldl ?_ fun _ _ h => h.commitOne
  split
  · exact .ite h (.upd (.setf h))
  · exact h

theorem Canonical.swapTick {s : State} {t} (h : Canonical s) : Canonical (s.swapTick t) := by
  unfold State.swapTick
  split
  · exact .ite h.doSwap h
  · exact h

theorem Canonical.realignPair {s : State} {e n} (h : Canonical s) : Canonical (s.realignPair e n) :=
  .setObj (.setObj (.ite (.fault (.log (.sat h))) h))

theorem Canonical.realign {s : State} {t} (h : Canonical s) : Canonical (s.realign t) := .ite (.foldl h fun _ _ h => h.realignPair) h

theorem Canonical.endSlots {s : State} (h : Canonical s) : Canonical s.endSlots := .foldl h fun _ _ h => h.endInst

theorem Canonical.goDegraded {s : State} {i} (h : Canonical s) : Canonical (s.goDegraded i) := h.sat.endSegs.dropWork.setInst.degRun

theorem Canonical.degradeRunning {s : State} (h : Canonical s) : Canonical s.degradeRunning := .foldl h fun _ _ h => h.goDegraded

theorem Canonical.putInst {s : State} {i} (h : Canonical s) : Canonical (s.putInst i) := .ite h.setInst h

theorem Canonical.beginInst {s : State} {i} (h : Canonical s) : Canonical (s.beginInst i) := by
  unfold State.beginInst
  extract_lets _ _ _ s2 _
  have h2 : Canonical s2 := .ite (.sat (.ite h.sat h)) (.ite h.sat h)
  exact .ite h2.putInst (.ite h2.putInst.degRun (.ite h2.putInst.barStart h2.putInst))

theorem Canonical.startSlot {s : State} {x k e} (h : Canonical s) : Canonical (s.startSlot x k e) := by
  unfold State.startSlot
  dsimp only
  refine .ite h (.ite h.setTeam.renumber ?_)
  split
  · exact .ite h.inc.setTeam.beginInst h.inc.setTeam.finishInst.dropInsts.beginInst
  · exact h.inc.setTeam.beginInst

theorem Canonical.startSlots {s : State} {k} (h : Canonical s) : Canonical (s.startSlots k) := by
  unfold State.startSlots
  split
  · exact h
  · exact .foldl h fun _ _ h => .foldl h fun _ _ h => h.startSlot

theorem Canonical.release {s : State} {segs} (h : Canonical s) : Canonical (s.release segs) := .foldl h fun _ _ h => .ite h h.setPost.nextSeg

theorem Canonical.enterStage {s : State} {k fresh} (h : Canonical s) : Canonical (s.enterStage k fresh) := by
  unfold State.enterStage
  extract_lets _ s2 s3 _ _
  have h2 : Canonical s2 := .ite h.setfs.setf (.ite h.setfs.inc h.setfs)
  have h3 : Canonical s3 := .ite h2.selectVariant h2.degradeRunning
  exact h3.flag.startSlots.release

theorem Canonical.stopAtTick {s : State} {t} (h : Canonical s) : Canonical (s.stopAtTick t) := .stopEngine (.release (.cutInstances (.ite h.inc h)))

theorem Canonical.advance {s : State} {t} (h : Canonical s) : Canonical (s.advance t) := by
  unfold State.advance
  split
  · exact h.enterStage
  · exact .ite h.stopAtTick h

theorem Canonical.congOut {s : State} {k p} (h : Canonical s) : Canonical (State.congOut k s p) := h.setfs

theorem Canonical.moveCong {s : State} {k} (h : Canonical s) : Canonical (s.moveCong k) :=
  .foldl (.upd (.foldl h fun _ _ h => h.congOut)) fun _ _ h => h.peak

theorem Canonical.moveWait {s : State} (h : Canonical s) : Canonical s.moveWait := .upd (.foldl h fun _ _ h => h.setfs)

theorem Canonical.tickPulse {s : State} {t sup} (h : Canonical s) : Canonical (s.tickPulse t sup) := .trace (.ite h h.emit)

theorem Canonical.tick {s : State} {t} (h : Canonical s) : Canonical (s.tick t) :=
  .tickPulse (.advance (.applyThermal (.moveWait (.moveCong (.foldl (.realign (.commitTick3 (.swapTick (.ite (.endSlots (.declareLost
  (.sampleDone h))) (.declareLost (.sampleDone h)))))) fun _ _ h => h.yardTick)))))

theorem Canonical.tickIf {s : State} {c} (h : Canonical s) : Canonical (s.tickIf c) := .ite h.tick h

theorem Canonical.storeUe {s : State} (h : Canonical s) : Canonical s.storeUe := .fault h

/-! ### RegWrite -/

theorem Canonical.putNow {s : State} {f i v} (h : Canonical s) : Canonical (s.putNow f i v) := by
  unfold State.putNow
  dsimp only
  split
  · exact .ite h (.genChanged (.setf h))
  · exact .upd (.setf h)
  · exact .setf h

theorem Canonical.putField {s0 : State} {i w} {a : State × Bool} {f} (h : Canonical a.1) : Canonical (State.putField s0 i w a f).1 := by
  unfold State.putField
  dsimp only
  split
  · split
    · exact h
    · split
      · exact h
      · exact h.setf
  · split
    · exact h.shadowAt
    · exact h.putNow
  · exact h.setf
  · exact h.setf
  · exact h.setf
  · exact h

theorem Canonical.putReg {s : State} {r i w off} (h : Canonical s) : Canonical (s.putReg r i w off) := by
  have hp : Canonical ((regFields r).foldl (s.putField i w) (s, false)).1 := foldl_fst h fun _ _ h => h.putField
  exact .ite hp.cfgIgnored hp

theorem Canonical.moveGrid {s : State} {old : State} (h : Canonical s) : Canonical (s.moveGrid old) := .ite h h

theorem Canonical.mtcLoad {s : State} {v off} (h : Canonical s) : Canonical (s.mtcLoad v off) := .ite (.timeStep (.upd h.setMtc)) h.cfgIgnored

theorem Canonical.stopNowWrite {s : State} (h : Canonical s) : Canonical s.stopNowWrite := by
  unfold State.stopNowWrite
  split
  · exact h
  · exact h.stopEngine
  · exact h

theorem Canonical.stopPeriodWrite {s : State} (h : Canonical s) : Canonical s.stopPeriodWrite := by
  unfold State.stopPeriodWrite
  split
  · exact h.stopEngine
  · exact h.setf
  · exact h

theorem Canonical.armWrite {s : State} (h : Canonical s) : Canonical s.armWrite := .ite h (.ite h.setfs h.setf)

theorem Canonical.ttCtl {s : State} {v off} (h : Canonical s) : Canonical (s.ttCtl v off) := by
  unfold State.ttCtl
  exact .ite (.ite h.cfgIgnored h.armWrite) (.ite h.stopNowWrite (.ite h.stopPeriodWrite h))

theorem Canonical.fltStatusWrite {s : State} {v} (h : Canonical s) : Canonical (s.fltStatusWrite v) := h.setf.relatch

theorem Canonical.fltFirstWrite {s : State} {v} (h : Canonical s) : Canonical (s.fltFirstWrite v) := .ite h.setfs h

theorem Canonical.raised {old : State} {s : State} {b} (h : Canonical s) : Canonical (old.raised s b) :=
  .ite h (.ite (.safeEnter (.ite h.fltVector h)) (.ite h.fltVector h))

theorem Canonical.fltReact {s : State} {hi v} (h : Canonical s) : Canonical (s.fltReact hi v) := .foldl (.ite h.setf h.setf) fun _ _ h => h.raised

theorem Canonical.resetWin {s : State} {v off} (h : Canonical s) : Canonical (s.resetWin v off) := .ite (.upd h.putReg) h.putReg

theorem Canonical.sqTail {s : State} {q v} (h : Canonical s) : Canonical (s.sqTail q v) := .ite h.undoze.sat h.undoze.setf.touch

theorem Canonical.cqHead {s : State} {q v} (h : Canonical s) : Canonical (s.cqHead q v) := .ite h.undoze.sat h.undoze.setf

theorem Canonical.cqArmWrite {s : State} {q v} (h : Canonical s) : Canonical (s.cqArmWrite q v) :=
  .ite h.undoze (.ite h.undoze.setf.vector h.undoze.setf)

theorem Canonical.irqData {s : State} {i v off} (h : Canonical s) : Canonical (s.irqData i v off) := .ite h.putReg.setf.message h.putReg

theorem Canonical.synSet {s : State} {n v off} (h : Canonical s) : Canonical (s.synSet n v off) :=
  .ite h.misuse.cfgIgnored (.ite h.misuse.cfgIgnored h.setObj)

theorem Canonical.synAdd {s : State} {n v off} (h : Canonical s) : Canonical (s.synAdd n v off) := .ite h.misuse.cfgIgnored h.localAdd

theorem Canonical.epochWrite {s : State} {t v} (h : Canonical s) : Canonical (s.epochWrite t v) := .ite h (.ite h.setf.updInst (.upd h.setf))

theorem Canonical.slice {s : State} {v off} (h : Canonical s) : Canonical (s.slice v off) := .ite h.putReg h.cfgIgnored

theorem Canonical.bootCtl {s : State} {v off} (h : Canonical s) : Canonical (s.bootCtl v off) :=
  .ite (.cfgIgnored (.ite h.bootGo h)) (.ite h.bootGo h)

theorem Canonical.holdWrite {s : State} {v off} (h : Canonical s) : Canonical (s.holdWrite v off) := .ite h.putReg h.putReg.fault

theorem Canonical.srgWrite {s : State} {r v off} (h : Canonical s) : Canonical (s.srgWrite r v off) := .upd h.putReg

theorem Canonical.dlCtl {s : State} {v off} (h : Canonical s) : Canonical (s.dlCtl v off) := .ite (.foldl h.putReg fun _ _ h => h.touch) h.putReg

theorem Canonical.writeReg {s : State} {r i v off} (h : Canonical s) : Canonical (s.writeReg r i v off) := by
  unfold State.writeReg
  split
  · exact h.mtcLoad
  · exact h.ttCtl
  · exact h.putReg.moveGrid
  · exact h.epochWrite
  · exact h.fltStatusWrite
  · exact h.fltFirstWrite
  · exact h.fltReact
  · exact h.fltReact
  · exact .ite h.askReset h
  · exact h.resetWin
  · exact h.sqTail
  · exact h.cqHead
  · exact h.cqArmWrite
  · exact h.undoze.dbCancel
  · exact h.irqData
  · exact h.synSet
  · exact h.synAdd
  · exact h.dlCtl
  · exact h.powerReq
  · exact h.bootCtl
  · exact h.slice
  · exact h.holdWrite
  · exact h.srgWrite
  · exact h.srgWrite
  · exact h.srgWrite
  · exact h.cfgIgnored
  · exact h.cfgIgnored
  · exact h.cfgIgnored
  · exact h.cfgIgnored
  · exact h.cfgIgnored
  · exact h.cfgIgnored
  · exact h.cfgIgnored
  · exact h.cfgIgnored
  · exact h.putReg

theorem Canonical.writeRam {s : State} {p data a v off} (h : Canonical s) : Canonical (s.writeRam p data a v off) :=
  .ite h.cfgIgnored (.ite h.setPost h.setPost)

theorem Canonical.writeAt {s : State} {off v} (h : Canonical s) : Canonical (s.writeAt off v) := by
  unfold State.writeAt
  split
  · exact h.writeReg
  · split
    · exact h.writeRam
    · exact h

theorem Canonical.clearRead {s : State} {off} (h : Canonical s) : Canonical (s.clearRead off) := by
  unfold State.clearRead
  split
  · exact .foldl h fun _ _ h => .ite h.setf h
  · exact h

theorem Canonical.readTo {s : State} {off} (h : Canonical s) : Canonical (s.readTo off) := .upd h.clearRead

/-! ### RegPort -/

theorem Canonical.jtag {s : State} {a} (h : Canonical s) : Canonical (s.jtag a) := by
  unfold State.jtag
  split
  · exact h
  · exact .ite h h
  · exact .ite h.writeAt h

/-! ### InfoAdmin -/

theorem Canonical.getLog {s : State} {q e bs} (h : Canonical s) : Canonical (s.getLog q e bs) := h.wrHost.finish

theorem Canonical.logCmd {s : State} {q k e bs} (h : Canonical s) : Canonical (s.logCmd q k e bs) := .ite h (h.adminCmd fun _ _ h => h.getLog)

theorem Canonical.logOther {s : State} {q e} (h : Canonical s) : Canonical (s.logOther q e) := .ite (h.adminCmd fun _ _ h => h) h

theorem Canonical.shadowEntry {s : State} {at_ ep w} (h : Canonical s) : Canonical (s.shadowEntry at_ ep w) := .foldl h fun _ _ h => h.shadowAt

/-! ### MirrorAdmin -/

theorem Canonical.emptyCopies {s : State} (h : Canonical s) : Canonical s.emptyCopies := .foldl h fun _ _ h => h.setfs

theorem Canonical.mirrorConfig {s : State} {e} (h : Canonical s) : Canonical (s.mirrorConfig e) := by
  unfold State.mirrorConfig
  extract_lets _ _ s1 _ s3 _
  have h1 : Canonical s1 := .ite h.mirInvalid (.ite h.mirInvalid.emptyCopies h)
  have h3 : Canonical s3 := .ite h1.flag.flag h1.flag.flag.setf
  exact .ite (.setfs (.ite h3.setf h3)) (.ite h3.setf h3)

theorem Canonical.mgmtAnswer {s : State} {c data wr} (h : Canonical s) : Canonical (s.mgmtAnswer c data wr) := h.inject

theorem Canonical.mgmtServe {s : State} {c} (h : Canonical s) : Canonical (s.mgmtServe c) := by
  unfold State.mgmtServe
  dsimp only
  refine .ite (.ite h.mgmtAnswer.clearRead h.mgmtAnswer) ?_
  exact .ite h.mgmtAnswer.cfgIgnored (.ite h.mgmtAnswer.writeAt h.mgmtAnswer)

theorem Canonical.mgmtPump {s : State} {n} (h : Canonical s) : Canonical (State.mgmtPump n s) := by
  induction n generalizing s with
  | zero => exact h
  | succ n ih =>
    unfold State.mgmtPump
    split
    · exact h
    · exact .ite h (ih (.mgmtServe h))

theorem Canonical.commitSend {s : State} {c} (h : Canonical s) : Canonical (s.commitSend c) := .inject h

theorem Canonical.commitEnd {s : State} {c code} (h : Canonical s) : Canonical (s.commitEnd c code) := by
  unfold State.commitEnd
  dsimp only
  split
  · exact h.setf.sat.finishCmd
  · exact h.setf.finishCmd
  · exact h.setf.finishCmd.fault
  · exact h.setf.finishCmd

theorem Canonical.commitOutcome {s : State} {lo n} (h : Canonical s) : Canonical (s.commitOutcome lo n).1 := by
  unfold State.commitOutcome
  split
  · exact h
  · split
    · exact h
    · split
      · exact h
      · split
        · exact h.setf.fault
        · exact h.setfs

/-! ### PostMsg -/

theorem Canonical.freeSenders {s : State} {d m} (h : Canonical s) : Canonical (s.freeSenders d m) := h

theorem Canonical.deliver {s : State} {src dst m} (h : Canonical s) : Canonical (s.deliver src dst m) := by
  unfold State.deliver
  split
  · exact h
  · exact .upd h.setPost

theorem Canonical.remoteSignal {s : State} {p x ep n v} (h : Canonical s) : Canonical (s.remoteSignal p x ep n v) := by
  refine .ite h.setPost ?_
  split
  · exact h.setPost
  · next ht => exact (h.takeCredit ht).owe.inject.setPost

/-! ### Step -/

theorem Canonical.withFetchWord {s : State} {nbits w} (h : Canonical s) : Canonical (s.withFetchWord nbits w) := by
  unfold State.withFetchWord
  split
  · exact h
  · exact h

/-! ## Commands -/

theorem CanonicalOut.putWord {s : State} {r i v} (h : Canonical s) : CanonicalOut (putWord r i v s) :=
  .portAccess h fun _ h => h.writeAt

theorem CanonicalOut.execStg {s : State} {p d imm} (h : Canonical s) : CanonicalOut (execStg p d imm s) := by
  refine .event h fun _ h => h.postRun fun _ _ h => ?_
  split
  · exact h.setPost
  · exact h.setPost
  · exact h.setPost
  · exact .upd h.setPost

theorem CanonicalOut.execRetireTeam {s : State} {q e} (h : Canonical s) : CanonicalOut (execRetireTeam q e s) := by
  refine .event h fun _ h => h.startCmd fun _ _ h => ?_
  dsimp only
  exact .ite h.invalid (.ite h.finish (.ite h.invalid h.adopt.dropTeamCmds.retireCheck))

theorem CanonicalOut.execAllocSync {s : State} {q e} (h : Canonical s) : CanonicalOut (execAllocSync q e s) := by
  refine .event h fun _ h => h.startCmd fun _ _ h => ?_
  split
  · exact h.invalid
  · exact h.allocSync.finish

theorem CanonicalOut.execFreeSync {s : State} {q e} (h : Canonical s) : CanonicalOut (execFreeSync q e s) := by
  refine .event h fun _ h => h.startCmd fun _ _ h => ?_
  split
  · exact h.invalid
  · exact .finish (.foldl h fun _ _ h => h.freeObj)

theorem CanonicalOut.execTimetableImageChecked {s : State} (h : Canonical s) : CanonicalOut (execTimetableImageChecked s) := by
  refine .event h fun _ h => ?_
  split
  · exact h.imageChecked
  · exact h

theorem CanonicalOut.execXmit {s : State} {p a imm} (h : Canonical s) : CanonicalOut (execXmit p a imm s) := by
  refine .event h fun _ h => h.dataOp fun _ _ _ _ h => ?_
  dsimp only
  exact .ite h.postFault (.ite h.takeTag.tagDone (.ite h.takeTag.loseMirXmit h.takeTag))

theorem CanonicalOut.execArrayOperationStart {s : State} {scr} (h : Canonical s) : CanonicalOut (execArrayOperationStart s scr) := by
  refine .event h fun _ h => ?_
  dsimp only
  split
  · exact .ite h.arrStart.scrEcc h.arrStart
  · exact h.arrStart

theorem CanonicalOut.execPutReceive {s : State} {p c} (h : Canonical s) : CanonicalOut (execPutReceive p c s) := by
  refine .event h fun _ h => ?_
  split
  · next ht => exact (h.takeAccepted (Option.ite_none_left_eq_some.1 ht).2).putArrive
  · exact h

theorem CanonicalOut.execGetReqReceive {s : State} {p c} (h : Canonical s) : CanonicalOut (execGetReqReceive p c s) := by
  refine .event h fun _ h => ?_
  split
  · next ht => exact (h.takeAccepted ht).respond
  · exact h

theorem CanonicalOut.execAtomReqReceive {s : State} {p c} (h : Canonical s) : CanonicalOut (execAtomReqReceive p c s) := by
  refine .event h fun _ h => ?_
  split
  · next ht => exact (h.takeAccepted (Option.ite_none_left_eq_some.1 ht).2).atomArrive
  · exact h

theorem CanonicalOut.execGetRspReceive {s : State} {p c} (h : Canonical s) : CanonicalOut (execGetRspReceive p c s) := by
  refine .event h fun _ h => ?_
  split
  · next ht => exact (h.takeAccepted (Option.ite_none_left_eq_some.1 ht).2).responseHere
  · exact h

theorem CanonicalOut.execAtomRspReceive {s : State} {p c} (h : Canonical s) : CanonicalOut (execAtomRspReceive p c s) := by
  refine .event h fun _ h => ?_
  split
  · next ht => exact (h.takeAccepted (Option.ite_none_left_eq_some.1 ht).2).responseHere
  · exact h

theorem CanonicalOut.execSignalReceive {s : State} {p c} (h : Canonical s) : CanonicalOut (execSignalReceive p c s) := by
  refine .event h fun _ h => ?_
  split
  · next ht => exact (h.takeAccepted ht).signalArrive
  · exact h

theorem CanonicalOut.execBarrierArrive {s : State} {p c} (h : Canonical s) : CanonicalOut (execBarrierArrive p c s) := by
  refine .event h fun _ h => ?_
  split
  · next ht => exact (h.takeAccepted (Option.ite_none_right_eq_some.1 ht).2).barrierHere
  · exact h

theorem CanonicalOut.execBarrierRelease {s : State} {p c} (h : Canonical s) : CanonicalOut (execBarrierRelease p c s) := by
  refine .event h fun _ h => ?_
  split
  · next ht => exact (h.takeAccepted (Option.ite_none_right_eq_some.1 ht).2).barrierHere
  · exact h

theorem CanonicalOut.execFarWrReceive {s : State} {l c} (h : Canonical s) : CanonicalOut (execFarWrReceive l c s) := by
  refine .event h fun _ h => ?_
  split
  · exact h
  · next ht => exact .ite (h.takeAccepted ht).refuse (h.takeAccepted ht).depotAdd

theorem CanonicalOut.execFarRdreqReceive {s : State} {l c} (h : Canonical s) : CanonicalOut (execFarRdreqReceive l c s) := by
  refine .event h fun _ h => ?_
  split
  · exact h
  · next ht => exact .ite (h.takeAccepted ht).refuse (h.takeAccepted ht).depotAdd

theorem CanonicalOut.execMirrorReceive {s : State} {l c} (h : Canonical s) : CanonicalOut (execMirrorReceive l c s) := by
  refine .event h fun _ h => ?_
  split
  · next ht => exact (h.takeAccepted ht).mirrorHere
  · exact h

theorem CanonicalOut.execGroomJobEnd {s : State} (h : Canonical s) : CanonicalOut (execGroomJobEnd s) := by
  refine .event h fun _ h => ?_
  split
  · exact .ite h.groomEnd.afterJob h
  · exact h

theorem CanonicalOut.execFarRdrspReceive {s : State} {l c} (h : Canonical s) : CanonicalOut (execFarRdrspReceive l c s) := by
  refine .event h fun _ h => ?_
  split
  · exact h
  · next ht =>
    split
    · exact .ite (h.takeAccepted ht).fetchHere (h.takeAccepted ht).farRsp
    · exact (h.takeAccepted ht).farRsp

theorem CanonicalOut.execRecallReceive {s : State} {l t slot} (h : Canonical s) : CanonicalOut (execRecallReceive l t slot s) := by
  refine .event h fun _ h => .ite h ?_
  split
  · exact h.recallEoc
  · exact .ite h.recallName h.badUnit

theorem CanonicalOut.execRungChange {s : State} {l} (h : Canonical s) : CanonicalOut (execRungChange l s) := by
  refine .event h fun _ h => ?_
  split
  · exact .ite h.rungChanged h
  · exact h

theorem CanonicalOut.execTrainingTimeout {s : State} {l} (h : Canonical s) : CanonicalOut (execTrainingTimeout l s) := by
  refine .event h fun _ h => ?_
  split
  · exact .ite h.trainFail h
  · exact h

theorem CanonicalOut.execCompletionPost {s : State} {q id} (h : Canonical s) : CanonicalOut (execCompletionPost q id s) := by
  refine .event h fun _ h => ?_
  dsimp only
  split
  · exact .ite h.postDone h
  · exact h

theorem CanonicalOut.execReplayGuilty {s : State} {y} (h : Canonical s) : CanonicalOut (execReplayGuilty y s) := by
  refine .event h fun _ h => ?_
  split
  · split
    · exact .ite h.guilty h
    · exact h
  · exact h

/-- VDD_AON comes up: of registers and memories only the host's memory is left. -/
theorem CanonicalOut.execAonPowerUp {s : State} (h : Canonical s) : CanonicalOut (execAonPowerUp s) := by
  obtain ⟨-, hh, -, -⟩ := h
  exact .next ⟨List.Pairwise.nil, hh, rfl, rfl⟩

theorem CanonicalOut.execSupplyUndervoltage {s : State} {r} (h : Canonical s) : CanonicalOut (execSupplyUndervoltage r s) := by
  refine .next (.keep ?_)
  exact .ite h (.ite h.rail (.ite (.ite (.upd h.rail.resetTo) h.rail) (.fault (.upd h.rail))))

theorem CanonicalOut.execImageFetchComplete {s : State} {err} (h : Canonical s) : CanonicalOut (execImageFetchComplete err s) := by
  refine .event h fun _ h => .ite h (.ite h.failStart ?_)
  split
  · exact h.failStart
  · exact h.bootTo

theorem CanonicalOut.execBootStepTimeout {s : State} (h : Canonical s) : CanonicalOut (execBootStepTimeout s) := by
  refine .event h fun _ h => ?_
  split
  · exact .ite h.bootLate h
  · exact h

theorem CanonicalOut.execTimetableSwap {s : State} (h : Canonical s) : CanonicalOut (execTimetableSwap s) := by
  refine .event h fun _ h => ?_
  split
  · exact .ite h.tickIf (.ite h.doSwap h)
  · exact h

theorem CanonicalOut.execMgmtReqReceive {s : State} {p c} (h : Canonical s) : CanonicalOut (execMgmtReqReceive p c s) := by
  refine .event h fun _ h => ?_
  split
  · next ht =>
    have h1 := h.takeAccepted ht
    exact .ite h1 (.mgmtPump (.upd h1))
  · exact h

theorem CanonicalOut.execMirrorCommit {s : State} {q e} (h : Canonical s) : CanonicalOut (execMirrorCommit q e s) := by
  refine .event h fun _ h => h.startCmd fun _ _ h => ?_
  split
  · exact h.invalid
  · exact h.adopt

theorem CanonicalOut.execMirrorCommitWriteSend {s : State} (h : Canonical s) : CanonicalOut (execMirrorCommitWriteSend s) := by
  refine .event h fun _ h => ?_
  split
  · exact h
  · exact .ite h (.ite h.finishCmd.fault h.commitSend)

theorem CanonicalOut.execMgmtRspReceive {s : State} {p c} (h : Canonical s) : CanonicalOut (execMgmtRspReceive p c s) := by
  refine .event h fun _ h => ?_
  split
  · exact h
  · next ht =>
    split
    · exact .ite (h.takeAccepted ht).commitEnd (h.takeAccepted ht).emit
    · exact (h.takeAccepted ht).emit

theorem CanonicalOut.execMirrorCommitOutcome {s : State} (h : Canonical s) : CanonicalOut (execMirrorCommitOutcome s) := by
  refine .event h fun _ h => ?_
  split
  · exact h
  · exact .ite h.mgmtPump (.ite h (.mgmtPump (.mgmtAnswer (.commitOutcome (.upd h)))))

theorem CanonicalOut.execWaitm {s : State} {p d imm} (h : Canonical s) : CanonicalOut (execWaitm p d imm s) := by
  refine .event h fun _ h => h.postRun fun _ _ h => ?_
  dsimp only
  split
  · exact h.setPost
  · exact h.setPost.freeSenders

/-- Every command keeps the canonical form. -/
theorem CanonicalOut.exec {s : State} (h : Canonical s) (i : Instr) : CanonicalOut (Machine.exec i s) := by
  cases i with dsimp only [Machine.exec]
  | createSq => exact .event h fun _ h => h.adminCmd fun _ _ h => h.createSq.finish
  | createCq => exact .event h fun _ h => h.adminCmd fun _ _ h => h.createCq.finish
  | destroySq => exact .event h fun _ h => h.adminCmd fun _ _ h => h.destroySq.finishWith
  | destroyCq => exact .event h fun _ h => .ite h (h.adminCmd fun _ _ h => h.setf.finish)
  | defineTeam => exact .event h fun _ h => h.adminCmd fun _ _ h => h.defineTeam.finish
  | retireTeam => exact .execRetireTeam h
  | loadTimetableNow => exact .event h fun _ h => h.startLoad.loadOther
  | loadTimetableAtMtc => exact .event h fun _ h => h.startLoad
  | timetableImageChecked => exact .execTimetableImageChecked h
  | timetableSwap => exact .execTimetableSwap h
  | setTenant => exact .event h fun _ h => h.adminCmd fun _ _ h => h.setTenant.finish
  | allocSync => exact .execAllocSync h
  | freeSync => exact .execFreeSync h
  | linkEnable => exact .event h fun _ h => h.linkControl.linkOther
  | linkDisable => exact .event h fun _ h => h.linkControl
  | linkRetrain => exact .event h fun _ h => h.linkControl
  | linkReaim => exact .event h fun _ h => h.linkControl
  | linkTest => exact .event h fun _ h => h.linkControl
  | mirrorConfig => exact .event h fun _ h => h.adminCmd fun _ _ h => h.mirrorConfig.finish
  | getLogAon => exact .event h fun _ h => h.logCmd.logOther
  | getLogDump => exact .event h fun _ h => h.logCmd
  | resetYard => exact .event h fun _ h => h.adminCmd fun _ _ h => h.adopt.startReset
  | fwActivate => exact .event h fun _ h => h.adminCmd fun _ _ h => .finish h
  | setEndpoints => exact .event h fun _ h => h.adminCmd fun _ _ h => .adopt (.foldl h fun _ _ h => h.shadowEntry)
  | setDetour => exact .event h fun _ h => h.adminCmd fun _ _ h => h.shadowAt.shadowAt.adopt
  | allreduce => exact .event h fun _ h => h.teamCmd
  | reduceScatter => exact .event h fun _ h => h.teamCmd
  | allgather => exact .event h fun _ h => h.teamCmd
  | broadcast => exact .event h fun _ h => h.teamCmd
  | reduce => exact .event h fun _ h => h.teamCmd
  | alltoall => exact .event h fun _ h => h.teamCmd
  | gather => exact .event h fun _ h => h.teamCmd
  | scatter => exact .event h fun _ h => h.teamCmd
  | barrier => exact .event h fun _ h => h.teamCmd
  | rcug => exact .event h fun _ h => h.teamCmd
  | update => exact .event h fun _ h => h.teamCmd
  | norm => exact .event h fun _ h => h.teamCmd
  | put => exact .event h fun _ h => h.remoteCmd
  | get => exact .event h fun _ h => h.remoteCmd
  | atomic => exact .event h fun _ h => h.remoteCmd
  | signalCommand => exact .event h fun _ h => h.remoteCmd
  | offload => exact .event h fun _ h => h.moveCmd
  | fetch => exact .event h fun _ h => h.moveCmd
  | copy => exact .event h fun _ h => h.teamCmd
  | mirrorCommit => exact .execMirrorCommit h
  | mirrorCommitWriteSend => exact .execMirrorCommitWriteSend h
  | mirrorCommitOutcome => exact .execMirrorCommitOutcome h
  | sqDoorbell => exact .putWord h
  | cqHeadWrite => exact .putWord h
  | cqArm => exact .putWord h
  | cancel => exact .putWord h
  | adminQueueEnable => exact .putWord h
  | adminQueueDisable => exact .putWord h
  | irqUnmask => exact .putWord h
  | mtcLoad => exact .putWord h
  | arm => exact .putWord h
  | stopAtPeriod => exact .putWord h
  | stopNow => exact .putWord h
  | synObjSet => exact .putWord h
  | synAdd => exact .putWord h
  | fltStatusClear => exact .putWord h
  | fltFirstClear => exact .putWord h
  | fltReactWrite => exact .putWord h
  | blockReset => exact .portAccess h fun _ h => h.askReset
  | resetWinClear => exact .putWord h
  | dozeRequest => exact .portAccess h fun _ h => h.powerReq
  | runRequest => exact .portAccess h fun _ h => h.powerReq
  | offRequest => exact .portAccess h fun _ h => h.powerReq
  | bootGo => exact .portAccess h fun _ h => h.bootGo
  | epochDecisionWrite => exact .putWord h
  | debugHold => exact .putWord h
  | registerWrite => exact .portAccess h fun _ h => .ite h.writeAt h
  | registerReadClear => exact .portAccess h fun _ h => .ite h.readTo h
  | submissionFetch => exact .event h fun _ h => h.fetchTurn
  | bindingRecordWrite => exact .event h fun _ h => h.bindRecord
  | completionPost => exact .execCompletionPost h
  | interruptResponse => exact .event h fun _ h => h.irqAnswer
  | commandTimeout => exact .event h fun _ h => .ite h h.timeout
  | quarantineEnd => exact .event h fun _ h => h.quarantineOver
  | fenceEnd => exact .event h fun _ h => h.fenceOver
  | stageTick => exact .event h fun _ h => .ite (.tick (.ite h.storeUe h)) h
  | engineStart => exact .event h fun _ h => h.tickIf
  | periodEnd => exact .event h fun _ h => h.tickIf
  | realignment => exact .event h fun _ h => h.tickIf
  | tickSend => exact .event h fun _ h => .ite (.upd h.sendTicks) h
  | tickReceive => exact .event h fun _ h => .ite h.tickHere h
  | timeCorrection => exact .event h fun _ h => .ite h h.applyMean
  | slewComplete => exact .event h fun _ h => .ite h.corrected h
  | referenceLoss => exact .island (.ite h.loseReference h) (.ite h.toOscillator h)
  | referenceReturn => exact .island h.maybeRegain h.maybeRegain
  | nop => exact .event h fun _ h => h.postOnly
  | add => exact .event h fun _ h => h.alu
  | sub => exact .event h fun _ h => h.alu
  | and => exact .event h fun _ h => h.alu
  | or => exact .event h fun _ h => h.alu
  | xor => exact .event h fun _ h => h.alu
  | shl => exact .event h fun _ h => h.alu
  | shr => exact .event h fun _ h => h.alu
  | addi => exact .event h fun _ h => h.postOnly
  | movi => exact .event h fun _ h => h.postOnly
  | mul => exact .event h fun _ h => h.alu
  | beq => exact .event h fun _ h => h.postRun fun _ _ h => h.branch
  | bne => exact .event h fun _ h => h.postRun fun _ _ h => h.branch
  | blt => exact .event h fun _ h => h.postRun fun _ _ h => h.branch
  | jmp => exact .event h fun _ h => h.postRun fun _ _ h => h.jumpTo
  | endSeg => exact .event h fun _ h => h.postRun fun _ _ h => .ite h.endSeg h.setPost
  | ld => exact .event h fun _ h => h.postRun fun _ _ h => .ite h.postFault (.ite h.fault.postFault h.setPost)
  | st => exact .event h fun _ h => h.postRun fun _ _ h => .ite h.setPost h.postFault
  | stg => exact .execStg h
  | send => exact .event h fun _ h => h.postRun fun _ _ h => .ite h.postFault (.ite h.setPost (.upd h.setPost))
  | waitm => exact .execWaitm h
  | waits => exact .event h fun _ h => h.postRun fun _ _ h => .ite h.postFault (.ite h.setPost h.setPost)
  | signal => exact .event h fun _ h => h.postRun fun _ _ h => .ite h.remoteSignal (.ite h.postFault h.setPost.localAdd)
  | xmit => exact .execXmit h
  | recv => exact .event h fun _ h => h.dataOp fun _ _ _ _ h => .ite h.postFault h.takeTag.dropRx.tryRecv
  | aop => exact .event h fun _ h => h.dataOp fun _ _ _ _ h => .ite h.postFault h.issueAop
  | hrd => exact .event h fun _ h => h.dataOp fun _ _ _ _ h => h.readOp
  | hwr => exact .event h fun _ h => h.dataOp fun _ _ _ _ h => h.takeTag
  | drd => exact .event h fun _ h => h.dataOp fun _ _ _ _ h => h.readOp
  | dwr => exact .event h fun _ h => h.dataOp fun _ _ _ _ h => h.takeTag
  | waitx => exact .event h fun _ h => h.postRun fun _ _ h => .ite h.setPost h.setPost
  | mailboxMessageArrive => exact .event h fun _ h => h.deliver
  | arrayOperationStart => exact .execArrayOperationStart h
  | arrayOperationComplete => exact .event h fun _ h => h.arrEnd.heldRuns
  | governorStep => exact .event h fun _ h => h.governor
  | groomJobStart => exact .event h fun _ h => h.groomStart
  | groomJobEnd => exact .execGroomJobEnd h
  | epochCopyComplete => exact .event h fun _ h => h.epochCopy
  | vehTileComplete => exact .event h fun _ h => h.vehReport
  | scheduledCarriageSend => exact .event h fun _ h => h.schedSend
  | unscheduledCarriageGrant => exact .event h fun _ h => h.unschedGrant
  | carriageArrive => exact .event h fun _ h => h.carArrive
  | crcVerdict => exact .event h fun _ h => h.verdict
  | dataReceive => exact .event h fun _ h => h.dataReceive
  | putReceive => exact .execPutReceive h
  | getReqReceive => exact .execGetReqReceive h
  | getRspReceive => exact .execGetRspReceive h
  | atomReqReceive => exact .execAtomReqReceive h
  | atomRspReceive => exact .execAtomRspReceive h
  | signalReceive => exact .execSignalReceive h
  | barrierArrive => exact .execBarrierArrive h
  | barrierRelease => exact .execBarrierRelease h
  | mgmtReqReceive => exact .execMgmtReqReceive h
  | mgmtRspReceive => exact .execMgmtRspReceive h
  | farWrReceive => exact .execFarWrReceive h
  | farRdreqReceive => exact .execFarRdreqReceive h
  | farRdrspReceive => exact .execFarRdrspReceive h
  | mirrorReceive => exact .execMirrorReceive h
  | ackUpstreamSend => exact .event h fun _ h => .ite h.pumpReins.ackUp h
  | ackUpstreamReceive => exact .event h fun _ h => .ite h (.ite h.badUnit h.ackedUp)
  | ackDownstreamReceive => exact .event h fun _ h => .ite h (.ite h.badUnit h.ackedDown)
  | ackDownstreamRepeat => exact .event h fun _ h => .ite h.ackAgain h
  | nakReceive => exact .event h fun _ h => .ite h (.ite h.badUnit h.naked)
  | replayTimeout => exact .event h fun _ h => .ite h.naked h
  | replaySend => exact .event h fun _ h => .ite h.sendReplay h
  | recallReceive => exact .execRecallReceive h
  | reinReceive => exact .event h fun _ h => .ite h (.ite h.badUnit (.ite h.reinHere (.foldl h.sendRein fun _ _ h => h.pumpReins)))
  | haltReceive => exact .event h fun _ h => .ite h.halt h
  | linkHaltReceive => exact .event h fun _ h => .ite h (.ite h.badUnit h.linkHalt)
  | attributionPeriodEnd => exact .event h fun _ h => .ite h.setLink h
  | markSend => exact .event h fun _ h => .ite h.emit.setSub h
  | markReceive => exact .event h fun _ h => .ite h.markIn h
  | berWindowEnd => exact .event h fun _ h => .ite (.berEnd (.ite h.lineErrs h)) (.ite h.lineErrs h)
  | laneLock => exact .event h fun _ h => .ite h.laneLocked h
  | alignComplete => exact .event h fun _ h => .ite h.aligned h
  | rtReqReceive => exact .event h fun _ h => .ite h (.ite h.badUnit h.train)
  | rtRspReceive => exact .event h fun _ h => .ite h (.ite h.badUnit h.rtGot)
  | capReceive => exact .event h fun _ h => .ite h (.ite h.badUnit h.capIn)
  | stepReqReceive => exact .event h fun _ h => .ite h (.ite h.badUnit h.stepReq)
  | stepAckReceive => exact .event h fun _ h => .ite h (.ite h.badUnit (.ite h (.ite h.updLink h.toActive)))
  | resultReceive => exact .event h fun _ h => .ite h (.ite h.badUnit (.ite h h.updLink.choose))
  | stepStart => exact .event h fun _ h => .ite h.askStep h
  | rungChange => exact .execRungChange h
  | prbsEnd => exact .event h fun _ h => .ite h.prbsEnded h
  | trainingTimeout => exact .execTrainingTimeout h
  | reaimLight => exact .event h fun _ h => .ite h.toLock h
  | reaimTimeout => exact .event h fun _ h => .ite h.failDark.fault h
  | lightOn => exact .next (.keep (.ite h.setPresent.rise.openFibre.darkToLock h.setPresent))
  | lightLoss => exact .next (.keep (.ite h.setPresent.lightGone h.setPresent))
  | probePulse => exact .event h fun _ h => h.pulse
  | litWaitExpiry => exact .event h fun _ h => .ite (.ite h.setGroup h.setGroup.laser) h
  | laserFault => exact .event h fun _ h => .ite h h.laserFaulted
  | bridleService => exact .event h fun _ h => .ite h.bridle h
  | gainChangeApply => exact .event h fun _ h => .ite h h.setGain.updLink
  | deadlockRaise => exact .event h fun _ h => .ite h.raise h
  | yardDrainComplete => exact .event h fun _ h => .ite h.clearYard.setYard h
  | coachmanRestart => exact .event h fun _ h => .ite h.restartCoach h
  | replay => exact .event h fun _ h => .ite h.replayMove h
  | replayGuilty => exact .execReplayGuilty h
  | shadowWindowEnd => exact .event h fun _ h => h
  | safeNAssert => exact .event h fun _ h => .safeEnter (.fault h)
  | safeNRelease => exact .event h fun _ h => .ite (.blockReset h) h
  | collectorMismatch => exact .event h fun _ h => h.fault
  | powerFailWarning => exact .event h fun _ h => .ite h.powerFail h
  | coldReset => exact .next (.keep (.ite (.sense (.setf (.resetTo h))) (.upd (.resetTo h))))
  | aonPowerUp => exact .execAonPowerUp h
  | supplyUndervoltage => exact .execSupplyUndervoltage h
  | supplySequenceError => exact .next (.keep (.ite h h.rail.sequence))
  | thermalThresholdCrossing => exact .event h fun _ h => h.thermal
  | aonOscillatorLoss => exact .event h fun _ h => .fault h
  | coachmanWatchdogExpiry => exact .event h fun _ h => h.fault
  | patrolScrubRead => exact .event h fun _ h => h.scrub
  | hitchReadResponse => exact .event h fun _ h => h.readBeat
  | hitchWriteResponse => exact .event h fun _ h => h.writeResponse
  | hitchCreditReturn => exact .event h fun _ h => h.hitchCredit
  | hitchBoundExpiry => exact .event h fun _ h => h.boundExpiry
  | depotAccessComplete => exact .event h fun _ h => h.depotDone.movesDone
  | imageFetchComplete => exact .execImageFetchComplete h
  | bootStepTimeout => exact .execBootStepTimeout h
  | depotTrainingComplete => exact .event h fun _ h => .ite h h.setfs.bootTo.releaseHeld
  | pllLock => exact .event h fun _ h => .ite h (.ite h.bootTo h.bootTo)
  | rtReqSend => exact .event h fun _ h => .ite h.rtAsk h
  | capSend => exact .event h fun _ h => .ite h.capOut h
  | probePulseEnd => exact .event h fun _ h => .ite h.laser h
  | prbsSync => exact .event h fun _ h => .ite h.prbsBits h
  | supplyGood => exact .next (.keep (.ite h.rail.sequence (.ite (.upd h.rail) h.rail)))
  | jtagAccess => exact .event h fun _ h => h.jtag
  | cmMemUe => exact .event h fun _ h => h.fault
  | cmTrap => exact .event h fun _ h => h.fault
  | ctlPortViolation => exact .event h fun _ h => h.fault
  | undefinedOpcode => exact .event h fun _ h => h.postRun fun _ _ h => h.postFault

/-- Settles O58: a step is the front command on a state with the same registers and memories, or the passing of time. -/
theorem everyStepKeepsTheStateCanonical : Obligations.EveryStepKeepsTheStateCanonical := by
  intro s t h hs
  unfold Machine.step at hs
  split at hs
  · exact CanonicalOut.exec (.upd h) _ t hs
  · exact CanonicalOut.next h.idle t hs

end Sys2Proof

namespace Sys2Proof

open Machine

/-! # Frames of single updates, and one change after another (O17, O32, O37, O38, O48) -/

theorem Frame.part {ps : List Part} {fs : List (Fld × Nat)} {s t : State} (h : Frame ps fs s t) (p : Part) (hp : p ∉ ps) : p.Same s t :=
  h.2.2.1 p hp

theorem Frame.rf {ps : List Part} {fs : List (Fld × Nat)} {s t : State} (h : Frame ps fs s t) {f : Fld} {i : Nat} (hf : (f, i) ∉ fs) :
    t.rf f i = s.rf f i := h.2.2.2 f i hf

/-- Two changes, one after the other. -/
theorem Frame.append {ps qs : List Part} {fs gs : List (Fld × Nat)} {s t u : State} (h : Frame ps fs s t) (k : Frame qs gs t u) :
    Frame (ps ++ qs) (fs ++ gs) s u :=
  (h.mono (List.subset_append_left ..) (List.subset_append_left ..)).trans (k.mono (List.subset_append_right ..) (List.subset_append_right ..))

/-- A state with the old queue and the old fuses is what a command keeps of it. -/
theorem Frame.keep_eq {ps : List Part} {fs : List (Fld × Nat)} {s t : State} (h : Frame ps fs s t) : s.keep t = t := by
  obtain ⟨hp, hf, -, -⟩ := h
  simp only [State.keep, ← hp, ← hf]

/-- What a command does, from the state it makes. -/
theorem does_of_frame {c : Instr} {s u : State} {ps : List Part} {fs : List (Fld × Nat)} {P : State → Prop}
    (he : exec c s = .next (s.keep u)) (hf : Frame ps fs s u) (h : P u) : Does c s P := ⟨u, hf.keep_eq ▸ he, h⟩

/-- A command that leaves the state alone. -/
theorem does_nothing {c : Instr} {s : State} (he : exec c s = .next (s.keep s)) : Does c s (Frame [] [] s) :=
  does_of_frame he (Frame.refl [] [] s) (Frame.refl _ _ s)

/-- A change of parts only. -/
theorem frame_of_parts {ps : List Part} {s t : State} (hp : t.pending = s.pending) (hf : t.fuses = s.fuses) (hr : t.regs = s.regs)
    (h : AllBut ps s t) : Frame ps [] s t := ⟨hp, hf, h, fun f i _ => State.rf_congr hr hf f i⟩

theorem frame_qs (s : State) (x : Queues) : Frame [.qs] [] s { s with qs := x } :=
  frame_of_parts rfl rfl rfl fun p _ => by cases p <;> simp_all [Part.Same]

theorem frame_teams (s : State) (x : List (Nat × TeamRec)) : Frame [.teams] [] s { s with teams := x } :=
  frame_of_parts rfl rfl rfl fun p _ => by cases p <;> simp_all [Part.Same]

theorem frame_insts (s : State) (x : List Inst) : Frame [.insts] [] s { s with insts := x } :=
  frame_of_parts rfl rfl rfl fun p _ => by cases p <;> simp_all [Part.Same]

theorem frame_host (s : State) (x : List (Nat × Byte)) : Frame [.host] [] s { s with host := x } :=
  frame_of_parts rfl rfl rfl fun p _ => by cases p <;> simp_all [Part.Same]

theorem frame_outbox (s : State) (x : List OutEv) : Frame [.outbox] [] s { s with outbox := x } :=
  frame_of_parts rfl rfl rfl fun p _ => by cases p <;> simp_all [Part.Same]

theorem frame_aon (s : State) (x : Aon) : Frame [.aon] [] s { s with aon := x } :=
  frame_of_parts rfl rfl rfl fun p _ => by cases p <;> simp_all [Part.Same]

theorem frame_net (s : State) (x : Net) : Frame [.net] [] s { s with net := x } :=
  frame_of_parts rfl rfl rfl fun p _ => by cases p <;> simp_all [Part.Same]

theorem frame_hitch (s : State) (x : HitchSt) : Frame [.hitch] [] s { s with hitch := x } :=
  frame_of_parts rfl rfl rfl fun p _ => by cases p <;> simp_all [Part.Same]

theorem frame_yards (s : State) (x : List (Nat × YardRec)) : Frame [.yards] [] s { s with yards := x } :=
  frame_of_parts rfl rfl rfl fun p _ => by cases p <;> simp_all [Part.Same]

theorem frame_groom (s : State) (x : GroomSt) : Frame [.groom] [] s { s with groom := x } :=
  frame_of_parts rfl rfl rfl fun p _ => by cases p <;> simp_all [Part.Same]

theorem frame_arr (s : State) (x : ArraySt) : Frame [.arr] [] s { s with arr := x } :=
  frame_of_parts rfl rfl rfl fun p _ => by cases p <;> simp_all [Part.Same]

theorem frame_power (s : State) (x : Power) : Frame [.power] [] s { s with power := x } :=
  frame_of_parts rfl rfl rfl fun p _ => by cases p <;> simp_all [Part.Same]

theorem frame_sat (s : State) (f : Fld) (i n : Nat) : Frame [] [(f, i)] s (s.sat f i n) := frame_setf s f i _

theorem two_pow_pos_sub_lt (n : Nat) : 2 ^ n - 1 < 2 ^ n := by have := Nat.two_pow_pos n; omega

/-- A saturating counter after n more events. -/
theorem rf_sat (s : State) (f : Fld) (i n : Nat) : (s.sat f i n).rf f i = min (s.rf f i + n) (2 ^ fwidth f - 1) := by
  rw [State.sat, State.rf_setf_same, Nat.mod_eq_of_lt]
  exact Nat.lt_of_le_of_lt (Nat.min_le_right ..) (two_pow_pos_sub_lt _)

theorem counted_sat (s : State) (f : Fld) (i : Nat) : Counted s f i (s.sat f i) := rf_sat s f i 1

/-- A counter that a later change leaves alone. -/
theorem counted_frame {s t u : State} {f : Fld} {i : Nat} {ps : List Part} {fs : List (Fld × Nat)} (h : Counted s f i t) (k : Frame ps fs t u)
    (hn : (f, i) ∉ fs) : Counted s f i u := (k.rf hn).trans h

/-! ## Time -/

/-- The machine time does not move unless its counter, its clock or the core domain does. -/
theorem Frame.now {ps : List Part} {fs : List (Fld × Nat)} {s t : State} (h : Frame ps fs s t) (hf : (.AON_MTC_MTC_NS, 0) ∉ fs)
    (ht : .time ∉ ps) (hp : .power ∉ ps) : t.now = s.now := by
  have hrf : t.rf .AON_MTC_MTC_NS 0 = s.rf .AON_MTC_MTC_NS 0 := h.rf hf
  have htime : t.time = s.time := h.part .time ht
  have hpow : t.power = s.power := h.part .power hp
  have hcore : t.coreOn = s.coreOn := by rw [State.coreOn, hpow, State.coreOn]
  simp only [State.now, State.mtc, State.edgeMtc, State.interp, hcore, hrf, htime]

/-! ## Outputs -/

theorem frame_trace (s : State) (typ payload : Nat) : Frame [.outbox] [(.DBG_TRACE_STAT_SENT, 0)] s (s.trace typ payload) := by
  unfold State.trace
  split
  · exact (frame_outbox s _).append (frame_setf (s.emit _) .DBG_TRACE_STAT_SENT 0 _)
  · exact (Frame.refl _ _ s)

/-- A trace record stands after all other outputs. -/
theorem trace_outbox (s : State) (typ payload : Nat) : ∃ r, (s.trace typ payload).outbox = s.outbox ++ r := by
  unfold State.trace
  split
  · exact ⟨_, rfl⟩
  · exact ⟨[], (List.append_nil _).symm⟩

end Sys2Proof

namespace Sys2Proof

open Machine

/-! # Team commands (O17) -/

theorem frame_finish (s : State) (q id op status result : Nat) : Frame [.qs] [] s (s.finish q id op status result) := frame_qs s _

theorem completed_finish (s : State) (q id op status result : Nat) :
    Completed s (s.finish q id op status result) (plainDone q id op status result) := ⟨rfl, rfl, rfl⟩

/-- What the entry that may start is. -/
theorem start?_some {s : State} {q op : Nat} {e : Entry} {ft : Fetched} (h : s.start? q op e = some ft) : ft.q = q ∧ ft.e = e ∧ eOp e = op := by
  unfold State.start? at h
  split at h
  · next f hf =>
    split at h
    · next hc =>
      cases h
      simp only [Bool.and_eq_true, beq_iff_eq] at hc
      obtain ⟨⟨⟨he, hop⟩, -⟩, -⟩ := hc
      exact ⟨by simpa using List.find?_some hf, he, hop⟩
    · cases h
  · cases h

section
variable {s : State} {q op : Nat} {e : Entry} {fs : List (Nat × Nat)} {ft : Fetched} {f : State → Fetched → State}

/-- An entry in order whose table, where it has one, was read starts its own meaning. -/
theorem startCmd_read (h : Starts s q op e fs) (hft : s.start? q op e = some ft) (hr : ft.bad = true → tableOf e = none) :
    s.startCmd q op e fs true f = f s ft := by
  obtain ⟨-, -, ho, hform⟩ := h
  simp only [State.startCmd, hft, ho, hform, Bool.false_and, Bool.not_true, Bool.false_eq_true, if_false]
  split
  · next a ha => rw [if_neg fun hb => by simp [hr hb] at ha]
  · rfl

/-- One whose table could not be read completes POISONED (R346). -/
theorem startCmd_unread {a : Nat} (h : Starts s q op e fs) (hft : s.start? q op e = some ft) (hb : ft.bad = true) (ha : tableOf e = some a) :
    s.startCmd q op e fs true f = (s.sat .HCH_ERR_RD_ERR (portFor (s.qYard q) a)).finish q (eId e) op 4 := by
  obtain ⟨-, -, ho, hform⟩ := h
  simp [State.startCmd, hft, ho, hform, ha, hb]

variable {bad : State → List (Bool × Nat × Nat)}

theorem teamCmd_unread {a : Nat} (h : Starts s q op e fs) (hft : s.start? q op e = some ft) (hb : ft.bad = true) (ha : tableOf e = some a) :
    s.teamCmd q op e fs bad = (s.sat .HCH_ERR_RD_ERR (portFor (s.qYard q) a)).finish q (eId e) op 4 := startCmd_unread h hft hb ha

/-- A command of another generation of its team (R282). -/
theorem teamCmd_stale (h : Starts s q op e fs) (hft : s.start? q op e = some ft) (hr : ft.bad = true → tableOf e = none)
    (ht : firstBad (teamBad q e s) = none) (hg : wGen e ≠ s.rf .TT_TEAM_GEN (wTeam e)) :
    s.teamCmd q op e fs bad = s.finish q (eId e) op 8 := by
  rw [State.teamCmd, startCmd_read h hft hr]
  simp [ht, hg]

/-- One that passes every check is bound. -/
theorem teamCmd_bind (h : Starts s q op e fs) (hft : s.start? q op e = some ft) (hr : ft.bad = true → tableOf e = none)
    (ht : firstBad (teamBad q e s) = none) (hg : wGen e = s.rf .TT_TEAM_GEN (wTeam e)) (hb : firstBad (bad s) = none) :
    s.teamCmd q op e fs bad = s.bind ft (wTeam e) := by
  rw [State.teamCmd, startCmd_read h hft hr]
  simp [ht, hg, hb]

end

/-- The state in which one more command of opcode op of team t has been counted. -/
def countCmd (s : State) (t op : Nat) : State :=
  s.setTeam t { s.team t with cmds := sset (fun _ => 0) (s.team t).cmds op (sget (fun _ => 0) (s.team t).cmds op + 1) }

theorem team_countCmd (s : State) (t op : Nat) :
    (countCmd s t op).team t = { s.team t with cmds := sset (fun _ => 0) (s.team t).cmds op (sget (fun _ => 0) (s.team t).cmds op + 1) } :=
  sget_sset_same ..

/-- Nothing of the team's record but its counts. -/
theorem team_countCmd_cmds (s : State) (t op : Nat) :
    (countCmd s t op).team t = { s.team t with cmds := ((countCmd s t op).team t).cmds } := by
  rw [team_countCmd]

theorem team_countCmd_other (s : State) {t u : Nat} (op : Nat) (h : u ≠ t) : (countCmd s t op).team u = s.team u :=
  sget_sset_other _ _ _ _ _ _ h

theorem count_countCmd (s : State) (t op : Nat) :
    sget (fun _ => 0) ((countCmd s t op).team t).cmds op = sget (fun _ => 0) (s.team t).cmds op + 1 := by
  rw [team_countCmd]; exact sget_sset_same ..

/-- A command whose work (R26) has started is counted and completes ABORTED (R82). -/
theorem bind_none {s : State} {ft : Fetched} {t : Nat}
    (h : s.instanceOf t (eOp ft.e) (sget (fun _ => 0) (s.team t).cmds (eOp ft.e)) = none) :
    s.bind ft t = (countCmd s t (eOp ft.e)).finish ft.q (eId ft.e) (eOp ft.e) 1 := by
  simp only [State.bind, h]; rfl

/-- The new record of `insts`, which waits for its binding record. -/
def waitingInst (s : State) (ft : Fetched) (t n : Nat) : Inst :=
  { team := t, gen := s.rf .TT_TEAM_GEN t, n := n, op := eOp ft.e, cmd := some (ft.q, eId ft.e), entry := ft.e,
    idx := sget (fun _ => 0) (s.team t).cmds (eOp ft.e), epoch := eEpoch ft.e }

/-- The state in which a counted command has become outstanding and its record waits. -/
def boundTo (s : State) (ft : Fetched) (t n : Nat) : State :=
  { (countCmd s t (eOp ft.e)).adopt ft (.work t n) with insts := s.insts ++ [waitingInst s ft t n] }

/-- A command is counted, becomes outstanding, and its record waits (R26). -/
theorem bind_some {s : State} {ft : Fetched} {t n : Nat}
    (h : s.instanceOf t (eOp ft.e) (sget (fun _ => 0) (s.team t).cmds (eOp ft.e)) = some n) : s.bind ft t = boundTo s ft t n := by
  simp only [State.bind, h]; rfl

theorem frame_countCmd (s : State) (t op : Nat) : Frame [.teams] [] s (countCmd s t op) := frame_teams s _

theorem frame_boundTo (s : State) (ft : Fetched) (t n : Nat) : Frame [.teams, .qs, .insts] [] s (boundTo s ft t n) :=
  ((frame_countCmd s t (eOp ft.e)).append (frame_qs _ _)).append (frame_insts ((countCmd s t (eOp ft.e)).adopt ft (.work t n)) _)

theorem adopted_boundTo (s : State) (ft : Fetched) (t n : Nat) : Adopted s (boundTo s ft t n) ft.q ft.e (.work t n) := ⟨⟨ft.t0, rfl⟩, rfl, rfl⟩

/-- The 15 team commands: the command, its opcode, its operand fields, and its own checks. -/
def teamRows (q : QP) (e : Entry) (s : State) : List (Instr × Nat × List (Nat × Nat) × List (Bool × Nat × Nat)) :=
  [(.allreduce q e, 0x20, collFields, collBad e s), (.reduceScatter q e, 0x21, collFields, collBad e s),
    (.allgather q e, 0x22, collFields, collBad e s), (.broadcast q e, 0x23, collFields, collBad e s),
    (.reduce q e, 0x24, collFields, collBad e s), (.alltoall q e, 0x25, collFields, collBad e s),
    (.gather q e, 0x26, collFields, collBad e s), (.scatter q e, 0x27, collFields, collBad e s),
    (.barrier q e, 0x28, collFields, barrierBad e s), (.rcug q e, 0x30, groomFields, groomBad e s),
    (.update q e, 0x31, groomFields, groomBad e s), (.norm q e, 0x32, groomFields, groomBad e s),
    (.offload q e, 0x48, moveFields, moveBad e s), (.fetch q e, 0x49, moveFields, moveBad e s),
    (.copy q e, 0x50, collFields, copyBad e s)]

/-- The far entry of an OFFLOAD or FETCH admits the tenant of its team's yard (R177). -/
def Admits (s : State) (op : Nat) (e : Entry) : Prop :=
  (op = 0x48 ∨ op = 0x49) → oLink e ≠ 7 →
    bitAt (s.rf .RTE_EP_LO_TENANT_MASK (oDepot e / 2 ^ 48)) (s.yardTenant (s.rf .TT_TEAM_YARD (wTeam e))) = true

/-- OFFLOAD and FETCH are team commands, unless a check of R177 alone fails. -/
theorem moveCmd_teamCmd {s : State} {q op : Nat} {e : Entry} (hop : op = 0x48 ∨ op = 0x49)
    (h : Admits s op e ∨ wGen e ≠ s.rf .TT_TEAM_GEN (wTeam e)) : s.moveCmd q op e = s.teamCmd q op e moveFields (moveBad e) := by
  unfold State.moveCmd
  dsimp only
  split
  · next hs => simp [State.teamCmd, State.startCmd, hs]
  · rw [if_neg]
    simp only [Bool.and_eq_true, beq_iff_eq, bne_iff_ne, Bool.not_eq_true']
    rintro ⟨⟨⟨-, hg⟩, -⟩, hl, hb⟩
    exact h.elim (fun ha => by cases hb.symm.trans (ha hop hl)) (fun hn => hn hg)

/-- Where the far entry turns the tenant away the command completes TENANT_BLOCKED (R177). -/
theorem moveCmd_blocked {s : State} {q op : Nat} {e : Entry} (h : Starts s q op e moveFields) (ht : firstBad (teamBad q e s) = none)
    (hg : wGen e = s.rf .TT_TEAM_GEN (wTeam e)) (hb : firstBad (moveBad e s) = none) (ha : ¬ Admits s op e) :
    s.moveCmd q op e = s.finish q (eId e) op 7 := by
  obtain ⟨-, hs, ho, hform⟩ := h
  obtain ⟨ft, hft⟩ := Option.isSome_iff_exists.1 hs
  simp only [Admits, not_forall, exists_prop, Bool.not_eq_true] at ha
  obtain ⟨-, hl, hm⟩ := ha
  simp only [Bool.or_eq_false_iff] at ho
  simp [-Nat.reducePow, State.moveCmd, hft, ht, hform, ho, hg, hb, hl, hm]

/-- What command c of opcode op does: it runs as a team command with the checks `bad`, unless a check of R177 alone turns it away. -/
def RunsAsTeamCmd (s : State) (q : QP) (e : Entry) (c : Instr) (op : Nat) (fs : List (Nat × Nat)) (bad : List (Bool × Nat × Nat)) : Prop :=
  ∃ b : State → List (Bool × Nat × Nat), b s = bad
    ∧ (Admits s op e ∨ wGen e ≠ s.rf .TT_TEAM_GEN (wTeam e) → exec c s = .next (s.keep (s.teamCmd q op e fs b)))
    ∧ (Starts s q op e fs → firstBad (teamBad q e s) = none → wGen e = s.rf .TT_TEAM_GEN (wTeam e) → firstBad bad = none → ¬ Admits s op e →
      exec c s = .next (s.keep (s.finish q (eId e) op 7)))

theorem runsAsTeamCmd_of_team {s : State} {q : QP} {e : Entry} {c : Instr} {op : Nat} {fs : List (Nat × Nat)}
    {b : State → List (Bool × Nat × Nat)} (hc : s.coreOn = true) (he : exec c s = event s fun s => s.teamCmd q op e fs b)
    (hop : ¬ (op = 0x48 ∨ op = 0x49)) : RunsAsTeamCmd s q e c op fs (b s) :=
  ⟨b, rfl, fun _ => he.trans (event_on _ _ hc), fun _ _ _ _ ha => absurd (fun h => absurd h hop) ha⟩

theorem runsAsTeamCmd_of_move {s : State} {q : QP} {e : Entry} {c : Instr} {op : Nat} (hc : s.coreOn = true)
    (he : exec c s = event s fun s => s.moveCmd q op e) (hop : op = 0x48 ∨ op = 0x49) :
    RunsAsTeamCmd s q e c op moveFields (moveBad e s) :=
  ⟨moveBad e, rfl, fun h => by rw [he, event_on _ _ hc, moveCmd_teamCmd hop h],
    fun h ht hg hb ha => by rw [he, event_on _ _ hc, moveCmd_blocked h ht hg hb ha]⟩

/-- Each of the 15 runs so. -/
theorem teamRows_run {s : State} {q : QP} {e : Entry} {c : Instr} {op : Nat} {fs : List (Nat × Nat)} {bad : List (Bool × Nat × Nat)}
    (hc : s.coreOn = true) (h : (c, op, fs, bad) ∈ teamRows q e s) : RunsAsTeamCmd s q e c op fs bad := by
  simp only [teamRows, List.mem_cons, Prod.mk.injEq, List.not_mem_nil, or_false] at h
  rcases h with h | h | h | h | h | h | h | h | h | h | h | h | h | h | h <;> obtain ⟨rfl, rfl, rfl, rfl⟩ := h
  case inr.inr.inr.inr.inr.inr.inr.inr.inr.inr.inr.inr.inl => exact runsAsTeamCmd_of_move hc rfl (by decide)
  case inr.inr.inr.inr.inr.inr.inr.inr.inr.inr.inr.inr.inr.inl => exact runsAsTeamCmd_of_move hc rfl (by decide)
  all_goals exact runsAsTeamCmd_of_team hc rfl (by decide)

/-- Settles O17: each of the 15 commands runs as a team command; the branches of `startCmd`, `teamCmd` and `bind` are the cases of the statement. -/
theorem teamCommandsBindToTheirInstance : Obligations.TeamCommandsBindToTheirInstance := by
  intro s q e c op fs bad hm t0 admits count unread hs ht
  obtain ⟨b, hbad, hrun, hblocked⟩ := teamRows_run hs.1 hm
  obtain ⟨ft, hft⟩ := Option.isSome_iff_exists.1 hs.2.1
  obtain ⟨hq, he, hop⟩ := start?_some hft
  have hread : (unread → tableOf e = none) → ft.bad = true → tableOf e = none := fun h hb => h ⟨ft, hft, hb⟩
  subst hbad
  refine ⟨fun a ⟨ft', hft', hb⟩ ha hadm => ?_, fun hr => ⟨fun hg hb hadm => ?_, fun hg => ?_, fun hg hb hadm => ?_⟩⟩
  · obtain rfl : ft = ft' := Option.some.inj (hft.symm.trans hft')
    have hx := hrun (.inl hadm)
    rw [teamCmd_unread hs hft hb ha] at hx
    have hf := (frame_sat s .HCH_ERR_RD_ERR (portFor (s.rf .DB_STATUS_YARD q) a) 1).append (frame_finish _ q (eId e) op 4 0)
    exact does_of_frame hx hf ⟨⟨rfl, rfl, rfl⟩, counted_frame (counted_sat ..) (frame_finish ..) (by simp), hf.mono (by simp) (by simp)⟩
  · have hx := hrun (.inl hadm)
    rw [teamCmd_bind hs hft (hread hr) ht hg hb] at hx
    subst he hop
    refine ⟨fun n hn => ?_, fun hn => ?_⟩
    · rw [show s.bind ft (wTeam ft.e) = _ from bind_some hn] at hx
      have hf := frame_boundTo s ft t0 n
      exact does_of_frame hx hf ⟨hq ▸ adopted_boundTo .., hq ▸ rfl, count_countCmd .., team_countCmd_cmds .., fun u hu => team_countCmd_other _ _ hu,
        hf.mono (by simp) (by simp)⟩
    · rw [show s.bind ft (wTeam ft.e) = _ from bind_none hn] at hx
      have hf := (frame_countCmd s t0 (eOp ft.e)).append (frame_finish _ ft.q (eId ft.e) (eOp ft.e) 1 0)
      exact does_of_frame hx hf ⟨hq ▸ ⟨rfl, rfl, rfl⟩, count_countCmd .., hf.mono (by simp) (by simp)⟩
  · have hx := hrun (.inr hg)
    rw [teamCmd_stale hs hft (hread hr) ht hg] at hx
    exact does_of_frame hx (frame_finish ..) ⟨completed_finish .., frame_finish ..⟩
  · exact does_of_frame (hblocked hs ht hg hb hadm) (frame_finish ..) ⟨completed_finish .., frame_finish ..⟩

end Sys2Proof

namespace Sys2Proof

open Machine

/-! # Completions and interrupt messages (O32) -/

/-! ## Posting a completion (R269): the steps of `State.postDone` -/

section
variable (s : State) (d : Done)

/-- The index of the completion ring after the present one. -/
def nextTail : Nat := (s.rf .DB_CQ_TAIL_TAIL d.q + 1) % 2 ^ s.cqLog d.q

/-- The entry stands in the ring, and the tail has advanced. -/
def entryStored : State :=
  (s.wrHost (s.cqBase d.q + 32 * s.rf .DB_CQ_TAIL_TAIL d.q) (s.doneBytes d)).setf .DB_CQ_TAIL_TAIL d.q (nextTail s d)

/-- The tail stands at the pair's mirror address too, where it has one. -/
def tailMirrored : State :=
  if d.q != 0 && (s.qp d.q).mirror != 0 then (entryStored s d).wrHost (s.qp d.q).mirror (leBytes 8 (nextTail s d)) else entryStored s d

/-- The command has left the finished ones. -/
def doneRemoved : State :=
  { tailMirrored s d with qs := { s.qs with dones := dropFirst (fun x => x == d) s.qs.dones } }

/-- The completion has been traced. -/
def doneTraced : State := (doneRemoved s d).trace 2 (d.q + 65536 * d.id + 2 ^ 32 * d.status)

/-- The quarantine of a destroyed pair has begun. -/
def donePosted : State :=
  match d.after with
  | some p => (doneTraced s d).destroyed p
  | none => doneTraced s d

theorem frame_tailMirrored : Frame [.host] [(.DB_CQ_TAIL_TAIL, d.q)] s (tailMirrored s d) := by
  have h : Frame [.host] [(.DB_CQ_TAIL_TAIL, d.q)] s (entryStored s d) := (frame_host s _).append (frame_setf (s.wrHost _ _) _ _ _)
  unfold tailMirrored
  split
  · exact (h.append (frame_host (entryStored s d) _)).mono (by simp) (by simp)
  · exact h

theorem tailMirrored_qs : (tailMirrored s d).qs = s.qs := (frame_tailMirrored s d).part .qs (by simp)

theorem postDone_eq : s.postDone d = if (donePosted s d).on .DB_CQ_ARM_ARM d.q
    then ((donePosted s d).setf .DB_CQ_ARM_ARM d.q 0).vector ((donePosted s d).cqVector d.q) else donePosted s d := by
  have h : doneRemoved s d = { tailMirrored s d with qs := { (tailMirrored s d).qs with dones := dropFirst (fun x => x == d) (tailMirrored s d).qs.dones } } := by
    rw [tailMirrored_qs]; rfl
  simp only [donePosted, doneTraced, h]
  rfl

theorem frame_doneTraced : Frame [.outbox] [(.DBG_TRACE_STAT_SENT, 0)] (doneRemoved s d) (doneTraced s d) := frame_trace ..

theorem frame_to_doneTraced : Frame [.host, .qs, .outbox] [(.DB_CQ_TAIL_TAIL, d.q), (.DBG_TRACE_STAT_SENT, 0)] s (doneTraced s d) :=
  ((frame_tailMirrored s d).append (frame_qs _ _)).append (frame_doneTraced s d)

theorem frame_destroyed (p : Nat) : Frame [.qs] [] s (s.destroyed p) := frame_qs s _

theorem frame_donePosted : Frame [.host, .qs, .outbox] [(.DB_CQ_TAIL_TAIL, d.q), (.DBG_TRACE_STAT_SENT, 0)] s (donePosted s d) := by
  unfold donePosted
  split
  · exact ((frame_to_doneTraced s d).append (frame_destroyed _ _)).mono (by simp) (by simp)
  · exact frame_to_doneTraced s d

/-- What posting does to the host's memory. -/
theorem donePosted_host : (donePosted s d).host = (tailMirrored s d).host := by
  have h : (doneTraced s d).host = (tailMirrored s d).host := (frame_doneTraced s d).part .host (by simp)
  unfold donePosted
  split <;> exact h

/-- Bytes written to the host's memory stand there. -/
theorem stored_wrBytes (m : List (Nat × Byte)) (a : Nat) (bs : List Byte) : Stored m (wrBytes m a bs) a bs := fun _ => sget_wrBytes ..

theorem State.wrHost_host (s : State) (a : Nat) (bs : List Byte) : (s.wrHost a bs).host = wrBytes s.host a bs := rfl

theorem entryStored_host : (entryStored s d).host = wrBytes s.host (s.cqBase d.q + 32 * s.rf .DB_CQ_TAIL_TAIL d.q) (s.doneBytes d) := by
  simp only [entryStored, State.setf_frame, State.wrHost_host]

/-- A pair without a mirror address has its entry stored. -/
theorem donePosted_stored (h : d.q = 0 ∨ (s.qp d.q).mirror = 0) :
    Stored s.host (donePosted s d).host (s.cqBase d.q + 32 * s.rf .DB_CQ_TAIL_TAIL d.q) (s.doneBytes d) := by
  rw [donePosted_host, tailMirrored, if_neg (by rcases h with h | h <;> simp [h]), entryStored_host]
  exact stored_wrBytes _ _ _

/-- A pair with one has the tail stored there after the entry. -/
theorem donePosted_stored_mirror (hq : d.q ≠ 0) (hm : (s.qp d.q).mirror ≠ 0) :
    ∃ m, Stored s.host m (s.cqBase d.q + 32 * s.rf .DB_CQ_TAIL_TAIL d.q) (s.doneBytes d)
      ∧ Stored m (donePosted s d).host (s.qp d.q).mirror (leBytes 8 (nextTail s d)) := by
  rw [donePosted_host, tailMirrored, if_pos (by simp [hq, hm]), State.wrHost_host, entryStored_host]
  exact ⟨_, stored_wrBytes _ _ _, stored_wrBytes _ _ _⟩

theorem donePosted_tail (hk : s.cqLog d.q ≤ 16) : (donePosted s d).rf .DB_CQ_TAIL_TAIL d.q = nextTail s d := by
  have hlt : nextTail s d < 2 ^ fwidth .DB_CQ_TAIL_TAIL :=
    Nat.lt_of_lt_of_le (Nat.mod_lt _ (Nat.two_pow_pos _)) (Nat.pow_le_pow_right (by decide) hk)
  have h1 : (entryStored s d).rf .DB_CQ_TAIL_TAIL d.q = nextTail s d := by
    rw [entryStored, State.rf_setf_same, Nat.mod_eq_of_lt hlt]
  have h2 : (tailMirrored s d).rf .DB_CQ_TAIL_TAIL d.q = nextTail s d := by
    unfold tailMirrored
    split
    · exact ((frame_host (entryStored s d) _).rf (by simp)).trans h1
    · exact h1
  have h3 : (doneTraced s d).rf .DB_CQ_TAIL_TAIL d.q = nextTail s d := ((frame_doneTraced s d).rf (by simp)).trans h2
  unfold donePosted
  split <;> exact h3

theorem doneTraced_qs : (doneTraced s d).qs = { s.qs with dones := dropFirst (fun x => x == d) s.qs.dones } :=
  (frame_doneTraced s d).part .qs (by simp)

theorem donePosted_dones : (donePosted s d).qs.dones = dropFirst (fun x => x == d) s.qs.dones := by
  have h := congrArg Queues.dones (doneTraced_qs s d)
  unfold donePosted
  split <;> exact h

theorem donePosted_qs (h : d.after = none) : (donePosted s d).qs = { s.qs with dones := dropFirst (fun x => x == d) s.qs.dones } := by
  simp only [donePosted, h, doneTraced_qs]

/-- The time of a destroyed pair's quarantine begins now (R277). -/
theorem donePosted_quarantine {p : Nat} (h : d.after = some p) :
    (donePosted s d).qs = { s.qs with dones := dropFirst (fun x => x == d) s.qs.dones, qps := (donePosted s d).qs.qps }
      ∧ ((donePosted s d).qp p).quarEnd = max s.now (s.qp p).lastTraffic + s.quarantine := by
  have hf := frame_to_doneTraced s d
  have hnow : (doneTraced s d).now = s.now := hf.now (by simp) (by simp) (by simp)
  have hq : (doneTraced s d).quarantine = s.quarantine := by
    simp only [State.quarantine, State.stageLen, hf.rf (f := .TT_STAGE_LEN_LEN_US) (i := 0) (by simp)]
  have hqp : (doneTraced s d).qp p = s.qp p := by simp only [State.qp, doneTraced_qs]
  have hpost : donePosted s d = (doneTraced s d).destroyed p := by simp only [donePosted, h]
  rw [hpost, State.destroyed, hnow, hq, hqp]
  refine ⟨?_, ?_⟩
  · simp only [State.setQp, doneTraced_qs]
  · rw [State.qp, State.setQp, sget_sset_same]

/-- A completion that must wait for others: a DESTROY_SQ's for those of its pair (R277). -/
def doneHeld : Bool :=
  match d.after with
  | some p => s.qs.dones.any fun x => x.q == p && x != d
  | none => false

theorem doneHeld_iff : doneHeld s d = true ↔ ∃ p, d.after = some p ∧ ∃ x ∈ s.qs.dones, x.q = p ∧ x ≠ d := by
  unfold doneHeld
  split
  · next p hp => simp only [hp, List.any_eq_true, Bool.and_eq_true, beq_iff_eq, bne_iff_ne, Option.some.injEq, exists_eq_left']
  · next hp => simp [hp]

end

/-- COMPLETION_POST of a finished command. -/
theorem exec_completionPost {s : State} {q : QP} {id : BitVec 16} {d : Done} (hc : s.coreOn = true)
    (hd : (s.qs.dones.find? fun x => x.q == q.val && x.id == id.toNat) = some d) :
    exec (.completionPost q id) s =
      .next (s.keep (if s.cqLive q && !s.safe && !doneHeld s d && !s.unacked d.inst then s.postDone d else s)) := by
  show execCompletionPost q id s = _
  rw [execCompletionPost, event_on _ _ hc]
  simp only [hd]
  rfl

/-! ## Interrupt messages (R286, R350) -/

/-- An unmasked vector with room at the host is sent at once. -/
theorem vector_sent {s : State} {v : Nat} (hm : s.rf .IRQ_DATA_MASK v = 0) (ho : s.aon.irqOut < 32) :
    s.vector v = { s.emit (.irq (s.rf .IRQ_ADDR_ADDR v * 4) (s.rf .IRQ_DATA_DATA v)) with aon := { s.aon with irqOut := s.aon.irqOut + 1 } } := by
  simp only [State.vector, State.on, hm, bne_self_eq_false, Bool.false_eq_true, if_false, State.message, ho, if_true]

theorem frame_message (s : State) (o : OutEv) (x : Aon) : Frame [.outbox, .aon] [] s { s.emit o with aon := x } :=
  (frame_outbox s _).append (frame_aon (s.emit o) x)

/-- Without an outstanding message an answer does nothing. -/
theorem irqAnswer_none {s : State} (h : s.aon.irqOut = 0) (err : Bool) : s.irqAnswer err = s := by
  simp only [State.irqAnswer, h, if_true]

/-- The next message that waits leaves. -/
theorem irqAnswer_next {s : State} {a v : Nat} {rest : List (Nat × Nat)} (h : s.aon.irqOut ≠ 0) (hq : s.aon.irqq = (a, v) :: rest) :
    s.irqAnswer false = { s.emit (.irq a v) with aon := { s.aon with irqq := rest } } := by
  simp only [State.irqAnswer, h, hq, if_false, Bool.false_eq_true]

/-- With none that waits one fewer is outstanding; an error answer latches IRQ_PORT. -/
theorem irqAnswer_last {s : State} (h : s.aon.irqOut ≠ 0) (hq : s.aon.irqq = []) (err : Bool) :
    s.irqAnswer err = if err then ({ s with aon := { s.aon with irqOut := s.aon.irqOut - 1 } } : State).fault 49
      else { s with aon := { s.aon with irqOut := s.aon.irqOut - 1 } } := by
  simp only [State.irqAnswer, h, hq, if_false]

theorem exec_interruptResponse {s : State} (hc : s.coreOn = true) (err : Bool) :
    exec (.interruptResponse err) s = .next (s.keep (s.irqAnswer err)) :=
  event_on s (fun s => s.irqAnswer err) hc

/-! ## What a posted completion leaves -/

/-- The entry stands at the tail, the tail has advanced, and the command has left the finished ones. -/
def Posted (s : State) (d : Done) (t : State) : Prop :=
  t.rf .DB_CQ_TAIL_TAIL d.q = nextTail s d ∧ t.qs.dones = dropFirst (fun x => x == d) s.qs.dones
    ∧ (d.after = none → t.qs = { s.qs with dones := dropFirst (fun x => x == d) s.qs.dones })
    ∧ (∀ p, d.after = some p → t.qs = { s.qs with dones := dropFirst (fun x => x == d) s.qs.dones, qps := t.qs.qps }
      ∧ (t.qp p).quarEnd = max s.now (s.qp p).lastTraffic + s.quarantine)
    ∧ (d.q = 0 ∨ (s.qp d.q).mirror = 0 → Stored s.host t.host (s.cqBase d.q + 32 * s.rf .DB_CQ_TAIL_TAIL d.q) (s.doneBytes d))
    ∧ (d.q ≠ 0 → (s.qp d.q).mirror ≠ 0 → ∃ m, Stored s.host m (s.cqBase d.q + 32 * s.rf .DB_CQ_TAIL_TAIL d.q) (s.doneBytes d)
      ∧ Stored m t.host (s.qp d.q).mirror (leBytes 8 (nextTail s d)))

section
variable {s t : State} {d : Done} {i : Instr} (hk : s.cqLog d.q ≤ 16)
include hk

/-- Sending its vector afterwards leaves that. -/
theorem posted_of_frame (ht : Frame [.outbox, .aon] [(.DB_CQ_ARM_ARM, d.q)] (donePosted s d) t) : Posted s d t := by
  have hqs : t.qs = (donePosted s d).qs := ht.part .qs (by simp)
  have hhost : t.host = (donePosted s d).host := ht.part .host (by simp)
  have hqp : ∀ p, t.qp p = (donePosted s d).qp p := fun p => by rw [State.qp, State.qp, hqs]
  refine ⟨(ht.rf (by simp)).trans (donePosted_tail s d hk), hqs ▸ donePosted_dones s d, fun hp => hqs ▸ donePosted_qs s d hp,
    fun p hp => ?_, fun h => hhost ▸ donePosted_stored s d h, fun h h' => hhost ▸ donePosted_stored_mirror s d h h'⟩
  rw [hqs, hqp]
  exact donePosted_quarantine s d hp

variable (hx : exec i s = .next (s.keep (s.postDone d)))
include hx

/-- With the ring unarmed no message is sent. -/
theorem does_post_unarmed (harm : s.rf .DB_CQ_ARM_ARM d.q = 0) : Does i s fun t => Posted s d t
    ∧ Frame [.host, .qs, .outbox] [(.DB_CQ_TAIL_TAIL, d.q), (.DBG_TRACE_STAT_SENT, 0)] s t := by
  have hf := frame_donePosted s d
  have hon : (donePosted s d).on .DB_CQ_ARM_ARM d.q = false := by simp [State.on, hf.rf, harm]
  rw [postDone_eq, hon, if_neg Bool.false_ne_true] at hx
  exact does_of_frame hx hf ⟨posted_of_frame hk (Frame.refl _ _ _), hf⟩

/-- With it armed the message of its vector is sent, and the ring no longer armed. -/
theorem does_post_armed (harm : s.rf .DB_CQ_ARM_ARM d.q ≠ 0) (hm : s.rf .IRQ_DATA_MASK (s.cqVector d.q) = 0) (ho : s.aon.irqOut < 32) :
    Does i s fun t => Posted s d t ∧ t.rf .DB_CQ_ARM_ARM d.q = 0 ∧ t.aon = { s.aon with irqOut := s.aon.irqOut + 1 }
      ∧ t.outbox.getLast? = some (.irq (s.rf .IRQ_ADDR_ADDR (s.cqVector d.q) * 4) (s.rf .IRQ_DATA_DATA (s.cqVector d.q)))
      ∧ Frame [.host, .qs, .outbox, .aon] [(.DB_CQ_TAIL_TAIL, d.q), (.DBG_TRACE_STAT_SENT, 0), (.DB_CQ_ARM_ARM, d.q)] s t := by
  have hf := frame_donePosted s d
  have hon : (donePosted s d).on .DB_CQ_ARM_ARM d.q = true := by simp [State.on, hf.rf, harm]
  have hv : (donePosted s d).cqVector d.q = s.cqVector d.q := by simp [State.cqVector, hf.rf]
  have hdis := frame_setf (donePosted s d) .DB_CQ_ARM_ARM d.q 0
  have hf1 := hf.append hdis
  have haon : ((donePosted s d).setf .DB_CQ_ARM_ARM d.q 0).aon = s.aon := hf1.part .aon (by simp)
  have hmask : ((donePosted s d).setf .DB_CQ_ARM_ARM d.q 0).rf .IRQ_DATA_MASK (s.cqVector d.q) = 0 := (hf1.rf (by simp)).trans hm
  rw [postDone_eq, hon, if_pos rfl, hv, vector_sent hmask (haon ▸ ho), hf1.rf (f := .IRQ_ADDR_ADDR) (by simp),
    hf1.rf (f := .IRQ_DATA_DATA) (by simp), haon] at hx
  have hsent := frame_message ((donePosted s d).setf .DB_CQ_ARM_ARM d.q 0)
    (.irq (s.rf .IRQ_ADDR_ADDR (s.cqVector d.q) * 4) (s.rf .IRQ_DATA_DATA (s.cqVector d.q))) { s.aon with irqOut := s.aon.irqOut + 1 }
  have hf2 := (hf1.append hsent).mono (qs := [.host, .qs, .outbox, .aon])
    (gs := [(.DB_CQ_TAIL_TAIL, d.q), (.DBG_TRACE_STAT_SENT, 0), (.DB_CQ_ARM_ARM, d.q)]) (by simp) (by simp)
  exact does_of_frame hx hf2 ⟨posted_of_frame hk ((hdis.append hsent).mono (by simp) (by simp)),
    (State.rf_setf_same (donePosted s d) .DB_CQ_ARM_ARM d.q 0).trans (Nat.zero_mod _), rfl, List.getLast?_concat .., hf2⟩

end

/-- Settles O32: the posted state is followed through the steps of R269, and what sends its vector leaves those alone. -/
theorem completionsArePostedAndInterruptsAnswered : Obligations.CompletionsArePostedAndInterruptsAnswered := by
  intro s q id d err a v rest hc n tail tail' left posted
  refine ⟨fun hd => ?_, fun h0 => ?_, fun h1 hq => ⟨?_, ?_⟩, fun h1 hq => ?_⟩
  · have hx := exec_completionPost hc hd
    have hn : n = d.q := by
      have := List.find?_some hd
      simp only [Bool.and_eq_true, beq_iff_eq] at this
      exact this.1.symm
    rw [show (q : Nat) = d.q from hn] at hx
    clear_value n
    subst hn
    refine ⟨fun hw => ?_, fun hl hs hu ha hk => ?_⟩
    · rw [← doneHeld_iff] at hw
      rw [if_neg (by rcases hw with hw | hw | hw | hw <;> simp [hw])] at hx
      exact does_nothing hx
    · have hh : doneHeld s d = false := by
        rw [← Bool.not_eq_true, doneHeld_iff]
        rintro ⟨p, hp, y, hy, hyp, hne⟩
        exact hne (ha p hp y hy hyp)
      rw [if_pos (by simp [hl, hs, hu, hh])] at hx
      exact ⟨does_post_unarmed hk hx, does_post_armed hk hx⟩
  · exact does_nothing ((exec_interruptResponse hc err).trans (by rw [irqAnswer_none h0]))
  · refine does_of_frame ((exec_interruptResponse hc false).trans (by rw [irqAnswer_last h1 hq]; rfl)) (frame_aon s _) ⟨rfl, frame_aon s _⟩
  · exact (exec_interruptResponse hc true).trans (by rw [irqAnswer_last h1 hq]; rfl)
  · have hf := frame_message s (.irq a v) { s.aon with irqq := rest }
    exact does_of_frame ((exec_interruptResponse hc false).trans (by rw [irqAnswer_next h1 hq])) hf
      ⟨rfl, rfl, hf.mono (by simp) (by simp)⟩

end Sys2Proof

namespace Sys2Proof

open Machine

/-! # Far, mirror and data carriages (O37) -/

/-- The state with these carriages accepted and not yet applied. -/
def withAccepted (s : State) (x : List Accepted) : State := { s with net := { s.net with accepted := x } }

theorem frame_withAccepted (s : State) (x : List Accepted) : Frame [.net] [] s (withAccepted s x) := frame_net s _

/-- A carriage taken from the accepted ones is of one of the kinds, and nothing else changes. -/
theorem takeAccepted_some {s s1 : State} {p : Nat} {c : Carriage} {kinds : List Nat} (h : s.takeAccepted p c kinds = some s1) :
    kinds.contains (cKind c) = true ∧ ∃ x, s1 = withAccepted s x := by
  unfold State.takeAccepted at h
  split at h
  · next hc => exact ⟨(Bool.and_eq_true _ _ ▸ hc).2, _, (Option.some.inj h).symm⟩
  · cases h

/-! ## REIN units -/

/-- Nothing but the REIN units that wait has changed. -/
def ReinsOnly (s t : State) : Prop := t = { s with net := { s.net with reinq := t.net.reinq, reinWait := t.net.reinWait } }

theorem ReinsOnly.trans {s t u : State} (h : ReinsOnly s t) (k : ReinsOnly t u) : ReinsOnly s u := by
  unfold ReinsOnly at *
  rw [k, h]

theorem ReinsOnly.frame {s t : State} (h : ReinsOnly s t) : Frame [.net] [] s t := h ▸ frame_net s _

theorem ReinsOnly.accepted {s t : State} (h : ReinsOnly s t) : t.net.accepted = s.net.accepted := by rw [h]

theorem ReinsOnly.outq {s t : State} (h : ReinsOnly s t) : t.net.outq = s.net.outq := by rw [h]

theorem reinsOnly_queueRein (s : State) (r : Rein) : ReinsOnly s (s.queueRein r) := by
  unfold State.queueRein
  dsimp only
  split
  · rfl
  · split <;> rfl

theorem reinsOnly_foldl (l : List Rein) (s : State) : ReinsOnly s (l.foldl (fun s x => s.queueRein x) s) := by
  induction l generalizing s with
  | nil => rfl
  | cons r l ih => exact (reinsOnly_queueRein s r).trans (ih _)

theorem reinsOnly_reinFor (s : State) (c : Carriage) (blocked : Bool) : ReinsOnly s (s.reinFor c blocked) :=
  ReinsOnly.trans (t := { s with net := { s.net with reinWait := [] } }) rfl (reinsOnly_foldl _ _)

/-! ## Far windows (R170) -/

theorem farKind_of_contains {c : Carriage} {kinds : List Nat} (hs : kinds ⊆ [10, 11]) (h : kinds.contains (cKind c) = true) :
    farKind c = true := by
  simpa [farKind] using hs (List.contains_iff_mem.1 h)

/-- A refused far access counts twice, and a REIN marked BLOCKED answers it. -/
theorem refuse_far {s : State} {l : Nat} {c : Carriage} (h : farKind c = true) :
    s.refuse l c = ((s.sat .RTE_DROPS_TENANT 0).sat .GRM_FARWIN_REJECT l).reinFor c true := by
  simp only [State.refuse, h, Bool.or_true, if_true]

/-- The parts of a refusal. -/
theorem refuse_far_counts {s : State} {l : Nat} {c : Carriage} (h : farKind c = true) :
    Counted s .GRM_FARWIN_REJECT l (s.refuse l c) ∧ Counted s .RTE_DROPS_TENANT 0 (s.refuse l c)
      ∧ (s.refuse l c).net.accepted = s.net.accepted ∧ (s.refuse l c).net.outq = s.net.outq
      ∧ Frame [.net] [(.GRM_FARWIN_REJECT, l), (.RTE_DROPS_TENANT, 0)] s (s.refuse l c) := by
  rw [refuse_far h]
  have h1 := frame_sat s .RTE_DROPS_TENANT 0 1
  have h2 := frame_sat (s.sat .RTE_DROPS_TENANT 0) .GRM_FARWIN_REJECT l 1
  have hr := reinsOnly_reinFor ((s.sat .RTE_DROPS_TENANT 0).sat .GRM_FARWIN_REJECT l) c true
  refine ⟨?_, ?_, hr.accepted, hr.outq, ((h1.append h2).append hr.frame).mono (by simp) (by simp)⟩
  · refine counted_frame ?_ hr.frame (by simp)
    rw [Counted, rf_sat, h1.rf (by simp)]
  · exact counted_frame (counted_frame (counted_sat ..) h2 (by simp)) hr.frame (by simp)

/-- A far access that is taken and refused. -/
theorem does_refuse {s : State} {x : List Accepted} {l : Nat} {c : Carriage} {i : Instr} (hk : farKind c = true)
    (he : exec i s = .next (s.keep ((withAccepted s x).refuse l c))) : Does i s fun t =>
      Counted s .GRM_FARWIN_REJECT l t ∧ Counted s .RTE_DROPS_TENANT 0 t ∧ t.net.accepted = x ∧ t.net.outq = s.net.outq
        ∧ Frame [.net] [(.GRM_FARWIN_REJECT, l), (.RTE_DROPS_TENANT, 0)] s t := by
  obtain ⟨h1, h2, h3, h4, hf⟩ := refuse_far_counts (s := withAccepted s x) (l := l) hk
  have hf' := ((frame_withAccepted s x).append hf).mono (qs := [.net]) (gs := [(.GRM_FARWIN_REJECT, l), (.RTE_DROPS_TENANT, 0)]) (by simp) (by simp)
  exact does_of_frame he hf' ⟨h1, h2, h3, h4, hf'⟩

theorem frame_depotAdd (s : State) (rs : List DepotReq) : Frame [.hitch] [] s (s.depotAdd rs) := frame_hitch s _

/-- A carriage that is taken and queues a depot request. -/
theorem does_depotAdd {s u : State} {x : List Accepted} {i : Instr} {fs : List (Fld × Nat)} {r : DepotReq} (hu : Frame [] fs (withAccepted s x) u)
    (he : exec i s = .next (s.keep (u.depotAdd [r]))) : Does i s fun t =>
      (t.hitch = { s.hitch with dreqs := s.hitch.dreqs ++ [r] } ∧ t.net = (withAccepted s x).net) ∧ (∀ f k, t.rf f k = u.rf f k)
        ∧ Frame [.net, .hitch] fs s t := by
  have hh : u.hitch = s.hitch := hu.part .hitch (by simp)
  have hn : u.net = (withAccepted s x).net := hu.part .net (by simp)
  have hf := (((frame_withAccepted s x).append hu).append (frame_depotAdd u [r])).mono (qs := [.net, .hitch]) (gs := fs) (by simp) (by simp)
  exact does_of_frame he hf ⟨⟨by rw [← hh]; rfl, hn⟩, fun _ _ => rfl, hf⟩

/-- A far access that is taken is refused or queues its depot request, as its window says. -/
theorem does_farAccess {s : State} {x : List Accepted} {l : Nat} {c : Carriage} {i : Instr} {wr : Bool} {r : DepotReq}
    (he : exec i s = .next (s.keep (if (withAccepted s x).farBad l c wr then (withAccepted s x).refuse l c else (withAccepted s x).depotAdd [r]))) :
    (s.farBad l c wr = true → exec i s = .next (s.keep ((withAccepted s x).refuse l c)))
      ∧ (s.farBad l c wr = false → Does i s fun t =>
        (t.hitch = { s.hitch with dreqs := s.hitch.dreqs ++ [r] } ∧ t.net = (withAccepted s x).net) ∧ Frame [.net, .hitch] [] s t) := by
  rw [show (withAccepted s x).farBad l c wr = s.farBad l c wr from rfl] at he
  refine ⟨fun hb => ?_, fun hb => ?_⟩
  · rwa [if_pos hb] at he
  · rw [hb, if_neg Bool.false_ne_true] at he
    obtain ⟨t, ht, hq, -, hf⟩ := does_depotAdd (Frame.refl [] [] _) he
    exact ⟨t, ht, hq, hf⟩

/-- The write that a FAR_WR asks of the depot. -/
def farWrite (s : State) (c : Carriage) : DepotReq :=
  { ch := s.channelOf (offsetOf (gTarget c)), wr := true, addr := offsetOf (gTarget c), data := (c.payload.drop 64).take (gLen c), len := gLen c,
    use := .farWrite }

/-- The read that a FAR_RDREQ of link l asks of the depot. -/
def farRead (s : State) (l : Nat) (c : Carriage) : DepotReq :=
  { ch := s.channelOf (offsetOf (gTarget c)), wr := false, addr := offsetOf (gTarget c), data := [], len := gLen c, use := .farRead l c }

section
variable {s s1 : State} {l : Link} {p : Port} {c : Carriage}

theorem exec_farWrReceive (hc : s.coreOn = true) (h : s.takeAccepted l c [10] = some s1) : exec (.farWrReceive l c) s =
    .next (s.keep (if s1.farBad l c true then s1.refuse l c else s1.depotAdd [farWrite s1 c])) := by
  show execFarWrReceive l c s = _
  rw [execFarWrReceive, event_on _ _ hc]
  simp only [h, farWrite]

theorem exec_farRdreqReceive (hc : s.coreOn = true) (h : s.takeAccepted l c [11] = some s1) : exec (.farRdreqReceive l c) s =
    .next (s.keep (if s1.farBad l c false then s1.refuse l c else s1.depotAdd [farRead s1 l c])) := by
  show execFarRdreqReceive l c s = _
  rw [execFarRdreqReceive, event_on _ _ hc]
  simp only [h, farRead]

theorem exec_mirrorReceive (hc : s.coreOn = true) (h : s.takeAccepted l c [13] = some s1) :
    exec (.mirrorReceive l c) s = .next (s.keep (s1.mirrorHere l c)) := by
  show execMirrorReceive l c s = _
  rw [execMirrorReceive, event_on _ _ hc]
  simp only [h]

/-- An answer of a depot goes to the receive side of its link where nothing of its team runs. -/
theorem exec_farRdrspReceive_none (hc : s.coreOn = true) (h : s.takeAccepted l c [12] = some s1) (hi : s1.running (cTeam c) = none) :
    exec (.farRdrspReceive l c) s = .next (s.keep (s1.farRsp l c)) := by
  show execFarRdrspReceive l c s = _
  rw [execFarRdrspReceive, event_on _ _ hc]
  simp only [h, hi]

/-- A degraded FETCH of its team takes it. -/
theorem exec_farRdrspReceive_some {i : Inst} (hc : s.coreOn = true) (h : s.takeAccepted l c [12] = some s1) (hi : s1.running (cTeam c) = some i) :
    exec (.farRdrspReceive l c) s = .next (s.keep (if i.degraded = true ∧ i.op = 0x49 then s1.fetchHere i c else s1.farRsp l c)) := by
  show execFarRdrspReceive l c s = _
  rw [execFarRdrspReceive, event_on _ _ hc]
  simp only [h, hi, Bool.and_eq_true, decide_eq_true_eq]

end

/-! ## Mirror carriages: the rows of Table 11.2 -/

section
variable {s : State} {l : Nat} {c : Carriage}

theorem mirrorHere_disabled (h : s.rf .GRM_MIR_CFG_IN_EN = 0 ∨ l ≠ s.mirIn) : s.mirrorHere l c = s.sat .GRM_MIR_IN_DROPS_DISABLED 0 := by
  unfold State.mirrorHere
  exact if_pos (by rcases h with h | h <;> simp [State.on, h])

variable (he : s.rf .GRM_MIR_CFG_IN_EN ≠ 0) (hl : l = s.mirIn)
include he hl

theorem mirrorHere_oversize (h : s.mirSize / 2 < gTarget c + gLen c) : s.mirrorHere l c = s.sat .GRM_MIR_IN_DROPS_OVERSIZE 0 := by
  simp [State.mirrorHere, State.on, he, hl, h]

variable (hs : gTarget c + gLen c ≤ s.mirSize / 2)
include hs

theorem mirrorHere_stale (h : s.mirStale (gOp1 c) = true ∨
    (s.rf .GRM_MIR_COPY_STATE s.mirTarget = 1 ∧ gOp1 c < s.rf .GRM_MIR_COPY_EPOCH_EPOCH s.mirTarget)) :
    s.mirrorHere l c = s.sat .GRM_MIR_IN_DROPS_STALE_EPOCH 0 := by
  rcases h with h | ⟨h1, h2⟩
  · simp [State.mirrorHere, State.on, he, hl, Nat.not_lt.2 hs, h]
  · simp [State.mirrorHere, State.on, he, hl, Nat.not_lt.2 hs, h1, h2]

/-- The write of a mirror carriage to the target copy. -/
def mirrorWrite (s : State) (c : Carriage) : DepotReq :=
  { ch := s.channelOf (s.copyBase s.mirTarget + gTarget c), wr := true, addr := s.copyBase s.mirTarget + gTarget c,
    data := (c.payload.drop 64).take (gLen c), len := gLen c, use := .mirror s.mirTarget (gOp1 c) (gLen c) }

/-- The target copy becomes WRITING for the carriage's epoch, with no bytes. -/
def copyBegun (s : State) (c : Carriage) : State :=
  s.setfs [(.GRM_MIR_COPY_STATE, s.mirTarget, 1), (.GRM_MIR_COPY_EPOCH_EPOCH, s.mirTarget, gOp1 c), (.GRM_MIR_COPY_BYTES, s.mirTarget, 0)]

omit he hl hs in
theorem frame_copyBegun : Frame [] [(.GRM_MIR_COPY_STATE, s.mirTarget), (.GRM_MIR_COPY_EPOCH_EPOCH, s.mirTarget), (.GRM_MIR_COPY_BYTES, s.mirTarget)]
    s (copyBegun s c) :=
  ((frame_setf s _ _ _).append (frame_setf _ _ _ _)).append (frame_setf _ _ _ _)

omit he hl hs in
theorem copyBase_copyBegun (k : Nat) : (copyBegun s c).copyBase k = s.copyBase k := by
  have hf : Frame _ _ s (copyBegun s c) := frame_copyBegun
  simp only [State.copyBase, State.mirBase, State.mirSize, hf.rf (f := .GRM_MIR_CFG_IN_BASE_MIB) (i := 0) (by simp),
    hf.rf (f := .GRM_MIR_CFG_IN_SIZE_MIB) (i := 0) (by simp)]

variable (hst : s.mirStale (gOp1 c) = false)
include hst

/-- Otherwise its write is queued: at once while the copy is WRITING for its epoch. -/
theorem mirrorHere_write (hf : s.rf .GRM_MIR_COPY_STATE s.mirTarget = 1 ∧ s.rf .GRM_MIR_COPY_EPOCH_EPOCH s.mirTarget = gOp1 c) :
    s.mirrorHere l c = s.depotAdd [mirrorWrite s c] := by
  obtain ⟨h1, h2⟩ := hf
  have h3 := Nat.lt_irrefl (gOp1 c)
  simp [State.mirrorHere, State.on, he, hl, Nat.not_lt.2 hs, hst, h1, h2, mirrorWrite]

/-- Else once the copy has become so. -/
theorem mirrorHere_begins (hf : ¬ (s.rf .GRM_MIR_COPY_STATE s.mirTarget = 1 ∧ s.rf .GRM_MIR_COPY_EPOCH_EPOCH s.mirTarget = gOp1 c))
    (hn : ¬ (s.rf .GRM_MIR_COPY_STATE s.mirTarget = 1 ∧ gOp1 c < s.rf .GRM_MIR_COPY_EPOCH_EPOCH s.mirTarget)) :
    s.mirrorHere l c = (copyBegun s c).depotAdd [mirrorWrite s c] := by
  have h1 : ¬ ((s.rf .GRM_MIR_COPY_STATE s.mirTarget == 1) && decide (gOp1 c < s.rf .GRM_MIR_COPY_EPOCH_EPOCH s.mirTarget)) = true := by
    simpa using hn
  have h2 : ¬ ((s.rf .GRM_MIR_COPY_STATE s.mirTarget == 1) && (s.rf .GRM_MIR_COPY_EPOCH_EPOCH s.mirTarget == gOp1 c)) = true := by
    simpa using hf
  unfold State.mirrorHere
  rw [if_neg (by simp [State.on, he, hl]), if_neg (Nat.not_lt.2 hs), if_neg (by simp [hst]), if_neg h1]
  simp only [if_neg h2]
  rw [show s.setfs _ = copyBegun s c from rfl, copyBase_copyBegun]
  rfl

end

theorem leNat_lt (bs : List Byte) : leNat bs < 2 ^ (8 * bs.length) := by
  induction bs with
  | nil => simp [leNat]
  | cons b t ih =>
    have hb := b.isLt
    simp only [leNat, List.length_cons, Nat.mul_add, Nat.pow_add]
    omega

/-- An epoch fits the register that shows it. -/
theorem gOp1_lt (c : Carriage) : gOp1 c < 2 ^ fwidth .GRM_MIR_COPY_EPOCH_EPOCH := by
  refine Nat.lt_of_lt_of_le (leNat_lt _) (Nat.pow_le_pow_right (by decide) ?_)
  have : ((c.payload.drop 16).take 8).length ≤ 8 := List.length_take_le ..
  show 8 * _ ≤ 64
  omega

theorem copyBegun_fields (s : State) (c : Carriage) : (copyBegun s c).rf .GRM_MIR_COPY_STATE s.mirTarget = 1
    ∧ (copyBegun s c).rf .GRM_MIR_COPY_EPOCH_EPOCH s.mirTarget = gOp1 c ∧ (copyBegun s c).rf .GRM_MIR_COPY_BYTES s.mirTarget = 0 := by
  have he := Nat.mod_eq_of_lt (gOp1_lt c)
  simp [copyBegun, State.setfs, State.rf_setf, he]
  decide

/-! ## Data carriages (R102, R111) -/

section
variable {s s1 : State} {p : Port} {c : Carriage} {d : DataPlace} {i : Inst}

theorem exec_dataReceive (hc : s.coreOn = true) : exec (.dataReceive p c d) s = .next (s.keep (s.dataReceive p c d)) :=
  event_on s (fun s => s.dataReceive p c d) hc

theorem dataReceive_none (h : s.running (cTeam c) = none) : s.dataReceive p c d = s := by
  simp only [State.dataReceive, h]

variable (hi : s.running (cTeam c) = some i)
include hi

/-- A carriage that cannot be applied, or whose yard is in reset, stays. -/
theorem dataReceive_stays (h : s.canTake i d = false ∨ (s.rf .YRD_STATE_STATE (s.rf .TT_TEAM_YARD (cTeam c)) == 1) = true) :
    s.dataReceive p c d = s := by
  simp only [State.dataReceive, hi]
  exact if_pos (by rcases h with h | h <;> simp only [h, Bool.not_false, Bool.true_or, Bool.or_true])

variable (ht : s.canTake i d = true) (hy : (s.rf .YRD_STATE_STATE (s.rf .TT_TEAM_YARD (cTeam c)) == 1) = false)
include ht hy

/-- An unscheduled one is applied, its credit returned by the last chip of its way. -/
theorem dataReceive_accepted (hk : cClass c ≠ 0) (h : s.takeAccepted p c [0] = some s1) :
    s.dataReceive p c d = (if cDst c = s.self then s1.reinFor c false else s1).dataHere i d c := by
  simp only [State.dataReceive, hi, ht, hy, hk, h, Bool.not_true, Bool.or_self, Bool.false_eq_true, if_false]

/-- A scheduled one of the closing exchange is applied. -/
theorem dataReceive_scheduled (hk : cClass c = 0) (hd : i.degraded = false) (hf : d.kind = .flagsUp ∨ d.kind = .flagsDown)
    (h : s.takeRx p c = some s1) : s.dataReceive p c d = s1.dataHere i d c := by
  rcases hf with hf | hf <;> simp [State.dataReceive, hi, ht, hy, hk, h, hd, hf]

end

/-- A mirror carriage that is taken and dropped. -/
theorem does_drop {s : State} {x : List Accepted} {i : Instr} {f : Fld} (he : exec i s = .next (s.keep ((withAccepted s x).sat f 0))) :
    Does i s fun t => t.rf f 0 = min (s.rf f 0 + 1) (2 ^ fwidth f - 1) ∧ t.net = (withAccepted s x).net ∧ Frame [.net] [(f, 0)] s t := by
  have hf := (frame_withAccepted s x).append (frame_sat (withAccepted s x) f 0 1)
  exact does_of_frame he hf ⟨rf_sat (withAccepted s x) f 0 1, rfl, hf⟩

/-- Settles O37: each command is the branch of its receive function that the hypotheses name. -/
theorem farMirrorAndDataCarriagesAreTaken : Obligations.FarMirrorAndDataCarriagesAreTaken := by
  intro s s1 l p c d i hc a bs counted queued e k m write fresh refused inReset
  refine ⟨fun h => ?_, fun h => ?_, fun h => ?_, fun h => ?_, fun h => ?_, fun h => ⟨?_, ?_, ?_⟩⟩
  · have hx := exec_farWrReceive hc h
    obtain ⟨hk, x, rfl⟩ := takeAccepted_some h
    have hfar := farKind_of_contains (by simp) hk
    obtain ⟨h1, h2⟩ := does_farAccess hx
    exact ⟨fun hb => ⟨h1 hb, does_refuse hfar (h1 hb)⟩, h2⟩
  · have hx := exec_farRdreqReceive hc h
    obtain ⟨hk, x, rfl⟩ := takeAccepted_some h
    have hfar := farKind_of_contains (by simp) hk
    obtain ⟨h1, h2⟩ := does_farAccess hx
    exact ⟨fun hb => ⟨h1 hb, does_refuse hfar (h1 hb)⟩, h2⟩
  · obtain ⟨hk, x, rfl⟩ := takeAccepted_some h
    refine ⟨fun hi => ?_, fun hi hd ho => ?_⟩
    · rcases hi with hi | ⟨hi, hn⟩
      · exact exec_farRdrspReceive_none hc h hi
      · exact (exec_farRdrspReceive_some hc h hi).trans (by rw [if_neg hn])
    · exact (exec_farRdrspReceive_some hc h hi).trans (by rw [if_pos ⟨hd, ho⟩])
  · have hx := exec_mirrorReceive hc h
    obtain ⟨-, x, rfl⟩ := takeAccepted_some h
    refine ⟨fun hw => ?_, fun he hl => ⟨fun ho => ?_, fun hs hst => ?_, fun hs hst => ⟨fun h1 h2 => ?_, fun hfr => ?_, fun hfr hn => ?_⟩⟩⟩
    · rw [mirrorHere_disabled (s := withAccepted s x) hw] at hx
      exact does_drop hx
    · rw [mirrorHere_oversize (s := withAccepted s x) he hl ho] at hx
      exact does_drop hx
    · rw [mirrorHere_stale (s := withAccepted s x) he hl hs (.inl hst)] at hx
      exact does_drop hx
    · rw [mirrorHere_stale (s := withAccepted s x) he hl hs (.inr ⟨h1, h2⟩)] at hx
      exact does_drop hx
    · rw [mirrorHere_write (s := withAccepted s x) he hl hs hst hfr] at hx
      obtain ⟨t, ht, hq, -, hf⟩ := does_depotAdd (Frame.refl [] [] _) hx
      exact ⟨t, ht, hq, hf⟩
    · rw [mirrorHere_begins (s := withAccepted s x) he hl hs hst hfr hn] at hx
      obtain ⟨t, ht, hq, hrf, hf⟩ := does_depotAdd frame_copyBegun hx
      obtain ⟨h1, h2, h3⟩ := copyBegun_fields (withAccepted s x) c
      exact ⟨t, ht, hq, (hrf _ _).trans h1, (hrf _ _).trans h2, (hrf _ _).trans h3, hf⟩
  · exact does_nothing ((exec_dataReceive hc).trans (by rw [dataReceive_none h]))
  · exact fun ht => does_nothing ((exec_dataReceive hc).trans (by rw [dataReceive_stays h ht]))
  · exact fun ht hy hk h1 => (exec_dataReceive hc).trans (by rw [dataReceive_accepted h ht hy hk h1])
  · exact fun ht hy hk hd hf h1 => (exec_dataReceive hc).trans (by rw [dataReceive_scheduled h ht hy hk hd hf h1])

end Sys2Proof

namespace Sys2Proof

open Machine

/-! # The array and its governor (O48) -/

/-! ## Starting the oldest operation (R15, R116) -/

/-- The array with operation o gone from its queue and k running; o's wait is added to its row's. -/
def arrStarted (s : State) (o : ArrOp) (rest : List ArrOp) (k : ArrCur) : ArraySt :=
  { s.arr with queue := rest, cur := some k, wait := sset (fun _ => 0) s.arr.wait o.row (sget (fun _ => 0) s.arr.wait o.row + (s.mtc - o.t)) }

/-- Operation o has left the queue, and k runs. -/
def opStarted (s : State) (o : ArrOp) (rest : List ArrOp) (k : ArrCur) : State :=
  { s with arr := arrStarted s o rest k, power := { s.power with lastOp := s.now } }

theorem frame_opStarted (s : State) (o : ArrOp) (rest : List ArrOp) (k : ArrCur) : Frame [.arr, .power] [] s (opStarted s o rest k) :=
  (frame_arr s (arrStarted s o rest k)).append (frame_power { s with arr := arrStarted s o rest k } _)

/-- The trace record of an operation's start. -/
def opTraced (s : State) (o : ArrOp) : State := s.trace 1 (dOpc o.desc + 256 * o.row + 65536 * o.col + 2 ^ 32 * dCount o.desc)

theorem frame_opTraced (s : State) (o : ArrOp) : Frame [.outbox] [(.DBG_TRACE_STAT_SENT, 0)] s (opTraced s o) := frame_trace ..

section
variable {s : State} {o : ArrOp} {rest : List ArrOp}

theorem arrStart_busy (h : s.arr.cur.isSome = true ∨ s.arr.queue = []) : s.arrStart = s := by
  unfold State.arrStart
  split
  · next hc hq => simp [hc, hq] at h
  · rfl

variable (hcur : s.arr.cur = none) (hq : s.arr.queue = o :: rest)
include hcur hq

theorem arrStart_waits (hh : s.opHeld o = true) (hr : s.opReady o = false) : s.arrStart = s := by
  simp only [State.arrStart, hcur, hq, hh, hr, Bool.not_false, Bool.and_true, if_true]

/-- An operation whose tag is gone runs to be discarded. -/
theorem arrStart_discards (hh : s.opHeld o = false) :
    s.arrStart = opTraced (opStarted s o rest { op := o, srcs := [], discard := true }) o := by
  simp only [State.arrStart, hcur, hq, hh, State.arrCur, Bool.false_and, Bool.false_eq_true, if_false]
  rfl

/-- One that is ready runs with its operands as they are. -/
theorem arrStart_runs (hh : s.opHeld o = true) (hr : s.opReady o = true) :
    s.arrStart = opTraced ((opStarted s o rest { op := o, srcs := s.operandsOf o }).eatStreams o) o := by
  simp only [State.arrStart, hcur, hq, hh, hr, State.arrCur, Bool.not_true, Bool.and_false, Bool.false_eq_true, if_false, if_true]
  rfl

end

/-! ## The streams of an operation -/

/-- Nothing but the streams has changed. -/
def StreamsOnly (s t : State) : Prop := t = { s with arr := { s.arr with streams := t.arr.streams } }

theorem streamsOnly_foldl {α : Type} {f : State → α → State} (hf : ∀ s x, StreamsOnly s (f s x)) (l : List α) (s : State) :
    StreamsOnly s (l.foldl f s) := by
  induction l generalizing s with
  | nil => rfl
  | cons x l ih =>
    have h1 := hf s x
    have h2 := ih (f s x)
    unfold StreamsOnly at *
    rw [List.foldl_cons, h2, h1]

theorem eatStreams_streamsOnly (s : State) (o : ArrOp) : StreamsOnly s (s.eatStreams o) :=
  streamsOnly_foldl (fun s x => by
    split
    · rfl
    · split <;> rfl) o.sources s

/-- An operation that reads no stream consumes none. -/
theorem eatStreams_none {o : ArrOp} (h : ∀ x ∈ o.sources, wKind x.1 ≠ 3 ∧ wKind x.1 ≠ 4) (s : State) : s.eatStreams o = s := by
  unfold State.eatStreams
  generalize o.sources = l at h
  induction l with
  | nil => rfl
  | cons x l ih =>
    obtain ⟨hx, hl⟩ := List.forall_mem_cons.1 h
    rw [List.foldl_cons, if_neg hx.1, if_neg hx.2, ih hl]

/-! ## ARRAY_OPERATION_START -/

theorem opTraced_arr (s : State) (o : ArrOp) : (opTraced s o).arr = s.arr := (frame_opTraced s o).part .arr (by simp)

section
variable {s : State} {scr : EccResult}

/-- With nothing started. -/
theorem exec_arrayStart_same (hc : s.coreOn = true) (h : s.arrStart = s) : exec (.arrayOperationStart scr) s = .next (s.keep s) := by
  show execArrayOperationStart s scr = _
  rw [execArrayOperationStart, event_on _ _ hc, h]
  dsimp only
  split
  · next h1 h2 => rw [h1] at h2; cases h2
  · rfl

/-- With an operation started: what its reads of the scratchpad find is taken. -/
theorem exec_arrayStart_some {u : State} {o : ArrOp} {k : ArrCur} (hc : s.coreOn = true) (hcur : s.arr.cur = none)
    (h : s.arrStart = opTraced u o) (hk : u.arr.cur = some k) : exec (.arrayOperationStart scr) s =
      .next (s.keep (if k.op.readsScr && !k.discard then (opTraced u o).scrEcc scr else opTraced u o)) := by
  show execArrayOperationStart s scr = _
  rw [execArrayOperationStart, event_on _ _ hc]
  simp only [hcur, h, opTraced_arr, hk]

end

/-- What the state is in which k runs and its start has been traced. -/
theorem does_opStarted {s : State} {o : ArrOp} {rest : List ArrOp} {k : ArrCur} {i : Instr}
    (he : exec i s = .next (s.keep (opTraced (opStarted s o rest k) o))) : Does i s fun t =>
      t.arr = arrStarted s o rest k ∧ t.power = { s.power with lastOp := s.now } ∧ Frame [.arr, .power, .outbox] [(.DBG_TRACE_STAT_SENT, 0)] s t := by
  have ht := frame_opTraced (opStarted s o rest k) o
  have hf := (frame_opStarted s o rest k).append ht
  exact does_of_frame he hf ⟨opTraced_arr .., ht.part .power (by simp), hf⟩

/-! ## Completing the running operation (R117, R118) -/

theorem exec_arrayComplete {s : State} (hc : s.coreOn = true) (parity : Bool) :
    exec (.arrayOperationComplete parity) s = .next (s.keep (s.arrEnd parity).heldRuns) := by
  show execArrayOperationComplete s parity = _
  rw [execArrayOperationComplete, event_on _ _ hc]

/-- With no team that waits for the array nothing begins. -/
theorem heldRuns_free {s : State} (h : ∀ i ∈ s.insts, i.hold = false ∨ i.st ≠ .running) : s.heldRuns = s := by
  unfold State.heldRuns
  rw [List.filter_eq_nil_iff.2 fun i hi => by rcases h i hi with h | h <;> simp [h]]
  rfl

/-- The running operation has ended and is counted. -/
def opCounted (s : State) : State :=
  ({ s with arr := { s.arr with cur := none }, fresh := s.fresh + 1, power := { s.power with lastOp := s.now } }).inc .ARR_OPCOUNT_COUNT 0

theorem frame_opCounted (s : State) : Frame [.arr, .fresh, .power] [(.ARR_OPCOUNT_COUNT, 0)] s (opCounted s) := by
  have h : Frame [.arr, .fresh, .power] [] s { s with arr := { s.arr with cur := none }, fresh := s.fresh + 1, power := { s.power with lastOp := s.now } } :=
    frame_of_parts rfl rfl rfl fun p _ => by cases p <;> simp_all [Part.Same]
  exact h.append (frame_setf _ .ARR_OPCOUNT_COUNT 0 _)

section
variable {s : State} {c : ArrCur} {parity : Bool}

theorem arrEnd_none (h : s.arr.cur = none) : s.arrEnd parity = s := by
  simp only [State.arrEnd, h]

theorem arrEnd_stalls (h : s.arr.cur = some c) (hs : s.stalls c = true) : s.arrEnd parity = s := by
  simp only [State.arrEnd, h, State.updDone, State.arrDone, hs, if_true, ite_self]

theorem arrEnd_upd (h : s.arr.cur = some c) (hu : c.op.upd.isSome = true) : s.arrEnd parity = s.updDone c parity := by
  simp only [State.arrEnd, h, hu, if_true]

variable (h : s.arr.cur = some c) (hu : c.op.upd = none)
include h hu

/-- A discarded operation is counted and stores nothing (R19). -/
theorem arrEnd_discard (hd : c.discard = true) : s.arrEnd parity = opCounted (if parity then s.fault 23 else s) := by
  have hs : s.stalls c = false := by simp [State.stalls, hd]
  simp only [State.arrEnd, h, hu, Option.isSome_none, State.arrDone, hs, hd, Bool.false_eq_true, if_false, if_true]
  rfl

/-- The results of an operation; those in which the array found a parity error are lost (R108). -/
def opResult (s : State) (c : ArrCur) (parity : Bool) : ArrRes :=
  if parity then (c.op.execute c.srcs s.fresh).lose else c.op.execute c.srcs s.fresh

variable (hd : c.discard = false) (hs : s.stalls c = false)
include hd hs

/-- With every operand confirmed its results are counted and stored. -/
theorem arrEnd_confirmed (hk : (srcDeps c.srcs).isEmpty = true) : s.arrEnd parity =
    (((opCounted (if parity then s.fault 23 else s)).countRes c.op (opResult s c parity)).storeRes c.op (opResult s c parity).blob).tagDone
      (16 * c.op.row + c.op.col) c.op.tag c.op.serial := by
  simp only [State.arrEnd, h, hu, Option.isSome_none, State.arrDone, hs, hd, hk, Bool.false_eq_true, if_false, if_true]
  rfl

/-- Operation u with these operands and this result is kept while an operand is unconfirmed (R118). -/
def opKept (s : State) (u : ArrOp) (srcs : List (Option Blob)) (r : ArrRes) : State :=
  { s with arr := { s.arr with kept := s.arr.kept ++ [{ op := u, srcs := srcs, res := r, shadow := s.shadowOf u }] } }

/-- Else it is kept, and its results stored all the same. -/
theorem arrEnd_unconfirmed (hk : (srcDeps c.srcs).isEmpty = false) : s.arrEnd parity =
    ((opKept (opCounted (if parity then s.fault 23 else s)) c.op c.srcs (opResult s c parity)).storeRes c.op (opResult s c parity).blob).tagDone
      (16 * c.op.row + c.op.col) c.op.tag c.op.serial := by
  simp only [State.arrEnd, h, hu, Option.isSome_none, State.arrDone, hs, hd, hk, Bool.false_eq_true, if_false]
  rfl

end

/-! ## UPDATE operations (R147) -/

/-- A running UPDATE operation has ended and is counted. -/
def updCounted (s : State) : State :=
  ({ s with arr := { s.arr with cur := none }, power := { s.power with lastOp := s.now } }).inc .ARR_OPCOUNT_COUNT 0

theorem frame_updCounted (s : State) : Frame [.arr, .power] [(.ARR_OPCOUNT_COUNT, 0)] s (updCounted s) := by
  have h : Frame [.arr, .power] [] s { s with arr := { s.arr with cur := none }, power := { s.power with lastOp := s.now } } :=
    frame_of_parts rfl rfl rfl fun p _ => by cases p <;> simp_all [Part.Same]
  exact h.append (frame_setf _ .ARR_OPCOUNT_COUNT 0 _)

/-- One that is discarded writes nothing. -/
theorem updDone_discard {s : State} {c : ArrCur} (hd : c.discard = true) : s.updDone c false = updCounted s := by
  have hs : s.stalls c = false := by simp [State.stalls, hd]
  simp only [State.updDone, hs, hd, Bool.true_or, Bool.false_eq_true, if_false, if_true]
  split <;> rfl

/-! ## The governor (R364) -/

section
variable {s : State}

/-- The array has work. -/
def arrBusy (s : State) : Prop := s.arr.cur.isSome = true ∨ s.arr.queue ≠ []

theorem arrBusy_iff : (s.arr.cur.isSome || !s.arr.queue.isEmpty) = true ↔ arrBusy s := by
  simp [arrBusy]

theorem exec_governorStep (hc : s.coreOn = true) : exec .governorStep s = .next (s.keep s.governor) :=
  event_on s (fun s => s.governor) hc

theorem governor_soon (h : s.now < s.power.lastStep + s.govStep) : s.governor = s := by
  simp only [State.governor, h, if_true]

variable (h : ¬ s.now < s.power.lastStep + s.govStep)
include h

/-- With work one group more is on, and the cycles lost are counted. -/
theorem governor_up (hb : arrBusy s) (hw : s.power.width < 16) : s.governor =
    ({ s with power := { s.power with width := s.power.width + 1, lastStep := s.now } }).sat .PWR_GOV_BUBBLES 0
      (s.govStep * 8 / 5 * (15 - s.power.width) / 16) := by
  rw [show 15 - s.power.width = 16 - (s.power.width + 1) by omega]
  simp only [State.governor, h, arrBusy_iff.2 hb, hw, decide_true, Bool.and_self, if_true, if_false]

/-- Without work for 160 ns one fewer is on. -/
theorem governor_down (hb : ¬ arrBusy s) (hw : 0 < s.power.width) (hl : s.power.lastOp + 160 ≤ s.now) :
    s.governor = { s with power := { s.power with width := s.power.width - 1, lastStep := s.now } } := by
  have hb' := Bool.not_eq_true _ ▸ mt arrBusy_iff.1 hb
  simp [State.governor, h, hb', hw, hl]

theorem governor_rests (hr : (arrBusy s ∧ 16 ≤ s.power.width) ∨ (¬ arrBusy s ∧ (s.power.width = 0 ∨ s.now < s.power.lastOp + 160))) :
    s.governor = s := by
  rcases hr with ⟨hb, hw⟩ | ⟨hb, hw⟩
  · have hb' := arrBusy_iff.2 hb
    have hw' := Nat.not_lt.2 hw
    simp [State.governor, h, hb', hw']
  · have hb' := Bool.not_eq_true _ ▸ mt arrBusy_iff.1 hb
    rcases hw with hw | hw
    · simp [State.governor, h, hb', hw]
    · have hl := Nat.not_le.2 hw
      simp [State.governor, h, hb', hl]

end

/-- Settles O48: each clause is one equation of `arrStart`, `arrEnd` or `governor`. -/
theorem arrayAndGovernorWorkInOrder : Obligations.ArrayAndGovernorWorkInOrder := by
  intro s o rest c scr parity hc waited u counted s1 r busy stepTime soon runs run free starts
  refine ⟨fun h => ?_, fun h1 h2 h3 h4 => ?_, fun h1 h2 h3 => ?_, fun h1 h2 h3 => ?_, fun h1 => ?_, fun h1 => ?_, fun h1 h2 => ?_,
    fun h1 h2 h3 => ?_, fun h1 h2 h3 h4 => ?_, fun h1 h2 h3 => ?_, fun h1 h2 h3 h4 => ⟨fun h5 => ?_, fun h5 => ?_⟩, fun h1 h2 => ?_,
    fun h1 h2 h3 h4 => ?_, fun h1 => ?_, fun h1 h2 h3 => ?_, fun h1 h2 h3 h4 => ?_⟩
  · exact does_nothing (exec_arrayStart_same hc (arrStart_busy h))
  · exact does_nothing (exec_arrayStart_same hc (arrStart_waits h1 h2 h3 h4))
  · have hx := exec_arrayStart_some (scr := scr) hc h1 (arrStart_discards h1 h2 h3) rfl
    rw [if_neg (by simp)] at hx
    exact does_opStarted hx
  · obtain ⟨hcur, hq, hh, hr⟩ := h1
    have hx := exec_arrayStart_some (scr := scr) hc hcur (arrStart_runs hcur hq hh hr) (by rw [eatStreams_none h2]; rfl)
    rw [eatStreams_none h2] at hx
    refine does_opStarted (hx.trans ?_)
    rcases h3 with rfl | h3
    · exact congrArg (fun t => Host.Outcome.next (s.keep t)) (ite_self _)
    · rw [if_neg (by simp [h3])]
  · obtain ⟨hcur, hq, hh, hr⟩ := h1
    have hk : ((opStarted s o rest { op := o, srcs := s.operandsOf o }).eatStreams o).arr.cur = some { op := o, srcs := s.operandsOf o } := by
      rw [eatStreams_streamsOnly]; rfl
    exact (exec_arrayStart_some hc hcur (arrStart_runs hcur hq hh hr) hk).trans (by simp only [Bool.not_false, Bool.and_true]; rfl)
  · refine (exec_arrayComplete hc parity).trans ?_
    rcases h1 with h1 | ⟨h1, h2⟩
    · rw [arrEnd_none h1]
    · rw [arrEnd_stalls h1 h2]
  · exact does_nothing ((exec_arrayComplete hc parity).trans (by rw [arrEnd_none h1, heldRuns_free h2]))
  · exact does_nothing ((exec_arrayComplete hc parity).trans (by rw [arrEnd_stalls h1 h2, heldRuns_free h3]))
  · have hx := exec_arrayComplete hc false
    rw [arrEnd_discard h1 h2 h3, if_neg Bool.false_ne_true, heldRuns_free (s := opCounted s) h4] at hx
    exact does_of_frame hx (frame_opCounted s) ⟨rfl, rfl, rfl, State.rf_setf_same .., frame_opCounted s⟩
  · exact (exec_arrayComplete hc true).trans (by rw [arrEnd_discard h1 h2 h3]; rfl)
  · exact (exec_arrayComplete hc parity).trans (by rw [arrEnd_confirmed h1 h2 h3 h4 h5]; rfl)
  · exact (exec_arrayComplete hc parity).trans (by rw [arrEnd_unconfirmed h1 h2 h3 h4 h5]; rfl)
  · exact (exec_arrayComplete hc parity).trans (by rw [arrEnd_upd h1 h2])
  · have hx := exec_arrayComplete hc false
    rw [arrEnd_upd h1 h2, updDone_discard h3, heldRuns_free (s := updCounted s) h4] at hx
    exact does_of_frame hx (frame_updCounted s) ⟨rfl, rfl, State.rf_setf_same .., frame_updCounted s⟩
  · refine does_nothing ((exec_governorStep hc).trans ?_)
    by_cases hs : soon
    · rw [governor_soon hs]
    · rw [governor_rests hs (h1.resolve_left hs)]
  · have hx := exec_governorStep hc
    rw [governor_up h1 h2 h3] at hx
    have hf := (frame_power s { s.power with width := s.power.width + 1, lastStep := s.now }).append (frame_sat _ .PWR_GOV_BUBBLES 0
      (s.govStep * 8 / 5 * (15 - s.power.width) / 16))
    exact does_of_frame hx hf ⟨rfl, rf_sat .., hf⟩
  · have hx := exec_governorStep hc
    rw [governor_down h1 h2 h3 h4] at hx
    exact does_of_frame hx (frame_power s _) ⟨rfl, frame_power s _⟩

end Sys2Proof

namespace Sys2Proof

open Machine

/-! # Carriages leave under the next number (O38) -/

/-! ## Units that wait for a slot (R214) -/

theorem emit_foldl {α : Type} (g : α → OutEv) (l : List α) (s : State) :
    l.foldl (fun (s : State) u => s.emit (g u)) s = { s with outbox := s.outbox ++ l.map g } := by
  induction l generalizing s with
  | nil => simp
  | cons x l ih => rw [List.foldl_cons, ih]; simp [State.emit]

/-- The waiting units of a sub-link leave. -/
theorem flushUnits_eq (s : State) (l t : Nat) : s.flushUnits l t =
    { s with net := { s.net with unitq := s.net.unitq.filter fun u => !(u.1 == l && u.2.1 == t) }, outbox := s.outbox ++ waitingUnits s l t } :=
  emit_foldl (fun u : Nat × Nat × Slot => OutEv.slot l t u.2.2) _ _

/-! ## Sending under the next LSN (R173, R187) -/

/-- A carriage's header as it leaves under LSN `lsn`. -/
def underLsn (c : Carriage) (lsn : Nat) : Carriage := setHop c lsn 0 (cDphase c) (cRev c) (cRdir c)

/-- The hop fields are above bit 103. -/
theorem setHop_low (c : Carriage) (lsn retry : Nat) (dph rev rdir : Bool) :
    (setHop c lsn retry dph rev rdir).hdr.toNat % 2 ^ 104 = c.hdr.toNat % 2 ^ 104 := by
  simp only [setHop, BitVec.toNat_ofNat]
  generalize hchk _ = k
  omega

/-- The rest of the carriage stays. `rfl` on whole carriages would compare their headers, so the field is named first. -/
theorem setHop_payload (c : Carriage) (lsn retry : Nat) (dph rev rdir : Bool) : (setHop c lsn retry dph rev rdir).payload = c.payload := by
  obtain ⟨_, payload, _⟩ := c
  exact Eq.refl payload

theorem setHop_trl (c : Carriage) (lsn retry : Nat) (dph rev rdir : Bool) : (setHop c lsn retry dph rev rdir).trl = c.trl := by
  obtain ⟨_, _, trl⟩ := c
  exact Eq.refl trl

/-- The sub-link's record after a carriage of it has begun to leave. -/
def sendingSub (s : State) (l t : Nat) (c : Carriage) (mirror : Nat) : SubLink :=
  let x := s.sub l t
  let d := s.carTime l t c.payload.length
  { x with
    next := (x.next + 1) % 2048
    retry := x.retry ++ [{ lsn := x.next, c := underLsn c x.next, t := (s.t64 + d + 63) / 64, mirror := mirror }]
    busy := s.t64 + d
    busySched := cClass c == 0
    busyLsn := x.next }

/-- The waiting units and the carriage have left. -/
def carriageOut (s : State) (l t : Nat) (c : Carriage) (mirror : Nat) : State :=
  ((s.flushUnits l t).setSub l t (sendingSub s l t c mirror)).emit (.carriage l t (underLsn c (s.sub l t).next))

theorem sendOn_eq (s : State) (l t : Nat) (c : Carriage) (mirror : Nat) : s.sendOn l t c mirror =
    (((carriageOut s l t c mirror).trace (6 + l) (carTrace (underLsn c (s.sub l t).next))).noteTraffic c).winTraffic c := rfl

section
variable (s : State) (l t : Nat) (c : Carriage) (mirror : Nat)

theorem carriageOut_sub : (carriageOut s l t c mirror).sub l t = sendingSub s l t c mirror := sget_sset_same ..

theorem carriageOut_outq : (carriageOut s l t c mirror).net.outq = s.net.outq := by
  rw [carriageOut, flushUnits_eq]; rfl

theorem carriageOut_outbox : (carriageOut s l t c mirror).outbox =
    s.outbox ++ (waitingUnits s l t ++ [.carriage l t (underLsn c (s.sub l t).next)]) := by
  rw [carriageOut, flushUnits_eq, ← List.append_assoc]; rfl

theorem frame_carriageOut : Frame [.net, .outbox] [] s (carriageOut s l t c mirror) := by
  rw [carriageOut, flushUnits_eq]
  exact (frame_net s _).append (frame_outbox { s with net := _ } _)

end

/-! ## What sending notes -/

/-- From s to u only what a sent carriage leaves behind has changed: traces after the outputs, windows, and notes of traffic. -/
structure Noted (s u : State) : Prop where
  frame : Frame [.net, .outbox, .yards, .teams, .qs, .groom] [(.DBG_TRACE_STAT_SENT, 0)] s u
  subs : u.net.subs = s.net.subs
  outq : u.net.outq = s.net.outq
  outbox : ∃ r, u.outbox = s.outbox ++ r

theorem Noted.trans {s t u : State} (h : Noted s t) (k : Noted t u) : Noted s u where
  frame := h.frame.trans k.frame
  subs := k.subs.trans h.subs
  outq := k.outq.trans h.outq
  outbox := by
    obtain ⟨r, hr⟩ := h.outbox
    obtain ⟨q, hq⟩ := k.outbox
    exact ⟨r ++ q, by rw [hq, hr, List.append_assoc]⟩

/-- A change that leaves router and outputs alone. -/
theorem noted_of_frame {s u : State} {ps : List Part} (h : Frame ps [] s u) (hp : ps ⊆ [.yards, .teams, .qs, .groom]) : Noted s u := by
  have hn : u.net = s.net := h.part .net fun hm => by simpa using hp hm
  have ho : u.outbox = s.outbox := h.part .outbox fun hm => by simpa using hp hm
  exact ⟨h.mono (List.Subset.trans hp (by simp)) (by simp), hn ▸ rfl, hn ▸ rfl, [], by rw [ho, List.append_nil]⟩

theorem noted_trace (s : State) (typ payload : Nat) : Noted s (s.trace typ payload) := by
  have h := frame_trace s typ payload
  have hn : (s.trace typ payload).net = s.net := h.part .net (by simp)
  exact ⟨h.mono (by simp) (List.Subset.refl _), hn ▸ rfl, hn ▸ rfl, trace_outbox s typ payload⟩

theorem noted_noteTraffic (s : State) (c : Carriage) : Noted s (s.noteTraffic c) := by
  have h : Frame [.yards] [] s (if cSrc c = s.self then s.touch (cYard c) else s) := by
    split
    · exact frame_yards s _
    · exact Frame.refl _ _ s
  unfold State.noteTraffic
  dsimp only
  split
  · exact noted_of_frame (h.append (frame_teams _ _)) (by simp)
  · exact noted_of_frame h (by simp)

theorem noted_noteMirror (s : State) (n : Nat) : Noted s (s.noteMirror n) := by
  unfold State.noteMirror
  split
  · exact noted_of_frame (Frame.refl [] [] s) (by simp)
  · exact noted_of_frame (frame_groom s _) (by simp)

/-- The window of a carriage is one of those allocated. -/
theorem winOf_mem {s : State} {c : Carriage} {w : Win} (h : s.winOf c = some w) : w ∈ s.net.wins := by
  unfold State.winOf at h
  split at h
  · cases h
  · exact List.mem_of_find?_eq_some h

/-- A change of a window that is allocated changes only the list of windows. -/
theorem noted_setWin {s : State} {w : Win} (hw : w ∈ s.net.wins) (t : Nat) : Noted s (s.setWin { w with last := t }) := by
  unfold State.setWin
  rw [if_pos (List.any_eq_true.2 ⟨w, hw, by simp⟩)]
  exact ⟨(frame_net s _).mono (by simp) (by simp), rfl, rfl, [], (List.append_nil _).symm⟩

theorem noted_queueTraffic (s : State) (q : Nat) : Noted s (s.queueTraffic q) := by
  unfold State.queueTraffic
  split
  · exact noted_of_frame (Frame.refl [] [] s) (by simp)
  · exact noted_of_frame (frame_qs s _) (by simp)

theorem noted_winTraffic (s : State) (c : Carriage) : Noted s (s.winTraffic c) := by
  unfold State.winTraffic
  split
  · exact noted_of_frame (Frame.refl [] [] s) (by simp)
  · next w hw =>
    have h := noted_setWin (winOf_mem hw) s.now
    dsimp only
    split
    · exact h.trans (noted_queueTraffic _ _)
    · exact h

/-- Sending a carriage is its leaving, and notes of it. -/
theorem noted_sendOn (s : State) (l t : Nat) (c : Carriage) (mirror : Nat) : Noted (carriageOut s l t c mirror) (s.sendOn l t c mirror) :=
  sendOn_eq s l t c mirror ▸ ((noted_trace _ _ _).trans (noted_noteTraffic _ c)).trans (noted_winTraffic _ c)

/-! ## The carriage that leaves its queue -/

/-- Carriage o has left its queue. -/
def unqueued (s : State) (o : OutCar) : State := { s with net := { s.net with outq := s.net.outq.erase o } }

theorem sendFwd_own {s : State} {o : OutCar} (h : o.adv = false) :
    ∃ m, s.sendFwd o = ((unqueued s o).sendOn o.l (cTenant o.c) o.c m).noteMirror m := by
  unfold State.sendFwd
  simp only [h, Bool.not_false, Bool.and_true, Bool.false_and, Bool.false_eq_true, if_true, if_false]
  exact ⟨_, rfl⟩

theorem grant_eq (s : State) (o : OutCar) : s.grant o = (unqueued s o).sendOn o.l (cTenant o.c) o.c 0 := rfl

theorem frame_unqueued (s : State) (o : OutCar) : Frame [.net] [] s (unqueued s o) := frame_net s _

section
variable {s t : State} {l n m : Nat} {o : OutCar} (h : Noted (carriageOut (unqueued s o) l n o.c m) t)
include h

/-- Its sub-link counts on and keeps it for a replay (R187). -/
theorem sent_sub : t.sub l n = sendingSub (unqueued s o) l n o.c m := by
  rw [← carriageOut_sub, State.sub, h.subs, State.sub]

/-- It follows the units that have waited. -/
theorem sent_outbox : (t.outbox.drop s.outbox.length).take ((waitingUnits s l n).length + 1) =
    waitingUnits s l n ++ [.carriage l n (underLsn o.c (s.sub l n).next)] := by
  obtain ⟨r, hr⟩ := h.outbox
  have ho : t.outbox = s.outbox ++ ((waitingUnits s l n ++ [.carriage l n (underLsn o.c (s.sub l n).next)]) ++ r) := by
    rw [hr, carriageOut_outbox, List.append_assoc]; rfl
  rw [ho, List.drop_left, List.take_left' (by simp)]

theorem sent_outq : t.net.outq = s.net.outq.erase o := h.outq.trans (carriageOut_outq ..)

theorem sent_next : (t.sub l n).next = ((s.sub l n).next + 1) % 2048 := by rw [sent_sub h]; rfl

theorem sent_retry : ∃ e : RetryEnt, e.lsn = (s.sub l n).next ∧ e.c = underLsn o.c (s.sub l n).next ∧ e.retry = 0
    ∧ (t.sub l n).retry = (s.sub l n).retry ++ [e] := ⟨_, rfl, rfl, rfl, by rw [sent_sub h]; rfl⟩

theorem sent_frame : Frame [.net, .outbox, .yards, .teams, .qs, .groom] [(.DBG_TRACE_STAT_SENT, 0)] s t :=
  (((frame_unqueued s o).append (frame_carriageOut _ l n o.c m)).append h.frame).mono (by simp) (by simp)

end

/-- Carriage o has left on its tenant's sub-link of link k: numbered, kept for a replay, and after the units that waited. -/
def LeavesOn (s : State) (o : OutCar) (k : Nat) (t : State) : Prop :=
  let n := cTenant o.c
  let y := s.sub k n
  let c := setHop o.c y.next 0 (cDphase o.c) (cRev o.c) (cRdir o.c)
  (t.sub k n).next = (y.next + 1) % 2048 ∧ (∃ e : RetryEnt, e.lsn = y.next ∧ e.c = c ∧ e.retry = 0 ∧ (t.sub k n).retry = y.retry ++ [e])
    ∧ t.net.outq = s.net.outq.erase o
    ∧ (t.outbox.drop s.outbox.length).take ((waitingUnits s k n).length + 1) = waitingUnits s k n ++ [.carriage k n c]
    ∧ c.payload = o.c.payload ∧ c.trl = o.c.trl ∧ c.hdr.toNat % 2 ^ 104 = o.c.hdr.toNat % 2 ^ 104
    ∧ Frame [.net, .outbox, .yards, .teams, .qs, .groom] [(.DBG_TRACE_STAT_SENT, 0)] s t

theorem leavesOn_of_noted {s t : State} {k m : Nat} {o : OutCar} (h : Noted (carriageOut (unqueued s o) k (cTenant o.c) o.c m) t) :
    LeavesOn s o k t :=
  ⟨sent_next h, sent_retry h, sent_outq h, sent_outbox h, setHop_payload .., setHop_trl .., setHop_low .., sent_frame h⟩

/-! ## REIN units: with none there is nothing to send -/

theorem pumpReins_none {s : State} (hq : s.net.reinq = []) (hw : s.net.reinWait = []) (l : Nat) : s.pumpReins l = s := by
  have h : s.pumpReins l = { s with net := { s.net with reinq := [], reinWait := [] } } := by simp [State.pumpReins, hq, hw]
  calc s.pumpReins l = { s with net := { s.net with reinq := s.net.reinq, reinWait := s.net.reinWait } } := by rw [h, hq, hw]
    _ = s := rfl

/-! ## Which carriage leaves -/

section
variable (u : State) (l : Nat)

/-- The sub-link of tenant t takes a carriage of n payload bytes. -/
def subTakes (t n : Nat) : Bool := u.subFree l t && u.retryRoom l t n

/-- The first queued scheduled carriage that may go. -/
def schedPick : Option OutCar :=
  u.net.outq.find? fun o => o.l == l && o.cls == 2 && !(o.adv && u.idBad o.key) && subTakes u l (cTenant o.c) o.c.payload.length

/-- An XMIT may go. -/
def xmitReady (x : Nat × TagOp) : Bool :=
  match x.2.blob with
  | some b => subTakes u l (u.yardTenant (rowOf x.1)) (u.xmitBody x.1 x.2 b).2.2.1.length && u.xmitOk x.1 x.2 b
  | none => false

/-- The first one of a team in degraded mode that may start in unscheduled link time. -/
def schedLast : Option OutCar :=
  u.net.outq.find? fun o => o.l == l && o.cls == 3 && subTakes u l (cTenant o.c) o.c.payload.length
    && u.mayStart l (cTenant o.c) (u.carTime l (cTenant o.c) o.c.payload.length)

/-- The oldest XMIT that may go. -/
def xmitPick : Option (Nat × TagOp) := oldest ((u.xmits l).filter (xmitReady u l))

/-- The first of the three that there is leaves. -/
def schedOne : State :=
  match schedPick u l with
  | some o => u.sendFwd o
  | none =>
    match xmitPick u l with
    | some x => (match x.2.blob with
      | some b => u.sendXmit x.1 x.2 b
      | none => u)
    | none =>
      match schedLast u l with
      | some o => u.sendFwd o
      | none => u

/-- The state once the closing exchange, lost mirror XMITs and REIN units are served. -/
def schedServed (s : State) (l : Nat) : State := (s.closeAll.loseMirXmits).pumpReins l

theorem exec_scheduledCarriageSend {s : State} (hc : s.coreOn = true) (l : Link) :
    exec (.scheduledCarriageSend l) s = .next (s.keep (s.schedSend l)) := event_on s (fun s => s.schedSend l) hc

variable {s : State} {l}

theorem schedSend_still (h : (schedServed s l).live l = false ∨ (schedServed s l).safe = true ∨ (schedServed s l).inGuard = true) :
    s.schedSend l = schedServed s l :=
  if_pos (by rcases h with h | h | h <;> simp [schedServed] at h <;> simp [h])

theorem schedServed_def (s : State) (l : Nat) : (s.closeAll.loseMirXmits).pumpReins l = schedServed s l := rfl

theorem schedSend_going (hl : (schedServed s l).live l = true) (hs : (schedServed s l).safe = false) (hg : (schedServed s l).inGuard = false) :
    s.schedSend l = schedOne (schedServed s l) l := by
  simp only [State.schedSend, schedServed_def, hl, hs, hg, Bool.not_true, Bool.or_self, Bool.false_eq_true, if_false]
  generalize schedServed s l = u
  rfl

end

section
variable {u : State} {l : Nat}

theorem schedOne_pick {o : OutCar} (h : schedPick u l = some o) : schedOne u l = u.sendFwd o := by
  simp only [schedOne, h]

theorem schedOne_xmit {x : Nat × TagOp} {b : Blob} (hp : schedPick u l = none) (h : xmitPick u l = some x) (hb : x.2.blob = some b) :
    schedOne u l = u.sendXmit x.1 x.2 b := by
  simp only [schedOne, hp, h, hb]

theorem schedOne_last {o : OutCar} (hp : schedPick u l = none) (hx : xmitPick u l = none) (h : schedLast u l = some o) :
    schedOne u l = u.sendFwd o := by
  simp only [schedOne, hp, hx, h]

theorem schedOne_none (hp : schedPick u l = none) (hx : xmitPick u l = none) (h : schedLast u l = none) : schedOne u l = u := by
  simp only [schedOne, hp, hx, h]

end

/-! ## Unscheduled grants (R23, R180) -/

/-- The carriages that may be granted on link l. -/
def grantables (s : State) (l : Nat) : List OutCar := s.net.outq.filter fun o => o.l == l && s.grantable o && s.bubble o

section
variable {s : State} {l : Nat} (hq : s.net.reinq = []) (hw : s.net.reinWait = [])
include hq hw

theorem unschedGrant_none (h : grantables s l = []) : s.unschedGrant l = s := by
  unfold grantables at h
  simp only [State.unschedGrant, pumpReins_none hq hw, h]
  simp [heads, drrPick]

theorem unschedGrant_sync {o : OutCar} (h : (grantables s l).find? (fun o => cClass o.c == 2) = some o) : s.unschedGrant l = s.grant o := by
  unfold grantables at h
  simp only [State.unschedGrant, pumpReins_none hq hw, h]

end

theorem exec_unscheduledCarriageGrant {s : State} (hc : s.coreOn = true) (l : Link) :
    exec (.unscheduledCarriageGrant l) s = .next (s.keep (s.unschedGrant l)) := event_on s (fun s => s.unschedGrant l) hc

/-- Settles O38: `schedSend` and `unschedGrant` take the branch that the hypotheses name, and what leaves is numbered by `carriageOut`. -/
theorem carriagesLeaveUnderTheNextNumber : Obligations.CarriagesLeaveUnderTheNextNumber := by
  intro s l o p x b hc u
  have hstill : (u.live l = false ∨ u.safe = true ∨ u.inGuard = true) → exec (.scheduledCarriageSend l) s = .next (s.keep u) := fun h => by
    rw [exec_scheduledCarriageSend hc l, schedSend_still h]; rfl
  have hgoing : u.live l = true → u.safe = false → u.inGuard = false → exec (.scheduledCarriageSend l) s = .next (s.keep (schedOne u l)) :=
    fun hl hs hg => by rw [exec_scheduledCarriageSend hc l, schedSend_going hl hs hg]; rfl
  clear_value u
  intro free pick last ready sent go
  have hsent : ∀ (i : Instr) (t : State) (m : Nat), o.l = l → exec i s = .next (s.keep t) →
      Noted (carriageOut (unqueued s o) o.l (cTenant o.c) o.c m) t → Does i s (sent l) := fun i t m hl hi ht =>
    does_of_frame hi (sent_frame ht) (leavesOn_of_noted (hl ▸ ht))
  have hpick : pick = schedPick u l := rfl
  have hxmit : oldest ((u.xmits l).filter ready) = xmitPick u l := rfl
  have hlast : last = schedLast u l := rfl
  rw [hpick, hxmit, hlast]
  refine ⟨hstill, fun hl hs hg => ?_, fun hq hw => ⟨fun h => ?_, fun h => ?_⟩⟩
  · have hx := hgoing hl hs hg
    refine ⟨fun h => schedOne_pick h ▸ hx, fun h hu ha => ?_, fun h ho hb => schedOne_xmit h ho hb ▸ hx, fun h ho h3 => schedOne_last h ho h3 ▸ hx,
      fun h ho h3 => schedOne_none h ho h3 ▸ hx⟩
    obtain ⟨m, hm⟩ := sendFwd_own (s := s) ha
    rw [schedOne_pick h, hu, hm] at hx
    have hol : o.l = l := by
      have := List.find?_some h
      simp only [Bool.and_eq_true, beq_iff_eq] at this
      exact this.1.1.1
    exact hsent _ _ m hol hx ((noted_sendOn ..).trans (noted_noteMirror ..))
  · exact does_nothing ((exec_unscheduledCarriageGrant hc l).trans (by rw [unschedGrant_none hq hw h]))
  · have hol : o.l = l := by
      have := (List.mem_filter.1 (List.mem_of_find?_eq_some h)).2
      simp only [Bool.and_eq_true, beq_iff_eq] at this
      exact this.1.1
    exact hsent _ _ 0 hol ((exec_unscheduledCarriageGrant hc l).trans (by rw [unschedGrant_sync hq hw h, grant_eq])) (noted_sendOn ..)

end Sys2Proof

namespace Sys2Proof

open Machine

/-! # Time passes where no command waits (O54) -/

theorem frame_time (s : State) (x : TimeSt) : Frame [.time] [] s { s with time := x } :=
  frame_of_parts rfl rfl rfl fun p _ => by cases p <;> simp_all [Part.Same]

/-- The state one edge of the reference after s: the counter at u, the slew and the freeze used up as far as the edge does. -/
def atEdge (s : State) (u : Nat) (slew : Int) (freeze sub : Nat) : State :=
  { s.setf .AON_MTC_MTC_NS 0 (u / 65536) with time := { s.time with slew := slew, freeze := freeze, frac := u % 65536, sub := sub } }

theorem frame_atEdge (s : State) (u : Nat) (slew : Int) (freeze sub : Nat) : Frame [.time] [(.AON_MTC_MTC_NS, 0)] s (atEdge s u slew freeze sub) :=
  (frame_setf s .AON_MTC_MTC_NS 0 (u / 65536)).append (frame_time _ _)

theorem rf_atEdge (s : State) (u : Nat) (slew : Int) (freeze sub : Nat) :
    (atEdge s u slew freeze sub).rf .AON_MTC_MTC_NS = u / 65536 % 2 ^ 64 := State.rf_setf_same s .AON_MTC_MTC_NS 0 (u / 65536)

/-- The edge takes the interpolation as it finds it. -/
theorem refEdge_sub (s : State) (sub : Nat) : refEdge { s with time := { s.time with sub := sub } } =
    atEdge s (s.edgeMtc + ((edgeAdvance s.time.slew).toNat - s.time.freeze)) (s.time.slew - (edgeAdvance s.time.slew - 524288))
      (s.time.freeze - (edgeAdvance s.time.slew).toNat) sub := rfl

/-- With no carriage and no unit that waits the router has nothing to do in a cycle. -/
theorem routerCycle_still {s : State} (ho : s.net.outq = []) (hu : s.net.unitq = []) : s.routerCycle = s := by
  have hports : ∀ l : List Nat, l.foldl (fun (s : State) p => if ([] : List OutCar).any fun o => o.port == p then s.blocked p else s) s = s := by
    intro l
    induction l with
    | nil => rfl
    | cons p l ih => exact ih
  simp only [State.routerCycle, ho, List.filter_nil, hports, hu, List.foldl_nil]

/-- Without an OFFLOAD or FETCH in degraded mode no move ends. -/
theorem movesDone_none {s : State} (h : ∀ i ∈ s.insts, ¬ (i.degraded = true ∧ (i.op = 0x48 ∨ i.op = 0x49))) : s.movesDone = s := by
  unfold State.movesDone
  dsimp only
  rw [List.filter_eq_nil_iff.2 fun i hi hm => h i hi (by simp at hm; exact ⟨hm.1.1.1.2, hm.1.2⟩)]
  rfl

theorem cycle_off {s : State} (h : s.coreOn = false) : cycle s = refEdge { s with time := { s.time with sub := 0 } } := by
  simp only [cycle, h, Bool.not_false, if_true]

theorem cycle_between {s : State} (h : s.coreOn = true) (hs : s.time.sub + 5 < 64) :
    cycle s = { s with time := { s.time with sub := s.time.sub + 5 } } := by
  simp only [cycle, h, hs, nextSub, Bool.not_true, Bool.false_eq_true, if_true, if_false]

theorem cycle_edge {s : State} (h : s.coreOn = true) (hs : 64 ≤ s.time.sub + 5) :
    cycle s = refEdge { s with time := { s.time with sub := s.time.sub + 5 - 64 } } := by
  have hn := Nat.not_lt.2 hs
  simp only [cycle, h, hn, nextSub, Bool.not_true, Bool.false_eq_true, if_false]

theorem step_front {s : State} {c : Instr} {rest : List Instr} (h : s.pending = c :: rest) : step s = exec c { s with pending := rest } := by
  unfold step; rw [h]

theorem step_idle {s : State} (h : s.pending = []) : step s = .next (idle s) := by
  unfold step; rw [h]

theorem step_off {s : State} (h : s.pending = []) (hc : s.coreOn = false) : step s = .next (cycle s) := by
  rw [step_idle h, idle, hc, if_neg Bool.false_ne_true]

theorem step_on {s : State} (h : s.pending = []) (hc : s.coreOn = true) : step s = .next (cycle s.routerCycle.heldRuns.movesDone) := by
  rw [step_idle h, idle, hc, if_pos rfl]

/-- Between edges the counter is interpolated where no freeze holds it. -/
theorem mtc_interpolated {s : State} (hc : s.coreOn = true) (hf : s.time.freeze = 0) : s.mtc = s.edgeMtc + s.time.sub * 8192 := by
  simp only [State.mtc, State.interp, hc, hf, beq_self_eq_true, Bool.and_self, if_true]

/-- It goes on by a core cycle. -/
theorem mtc_cycle {s : State} (hc : s.coreOn = true) (hf : s.time.freeze = 0) :
    ({ s with time := { s.time with sub := s.time.sub + 5 } } : State).mtc = s.mtc + 40960 := by
  have h1 : ({ s with time := { s.time with sub := s.time.sub + 5 } } : State).mtc = s.edgeMtc + (s.time.sub + 5) * 8192 := mtc_interpolated hc hf
  rw [h1, mtc_interpolated hc hf]
  omega

/-- Settles O54: the front command is `exec`'s; else `cycle` is one of its three branches, and what the router and the degraded teams do first is nothing
where they have no work. -/
theorem stepRunsTheFrontCommandOrOneReferenceEdge : Obligations.StepRunsTheFrontCommandOrOneReferenceEdge := by
  intro s c rest d u edge still
  have hedge : ∀ sub, edge sub (refEdge { s with time := { s.time with sub := sub } }) := fun sub => by
    rw [refEdge_sub]
    exact ⟨rf_atEdge .., rfl, frame_atEdge ..⟩
  have hstill : s.pending = [] → s.coreOn = true → still → step s = .next (cycle s) := fun h hc ⟨ho, hu, hi⟩ => by
    rw [step_on h hc, routerCycle_still ho hu, heldRuns_free fun i hm => (hi i hm).1, movesDone_none fun i hm ⟨_, ho⟩ => ho.elim (hi i hm).2.1 (hi i hm).2.2]
  refine ⟨step_front, fun h hc => ⟨_, step_off h hc, ?_⟩, step_on, fun h hc hq hs => ⟨_, hstill h hc hq, ?_⟩, fun h hc hq hs => ⟨_, hstill h hc hq, ?_⟩⟩
  · rw [cycle_off hc]
    exact hedge 0
  · rw [cycle_between hc hs]
    exact ⟨rfl, mtc_cycle hc, frame_time s _⟩
  · rw [cycle_edge hc hs]
    exact hedge _

/-! # The state at reset (O55) -/

/-- With an empty register file every field reads its reset value. -/
theorem rf_reset (f : Fld) (i : Nat) : State.reset.rf f i = fldReset State.reset.fuses f i := rfl

theorem canonical_reset : Canonical State.reset := ⟨List.Pairwise.nil, rfl, rfl, rfl⟩

/-- Settles O55: the components are read off, and each named field has its reset value. -/
theorem resetLeavesTheStatedValues : Obligations.ResetLeavesTheStatedValues := by
  refine ⟨rfl, rfl, rfl, rfl, rfl, rfl, fun l _ => rfl, rfl, rfl, rfl, rfl, ?_, rf_reset, fun t _ => rfl, rfl, rfl, rfl, rfl, rfl, rfl, rfl, canonical_reset⟩
  have hsrc : State.reset.rf .FLT_STATUS_SOURCES 0 = 0 := rfl
  have hsafe : State.reset.safe = false := rfl
  simp [State.fltN, hsafe, hsrc, bitAt]

end Sys2Proof

namespace Sys2Proof

open Machine

/-! # Several fields, the log, the counter (O26, O46) -/

/-- The fields that a list of writes names. -/
def fieldsIn (l : List (Fld × Nat × Nat)) : List (Fld × Nat) := l.map fun x => (x.1, x.2.1)

theorem frame_setfs (l : List (Fld × Nat × Nat)) (s : State) : Frame [] (fieldsIn l) s (s.setfs l) := by
  induction l generalizing s with
  | nil => exact Frame.refl _ _ s
  | cons x l ih => exact (frame_setf s x.1 x.2.1 x.2.2).append (ih _)

/-- A record of the AON log changes the log and its pointer. -/
theorem frame_log (s : State) (typ unit detail : Nat) (body : List Word) :
    Frame [.aon] [(.AON_LOG_PTR_HEAD, 0), (.AON_LOG_PTR_WRAPS, 0)] s (s.log typ unit detail body) := by
  have haon : ∀ (u : State) (x : Aon), Frame [.aon] [(.AON_LOG_PTR_HEAD, 0), (.AON_LOG_PTR_WRAPS, 0)] u { u with aon := x } :=
    fun u x => (frame_aon u x).mono (by simp) (by simp)
  have hhead : ∀ (u : State) (v : Nat), Frame [.aon] [(.AON_LOG_PTR_HEAD, 0), (.AON_LOG_PTR_WRAPS, 0)] u (u.setf .AON_LOG_PTR_HEAD 0 v) :=
    fun u v => (frame_setf u _ 0 v).mono (by simp) (by simp)
  have hwrap : ∀ u : State, Frame [.aon] [(.AON_LOG_PTR_HEAD, 0), (.AON_LOG_PTR_WRAPS, 0)] u ((u.setf .AON_LOG_PTR_HEAD 0 0).sat .AON_LOG_PTR_WRAPS 0) :=
    fun u => (hhead u 0).trans ((frame_sat _ .AON_LOG_PTR_WRAPS 0 1).mono (by simp) (by simp))
  have hend : ∀ (u : State) (e : Nat), Frame [.aon] [(.AON_LOG_PTR_HEAD, 0), (.AON_LOG_PTR_WRAPS, 0)] u
      (if e = 16384 then (u.setf .AON_LOG_PTR_HEAD 0 0).sat .AON_LOG_PTR_WRAPS 0 else u.setf .AON_LOG_PTR_HEAD 0 e) := fun u e => by
    split
    · exact hwrap u
    · exact hhead u e
  refine Frame.trans (Frame.trans ?_ (haon _ _)) (hend _ _)
  split
  · exact Frame.refl _ _ s
  · exact (haon s _).trans (hwrap _)

theorem frame_setMtc (s : State) (u : Nat) : Frame [.time] [(.AON_MTC_MTC_NS, 0)] s (s.setMtc u) :=
  (frame_setf s .AON_MTC_MTC_NS 0 (u / 65536)).append (frame_time _ _)

theorem rf_setMtc (s : State) (u : Nat) : (s.setMtc u).rf .AON_MTC_MTC_NS = u / 65536 % 2 ^ 64 :=
  State.rf_setf_same s .AON_MTC_MTC_NS 0 (u / 65536)

/-- On an edge the counter is what its register and its fraction hold. -/
theorem mtc_on_edge {s : State} (h : s.time.sub = 0) : s.mtc = s.rf .AON_MTC_MTC_NS * 65536 + s.time.frac := by
  simp only [State.mtc, State.edgeMtc, State.interp, h, Nat.zero_mul, ite_self, Nat.add_zero]

theorem now_on_edge {s : State} (h : s.time.sub = 0) (hf : s.time.frac < 65536) : s.now = s.rf .AON_MTC_MTC_NS % 2 ^ 64 := by
  rw [State.now, mtc_on_edge h]
  omega

/-! ## A step of the counter (R33, R42) -/

/-- The counter has taken the forward part of step m; the backward part freezes it. -/
def stepTaken (s : State) (m : Int) : State :=
  { s.setMtc (s.mtc + m.toNat) with time := { (s.setMtc (s.mtc + m.toNat)).time with freeze := s.time.freeze + (-m).toNat } }

/-- The step has been counted and logged. -/
def stepLogged (s : State) (m : Int) : State :=
  ((stepTaken s m).sat .AON_TIME_STEPS_COUNT 0).log 4 0 0 [w64 (s.mtc / 65536), w64 ((s.mtc + m.toNat - (-m).toNat) / 65536)]

/-- The instants that the step has left behind, to a and b, are not served again. -/
def stepServed (s : State) (m : Int) (a b : Nat) : State :=
  { stepLogged s m with time := { (stepLogged s m).time with suppress := true, waitStep := none, lastTick := a, lastSend := b } }

theorem timeStep_served (s : State) (m : Int) : ∃ a b, s.timeStep m = stepServed s m a b := ⟨_, _, rfl⟩

theorem frame_stepTaken (s : State) (m : Int) : Frame [.time] [(.AON_MTC_MTC_NS, 0)] s (stepTaken s m) :=
  ((frame_setMtc s _).append (frame_time _ _)).mono (by simp) (by simp)

theorem frame_logged_after (s : State) (m : Int) :
    Frame [.aon] [(.AON_TIME_STEPS_COUNT, 0), (.AON_LOG_PTR_HEAD, 0), (.AON_LOG_PTR_WRAPS, 0)] (stepTaken s m) (stepLogged s m) :=
  (frame_sat (stepTaken s m) .AON_TIME_STEPS_COUNT 0 1).append (frame_log _ 4 0 0 _)

theorem frame_stepServed (s : State) (m : Int) (a b : Nat) : Frame [.time] [] (stepLogged s m) (stepServed s m a b) := frame_time _ _

theorem time_stepServed (s : State) (m : Int) (a b : Nat) : (stepServed s m a b).time =
    { (stepTaken s m).time with suppress := true, waitStep := none, lastTick := a, lastSend := b } := by
  have ht : (stepLogged s m).time = (stepTaken s m).time := (frame_logged_after s m).part .time (by simp)
  rw [← ht]
  rfl

theorem frame_timeStep (s : State) (m : Int) : Frame [.time, .aon]
    [(.AON_MTC_MTC_NS, 0), (.AON_TIME_STEPS_COUNT, 0), (.AON_LOG_PTR_HEAD, 0), (.AON_LOG_PTR_WRAPS, 0)] s (s.timeStep m) := by
  obtain ⟨a, b, h⟩ := timeStep_served s m
  rw [h]
  exact (((frame_stepTaken s m).append (frame_logged_after s m)).append (frame_stepServed s m a b)).mono (by simp) (by simp)

theorem counted_stepLogged (s : State) (m : Int) : Counted s .AON_TIME_STEPS_COUNT 0 (stepLogged s m) := by
  have hcount : Counted s .AON_TIME_STEPS_COUNT 0 ((stepTaken s m).sat .AON_TIME_STEPS_COUNT 0) := by
    rw [Counted, rf_sat, (frame_stepTaken s m).rf (by simp)]
  exact counted_frame hcount (frame_log _ 4 0 0 _) (by simp)

/-- After a step the counter stands on the instant it was moved to, and the step is counted. -/
theorem timeStep_fields (s : State) (m : Int) :
    (s.timeStep m).rf .AON_MTC_MTC_NS = (s.mtc + m.toNat) / 65536 % 2 ^ 64 ∧ (s.timeStep m).time.frac = (s.mtc + m.toNat) % 65536
      ∧ (s.timeStep m).time.sub = 0 ∧ (s.timeStep m).time.freeze = s.time.freeze + (-m).toNat ∧ Counted s .AON_TIME_STEPS_COUNT 0 (s.timeStep m) := by
  obtain ⟨a, b, h⟩ := timeStep_served s m
  have hf := frame_stepServed s m a b
  have ht := time_stepServed s m a b
  rw [h]
  refine ⟨?_, congrArg TimeSt.frac ht, congrArg TimeSt.sub ht, congrArg TimeSt.freeze ht, counted_frame (counted_stepLogged s m) hf (by simp)⟩
  rw [hf.rf (by simp), (frame_logged_after s m).rf (by simp)]
  exact rf_setMtc s _

/-! # The stage engine's control register and the counter's load (O26) -/

theorem bitAt_eq_testBit (v i : Nat) : bitAt v i = v.testBit i := by
  rw [Nat.testBit_eq_decide_div_mod_eq]; rfl

/-- A bit of a value with a command's own bit forced (log entry 118). -/
theorem bitAt_or (v w : Word) (i : Nat) : bitAt (v ||| w).toNat i = (bitAt v.toNat i || bitAt w.toNat i) := by
  simp only [bitAt_eq_testBit, BitVec.toNat_or, Nat.testBit_or]

theorem bitAt_zero {n : Nat} : bitAt n 0 = false ↔ n % 2 = 0 := by
  simp [bitAt]

theorem bitAt_two {n : Nat} : bitAt n 2 = false ↔ n / 4 % 2 = 0 := by
  simp [bitAt]

/-- No STOP bit is written. -/
theorem stopBits_clear {n : Nat} : bitAt n 1 = false ∧ bitAt n 2 = false ↔ n / 2 % 4 = 0 := by
  simp only [bitAt, beq_eq_false_iff_ne]
  omega

/-- The checks of R52 answer a code of their table. -/
theorem armErr_le (s : State) : s.armErr ≤ 7 := by
  unfold State.armErr
  split
  · exact Nat.le_refl 7
  · simp only [firstBad]
    repeat' split
    all_goals decide

section
variable {s : State} {v off : Nat}

theorem ttCtl_arm (h0 : bitAt v 0 = true) (h1 : bitAt v 1 = false) (h2 : bitAt v 2 = false) : s.ttCtl v off = s.armWrite := by
  simp only [State.ttCtl, h0, h1, h2, Bool.or_self, Bool.false_eq_true, if_true, if_false]

theorem ttCtl_arm_and_stop (h0 : bitAt v 0 = true) (h : bitAt v 1 = true ∨ bitAt v 2 = true) : s.ttCtl v off = s.cfgIgnored off := by
  have hs : (bitAt v 1 || bitAt v 2) = true := by simpa using h
  simp only [State.ttCtl, h0, hs, if_true]

theorem ttCtl_stopNow (h0 : bitAt v 0 = false) (h2 : bitAt v 2 = true) : s.ttCtl v off = s.stopNowWrite := by
  simp only [State.ttCtl, h0, h2, Bool.false_eq_true, if_true, if_false]

theorem ttCtl_stopPeriod (h0 : bitAt v 0 = false) (h1 : bitAt v 1 = true) (h2 : bitAt v 2 = false) : s.ttCtl v off = s.stopPeriodWrite := by
  simp only [State.ttCtl, h0, h1, h2, Bool.false_eq_true, if_true, if_false]

end

/-- The state whose answer at the control port has been cleared. -/
abbrev answered (s : State) : State := { s with rdata := 0 }

/-- A write command that changes the cleared state so. -/
theorem does_write {c : Instr} {s u : State} {ps : List Part} {fs : List (Fld × Nat)} {P : State → Prop} (he : exec c s = .next (s.keep u))
    (hf : Frame ps fs (answered s) u) (h : P u) : Does c s fun t => P t ∧ Frame (.rdata :: ps) fs s t :=
  have hall := (frame_rdata s 0).append hf
  does_of_frame he hall ⟨h, hall⟩

/-- A write command that changes the answer at most. -/
theorem does_write_nothing {c : Instr} {s : State} (he : exec c s = .next (s.keep (answered s))) : Does c s (Frame [.rdata] [] s) :=
  does_of_frame he (frame_rdata s 0) (frame_rdata s 0)

section
variable {s : State} (hc : s.coreOn = true) (v : Word)
include hc

theorem exec_arm : exec (.arm v) s = .next (s.keep ((answered s).ttCtl (v ||| 1).toNat 0x0F00000)) :=
  putWord_on (r := .TT_CTL) hc (by decide) rfl

theorem exec_stopAtPeriod : exec (.stopAtPeriod v) s = .next (s.keep ((answered s).ttCtl (v ||| 2).toNat 0x0F00000)) :=
  putWord_on (r := .TT_CTL) hc (by decide) rfl

theorem exec_stopNow : exec (.stopNow v) s = .next (s.keep ((answered s).ttCtl (v ||| 4).toNat 0x0F00000)) :=
  putWord_on (r := .TT_CTL) hc (by decide) rfl

theorem exec_mtcLoad : exec (.mtcLoad v) s = .next (s.keep ((answered s).mtcLoad v.toNat 0x0100008)) :=
  putWord_on (r := .AON_MTC_LOAD) hc (by decide) rfl

end

/-! ## ARM -/

section
variable {s : State}

theorem armWrite_passed (he : s.engSt = 0) (hs : s.safe = false) (ha : s.armErr = 0) :
    s.armWrite = s.setfs [(.TT_STATUS_ERR, 0, 0), (.TT_STATUS_STATE, 0, 1)] := by
  simp [State.armWrite, he, hs, ha]

theorem armWrite_failed (he : s.engSt = 0) (hs : s.safe = false) (ha : s.armErr ≠ 0) : s.armWrite = s.setf .TT_STATUS_ERR 0 s.armErr := by
  simp [State.armWrite, he, hs, ha]

theorem armWrite_elsewhere (he : s.engSt ≠ 0) : s.armWrite = s := by
  simp [State.armWrite, he]

/-! ## STOP_AT_PERIOD and STOP_NOW -/

theorem stopPeriodWrite_armed (he : s.engSt = 1) : s.stopPeriodWrite = s.stopEngine := by
  simp only [State.stopPeriodWrite, he]

theorem stopPeriodWrite_running (he : s.engSt = 2) : s.stopPeriodWrite = s.setf .TT_STATUS_STATE 0 3 := by
  simp only [State.stopPeriodWrite, he]

theorem stopPeriodWrite_elsewhere (he : s.engSt = 0 ∨ s.engSt = 3) : s.stopPeriodWrite = s := by
  rcases he with he | he <;> simp only [State.stopPeriodWrite, he]

theorem stopNowWrite_stopped (he : s.engSt = 0) : s.stopNowWrite = s := by
  simp only [State.stopNowWrite, he]

theorem stopNowWrite_armed (he : s.engSt = 1) : s.stopNowWrite = s.stopEngine := by
  simp only [State.stopNowWrite, he]

theorem stopNowWrite_running (he : 2 ≤ s.engSt) : s.stopNowWrite = { s with eng := { s.eng with stopNow := true } } := by
  unfold State.stopNowWrite
  split
  · omega
  · omega
  · rfl

theorem frame_eng (s : State) (x : Engine) : Frame [.eng] [] s { s with eng := x } :=
  frame_of_parts rfl rfl rfl fun p _ => by cases p <;> simp_all [Part.Same]

end

/-! ## MTC_LOAD (R33) -/

/-- The counter stands on an edge at its present value, and no freeze is left. -/
def loadBegun (s : State) : State :=
  { s.setMtc s.mtc with time := { (s.setMtc s.mtc).time with freeze := 0 } }

theorem frame_loadBegun (s : State) : Frame [.time] [(.AON_MTC_MTC_NS, 0)] s (loadBegun s) :=
  ((frame_setMtc s s.mtc).append (frame_time _ _)).mono (by simp) (by simp)

theorem mtc_loadBegun {s : State} (h : s.mtc / 65536 < 2 ^ 64) : (loadBegun s).mtc = s.mtc := by
  have hrf : (loadBegun s).rf .AON_MTC_MTC_NS = s.mtc / 65536 := (rf_setMtc s s.mtc).trans (Nat.mod_eq_of_lt h)
  rw [mtc_on_edge rfl, hrf]
  show s.mtc / 65536 * 65536 + s.mtc % 65536 = s.mtc
  omega

theorem mtcLoad_taken {s : State} {v off : Nat} (he : s.engSt = 0) (hr : s.rf .SYN_TIME_CTL_ROOT ≠ 0) :
    s.mtcLoad v off = (loadBegun s).timeStep ((v * 65536 : Nat) - (s.mtc : Nat) : Int) := by
  simp [State.mtcLoad, he, State.on, hr, loadBegun]

theorem mtcLoad_refused {s : State} {v off : Nat} (h : s.engSt ≠ 0 ∨ s.rf .SYN_TIME_CTL_ROOT = 0) : s.mtcLoad v off = s.cfgIgnored off := by
  rcases h with h | h <;> simp [State.mtcLoad, State.on, h]

/-- A load of a value not below the counter: the counter is that value and the step is counted. -/
theorem load_forward {s : State} {n : Nat} (hn : n < 2 ^ 64) (hm : s.mtc ≤ n * 65536) :
    let t := (loadBegun s).timeStep ((n * 65536 : Nat) - (s.mtc : Nat) : Int)
    t.now = n ∧ t.time.frac = 0 ∧ t.time.freeze = 0 ∧ Counted s .AON_TIME_STEPS_COUNT 0 t
      ∧ Frame [.time, .aon] [(.AON_MTC_MTC_NS, 0), (.AON_TIME_STEPS_COUNT, 0), (.AON_LOG_PTR_HEAD, 0), (.AON_LOG_PTR_WRAPS, 0)] s t := by
  intro t
  obtain ⟨hrf, hfrac, hsub, hfreeze, hcount⟩ := timeStep_fields (loadBegun s) ((n * 65536 : Nat) - (s.mtc : Nat) : Int)
  have hto : (loadBegun s).mtc + ((n * 65536 : Nat) - (s.mtc : Nat) : Int).toNat = n * 65536 := by
    rw [mtc_loadBegun (by omega)]
    omega
  have hback : (-((n * 65536 : Nat) - (s.mtc : Nat) : Int)).toNat = 0 := by omega
  have hf0 := frame_loadBegun s
  rw [hto, Nat.mul_div_cancel n (by decide), Nat.mod_eq_of_lt hn] at hrf
  rw [hto, Nat.mul_mod_left] at hfrac
  rw [hback] at hfreeze
  refine ⟨?_, hfrac, hfreeze, ?_, (hf0.append (frame_timeStep _ _)).mono (by simp) (by simp)⟩
  · rw [now_on_edge hsub (by rw [hfrac]; decide), hrf, Nat.mod_eq_of_lt hn]
  · rwa [Counted, hf0.rf (by simp)] at hcount

/-- Settles O26: each command is the branch of the write that the forced bit (log entry 118), the other bits and the engine's state name. -/
theorem stageEngineFollowsItsControlRegister : Obligations.StageEngineFollowsItsControlRegister := by
  intro s v hc n
  have hor : ∀ (w : Word) (i : Nat), bitAt (v ||| w).toNat i = (bitAt n i || bitAt w.toNat i) := bitAt_or v
  have hset : ∀ (w : Word) (i : Nat), bitAt w.toNat i = true → bitAt (v ||| w).toNat i = true := fun w i h => by rw [hor, h, Bool.or_true]
  have hkeep : ∀ (w : Word) (i : Nat), bitAt w.toNat i = false → bitAt (v ||| w).toNat i = bitAt n i := fun w i h => by rw [hor, h, Bool.or_false]
  refine ⟨fun h => ?_, fun h => ?_, fun h0 h2 => ?_, fun h0 => ?_, fun he hr hm => ?_, fun h => ?_⟩
  · obtain ⟨h1, h2⟩ := stopBits_clear.2 h
    have hx := exec_arm hc v
    rw [ttCtl_arm (hset 1 0 (by decide)) ((hkeep 1 1 (by decide)).trans h1) ((hkeep 1 2 (by decide)).trans h2)] at hx
    refine ⟨fun he hs ha => ?_, fun he hs ha => ?_, fun he => ?_⟩
    · rw [armWrite_passed (s := answered s) he hs ha] at hx
      obtain ⟨t, ht, ⟨h3, h4⟩, hf⟩ := does_write (P := fun t => t.engSt = 1 ∧ t.rf .TT_STATUS_ERR = 0) hx (frame_setfs _ _)
        ⟨State.rf_setf_same .., ((frame_setf _ _ _ _).rf (by simp)).trans (State.rf_setf_same ..)⟩
      exact ⟨t, ht, h3, h4, hf.mono (by simp) (by simp [fieldsIn])⟩
    · rw [armWrite_failed (s := answered s) he hs ha] at hx
      refine does_write hx (frame_setf _ _ _ _) ?_
      have hle := armErr_le s
      exact (State.rf_setf_same ..).trans (Nat.mod_eq_of_lt (Nat.lt_of_le_of_lt hle (by decide)))
    · rw [armWrite_elsewhere (s := answered s) he] at hx
      exact does_write_nothing hx
  · have hx := exec_arm hc v
    have hstop : bitAt n 1 = true ∨ bitAt n 2 = true := by
      by_contra hn
      rw [not_or, Bool.not_eq_true, Bool.not_eq_true] at hn
      exact h (stopBits_clear.1 hn)
    rw [ttCtl_arm_and_stop (hset 1 0 (by decide)) (by rw [hkeep 1 1 (by decide), hkeep 1 2 (by decide)]; exact hstop)] at hx
    exact hx
  · have hx := exec_stopAtPeriod hc v
    rw [ttCtl_stopPeriod ((hkeep 2 0 (by decide)).trans (bitAt_zero.2 h0)) (hset 2 1 (by decide)) ((hkeep 2 2 (by decide)).trans (bitAt_two.2 h2))] at hx
    refine ⟨fun he => ?_, fun he => ?_, fun he => ?_⟩
    · rw [stopPeriodWrite_running (s := answered s) he] at hx
      exact does_write hx (frame_setf _ _ _ _) (State.rf_setf_same ..)
    · rw [stopPeriodWrite_elsewhere (s := answered s) he] at hx
      exact does_write_nothing hx
    · rw [stopPeriodWrite_armed (s := answered s) he] at hx
      exact hx
  · have hx := exec_stopNow hc v
    rw [ttCtl_stopNow ((hkeep 4 0 (by decide)).trans (bitAt_zero.2 h0)) (hset 4 2 (by decide))] at hx
    refine ⟨fun he => ?_, fun he => ?_, fun he => ?_⟩
    · rw [stopNowWrite_running (s := answered s) he] at hx
      exact does_write hx (frame_eng _ _) rfl
    · rw [stopNowWrite_stopped (s := answered s) he] at hx
      exact does_write_nothing hx
    · rw [stopNowWrite_armed (s := answered s) he] at hx
      exact hx
  · have hx := exec_mtcLoad hc v
    rw [mtcLoad_taken (s := answered s) he hr] at hx
    obtain ⟨hnow, hfrac, hfreeze, hcount, hf⟩ := load_forward (s := answered s) v.isLt hm
    obtain ⟨t, ht, ⟨h1, h2, h3, h4⟩, hft⟩ := does_write (P := fun t => t.now = n ∧ t.time.frac = 0 ∧ t.time.freeze = 0
      ∧ Counted s .AON_TIME_STEPS_COUNT 0 t) hx hf ⟨hnow, hfrac, hfreeze, hcount⟩
    exact ⟨t, ht, h1, h2, h3, h4, hft⟩
  · have hx := exec_mtcLoad hc v
    rw [mtcLoad_refused (s := answered s) h] at hx
    exact hx

end Sys2Proof

namespace Sys2Proof

open Machine

/-! # TICKs, corrections, the reference (O46) -/

theorem frame_fresh (s : State) (x : Nat) : Frame [.fresh] [] s { s with fresh := x } :=
  frame_of_parts rfl rfl rfl fun p _ => by cases p <;> simp_all [Part.Same]

/-! ## TICK_SEND (R35) -/

/-- The outputs of TICK_SEND on the links of a list. -/
def ticksOut (s : State) (ls : List Nat) : List OutEv :=
  ((ls.filter s.timeLink).map fun l => (s.subTenants l).map fun u => OutEv.tick l u (tickSlot s.now)).flatten

/-- The state with more outputs. -/
def sending (s : State) (out : List OutEv) : State := { s with outbox := s.outbox ++ out }

theorem sending_sending (s : State) (a b : List OutEv) : sending (sending s a) b = sending s (a ++ b) := by
  simp only [sending, List.append_assoc]

theorem ticksOut_sending (s : State) (a : List OutEv) (ls : List Nat) : ticksOut (sending s a) ls = ticksOut s ls := rfl

theorem ticksOut_cons (s : State) (l : Nat) (ls : List Nat) : ticksOut s (l :: ls) =
    (if s.timeLink l then (s.subTenants l).map fun u => OutEv.tick l u (tickSlot s.now) else []) ++ ticksOut s ls := by
  unfold ticksOut
  by_cases h : s.timeLink l = true
  · simp [h]
  · simp [h]

/-- Outputs that carry the present time: sending them does not change it. -/
theorem sending_foldl {α : Type} (g : α → Nat → OutEv) (l : List α) (s : State) :
    l.foldl (fun (s : State) x => s.emit (g x s.now)) s = sending s (l.map fun x => g x s.now) := by
  induction l generalizing s with
  | nil => simp [sending]
  | cons x l ih =>
    have h : s.emit (g x s.now) = sending s [g x s.now] := rfl
    rw [List.foldl_cons, ih, h, sending_sending]
    rfl

/-- TICKs leave link by link, tenant by tenant. -/
theorem sendTicks_eq (s : State) : s.sendTicks = sending s (ticksOut s nat6) := by
  have hlinks : ∀ (ls : List Nat) (s : State), ls.foldl (fun (s : State) l =>
      if s.timeLink l then (s.subTenants l).foldl (fun (s : State) t => s.emit (.tick l t (tickSlot s.now))) s else s) s
        = sending s (ticksOut s ls) := by
    intro ls
    induction ls with
    | nil => exact fun s => (by simp [sending, ticksOut] : s = sending s (ticksOut s []))
    | cons l ls ih =>
      intro s
      rw [List.foldl_cons, ih, ticksOut_cons]
      split
      · rw [sending_foldl (fun t n => .tick l t (tickSlot n)), ticksOut_sending, sending_sending]
      · rw [List.nil_append]
  exact hlinks nat6 s

theorem frame_sending (s : State) (out : List OutEv) : Frame [.outbox] [] s (sending s out) := frame_outbox s _

/-- The TICKs of the present instant are sent, and it is noted. -/
def ticksSent (s : State) : State :=
  { sending s (ticksOut s nat6) with time := { s.time with lastSend := s.now / 1000 * 1000 } }

theorem frame_ticksSent (s : State) : Frame [.outbox, .time] [] s (ticksSent s) := (frame_sending s _).append (frame_time _ _)

section
variable {s : State} (hc : s.coreOn = true)
include hc

theorem exec_tickSend (hd : s.time.lastSend < s.now / 1000 * 1000 ∧ s.safe = false) : exec .tickSend s =
    .next (s.keep (ticksSent s)) := by
  obtain ⟨hd, hs⟩ := hd
  have hcond : (decide (s.time.lastSend < s.sendAt) && !s.safe) = true := by simp [hs, State.sendAt, hd]
  show execTickSend s = _
  rw [execTickSend, event_on _ _ hc, if_pos hcond, sendTicks_eq]
  rfl

theorem exec_tickSend_not (hd : ¬ (s.time.lastSend < s.now / 1000 * 1000 ∧ s.safe = false)) : exec .tickSend s = .next (s.keep s) := by
  have hcond : ¬ (decide (s.time.lastSend < s.sendAt) && !s.safe) = true := by
    rwa [Bool.and_eq_true, decide_eq_true_eq, Bool.not_eq_true']
  show execTickSend s = _
  rw [execTickSend, event_on _ _ hc, if_neg hcond]

/-! ## TICK_RECEIVE (R36, R212) -/

theorem exec_tickReceive (l : Link) (slots : List Slot) (sub : Fin 512) : exec (.tickReceive l slots sub) s =
    .next (s.keep (if s.timeLink l then s.tickHere l slots sub else s)) :=
  event_on s (fun s => if s.timeLink l then s.tickHere l slots sub else s) hc

end

/-- The offset of a link is stored. -/
def offsetStored (s : State) (l : Nat) (o : Int) : State :=
  s.setfs [(.SYN_LINK_OFFSET_VALID, l, 1), (.SYN_LINK_OFFSET_OFFSET, l, toField 32 o)]

/-- The samples of the source link with those of a list. -/
def sampled (s : State) (x : List Int) : State := { s with time := { s.time with samples := s.time.samples ++ x } }

theorem tickHere_some {s : State} {l v sub : Nat} {slots : List Slot} (h : tickValue slots = some v) : s.tickHere l slots sub =
    sampled (offsetStored s l (s.tickOffset l v sub)) (if s.rf .SYN_TIME_STATE_SOURCE_LINK = l then [s.tickOffset l v sub] else []) := by
  simp only [State.tickHere, h]
  split
  · rfl
  · simp only [sampled, List.append_nil]
    rfl

theorem tickHere_none {s : State} {l sub : Nat} {slots : List Slot} (h : tickValue slots = none) : s.tickHere l slots sub = s := by
  simp only [State.tickHere, h]

theorem frame_offsetStored (s : State) (l : Nat) (o : Int) :
    Frame [] [(.SYN_LINK_OFFSET_VALID, l), (.SYN_LINK_OFFSET_OFFSET, l)] s (offsetStored s l o) := frame_setfs _ s

theorem offsetStored_valid (s : State) (l : Nat) (o : Int) : (offsetStored s l o).rf .SYN_LINK_OFFSET_VALID l = 1 :=
  ((frame_setf _ .SYN_LINK_OFFSET_OFFSET l _).rf (by simp)).trans (State.rf_setf_same ..)

theorem offsetStored_offset (s : State) (l : Nat) (o : Int) :
    (offsetStored s l o).rf .SYN_LINK_OFFSET_OFFSET l = toField 32 o % 2 ^ fwidth .SYN_LINK_OFFSET_OFFSET := State.rf_setf_same ..

/-! ## TIME_CORRECTION and SLEW_COMPLETE (R42) -/

section
variable {s : State} (hc : s.coreOn = true)
include hc

theorem exec_timeCorrection (h : s.rf .SYN_TIME_CTL_ROOT = 0 ∧ 16 ≤ s.time.samples.length) :
    exec .timeCorrection s = .next (s.keep (s.applyMean ((s.time.samples.take 16).foldl (· + ·) 0))) := by
  obtain ⟨hr, hn⟩ := h
  show execTimeCorrection s = _
  rw [execTimeCorrection, event_on _ _ hc, if_neg (by simp [State.on, hr, hn])]

theorem exec_timeCorrection_not (h : ¬ (s.rf .SYN_TIME_CTL_ROOT = 0 ∧ 16 ≤ s.time.samples.length)) :
    exec .timeCorrection s = .next (s.keep s) := by
  show execTimeCorrection s = _
  rw [execTimeCorrection, event_on _ _ hc, if_pos]
  simpa [State.on, -not_and, not_and_or] using h

theorem exec_slewComplete (h : s.time.correcting = true ∧ s.time.slew = 0 ∧ s.time.freeze = 0) :
    exec .slewComplete s = .next (s.keep s.corrected) := by
  show execSlewComplete s = _
  rw [execSlewComplete, event_on _ _ hc, if_pos (by simpa [and_assoc] using h)]

theorem exec_slewComplete_not (h : ¬ (s.time.correcting = true ∧ s.time.slew = 0 ∧ s.time.freeze = 0)) :
    exec .slewComplete s = .next (s.keep s) := by
  show execSlewComplete s = _
  rw [execSlewComplete, event_on _ _ hc, if_neg (by simpa [and_assoc] using h)]

end

/-- The mean of sixteen offsets is shown, and their samples are used up. -/
def meanShown (s : State) (m : Nat) : State :=
  let s1 := (s.setf .SYN_TIME_STATE_MEAN_OFFSET 0 m).setf .AON_MTC_STATUS_HOLDOVER_LINKS 0 0
  { s1 with fresh := s1.fresh + 1, time := { s1.time with samples := s1.time.samples.drop 16 } }

/-- A slew by m is in progress. -/
def slewBegun (s : State) (m : Int) : State :=
  ({ s with time := { s.time with slew := m, correcting := true, waitStep := none } }).setfs
    [(.AON_MTC_STATUS_SLEWING, 0, 1), (.AON_MTC_STATUS_STEP_PENDING, 0, 0)]

theorem correct_small {s : State} {m : Int} (h : m.natAbs ≤ 64 * 65536) : s.correct m = slewBegun s m := by
  simp only [State.correct, if_pos h]
  rfl

/-- Whatever of its two neighbours is shown (log entry 5), a small mean is slewed. -/
theorem applyMean_small {s : State} {sum : Int} (h : sum.natAbs ≤ 16 * 64 * 64) : ∃ up : Int, (sum % 16 = 0 → up = 0)
    ∧ s.applyMean sum = slewBegun (meanShown s (toField 32 (sum / 16 + up))) (sum * 64) := by
  have hm : (sum * 64).natAbs ≤ 64 * 65536 := by omega
  exact ⟨_, fun h0 => if_pos h0, correct_small hm⟩

theorem frame_meanShown (s : State) (m : Nat) :
    Frame [.time, .fresh] [(.SYN_TIME_STATE_MEAN_OFFSET, 0), (.AON_MTC_STATUS_HOLDOVER_LINKS, 0)] s (meanShown s m) := by
  have hset := (frame_setf s .SYN_TIME_STATE_MEAN_OFFSET 0 m).append (frame_setf _ .AON_MTC_STATUS_HOLDOVER_LINKS 0 0)
  have hboth := (hset.append (frame_fresh _ (s.fresh + 1))).append (frame_time _ { s.time with samples := s.time.samples.drop 16 })
  exact hboth.mono (by simp) (by simp)

theorem frame_slewBegun (s : State) (m : Int) :
    Frame [.time] [(.AON_MTC_STATUS_SLEWING, 0), (.AON_MTC_STATUS_STEP_PENDING, 0)] s (slewBegun s m) :=
  (frame_time s _).append (frame_setfs _ _)

theorem slewBegun_status (s : State) (m : Int) :
    (slewBegun s m).rf .AON_MTC_STATUS_SLEWING = 1 ∧ (slewBegun s m).rf .AON_MTC_STATUS_STEP_PENDING = 0 :=
  ⟨((frame_setf _ .AON_MTC_STATUS_STEP_PENDING 0 0).rf (by simp)).trans (State.rf_setf_same ..), State.rf_setf_same ..⟩

theorem meanShown_fields (s : State) (m : Nat) :
    (meanShown s m).rf .SYN_TIME_STATE_MEAN_OFFSET = m % 2 ^ fwidth .SYN_TIME_STATE_MEAN_OFFSET
      ∧ (meanShown s m).rf .AON_MTC_STATUS_HOLDOVER_LINKS = 0 := by
  constructor
  · exact ((frame_setf (s.setf .SYN_TIME_STATE_MEAN_OFFSET 0 m) .AON_MTC_STATUS_HOLDOVER_LINKS 0 0).rf (by simp)).trans (State.rf_setf_same ..)
  · exact State.rf_setf_same (s.setf .SYN_TIME_STATE_MEAN_OFFSET 0 m) .AON_MTC_STATUS_HOLDOVER_LINKS 0 0

/-- What a correction by a small mean leaves. -/
theorem applyMean_slews {s : State} {sum : Int} (h : sum.natAbs ≤ 16 * 64 * 64) :
    let t := s.applyMean sum
    t.time = { s.time with samples := s.time.samples.drop 16, slew := sum * 64, correcting := true, waitStep := none }
      ∧ t.rf .AON_MTC_STATUS_SLEWING = 1 ∧ t.rf .AON_MTC_STATUS_STEP_PENDING = 0 ∧ t.rf .AON_MTC_STATUS_HOLDOVER_LINKS = 0
      ∧ (sum % 16 = 0 → t.rf .SYN_TIME_STATE_MEAN_OFFSET = toField 32 (sum / 16) % 2 ^ fwidth .SYN_TIME_STATE_MEAN_OFFSET)
      ∧ Frame [.time, .fresh] [(.SYN_TIME_STATE_MEAN_OFFSET, 0), (.AON_MTC_STATUS_SLEWING, 0), (.AON_MTC_STATUS_STEP_PENDING, 0),
        (.AON_MTC_STATUS_HOLDOVER_LINKS, 0)] s t := by
  obtain ⟨up, hup, he⟩ := applyMean_small (s := s) h
  intro t
  have ht : t = slewBegun (meanShown s (toField 32 (sum / 16 + up))) (sum * 64) := he
  clear_value t
  subst ht
  have hf := frame_slewBegun (meanShown s (toField 32 (sum / 16 + up))) (sum * 64)
  obtain ⟨hslew, hstep⟩ := slewBegun_status (meanShown s (toField 32 (sum / 16 + up))) (sum * 64)
  obtain ⟨hmean, hlinks⟩ := meanShown_fields s (toField 32 (sum / 16 + up))
  refine ⟨rfl, hslew, hstep, (hf.rf (by simp)).trans hlinks, fun h0 => ?_, ((frame_meanShown s _).append hf).mono (by simp) (by simp)⟩
  rw [hf.rf (by simp), hmean, hup h0, add_zero]

theorem frame_corrected (s : State) : Frame [.time] [(.AON_MTC_STATUS_SLEWING, 0), (.AON_MTC_STATUS_ALIGNED, 0), (.AON_MTC_STATUS_TRUSTED, 0)]
    s s.corrected :=
  ((frame_time s _).append (frame_setfs _ _)).append (frame_setf _ .AON_MTC_STATUS_TRUSTED 0 _)

/-- What the end of a correction leaves. -/
theorem corrected_fields (s : State) : s.corrected.rf .AON_MTC_STATUS_SLEWING = 0 ∧ s.corrected.rf .AON_MTC_STATUS_ALIGNED = 1
    ∧ s.corrected.rf .AON_MTC_STATUS_TRUSTED = (if s.rf .AON_MTC_STATUS_HOLDOVER_REF = 0 then 1 else 0) := by
  have hw1 : fwidth .AON_MTC_STATUS_SLEWING = 1 := rfl
  have hw2 : fwidth .AON_MTC_STATUS_ALIGNED = 1 := rfl
  have hw3 : fwidth .AON_MTC_STATUS_TRUSTED = 1 := rfl
  refine ⟨?_, ?_, ?_⟩
  · simp [State.corrected, State.flag, State.setfs, State.rf_setf]
  · simp [State.corrected, State.flag, State.setfs, State.rf_setf, hw2]
  · by_cases h : s.rf .AON_MTC_STATUS_HOLDOVER_REF = 0 <;> simp [State.corrected, State.flag, State.rf_setf, State.on, h, b2n, hw3]

/-! ## The reference (R41) -/

theorem exec_referenceLoss (s : State) : exec .referenceLoss s =
    .next (s.keep (if s.coreOn then (if s.time.ref == .present then s.loseReference else s) else if s.time.ref == .present then s.toOscillator else s)) :=
  rfl

theorem exec_referenceReturn (s : State) : exec .referenceReturn s = .next (s.keep s.maybeRegain) := by
  show execReferenceReturn s = _
  simp only [execReferenceReturn, island, ite_self]

theorem exec_referenceLoss_lost {s : State} (h : s.time.ref = .lost) : exec .referenceLoss s = .next (s.keep s) := by
  simp [exec_referenceLoss, h]

theorem frame_toOscillator (s : State) : Frame [.time] [(.AON_MTC_MTC_NS, 0), (.AON_MTC_STATUS_HOLDOVER_REF, 0), (.AON_MTC_STATUS_TRUSTED, 0),
    (.AON_MTC_STATUS_SOURCE, 0)] s s.toOscillator :=
  (((frame_time s _).append (frame_setMtc _ _)).append (frame_setfs _ _)).mono (by simp) (by simp [fieldsIn])

/-- The counter runs on the AON oscillator, 32 ns ahead. -/
def OnOscillator (s t : State) : Prop :=
  t.now = (s.mtc + 32 * 65536) / 65536 % 2 ^ 64
    ∧ t.time = { s.time with ref := .lost, samples := [], frac := s.mtc % 65536, sub := 0 } ∧ t.rf .AON_MTC_STATUS_HOLDOVER_REF = 1
    ∧ t.rf .AON_MTC_STATUS_TRUSTED = 0 ∧ t.rf .AON_MTC_STATUS_SOURCE = 1
    ∧ Frame [.time] [(.AON_MTC_MTC_NS, 0), (.AON_MTC_STATUS_HOLDOVER_REF, 0), (.AON_MTC_STATUS_TRUSTED, 0), (.AON_MTC_STATUS_SOURCE, 0)] s t

theorem onOscillator (s : State) : OnOscillator s s.toOscillator := by
  have hw1 : fwidth .AON_MTC_STATUS_HOLDOVER_REF = 1 := rfl
  have hw3 : fwidth .AON_MTC_STATUS_SOURCE = 2 := rfl
  have hfrac : (s.mtc + 32 * 65536) % 65536 = s.mtc % 65536 := by omega
  have htime : s.toOscillator.time = { s.time with ref := .lost, samples := [], frac := s.mtc % 65536, sub := 0 } := by
    rw [← hfrac]
    rfl
  have hmtc : s.toOscillator.rf .AON_MTC_MTC_NS = (s.mtc + 32 * 65536) / 65536 % 2 ^ 64 :=
    ((frame_setfs _ (State.setMtc { s with time := { s.time with ref := .lost, samples := [] } } (s.mtc + 32 * 65536))).rf
      (by simp [fieldsIn])).trans (rf_setMtc _ _)
  refine ⟨?_, htime, ?_, ?_, ?_, frame_toOscillator s⟩
  · rw [now_on_edge (by rw [htime]) (by rw [htime]; exact Nat.mod_lt _ (by decide)), hmtc, Nat.mod_mod]
  all_goals simp [State.toOscillator, State.setfs, State.rf_setf, hw1, hw3]

/-- A source already latched, with no shadow window, changes nothing. -/
theorem fault_latched {s : State} {b : Nat} {o : Origin} {d : Nat} (hw : s.aon.windows = []) (hb : bitAt (s.rf .FLT_STATUS_SOURCES) b = true) :
    s.fault b o d = s := by
  have hl : s.latch b o d = s := by
    have hm : s.masked o b = false := by simp [State.masked, hw]
    simp only [State.latch, hm, hb, Bool.false_eq_true, if_true, if_false, ite_self]
  simp [State.fault, hl, hb]

theorem cutEngine_stopped {s : State} (h : s.engSt = 0) : s.cutEngine = s := if_pos h

/-- With the source latched, the engine STOPPED and every link DISABLED the loss of the reference moves the clock only. -/
theorem loseReference_quiet {s : State} (he : s.engSt = 0) (hl : ∀ k, k < 6 → s.linkSt k = 0)
    (hb : bitAt (s.rf .FLT_STATUS_SOURCES) 10 = true) (hw : s.aon.windows = []) : s.loseReference = s.toOscillator := by
  have hf := frame_toOscillator s
  have hfault : s.toOscillator.fault 10 = s.toOscillator := by
    refine fault_latched ((congrArg Aon.windows (hf.part .aon (by simp) : s.toOscillator.aon = s.aon)).trans hw) ?_
    rw [hf.rf (by simp)]
    exact hb
  have heng : s.toOscillator.engSt = 0 := (hf.rf (by simp)).trans he
  have hlinks : ∀ k, k < 6 → s.toOscillator.linkSt k = 0 := fun k hk => (hf.rf (by simp)).trans (hl k hk)
  rw [State.loseReference, hfault, cutEngine_stopped heng]
  simp [nat6, hlinks]

theorem maybeRegain_lost {s : State} (h : s.time.ref = .lost) : s.maybeRegain = s.regainReference := by
  simp [State.maybeRegain, h]

theorem maybeRegain_present {s : State} (h : s.time.ref = .present) : s.maybeRegain = s := by
  simp [State.maybeRegain, h]

theorem frame_regainReference (s : State) :
    Frame [.time] [(.AON_MTC_STATUS_HOLDOVER_REF, 0), (.AON_MTC_STATUS_SOURCE, 0)] s s.regainReference :=
  (frame_time s _).append (frame_setfs _ _)

theorem regainReference_fields (s : State) :
    s.regainReference.rf .AON_MTC_STATUS_HOLDOVER_REF = 0 ∧ s.regainReference.rf .AON_MTC_STATUS_SOURCE = 0 := by
  simp [State.regainReference, State.setfs, State.rf_setf]

/-- Settles O46: each event is one branch of its function; the frames of the updates give what it leaves alone. -/
theorem ticksCorrectTheMachineTime : Obligations.TicksCorrectTheMachineTime := by
  intro s l slots sub v due o sum enough done lost
  have hlost : ∀ {c : Instr}, exec c s = .next (s.keep s.toOscillator) → Does c s lost := fun he => does_of_frame he (frame_toOscillator s) (onOscillator s)
  have hpres : s.time.ref = .present → (s.time.ref == .present) = true := fun h => by rw [h]; rfl
  refine ⟨fun h => does_nothing (exec_referenceLoss_lost h), fun h hc => hlost ?_, fun h hc => ?_, fun h hc he hl hb hw => hlost ?_, fun h => ?_,
    fun h => ?_, fun hc => ⟨fun hd => ?_, fun hd => does_nothing (exec_tickSend_not hc hd), fun h => ?_, fun h hv => ?_,
    fun h => does_nothing (exec_timeCorrection_not hc h), exec_timeCorrection hc, fun h hs => ?_, fun h => ?_,
    fun h => does_nothing (exec_slewComplete_not hc h)⟩⟩
  · rw [exec_referenceLoss, hc, if_neg Bool.false_ne_true, if_pos (hpres h)]
  · rw [exec_referenceLoss, hc, if_pos rfl, if_pos (hpres h)]
  · rw [exec_referenceLoss, hc, if_pos rfl, if_pos (hpres h), loseReference_quiet he hl hb hw]
  · have hx := (exec_referenceReturn s).trans (by rw [maybeRegain_lost h])
    exact does_of_frame hx (frame_regainReference s) ⟨(regainReference_fields s).1, (regainReference_fields s).2, rfl, frame_regainReference s⟩
  · exact does_nothing ((exec_referenceReturn s).trans (by rw [maybeRegain_present h]))
  · exact does_of_frame (exec_tickSend hc hd) (frame_ticksSent s) ⟨rfl, rfl, frame_ticksSent s⟩
  · refine does_nothing ((exec_tickReceive hc l slots sub).trans ?_)
    rcases h with h | h
    · rw [h, if_neg Bool.false_ne_true]
    · rw [tickHere_none h, ite_self]
  · have hx := exec_tickReceive hc l slots sub
    rw [h, if_pos rfl, tickHere_some hv] at hx
    have hf := frame_offsetStored s l o
    have hs := frame_time (offsetStored s l o) { s.time with samples := s.time.samples ++ if s.rf .SYN_TIME_STATE_SOURCE_LINK = l.val then [o] else [] }
    exact does_of_frame hx (hf.append hs) ⟨offsetStored_valid s l o, offsetStored_offset s l o, rfl, hf.append hs⟩
  · have hx := exec_timeCorrection hc h
    obtain ⟨h1, h2, h3, h4, h5, hf⟩ := applyMean_slews (s := s) hs
    exact does_of_frame hx hf ⟨h1, h2, h3, h4, h5, hf⟩
  · obtain ⟨h1, h2, h3⟩ := corrected_fields s
    exact does_of_frame (exec_slewComplete hc h) (frame_corrected s) ⟨rfl, h1, h2, h3, frame_corrected s⟩

end Sys2Proof

namespace Sys2Proof

open Machine

/-! # Training: lock, alignment, round trip (O42) -/

/-! ## Folds of updates -/

/-- Updates one after the other, each within one frame. -/
theorem Frame.foldl {α : Type} {ps : List Part} {fs : List (Fld × Nat)} {f : State → α → State} (l : List α)
    (hf : ∀ u, ∀ x ∈ l, Frame ps fs u (f u x)) (s : State) : Frame ps fs s (l.foldl f s) := by
  induction l generalizing s with
  | nil => exact Frame.refl _ _ s
  | cons x l ih => exact (hf s x (List.mem_cons_self ..)).trans (ih (fun u y hy => hf u y (List.mem_cons_of_mem _ hy)) _)

/-- Field f of index a set to v for each chosen index of a list. -/
def setEach (f : Fld) (a : Nat → Nat) (v : Nat → Nat) (p : Nat → Bool) (l : List Nat) (s : State) : State :=
  l.foldl (fun (s : State) k => if p k then s.setf f (a k) (v k) else s) s

theorem frame_setEach (f : Fld) (a v : Nat → Nat) (p : Nat → Bool) (l : List Nat) (s : State) :
    Frame [] (l.map fun k => (f, a k)) s (setEach f a v p l s) := by
  refine Frame.foldl l (fun u k hk => ?_) s
  split
  · exact (frame_setf u f (a k) (v k)).mono (List.Subset.refl _) (by simpa using ⟨k, hk, rfl⟩)
  · exact Frame.refl _ _ u

/-- A chosen index holds its value, where the indices of the list differ. -/
theorem rf_setEach {f : Fld} {a v : Nat → Nat} {p : Nat → Bool} {l : List Nat} (s : State) {k : Nat} (hd : (l.map a).Nodup) (hk : k ∈ l)
    (hp : p k = true) : (setEach f a v p l s).rf f (a k) = v k % 2 ^ fwidth f := by
  induction l generalizing s with
  | nil => cases hk
  | cons j l ih =>
    rw [List.map_cons, List.nodup_cons] at hd
    obtain ⟨hj, hd⟩ := hd
    rcases List.mem_cons.1 hk with rfl | hk
    · show (setEach f a v p l (if p k then s.setf f (a k) (v k) else s)).rf f (a k) = _
      rw [(frame_setEach f a v p l _).rf (by simpa using hj), if_pos hp, State.rf_setf_same]
    · exact ih _ hd hk

/-! ## Link records and link states -/

theorem frame_links (s : State) (x : List (Nat × LinkRec)) : Frame [.links] [] s { s with links := x } :=
  frame_of_parts rfl rfl rfl fun p _ => by cases p <;> simp_all [Part.Same]

theorem frame_updLink (s : State) (l : Nat) (f : LinkRec → LinkRec) : Frame [.links] [] s (s.updLink l f) := frame_links s _

theorem linkIs_setLink (s : State) (l : Nat) (x : LinkRec) : LinkIs s l x (s.setLink l x) :=
  ⟨sget_sset_same .., fun _ hk => sget_sset_other _ _ _ _ _ _ hk⟩

theorem linkIs_updLink (s : State) (l : Nat) (f : LinkRec → LinkRec) : LinkIs s l (f (s.link l)) (s.updLink l f) := linkIs_setLink ..

theorem linkIs_of_links {s t : State} (h : t.links = s.links) (l : Nat) : LinkIs s l (s.link l) t := by
  have hl : ∀ k, t.link k = s.link k := fun k => by rw [State.link, h, State.link]
  exact ⟨hl l, fun k _ => hl k⟩

theorem LinkIs.trans {s t u : State} {l : Nat} {x y : LinkRec} (h : LinkIs s l x t) (k : LinkIs t l y u) : LinkIs s l y u :=
  ⟨k.1, fun j hj => (k.2 j hj).trans (h.2 j hj)⟩

/-- A later change that leaves the links alone. -/
theorem LinkIs.frame {s t u : State} {l : Nat} {x : LinkRec} {ps : List Part} {fs : List (Fld × Nat)} (h : LinkIs s l x t) (k : Frame ps fs t u)
    (hn : .links ∉ ps) : LinkIs s l x u := by
  have hl : u.links = t.links := k.part .links hn
  have hk := linkIs_of_links hl l
  rw [h.1] at hk
  exact h.trans hk

/-- A pattern begins on no lane, and no checker ends. -/
theorem frame_prbsTurn {s : State} {l st : Nat} (h : prbsSt (s.linkSt l) = false) : Frame [.outbox] [] s (s.prbsTurn l st) := by
  unfold State.prbsTurn
  simp only [h, Bool.false_eq_true, if_false]
  split
  · exact frame_outbox s _
  · exact Frame.refl _ _ s

/-- The new state of a link is traced and shown. -/
def stateShown (s : State) (l st : Nat) : State :=
  ((s.prbsTurn l st).trace 12 (l + 256 * s.linkSt l + 65536 * st)).setf .LNK_STATE_STATE l st

theorem frame_stateShown {s : State} {l st : Nat} (h : prbsSt (s.linkSt l) = false) :
    Frame [.outbox] [(.LNK_STATE_STATE, l), (.DBG_TRACE_STAT_SENT, 0)] s (stateShown s l st) :=
  (((frame_prbsTurn h).append (frame_trace _ _ _)).append (frame_setf _ _ _ _)).mono (by simp) (by simp)

theorem setLinkSt_eq {s : State} {l st : Nat} (h : s.linkSt l ≠ st) :
    s.setLinkSt l st = (stateShown s l st).updLink l fun x => { x with t := s.now } := by
  simp only [State.setLinkSt, if_neg h]
  rfl

section
variable {s : State} {l st : Nat} (h : s.linkSt l ≠ st) (hp : prbsSt (s.linkSt l) = false)
include h

theorem linkSt_setLinkSt (hst : st < 16) : (s.setLinkSt l st).linkSt l = st := by
  rw [setLinkSt_eq h, State.linkSt, (frame_updLink _ l _).rf (by simp)]
  exact (State.rf_setf_same _ .LNK_STATE_STATE l st).trans (Nat.mod_eq_of_lt hst)

include hp

theorem frame_setLinkSt : Frame [.links, .outbox] [(.LNK_STATE_STATE, l), (.DBG_TRACE_STAT_SENT, 0)] s (s.setLinkSt l st) := by
  rw [setLinkSt_eq h]
  exact ((frame_stateShown hp).append (frame_updLink _ _ _)).mono (by simp) (by simp)

theorem linkIs_setLinkSt : LinkIs s l { s.link l with t := s.now } (s.setLinkSt l st) := by
  rw [setLinkSt_eq h]
  have hs : (stateShown s l st).links = s.links := (frame_stateShown hp).part .links (by simp)
  have hk := linkIs_of_links hs l
  have hu := linkIs_updLink (stateShown s l st) l fun x => { x with t := s.now }
  rw [hk.1] at hu
  exact hk.trans hu

end

theorem toPart_eq {s : State} {l st part : Nat} (h : s.linkSt l ≠ 9) : s.toPart l st part = s.setLinkSt l st := if_neg h

/-! ## LANE_LOCK (R362, Table 8.6) -/

section
variable (s : State) (l m : Nat)

/-- The lanes of mask m are shown as locked, and noted. -/
def lanesLocked : State :=
  (setEach .LNK_LANE_LOCK (fun k => 64 * l + k) (fun _ => 1) (bitAt m) (List.range 64) s).updLink l fun x => { x with locked := m }

theorem frame_lanesLocked : Frame [.links] ((List.range 64).map fun k => (Fld.LNK_LANE_LOCK, 64 * l + k)) s (lanesLocked s l m) :=
  ((frame_setEach ..).append (frame_updLink ..)).mono (by simp) (by simp)

theorem linkIs_lanesLocked : LinkIs s l { s.link l with locked := m } (lanesLocked s l m) := by
  have hf := frame_setEach .LNK_LANE_LOCK (fun k => 64 * l + k) (fun _ => 1) (bitAt m) (List.range 64) s
  have hk := linkIs_of_links (hf.part .links (by simp)) l
  have hu := linkIs_updLink (setEach .LNK_LANE_LOCK (fun k => 64 * l + k) (fun _ => 1) (bitAt m) (List.range 64) s) l
    fun x => { x with locked := m }
  rw [hk.1] at hu
  exact hk.trans hu

theorem lanesLocked_shown {k : Nat} (hk : k < 64) (hb : bitAt m k = true) : (lanesLocked s l m).rf .LNK_LANE_LOCK (64 * l + k) = 1 := by
  have hd : ((List.range 64).map fun k => 64 * l + k).Nodup := List.Nodup.map (fun a b h => by simpa using h) List.nodup_range
  exact rf_setEach (a := fun k => 64 * l + k) (v := fun _ => 1) s hd (List.mem_range.2 hk) hb

end

section
variable {s : State} {l m0 : Nat}

theorem laneLocked_rest (h : ¬ (s.inLock l = true ∧ fullGroups ((s.link l).locked ||| s.lockable l m0) (s.link l).keep ≠ 0)) :
    s.laneLocked l m0 = lanesLocked s l ((s.link l).locked ||| s.lockable l m0) :=
  if_neg (by simpa using h)

theorem laneLocked_full (h : s.inLock l = true) (hg : fullGroups ((s.link l).locked ||| s.lockable l m0) (s.link l).keep ≠ 0) :
    s.laneLocked l m0 = ((lanesLocked s l ((s.link l).locked ||| s.lockable l m0)).toPart l 3 1).marksZero l :=
  if_pos (by simpa [h] using hg)

end

theorem frame_setSub (s : State) (l t : Nat) (x : SubLink) : Frame [.net] [] s (s.setSub l t x) := frame_net s _

theorem frame_marksZero (s : State) (l : Nat) : Frame [.net] [] s (s.marksZero l) := Frame.foldl nat4 (fun u t _ => frame_setSub u l t _) s

theorem sub_setSub (s : State) (l t k : Nat) (x : SubLink) : (s.setSub l t x).sub l k = if k = t then x else s.sub l k := by
  by_cases h : k = t
  · subst h
    rw [if_pos rfl]
    exact sget_sset_same ..
  · rw [if_neg h]
    exact sget_sset_other _ _ _ _ _ _ (by omega)

theorem marksZero_marks (s : State) (l : Nat) {k : Nat} (h : k < 4) : ((s.marksZero l).sub l k).marks = 0 := by
  have hk : k = 0 ∨ k = 1 ∨ k = 2 ∨ k = 3 := by omega
  rcases hk with rfl | rfl | rfl | rfl <;> simp [State.marksZero, nat4, sub_setSub]

section
variable {s : State} (hc : s.coreOn = true) (l : Link)
include hc

theorem exec_laneLock (lanes : BitVec 64) : exec (.laneLock l lanes) s =
    .next (s.keep (if s.inLock l || s.inAlign l then s.laneLocked l lanes.toNat else s)) :=
  event_on s (fun s => if s.inLock l.val || s.inAlign l.val then s.laneLocked l.val lanes.toNat else s) hc

theorem exec_alignComplete (sk : List (BitVec 8)) : exec (.alignComplete l sk) s =
    .next (s.keep (if s.inAlign l then s.aligned l (sk.map BitVec.toNat) else s)) :=
  event_on s (fun s => if s.inAlign l.val then s.aligned l.val (sk.map BitVec.toNat) else s) hc

end

theorem inLock_of_linkSt {s : State} {l : Nat} (h : s.linkSt l = 2) : s.inLock l = true := by simp [State.inLock, State.inPart, h]

theorem inAlign_of_linkSt {s : State} {l : Nat} (h : s.linkSt l = 3) : s.inAlign l = true := by simp [State.inAlign, State.inPart, h]

/-- A candidate group all of whose lanes have locked takes the link from LOCK to ALIGN. -/
theorem laneLock_toAlign {s : State} {l : Nat} (m : Nat) (h : s.linkSt l = 2) :
    let t := ((lanesLocked s l m).toPart l 3 1).marksZero l
    t.linkSt l = 3 ∧ LinkIs s l { s.link l with locked := m, t := s.now } t ∧ (∀ k, k < 4 → (t.sub l k).marks = 0)
      ∧ (∀ k, k < 64 → bitAt m k = true → t.rf .LNK_LANE_LOCK (64 * l + k) = 1)
      ∧ Frame [.links, .net, .outbox] (((List.range 64).map fun k => (Fld.LNK_LANE_LOCK, 64 * l + k)) ++ [(Fld.LNK_STATE_STATE, l), (Fld.DBG_TRACE_STAT_SENT, 0)]) s t := by
  have hlock := frame_lanesLocked s l m
  have hst : (lanesLocked s l m).linkSt l = 2 := (hlock.rf (by simp)).trans h
  have h23 : (lanesLocked s l m).linkSt l ≠ 3 := by rw [hst]; decide
  have hp : prbsSt ((lanesLocked s l m).linkSt l) = false := by rw [hst]; rfl
  have hnow : (lanesLocked s l m).now = s.now := hlock.now (by simp) (by simp) (by simp)
  have hstate := frame_setLinkSt h23 hp
  have hmarks := frame_marksZero ((lanesLocked s l m).setLinkSt l 3) l
  rw [toPart_eq (by rw [hst]; decide)]
  have hlink := linkIs_setLinkSt h23 hp
  rw [(linkIs_lanesLocked s l m).1, hnow] at hlink
  refine ⟨(hmarks.rf (by simp)).trans (linkSt_setLinkSt h23 (by decide)), ((linkIs_lanesLocked s l m).trans hlink).frame hmarks (by simp),
    fun k hk => marksZero_marks _ l hk, fun k hk hb => ?_, ((hlock.append hstate).append hmarks).mono (by simp) (by simp)⟩
  rw [hmarks.rf (by simp), hstate.rf (by simp)]
  exact lanesLocked_shown s l m hk hb

/-! ## ALIGN_COMPLETE (Table 8.6) -/

theorem deskew_eq (s : State) (l m : Nat) (sk : List Nat) : s.deskew l m sk =
    setEach .LNK_LANE_SKEW (fun k => 64 * l + k) (fun k => min 63 (greatest (skewsOf sk m) - sk.getD k 0)) (fun k => bitAt m (k / 16)) (List.range 64) s :=
  rfl

theorem frame_deskew (s : State) (l m : Nat) (sk : List Nat) :
    Frame [] ((List.range 64).map fun k => (Fld.LNK_LANE_SKEW, 64 * l + k)) s (s.deskew l m sk) := by
  rw [deskew_eq]
  exact frame_setEach ..

/-- A link's record once the set g of groups is aligned. -/
def keepGroups (x : LinkRec) (g : Nat) : LinkRec :=
  { x with keep := g, rtAsked := 0, rtGot := 0, rtSum := 0, resultOwn := none, resultPeer := none, prbsT := 0 }

/-- The lanes of the groups are deskewed, and the groups kept. -/
def groupsKept (s : State) (l g : Nat) (sk : List Nat) : State := (s.deskew l g sk).updLink l fun x => keepGroups x g

theorem frame_groupsKept (s : State) (l g : Nat) (sk : List Nat) :
    Frame [.links] ((List.range 64).map fun k => (Fld.LNK_LANE_SKEW, 64 * l + k)) s (groupsKept s l g sk) :=
  ((frame_deskew s l g sk).append (frame_updLink ..)).mono (by simp) (by simp)

theorem linkIs_groupsKept (s : State) (l g : Nat) (sk : List Nat) : LinkIs s l (keepGroups (s.link l) g) (groupsKept s l g sk) := by
  have hk := linkIs_of_links ((frame_deskew s l g sk).part .links (by simp)) l
  have hu := linkIs_updLink (s.deskew l g sk) l fun x => keepGroups x g
  rw [hk.1] at hu
  exact hk.trans hu

section
variable {s : State} {l : Nat} {sk : List Nat}

theorem aligned_none (h : bestGroups sk (fullGroups (s.link l).locked (s.link l).keep) = 0) : s.aligned l sk = s := if_pos h

theorem aligned_some {g : Nat} (hg : bestGroups sk (fullGroups (s.link l).locked (s.link l).keep) = g) (h0 : g ≠ 0) (h : s.linkSt l = 3) :
    s.aligned l sk = (groupsKept s l g sk).setLinkSt l (if (s.link l).step then 8 else 4) := by
  have hst : (groupsKept s l g sk).linkSt l = 3 := ((frame_groupsKept s l g sk).rf (by simp)).trans h
  subst hg
  unfold State.aligned
  rw [if_neg h0]
  simp only [h, Bool.and_eq_true, decide_eq_true_eq, and_true]
  rw [if_neg (by decide : ¬ 3 = 9)]
  split
  · rfl
  · exact toPart_eq (s := groupsKept s l _ sk) (by rw [hst]; decide)

end

/-- With a set of groups the link leaves ALIGN for state k. -/
theorem align_leaves {s : State} {l g : Nat} (sk : List Nat) {k : Nat} (h : s.linkSt l = 3) (hk : k ≠ 3) (hk16 : k < 16) :
    let t := (groupsKept s l g sk).setLinkSt l k
    LinkIs s l { keepGroups (s.link l) g with t := s.now } t ∧ t.linkSt l = k
      ∧ Frame [.links, .outbox] (((List.range 64).map fun k => (Fld.LNK_LANE_SKEW, 64 * l + k)) ++ [(Fld.LNK_STATE_STATE, l), (Fld.DBG_TRACE_STAT_SENT, 0)]) s t := by
  have hkept := frame_groupsKept s l g sk
  have hst : (groupsKept s l g sk).linkSt l = 3 := (hkept.rf (by simp)).trans h
  have hne : (groupsKept s l g sk).linkSt l ≠ k := by rw [hst]; exact hk.symm
  have hp : prbsSt ((groupsKept s l g sk).linkSt l) = false := by rw [hst]; rfl
  have hnow : (groupsKept s l g sk).now = s.now := hkept.now (by simp) (by simp) (by simp)
  have hlink := linkIs_setLinkSt hne hp
  rw [(linkIs_groupsKept s l g sk).1, hnow] at hlink
  exact ⟨(linkIs_groupsKept s l g sk).trans hlink, linkSt_setLinkSt hne hk16, (hkept.append (frame_setLinkSt hne hp)).mono (by simp) (by simp)⟩

/-! ## The round trip (R37) -/

/-- A training unit of type ty leaves. -/
theorem frame_train (s : State) (l ty fields : Nat) : Frame [.outbox] [] s (s.train l ty fields) := frame_outbox s _

section
variable {s : State} (hc : s.coreOn = true) (l : Link)
include hc

theorem exec_rtReqSend (ht : s.inTrip l = true) (ha : (s.link l).rtAsked < 16) (hd : (s.link l).rtAsked = 0 ∨ (s.link l).rtAt + 1000 ≤ s.now)
    (hs : s.safe = false) : exec (.rtReqSend l) s = .next (s.keep (s.rtAsk l)) := by
  show execRtReqSend l s = _
  rw [execRtReqSend, event_on _ _ hc]
  simp only [ht, ha, hs, decide_true, Bool.true_and, Bool.not_false, Bool.and_true]
  rw [if_pos (by simpa using hd)]

theorem exec_rtReqSend_not (h : s.inTrip l = false ∨ 16 ≤ (s.link l).rtAsked ∨ s.safe = true) : exec (.rtReqSend l) s = .next (s.keep s) := by
  show execRtReqSend l s = _
  rw [execRtReqSend, event_on _ _ hc]
  dsimp only
  rw [if_neg]
  rcases h with h | h | h
  · simp [h]
  · simp [Nat.not_lt.2 h]
  · simp [h]

theorem exec_rtReqReceive {v : Slot} {hold : BitVec 32} (ht : s.inTrip l = true) (hs : s.safe = false) : exec (.rtReqReceive l v hold) s =
    .next (s.keep (if trainOk 1 v then s.train l 2 (hold.toNat + slotAt v 10 1 * 2 ^ 32) else s.badUnit l)) := by
  show execRtReqReceive l v hold s = _
  rw [execRtReqReceive, event_on _ _ hc]
  simp only [ht, hs, Bool.not_true, Bool.or_self, Bool.false_eq_true, if_false]
  cases trainOk 1 v <;> rfl

theorem exec_rtRspReceive {v : Slot} {sub : Fin 512} (ht : s.inTrip l = true) : exec (.rtRspReceive l v sub) s =
    .next (s.keep (if trainOk 2 v then s.rtGot l v sub else s.badUnit l)) := by
  show execRtRspReceive l v sub s = _
  rw [execRtRspReceive, event_on _ _ hc]
  simp only [ht, Bool.not_true, Bool.false_eq_true, if_false]
  cases trainOk 2 v <;> rfl

end

/-- The sixteen round trips of a link with one more of length d. -/
def tripSummed (s : State) (l d : Nat) : State := s.updLink l fun x => { x with rtGot := x.rtGot + 1, rtSum := (s.link l).rtSum + d }

theorem frame_tripSummed (s : State) (l d : Nat) : Frame [.links] [] s (tripSummed s l d) := frame_updLink ..

theorem linkIs_tripSummed (s : State) (l d : Nat) :
    LinkIs s l { s.link l with rtGot := (s.link l).rtGot + 1, rtSum := (s.link l).rtSum + d } (tripSummed s l d) := linkIs_updLink ..

/-- The sample of a response that came `sub`/64 ns after the last edge, in 1/64 ns. -/
def tripOf (s : State) (l : Nat) (v : Slot) (sub : Nat) : Nat := s.t64 + sub - (s.link l).rtAt * 64 - slotAt v 2 4

section
variable {s : State} {l : Nat} {v : Slot} {sub : Nat}

theorem rtGot_other (h : ¬ (slotAt v 6 1 + 1 = (s.link l).rtAsked ∧ (s.link l).rtGot < (s.link l).rtAsked)) : s.rtGot l v sub = s := by
  refine if_pos ?_
  rw [Bool.or_eq_true, bne_iff_ne, decide_eq_true_eq]
  omega

theorem rtGot_last (h : slotAt v 6 1 + 1 = (s.link l).rtAsked ∧ (s.link l).rtGot < (s.link l).rtAsked) : s.rtGot l v sub =
    if (s.link l).rtGot + 1 = 16 then ((tripSummed s l (tripOf s l v sub)).setDelay l ((s.link l).rtSum + tripOf s l v sub)).tripDone l
      else tripSummed s l (tripOf s l v sub) := by
  refine if_neg ?_
  rw [Bool.or_eq_true, bne_iff_ne, decide_eq_true_eq]
  omega

end

/-- The delay of link l is shown as the half of a sixteenth of `sum`. -/
def delayShown (s : State) (l sum : Nat) : State :=
  { s.setfs [(.SYN_LINK_DELAY_VALID, l, 1), (.SYN_LINK_DELAY_DELAY, l, sum / 32)] with fresh := s.fresh + 1 }

theorem setDelay_exact {s : State} {l sum : Nat} (h : sum % 32 = 0) : s.setDelay l sum = delayShown s l sum := by
  simp only [State.setDelay, h, if_true, Nat.add_zero]
  rfl

theorem frame_delayShown (s : State) (l sum : Nat) :
    Frame [.fresh] [(.SYN_LINK_DELAY_VALID, l), (.SYN_LINK_DELAY_DELAY, l)] s (delayShown s l sum) := (frame_setfs _ s).append (frame_fresh _ _)

theorem delayShown_fields (s : State) (l sum : Nat) : (delayShown s l sum).rf .SYN_LINK_DELAY_VALID l = 1
    ∧ (delayShown s l sum).rf .SYN_LINK_DELAY_DELAY l = sum / 32 % 2 ^ fwidth .SYN_LINK_DELAY_DELAY := by
  constructor
  · exact ((frame_setf (s.setf .SYN_LINK_DELAY_VALID l 1) .SYN_LINK_DELAY_DELAY l (sum / 32)).rf (by simp)).trans (State.rf_setf_same ..)
  · exact State.rf_setf_same (s.setf .SYN_LINK_DELAY_VALID l 1) .SYN_LINK_DELAY_DELAY l (sum / 32)

/-- At a bring-up the round trip leads to CAPS. -/
theorem tripDone_caps {s : State} {l : Nat} (h : s.linkSt l ≠ 9) (hs : (s.link l).step = false) :
    s.tripDone l = (s.setLinkSt l 5).updLink l fun x => { x with caps := 0, capMask := 0, capMax := 3 } := by
  simp only [State.tripDone, h, hs, decide_false, Bool.or_self, Bool.false_eq_true, if_false]

/-- The last of the sixteen samples, their sum a multiple of 32, makes the delay valid; the link goes on to CAPS. -/
theorem lastTrip {s : State} {l d : Nat} (hst : s.linkSt l = 4) (hstep : (s.link l).step = false) (hgot : (s.link l).rtGot + 1 = 16) :
    let sum := (s.link l).rtSum + d
    let t := (delayShown (tripSummed s l d) l sum).tripDone l
    t.linkSt l = 5 ∧ t.rf .SYN_LINK_DELAY_VALID l = 1 ∧ t.rf .SYN_LINK_DELAY_DELAY l = sum / 32 % 2 ^ fwidth .SYN_LINK_DELAY_DELAY
      ∧ LinkIs s l { s.link l with rtGot := 16, rtSum := sum, caps := 0, capMask := 0, capMax := 3, t := s.now } t
      ∧ Frame [.links, .outbox, .fresh] [(.LNK_STATE_STATE, l), (.SYN_LINK_DELAY_VALID, l), (.SYN_LINK_DELAY_DELAY, l), (.DBG_TRACE_STAT_SENT, 0)] s t := by
  intro sum t
  have hsum := frame_tripSummed s l d
  have hdelay := frame_delayShown (tripSummed s l d) l sum
  have hf := hsum.append hdelay
  have hlink := (linkIs_tripSummed s l d).frame hdelay (by simp)
  obtain ⟨hvalid, hval⟩ := delayShown_fields (tripSummed s l d) l sum
  have hst' : (delayShown (tripSummed s l d) l sum).linkSt l = 4 := (hf.rf (by simp)).trans hst
  have hne : (delayShown (tripSummed s l d) l sum).linkSt l ≠ 5 := by rw [hst']; decide
  have hp : prbsSt ((delayShown (tripSummed s l d) l sum).linkSt l) = false := by rw [hst']; rfl
  have hnow : (delayShown (tripSummed s l d) l sum).now = s.now := hf.now (by simp) (by simp) (by simp)
  have ht : t = _ := tripDone_caps (s := delayShown (tripSummed s l d) l sum) (by rw [hst']; decide) (by rw [hlink.1]; exact hstep)
  clear_value t
  subst ht
  have hstate := frame_setLinkSt hne hp
  have hcaps := frame_updLink ((delayShown (tripSummed s l d) l sum).setLinkSt l 5) l fun x => { x with caps := 0, capMask := 0, capMax := 3 }
  have hl5 := linkIs_setLinkSt hne hp
  have hl6 := linkIs_updLink ((delayShown (tripSummed s l d) l sum).setLinkSt l 5) l fun x => { x with caps := 0, capMask := 0, capMax := 3 }
  rw [hlink.1, hnow, hgot] at hl5
  rw [hl5.1] at hl6
  exact ⟨(hcaps.rf (by simp)).trans (linkSt_setLinkSt hne (by decide)), ((hstate.append hcaps).rf (by simp)).trans hvalid,
    ((hstate.append hcaps).rf (by simp)).trans hval, (hlink.trans hl5).trans hl6, ((hf.append hstate).append hcaps).mono (by simp) (by simp)⟩

/-- Settles O42: each command is the branch of its function that the link's state and its record name; `setLinkSt` moves the link on. -/
theorem trainingLocksAlignsAndMeasures : Obligations.TrainingLocksAlignsAndMeasures := by
  intro s l lanes sk v hold sub hc x m locks skews g trip y st last
  have hlock : s.inLock l = true ∨ s.inAlign l = true → exec (.laneLock l lanes) s = .next (s.keep (s.laneLocked l lanes.toNat)) := fun h => by
    rw [exec_laneLock hc, if_pos (by simpa using h)]
  have halign : s.linkSt l = 3 → g ≠ 0 → exec (.alignComplete l sk) s =
      .next (s.keep ((groupsKept s l g (sk.map BitVec.toNat)).setLinkSt l (if x.step then 8 else 4))) := fun h hg => by
    rw [exec_alignComplete hc, if_pos (inAlign_of_linkSt h), aligned_some rfl hg h]
  refine ⟨fun h1 h2 => ?_, fun h hn => ?_, fun h hg => ?_, fun h => ?_, fun h hg hs => ?_, fun h hg hs => ?_, fun ht ha hd hs => ?_,
    fun h => ?_, fun ht hs hv => ?_, fun ht hs hv => ?_, fun ht hv => ?_, fun ht hv => ⟨fun hl => ?_, fun hl hn => ?_, fun hl hn hst hs h0 => ?_⟩⟩
  · exact does_nothing ((exec_laneLock hc l lanes).trans (by rw [h1, h2]; rfl))
  · have hx := hlock h
    rw [laneLocked_rest hn] at hx
    exact does_of_frame hx (frame_lanesLocked s l m) ⟨linkIs_lanesLocked s l m, fun k hk hb => lanesLocked_shown s l m hk hb, frame_lanesLocked s l m⟩
  · have hin := inLock_of_linkSt h
    have hx := hlock (.inl hin)
    rw [laneLocked_full hin hg] at hx
    obtain ⟨h1, h2, h3, h4, hf⟩ := laneLock_toAlign m h
    exact does_of_frame hx hf ⟨h1, h2, h3, h4, hf⟩
  · refine does_nothing ((exec_alignComplete hc l sk).trans ?_)
    rcases h with h | h
    · rw [h, if_neg Bool.false_ne_true]
    · rw [aligned_none h, ite_self]
  · have hx := halign h hg
    rw [hs, if_neg Bool.false_ne_true] at hx
    obtain ⟨h1, h2, hf⟩ := align_leaves (g := g) (sk.map BitVec.toNat) (k := 4) h (by decide) (by decide)
    exact does_of_frame hx hf ⟨h1, h2, hf⟩
  · have hx := halign h hg
    rw [hs, if_pos rfl] at hx
    obtain ⟨h1, h2, hf⟩ := align_leaves (g := g) (sk.map BitVec.toNat) (k := 8) h (by decide) (by decide)
    exact does_of_frame hx hf ⟨h1, h2, hf⟩
  · have hf := (frame_train s l 1 (s.now % 2 ^ 64 + x.rtAsked * 2 ^ 64)).append
      (frame_updLink _ l fun x => { x with rtAsked := x.rtAsked + 1, rtAt := s.now })
    have hlink := linkIs_updLink (s.train l 1 (s.now % 2 ^ 64 + x.rtAsked * 2 ^ 64)) l fun x => { x with rtAsked := x.rtAsked + 1, rtAt := s.now }
    exact does_of_frame (exec_rtReqSend hc l ht ha hd hs) hf ⟨hlink, rfl, hf.mono (by simp) (by simp)⟩
  · exact does_nothing (exec_rtReqSend_not hc l h)
  · have hx := exec_rtReqReceive hc l (v := v) (hold := hold) ht hs
    rw [hv, if_pos rfl] at hx
    exact does_of_frame hx (frame_train ..) ⟨rfl, frame_train ..⟩
  · exact (exec_rtReqReceive hc l ht hs).trans (by rw [hv, if_neg Bool.false_ne_true])
  · exact (exec_rtRspReceive hc l ht).trans (by rw [hv, if_neg Bool.false_ne_true])
  all_goals
    have hx := exec_rtRspReceive hc l (v := v) (sub := sub) ht
    rw [hv, if_pos rfl] at hx
  · rw [rtGot_other hl] at hx
    exact does_nothing hx
  · rw [rtGot_last hl, if_neg hn] at hx
    exact does_of_frame hx (frame_tripSummed ..) ⟨linkIs_tripSummed .., frame_tripSummed ..⟩
  · rw [rtGot_last hl, if_pos hn, setDelay_exact (sum := (s.link l).rtSum + tripOf s l v sub) h0] at hx
    obtain ⟨h1, h2, h3, h4, hf⟩ := lastTrip (d := trip) hst hs hn
    exact does_of_frame hx hf ⟨h1, h2, h3, h4, hf⟩

end Sys2Proof

namespace Sys2Proof

open Machine

/-! # Acknowledgements, NAKs, replays, RECALL (O40) -/

theorem subIs_setSub (s : State) (l u : Nat) (x : SubLink) : SubIs s l u x (s.setSub l u x) :=
  ⟨sget_sset_same .., rfl, fun _ hk => sget_sset_other _ _ _ _ _ _ hk⟩

/-! ## Units that leave or wait (R214) -/

/-- A unit leaves at once and alone. -/
theorem unit_free {s : State} {l t : Nat} (h : SlotsFree s l t) (k fields : Nat) : s.unit l t k fields = sending s [.slot l t (mkSlot k fields)] := by
  obtain ⟨hs, hw⟩ := h
  have hq : (s.net.unitq.filter fun u => !(u.1 == l && u.2.1 == t)) = s.net.unitq := by
    refine List.filter_eq_self.2 fun u hu => ?_
    have hnone := List.filter_eq_nil_iff.1 (List.map_eq_nil_iff.1 hw) u hu
    rw [Bool.not_eq_true] at hnone
    simp [hnone]
  have hflush : s.flushUnits l t = s := by
    rw [flushUnits_eq, hq, hw, List.append_nil]
  rw [State.unit, hs, Bool.not_false, if_pos rfl, hflush]
  rfl

/-- The unit waits for a slot. -/
def unitWaiting (s : State) (l t : Nat) (v : Slot) : State := { s with net := { s.net with unitq := s.net.unitq ++ [(l, t, v)] } }

/-- With every slot of the segment gone the unit waits. -/
theorem unit_waits {s : State} {l t : Nat} (h : s.sendsSched l t = true) (hn : 48 * (s.subGroups l t).length ≤ s.slotsUsed l t) (k fields : Nat) :
    s.unit l t k fields = unitWaiting s l t (mkSlot k fields) := by
  rw [State.unit, h, Bool.not_true, if_neg Bool.false_ne_true, if_neg (Nat.not_lt.2 hn)]
  rfl

/-! ## Upstream ACKs (R188) -/

/-- The record of a sub-link once its upstream ACK is sent. -/
def ackedSub (s : State) (l t : Nat) : SubLink :=
  { s.sub l t with lastAck := (s.sub l t).ackLsn, ackAt := s.now, dirty := !(s.sub l t).missing.isEmpty }

/-- The fields of a sub-link's upstream ACK. -/
def ackFields (s : State) (l t : Nat) : Nat := fieldsOf [(0, 0), (1, (s.sub l t).ackLsn), (3, s.freeBufs l t 0 + 8 * s.freeBufs l t 1)]

theorem ackUp_eq (s : State) (l t : Nat) : s.ackUp l t = (s.unit l t kAck (ackFields s l t)).setSub l t (ackedSub s l t) := rfl

section
variable {s : State} (hc : s.coreOn = true) (l : Link) (t : Tenant)
include hc

theorem exec_ackUpstreamSend (hl : s.live l = true) (hd : (s.sub l t).dirty = true) (hs : s.safe = false) (hq : s.net.reinq = [])
    (hw : s.net.reinWait = []) : exec (.ackUpstreamSend l t) s = .next (s.keep (s.ackUp l t)) := by
  show execAckUpstreamSend l t s = _
  rw [execAckUpstreamSend, event_on _ _ hc, if_pos (by simp [hl, hd, hs]), pumpReins_none hq hw]

theorem exec_ackUpstreamSend_not (h : ¬ s.live l = true ∨ (s.sub l t).dirty = false ∨ s.safe = true) :
    exec (.ackUpstreamSend l t) s = .next (s.keep s) := by
  show execAckUpstreamSend l t s = _
  rw [execAckUpstreamSend, event_on _ _ hc, if_neg]
  rcases h with h | h | h <;> simp [h]

/-- A received unit is looked at on an ACTIVE link only, and one that is bad is discarded. -/
theorem exec_ackUpstreamReceive (v : Slot) : exec (.ackUpstreamReceive l t v) s = .next (s.keep (if s.live l = true then
    (if unitOk kAck v = true ∧ slotAt v 1 1 = 0 then s.ackedUp l t (slotAt v 2 2 % 2048) (slotAt v 4 1 % 8) (slotAt v 4 1 / 8 % 4) else s.badUnit l)
    else s)) := by
  show execAckUpstreamReceive l t v s = _
  rw [execAckUpstreamReceive, event_on _ _ hc]
  cases s.live l <;> cases unitOk kAck v <;> by_cases h : slotAt v 1 1 = 0 <;> simp [h]

theorem exec_ackDownstreamReceive (v : Slot) : exec (.ackDownstreamReceive l t v) s = .next (s.keep (if s.live l = true then
    (if unitOk kAck v = true ∧ slotAt v 1 1 = 1 then s.ackedDown l t (slotAt v 2 2 % 2048) (slotAt v 4 1) else s.badUnit l) else s)) := by
  show execAckDownstreamReceive l t v s = _
  rw [execAckDownstreamReceive, event_on _ _ hc]
  cases s.live l <;> cases unitOk kAck v <;> by_cases h : slotAt v 1 1 = 1 <;> simp [h]

theorem exec_nakReceive (v : Slot) : exec (.nakReceive l t v) s = .next (s.keep (if s.live l = true then
    (if unitOk kNak v = true then s.naked l t (slotAt v 1 2 % 2048) else s.badUnit l) else s)) := by
  show execNakReceive l t v s = _
  rw [execNakReceive, event_on _ _ hc]
  cases s.live l <;> cases unitOk kNak v <;> rfl

theorem exec_ackDownstreamRepeat (hl : s.live l = true) (hs : s.safe = false) : exec (.ackDownstreamRepeat l t) s = .next (s.keep (s.ackAgain l t)) := by
  show execAckDownstreamRepeat l t s = _
  rw [execAckDownstreamRepeat, event_on _ _ hc, if_pos (by simp [hl, hs])]

theorem exec_replayTimeout (lsn : BitVec 11) : exec (.replayTimeout l t lsn) s =
    .next (s.keep (if ((s.sub l t).retry.any fun e => e.lsn == lsn.toNat && decide (e.t + 2000 ≤ s.now)) then s.naked l t lsn.toNat else s)) := by
  show execReplayTimeout l t lsn s = _
  rw [execReplayTimeout, event_on _ _ hc]

theorem exec_replaySend : exec (.replaySend l t) s = .next (s.keep (if s.subFree l t && !s.inGuard then s.sendReplay l t else s)) := by
  show execReplaySend l t s = _
  rw [execReplaySend, event_on _ _ hc]

theorem exec_recallReceive (slot : Option Slot) (hl : s.live l = true) (hg : s.subGroups l t ≠ []) : exec (.recallReceive l t slot) s =
    .next (s.keep (match slot with
      | none => s.recallEoc l t
      | some v => if unitOk kRecall v then s.recallName l t (slotAt v 1 2 % 2048) else s.badUnit l)) := by
  show execRecallReceive l t slot s = _
  rw [execRecallReceive, event_on _ _ hc]
  simp only [hl, List.isEmpty_eq_false_iff.2 hg, Bool.not_true, Bool.or_self, Bool.false_eq_true, if_false] <;> rfl

end

/-- No OFFLOAD or FETCH runs in degraded mode. -/
def NoMoves (s : State) : Prop := ∀ i ∈ s.insts, ¬ (i.degraded = true ∧ (i.op = 0x48 ∨ i.op = 0x49))

theorem updInst_none {s : State} {p : Inst → Bool} (f : Inst → Inst) (h : ∀ i ∈ s.insts, p i = false) : s.updInst p f = s := by
  have hmap : updWhere p f s.insts = s.insts := (List.map_congr_left fun i hi => by rw [h i hi]; rfl).trans (List.map_id _)
  rw [State.updInst, hmap]

theorem ackMoves_none {s : State} (h : NoMoves s) (es : List RetryEnt) : s.ackMoves es = s := by
  unfold State.ackMoves
  induction es.filter fun e => cKind e.c == 10 && cSrc e.c == s.self with
  | nil => rfl
  | cons e es ih =>
    rw [List.foldl_cons, updInst_none _ fun i hi => ?_]
    · exact ih
    · rw [Bool.eq_false_iff]
      intro hm
      simp only [Bool.and_eq_true, beq_iff_eq] at hm
      obtain ⟨⟨-, hd⟩, ho⟩ := hm
      exact h i hi ⟨hd, .inl ho⟩

theorem ackMirror_none {s : State} {es : List RetryEnt} (h : ∀ e ∈ es, e.mirror = 0) : s.ackMirror es = s := by
  unfold State.ackMirror
  rw [List.filter_eq_nil_iff.2 fun e he => by simp [h e he]]
  rfl

/-- The carriages up to LSN n that leave the retry buffer: a recalled one that has still to go out again stays. -/
def ackGone (n : Nat) (e : RetryEnt) : Bool := lsnLe e.lsn n && !(e.again && e.replay)

/-- An upstream ACK that covers no mirror carriage and ends no move releases the retry buffer and takes the buffer counts. -/
theorem ackedUp_plain {s : State} {l t n f0 f1 : Nat} (hm : (s.sub l t).retry.all (fun e => e.mirror == 0) = true) (h : NoMoves s) :
    s.ackedUp l t n f0 f1 =
      s.setSub l t { s.sub l t with retry := (s.sub l t).retry.filter fun e => !ackGone n e, free0 := f0, free1 := f1 } := by
  have hmir : ∀ e ∈ (s.sub l t).retry.filter (ackGone n), e.mirror = 0 := fun e he => by
    simpa using List.all_eq_true.1 hm e (List.mem_of_mem_filter he)
  show ((((s.ackMirror ((s.sub l t).retry.filter (ackGone n))).ackMoves ((s.sub l t).retry.filter (ackGone n))).setSub l t _).movesDone) = _
  rw [ackMirror_none hmir, ackMoves_none h]
  exact movesDone_none h

/-! ## Downstream ACKs (R191, R211) -/

/-- A downstream ACK is held once. -/
def ackHeld (s : State) (z : Nat × Nat × Nat × Nat) : State :=
  { s with net := { s.net with heldAcks := if s.net.heldAcks.contains z then s.net.heldAcks else s.net.heldAcks ++ [z] } }

theorem frame_ackHeld (s : State) (z : Nat × Nat × Nat × Nat) : Frame [.net] [] s (ackHeld s z) := frame_net s _

theorem hold_eq (s : State) (z : Nat × Nat × Nat × Nat) : (if s.net.heldAcks.contains z then s
    else { s with net := { s.net with heldAcks := s.net.heldAcks ++ [z] } }) = ackHeld s z := by
  unfold ackHeld
  split <;> rfl

/-- Contributor j of the carriages under identity id is confirmed. -/
def confirmed (s : State) (id j : Nat) : State :=
  { s with net := { s.net with
    vecs := updWhere (fun w => w.id == id) (fun w => { w with missing := w.missing.filter fun k => k != j }) s.net.vecs } }

section
variable {s : State} {l t n j : Nat}

/-- The carriage of LSN n among those whose confirmation is open. -/
def vecOf (s : State) (l t n : Nat) : Option Vec := s.net.vecs.find? fun w => w.l == l && w.t == t && w.lsn == n

theorem ackedDown_early (h : vecOf s l t n = none) (he : (n + 2048 - (s.sub l t).expect) % 2048 < 1024 ∨ (s.sub l t).missing.contains n = true) :
    s.ackedDown l t n j = ackHeld s (l, t, n, j) := by
  unfold vecOf at h
  simp only [State.ackedDown, h, hold_eq]
  exact if_pos (by simpa using he)

variable {w : Vec} (h : vecOf s l t n = some w)
include h

theorem ackedDown_bad (hb : s.idBad w.id = true) : s.ackedDown l t n j = ackHeld s (l, t, n, j) := by
  unfold vecOf at h
  simp only [State.ackedDown, h, hold_eq, hb, if_true]

variable (hb : s.idBad w.id = false)
include hb

theorem ackedDown_known (hm : w.missing.contains j = false) : s.ackedDown l t n j = s := by
  unfold vecOf at h
  simp only [State.ackedDown, h, hb, hm, Bool.not_false, Bool.false_eq_true, if_true, if_false]

theorem ackedDown_confirms (hm : w.missing.contains j = true) : s.ackedDown l t n j = ((confirmed s w.id j).ackPass w.id j).checkVec w.id := by
  unfold vecOf at h
  simp only [State.ackedDown, h, hb, hm, Bool.not_true, Bool.false_eq_true, if_false]
  rfl

end

/-- The second copy of a downstream ACK leaves. -/
theorem ackAgain_due {s : State} {l t n j at_ : Nat} {rest : List (Nat × Nat × Nat)} (hf : SlotsFree s l t)
    (hr : (s.sub l t).repeats = (n, j, at_) :: rest) (ht : at_ ≤ s.now) : s.ackAgain l t =
      (sending s [.slot l t (mkSlot kAck (fieldsOf [(0, 1), (1, n), (3, j)]))]).setSub l t { s.sub l t with repeats := rest } := by
  simp only [State.ackAgain, hr, ht, if_true, unit_free hf]

/-! ## NAKs, timeouts, replays (R189, R190) -/

/-- The replay of LSN n is scheduled. -/
def replayMarked (s : State) (l t n : Nat) : State :=
  s.setSub l t { s.sub l t with retry := updWhere (fun e => e.lsn == n) (fun e => { e with replay := true }) (s.sub l t).retry }

theorem naked_held {s : State} {l t n : Nat} (h : ((s.sub l t).retry.any fun e => e.lsn == n) = true) : s.naked l t n = replayMarked s l t n := if_pos h

theorem naked_gone {s : State} {l t n : Nat} (h : ((s.sub l t).retry.any fun e => e.lsn == n) = false) : s.naked l t n = s :=
  if_neg (Bool.eq_false_iff.1 h)

section
variable (s : State) (l t : Nat) (e : RetryEnt)

/-- The RETRY under which e is sent again: one higher, at most 3; a recalled carriage keeps it (log entry 76). -/
def retryOf : Nat := if e.again then e.retry else min 3 (e.retry + 1)

/-- The carriage as it is sent again, under its LSN. -/
def replayCar : Carriage := setHop e.c e.lsn (retryOf e) (cDphase e.c) (cRev e.c) (cRdir e.c)

/-- Its entry in the retry buffer afterwards. -/
def replayEnt : RetryEnt :=
  { e with c := replayCar e, retry := retryOf e, replay := false, again := false, t := (s.t64 + s.carTime l t (replayCar e).payload.length + 63) / 64 }

/-- The replay leaves. -/
def replayOut : State :=
  (s.setSub l t { s.sub l t with
    retry := updWhere (fun y => y.lsn == e.lsn) (fun _ => replayEnt s l t e) (s.sub l t).retry
    busy := s.t64 + s.carTime l t (replayCar e).payload.length
    busySched := cClass (replayCar e) == 0
    busyLsn := e.lsn }).emit (.carriage l t (replayCar e))

/-- It is traced and counted. -/
def replayCounted : State :=
  ((replayOut s l t e).trace (6 + l) (carTrace (replayCar e))).sat .RTE_RETRY_REPLAYS l (if e.again then 0 else 1)

theorem sendReplay_some {s : State} {l t : Nat} {e : RetryEnt} (h : ((s.sub l t).retry.find? fun e => e.replay) = some e) :
    s.sendReplay l t = replayCounted s l t e := by
  simp only [State.sendReplay, h]
  rfl

theorem frame_replayOut : Frame [.net, .outbox] [] s (replayOut s l t e) := (frame_setSub s l t _).append (frame_outbox _ _)

theorem frame_replayCounted_after :
    Frame [.outbox] [(.DBG_TRACE_STAT_SENT, 0), (.RTE_RETRY_REPLAYS, l)] (replayOut s l t e) (replayCounted s l t e) :=
  (frame_trace _ _ _).append (frame_sat _ _ _ _)

theorem replayCounted_net : (replayCounted s l t e).net = (replayOut s l t e).net := (frame_replayCounted_after s l t e).part .net (by simp)

theorem replayCounted_sub : (replayCounted s l t e).sub l t = (replayOut s l t e).sub l t := by
  rw [State.sub, replayCounted_net, State.sub]

theorem replayOut_sub : ((replayOut s l t e).sub l t).retry = updWhere (fun y => y.lsn == e.lsn) (fun _ => replayEnt s l t e) (s.sub l t).retry
    ∧ ((replayOut s l t e).sub l t).next = (s.sub l t).next := by
  have h : (replayOut s l t e).sub l t = _ := (subIs_setSub s l t _).1
  rw [h]
  exact ⟨rfl, rfl⟩

/-- It leaves first. -/
theorem replayCounted_outbox : ((replayCounted s l t e).outbox.drop s.outbox.length).head? = some (.carriage l t (replayCar e)) := by
  obtain ⟨r, hr⟩ := trace_outbox (replayOut s l t e) (6 + l) (carTrace (replayCar e))
  have ho : (replayCounted s l t e).outbox = s.outbox ++ ([.carriage l t (replayCar e)] ++ r) := by
    rw [← List.append_assoc]
    exact hr
  rw [ho, List.drop_left]
  rfl

theorem retryOf_le : retryOf e ≤ max 3 e.retry := by
  unfold retryOf
  split
  · exact Nat.le_max_right ..
  · exact Nat.le_trans (Nat.min_le_left ..) (Nat.le_max_left ..)

theorem replayCounted_count (h : e.again = false) : Counted s .RTE_RETRY_REPLAYS l (replayCounted s l t e) := by
  have hf := (frame_replayOut s l t e).append (frame_trace (replayOut s l t e) (6 + l) (carTrace (replayCar e)))
  rw [Counted, replayCounted, h, if_neg Bool.false_ne_true, rf_sat, hf.rf (by simp)]

end

/-! ## RECALL (R193) -/

theorem frame_recallCounted (s : State) : Frame [] [(.RTE_RECALL_RECEIVED, 0)] s (s.sat .RTE_RECALL_RECEIVED 0) := frame_sat ..

/-- The carriage under identity id is marked as recalled. -/
def recallMarked (s : State) (id : Nat) : State :=
  { s with net := { s.net with arriving := updWhere (fun x => x.id == id) (fun x => { x with recalled := true }) s.net.arriving } }

theorem recallEoc_some {s : State} {l t : Nat} {a : Arriving}
    (h : s.net.arriving.reverse.find? (fun a => a.l == l && a.t == t && a.at_ == s.now && !a.recalled) = some a) :
    s.recallEoc l t = recallMarked (s.sat .RTE_RECALL_RECEIVED 0) a.id := by
  have h' : (s.sat .RTE_RECALL_RECEIVED 0).net.arriving.reverse.find? (fun a => a.l == l && a.t == t && a.at_ == s.now && !a.recalled) = some a := h
  simp only [State.recallEoc, h']
  rfl

theorem recallName_none {s : State} {l t n : Nat} (h : vecOf s l t n = none) : s.recallName l t n = s.sat .RTE_RECALL_RECEIVED 0 := by
  have h' : (s.sat .RTE_RECALL_RECEIVED 0).net.vecs.find? (fun w => w.l == l && w.t == t && w.lsn == n) = none := h
  simp only [State.recallName, h']

/-- Settles O40: each command is the branch of its function that the hypotheses name. -/
theorem acknowledgementsAndReplaysFollowTheNumbers : Obligations.AcknowledgementsAndReplaysFollowTheNumbers := by
  intro s l t v lsn n j at_ rest e w a hc x live bad gone dn dj nl find marked r c acked ack twice idle
  have hheld : ∀ {i : Instr}, exec i s = .next (s.keep (ackHeld s (l.val, t.val, dn, dj))) →
      Does i s fun u => u.net = { s.net with heldAcks := twice (l.val, t.val, dn, dj) } ∧ Frame [.net] [] s u := fun he =>
    does_of_frame he (frame_ackHeld ..) ⟨rfl, frame_ackHeld ..⟩
  have hmarked : ∀ {i : Instr} {k : Nat}, exec i s = .next (s.keep (replayMarked s l t k)) → Does i s (marked k) := fun he =>
    does_of_frame he (frame_setSub ..) ⟨subIs_setSub .., frame_setSub ..⟩
  have hup : live → unitOk kAck v = true → slotAt v 1 1 = 0 →
      exec (.ackUpstreamReceive l t v) s = .next (s.keep (s.ackedUp l t dn (slotAt v 4 1 % 8) (slotAt v 4 1 / 8 % 4))) := fun hl hv h0 =>
    (exec_ackUpstreamReceive hc l t v).trans (by rw [if_pos hl, if_pos ⟨hv, h0⟩])
  have hdown : live → unitOk kAck v = true → slotAt v 1 1 = 1 → exec (.ackDownstreamReceive l t v) s = .next (s.keep (s.ackedDown l t dn dj)) :=
    fun hl hv h1 => (exec_ackDownstreamReceive hc l t v).trans (by rw [if_pos hl, if_pos ⟨hv, h1⟩])
  have hnak : live → unitOk kNak v = true → exec (.nakReceive l t v) s = .next (s.keep (s.naked l t nl)) := fun hl hv =>
    (exec_nakReceive hc l t v).trans (by rw [if_pos hl, if_pos hv])
  refine ⟨fun hl hd hs hq hw => ⟨fun hf => ?_, fun hb hn => ?_⟩, fun h => does_nothing (exec_ackUpstreamSend_not hc l t h), fun hl => ⟨?_, ?_, ?_⟩,
    fun hl hv => ⟨?_, ?_⟩, fun hl hv => ?_, hup, fun hl hv h0 hm hi => ?_,
    fun hl hv h1 => ⟨fun hn he => ?_, fun hw hb => ?_, fun hw hb hm => ?_, fun hw hb hm => ?_⟩, fun hl hs hf hr ht => ?_, fun hl hv hr => ?_,
    fun hl hv hr => ?_, fun hr => ?_, fun hr => ?_, fun hg => ?_, fun hf hg hr => ?_, fun hl hg => ⟨fun ha => ?_, fun hv hn => ?_, fun hv => ?_⟩⟩
  · have hx := exec_ackUpstreamSend hc l t hl hd hs hq hw
    rw [ackUp_eq, unit_free hf] at hx
    have hsent := (frame_sending s [.slot l t ack]).append (frame_setSub (sending s [.slot l t ack]) l t acked)
    exact does_of_frame hx hsent ⟨subIs_setSub .., rfl, hsent.mono (by simp) (by simp)⟩
  · have hx := exec_ackUpstreamSend hc l t hl hd hs hq hw
    rw [ackUp_eq, unit_waits hb hn] at hx
    have hsent := (frame_net s { s.net with unitq := s.net.unitq ++ [(l.val, t.val, ack)] }).append (frame_setSub (unitWaiting s l t ack) l t acked)
    exact does_of_frame hx hsent ⟨(subIs_setSub (unitWaiting s l t ack) l t acked).1, rfl, hsent.mono (by simp) (by simp)⟩
  · exact does_nothing ((exec_ackUpstreamReceive hc l t v).trans (by rw [if_neg hl]))
  · exact does_nothing ((exec_ackDownstreamReceive hc l t v).trans (by rw [if_neg hl]))
  · exact does_nothing ((exec_nakReceive hc l t v).trans (by rw [if_neg hl]))
  · exact (exec_ackUpstreamReceive hc l t v).trans (by rw [if_pos hl, if_neg (by simp [hv])])
  · exact (exec_ackDownstreamReceive hc l t v).trans (by rw [if_pos hl, if_neg (by simp [hv])])
  · exact (exec_nakReceive hc l t v).trans (by rw [if_pos hl, if_neg (by simp [hv])])
  · have hx := hup hl hv h0
    rw [ackedUp_plain hm hi] at hx
    exact does_of_frame hx (frame_setSub ..) ⟨subIs_setSub .., frame_setSub ..⟩
  · exact hheld ((hdown hl hv h1).trans (by rw [ackedDown_early hn he]))
  · exact hheld ((hdown hl hv h1).trans (by rw [ackedDown_bad hw hb]))
  · exact does_nothing ((hdown hl hv h1).trans (by rw [ackedDown_known hw hb hm]))
  · exact ⟨confirmed s w.id dj, (hdown hl hv h1).trans (by rw [ackedDown_confirms hw hb hm]), rfl, frame_net s _⟩
  · have hx := exec_ackDownstreamRepeat hc l t hl hs
    rw [ackAgain_due hf hr ht] at hx
    have hsent := (frame_sending s [.slot l t (mkSlot kAck (fieldsOf [(0, 1), (1, n), (3, j)]))]).append
      (frame_setSub (sending s [.slot l t (mkSlot kAck (fieldsOf [(0, 1), (1, n), (3, j)]))]) l t { x with repeats := rest })
    exact does_of_frame hx hsent ⟨subIs_setSub .., rfl, hsent.mono (by simp) (by simp)⟩
  · exact hmarked ((hnak hl hv).trans (by rw [naked_held hr]))
  · exact does_nothing ((hnak hl hv).trans (by rw [naked_gone hr]))
  · have hany : (x.retry.any fun e => e.lsn == lsn.toNat) = true := by
      obtain ⟨y, hy, hm⟩ := List.any_eq_true.1 hr
      exact List.any_eq_true.2 ⟨y, hy, (Bool.and_eq_true _ _ ▸ hm).1⟩
    exact hmarked ((exec_replayTimeout hc l t lsn).trans (by rw [if_pos hr, naked_held hany]))
  · exact does_nothing ((exec_replayTimeout hc l t lsn).trans (by rw [if_neg (Bool.eq_false_iff.1 hr)]))
  · exact does_nothing ((exec_replaySend hc l t).trans (by rw [hg, Bool.not_true, Bool.and_false, if_neg Bool.false_ne_true]))
  · have hx := exec_replaySend hc l t
    rw [hf, hg, Bool.not_false, Bool.and_self, if_pos rfl, sendReplay_some hr] at hx
    have hall := ((frame_replayOut s l t e).append (frame_replayCounted_after s l t e)).mono (qs := [.net, .outbox])
      (gs := [(.RTE_RETRY_REPLAYS, l.val), (.DBG_TRACE_STAT_SENT, 0)]) (by simp) (by simp)
    obtain ⟨hretry, hnext⟩ := replayOut_sub s l t e
    rw [← replayCounted_sub] at hretry hnext
    exact does_of_frame hx hall ⟨⟨_, hretry⟩, hnext, replayCounted_outbox s l t e, retryOf_le e, replayCounted_count s l t e, hall⟩
  · have hx := exec_recallReceive hc l t none hl hg
    have hcount := frame_recallCounted s
    rw [recallEoc_some ha] at hx
    have hmark := frame_net (s.sat .RTE_RECALL_RECEIVED 0)
      { s.net with arriving := updWhere (fun x => x.id == a.id) (fun x => { x with recalled := true }) s.net.arriving }
    exact does_of_frame hx (hcount.append hmark) ⟨counted_frame (counted_sat ..) hmark (by simp), rfl, hcount.append hmark⟩
  · have hx := exec_recallReceive hc l t (some v) hl hg
    simp only [hv, if_true] at hx
    rw [recallName_none hn] at hx
    exact does_of_frame hx (frame_recallCounted s) ⟨counted_sat .., frame_recallCounted s⟩
  · have hx := exec_recallReceive hc l t (some v) hl hg
    simp only [hv, Bool.false_eq_true, if_false] at hx
    exact hx

end Sys2Proof

namespace Sys2Proof

open Machine

/-! # The tick of an idle block (O47) -/

/-! ## Lists of field writes -/

theorem setfs_append (a b : List (Fld × Nat × Nat)) (s : State) : s.setfs (a ++ b) = (s.setfs a).setfs b := by
  induction a generalizing s with
  | nil => rfl
  | cons x a ih => exact ih _

/-- A field that a list of writes sets to one value only. -/
theorem rf_setfs {f : Fld} {i v : Nat} {l : List (Fld × Nat × Nat)} (hm : (f, i, v) ∈ l) (hu : ∀ w, (f, i, w) ∈ l → w = v) (s : State) :
    (s.setfs l).rf f i = v % 2 ^ fwidth f := by
  induction l generalizing s with
  | nil => cases hm
  | cons x l ih =>
    by_cases hl : (f, i) ∈ fieldsIn l
    · obtain ⟨⟨g, j, w⟩, hw, he⟩ := List.mem_map.1 hl
      obtain ⟨rfl, rfl⟩ := Prod.mk.inj he
      obtain rfl := hu w (List.mem_cons_of_mem _ hw)
      exact ih hw (fun w hw => hu w (List.mem_cons_of_mem _ hw)) _
    · have hx : (f, i, v) = x := (List.mem_cons.1 hm).resolve_right fun h => hl (List.mem_map_of_mem (f := fun x => (x.1, x.2.1)) h)
      subst hx
      exact ((frame_setfs l _).rf hl).trans (State.rf_setf_same ..)

/-! ## Actions 1 and 2 with nothing at work -/

section
variable {s : State} (hp : s.posts = [])
include hp

theorem post_of_none (p : Nat) : s.post p = {} := by rw [State.post, hp]; rfl

theorem xmits_none (l : Nat) : s.xmits l = [] := by
  simp [State.xmits, post_of_none hp]

theorem loseMirXmits_none : s.loseMirXmits = s := by
  simp only [State.loseMirXmits, xmits_none hp, List.filter_nil, List.foldl_nil, ite_self]

theorem pumpWrites_none : s.pumpWrites = s := by
  have hpump : ∀ p, s.pumpPostWrites p = s := fun p => by
    rw [State.pumpPostWrites, post_of_none hp]
    rfl
  unfold State.pumpWrites
  induction List.range 4 with
  | nil => rfl
  | cons y l ih => rw [List.foldl_cons, hpump, hpump, ih]

theorem tagPosts_none : s.tagPosts = [] := by rw [State.tagPosts, hp]; rfl

/-- With the engine STOPPED no postilion overruns its stage. -/
theorem sampleDone_stopped (he : s.engSt = 0) : s.sampleDone = s.noteLate [] := by
  have hover : s.overPosts = [] := if_pos (by rw [he]; decide)
  have hnone : ((List.range 64).filter fun t => ([] : List Nat).any fun p => (s.unfinished p).contains t) = [] :=
    List.filter_eq_nil_iff.2 fun _ _ => Bool.false_ne_true
  rw [State.sampleDone, loseMirXmits_none hp]
  simp only [hover, hnone, List.foldl_nil]

/-- With no carriage and no tag there is nothing to lose. -/
theorem declareLost_none (hv : s.net.vecs = []) : s.declareLost = { s.markLate with net := { s.markLate.net with rx := [] } } := by
  have hm : s.markLate.posts = [] := hp
  have hvecs : s.net.vecs.foldl (fun (s : State) v => s.loseVec v) s.markLate = s.markLate := by rw [hv]; rfl
  simp only [State.declareLost, hvecs, tagPosts_none hm, List.foldl_nil, pumpWrites_none hm]

end

theorem frame_noteLate (s : State) (ps : List Nat) : Frame [] [(.TT_OVR_POST_POSTILIONS, 0)] s (s.noteLate ps) := frame_setf ..

/-! ## Action 3: swap, commits, realignment -/

theorem swapTick_none {s : State} (h : s.tt.swap = none) (t : Nat) : s.swapTick t = s := by
  simp only [State.swapTick, h]

/-- With no shadow copy, no value of EVAL_EN and no command that waits only the root's part is left. -/
theorem commitTick3_none {s : State} (hs : s.shadows = []) (he : s.eng.evalPending = none) (hc : s.qs.cmds = []) (t : Nat) :
    s.commitTick3 t = s.rootTick (s.on .SYN_TIME_CTL_ROOT) := by
  have hsame : ({ s with shadows := [] } : State) = s := by rw [← hs]
  have hdone : s.doneAt t = s := by rw [State.doneAt, hc]; rfl
  simp only [State.commitTick3, hs, List.filter_nil, List.foldl_nil, hsame, he, hdone]

/-- A follower only chooses its time source again. -/
theorem rootTick_follower {s : State} (h : s.rf .SYN_TIME_CTL_ROOT = 0) (was : Bool) :
    s.rootTick was = ({ s with time := { s.time with rootRegain := false } } : State).sourceUpdate := by
  simp only [State.rootTick, State.on, h, bne_self_eq_false, Bool.false_and, Bool.false_eq_true, if_false]

/-- The source link that is chosen, 7 for none. -/
def chosenSource (s : State) : Nat :=
  if s.on .SYN_TIME_CTL_ROOT then 7
  else if s.timeLink (s.rf .SYN_TIME_CTL_PARENT) then s.rf .SYN_TIME_CTL_PARENT
  else if s.timeLink (s.rf .SYN_TIME_CTL_ALT_PARENT) then s.rf .SYN_TIME_CTL_ALT_PARENT else 7

/-- The source link is shown; the samples of another one go. -/
def sourceShown (s : State) : State :=
  if chosenSource s = s.rf .SYN_TIME_STATE_SOURCE_LINK then s
  else { s.setf .SYN_TIME_STATE_SOURCE_LINK 0 (chosenSource s) with time := { s.time with samples := [] } }

theorem sourceUpdate_eq (s : State) : s.sourceUpdate = if s.on .SYN_TIME_CTL_ROOT then (sourceShown s).setf .AON_MTC_STATUS_HOLDOVER_LINKS 0 0
    else if chosenSource s = 7 then (sourceShown s).setf .AON_MTC_STATUS_HOLDOVER_LINKS 0 1 else sourceShown s := rfl

theorem frame_sourceShown (s : State) : Frame [.time] [(.SYN_TIME_STATE_SOURCE_LINK, 0)] s (sourceShown s) := by
  unfold sourceShown
  split
  · exact Frame.refl _ _ s
  · exact (frame_setf s .SYN_TIME_STATE_SOURCE_LINK 0 (chosenSource s)).append (frame_time _ _)

/-- After the source is shown at most HOLDOVER_LINKS changes. -/
theorem frame_sourceUpdate_after (s : State) : Frame [] [(.AON_MTC_STATUS_HOLDOVER_LINKS, 0)] (sourceShown s) s.sourceUpdate := by
  rw [sourceUpdate_eq]
  split
  · exact frame_setf ..
  · split
    · exact frame_setf ..
    · exact Frame.refl _ _ _

theorem frame_sourceUpdate (s : State) :
    Frame [.time] [(.SYN_TIME_STATE_SOURCE_LINK, 0), (.AON_MTC_STATUS_HOLDOVER_LINKS, 0)] s s.sourceUpdate :=
  (frame_sourceShown s).append (frame_sourceUpdate_after s)

/-- Choosing the time source moves nothing of the clock but its samples. -/
theorem sourceUpdate_time (s : State) : s.sourceUpdate.time = { s.time with samples := s.sourceUpdate.time.samples } := by
  have h : s.sourceUpdate.time = (sourceShown s).time := (frame_sourceUpdate_after s).part .time (by simp)
  rw [h]
  unfold sourceShown
  split <;> rfl

theorem realign_not {s : State} {t : Nat} (h : s.realignAt t = false) : s.realign t = s := if_neg (Bool.eq_false_iff.1 h)

theorem yardTicks_none {s : State} (h : s.yards = []) : nat4.foldl (fun (s : State) y => s.yardTick y) s = s := by
  have hy : ∀ y, s.yardTick y = s := fun y => by
    refine if_pos ?_
    rw [State.yard, h]
    rfl
  simp only [nat4, List.foldl_cons, List.foldl_nil, hy]

/-! ## Telemetry of the ending stage (R203) -/

/-- What the congestion of port p puts into its registers. -/
def congFields (n : Net) (k p : Nat) : List (Fld × Nat × Nat) :=
  let g := sget (fun _ => {}) n.cong p
  let b := min g.blocked (2 ^ 24 - 1)
  [(.RTE_CONG_BLOCKED, p, b), (.RTE_CONG_PEAK_BYTES, p, g.bytes), (.RTE_CONG_PEAK_BUFS, p, g.bufs), (.RTE_CONG_STAGE_IDX, p, k),
    (.RTE_CONGHIST_ENTRY, p * 256 + n.congPos, b * 2 ^ 40 + g.bytes % 65536 * 2 ^ 16 + g.bufs * 2 ^ 12 + k)]

theorem congOut_foldl (k : Nat) (l : List Nat) (s : State) : l.foldl (State.congOut k) s = s.setfs (l.flatMap (congFields s.net k)) := by
  induction l generalizing s with
  | nil => rfl
  | cons p l ih =>
    have hnet : (s.congOut k p).net = s.net := (frame_setfs (congFields s.net k p) s).part .net (by simp)
    rw [List.foldl_cons, ih, hnet, List.flatMap_cons, setfs_append]
    rfl

/-- The congestion of every port stands in its registers. -/
def congShown (s : State) (k : Nat) : State := s.setfs ((List.range 9).flatMap (congFields s.net k))

/-- The register fields of a port's congestion. -/
def congKeys (pos : Nat) : List (Fld × Nat) :=
  let ports : List Nat := List.range 9
  ports.map (fun p => (Fld.RTE_CONG_BLOCKED, p)) ++ ports.map (fun p => (Fld.RTE_CONG_PEAK_BYTES, p))
    ++ ports.map (fun p => (Fld.RTE_CONG_PEAK_BUFS, p)) ++ ports.map (fun p => (Fld.RTE_CONG_STAGE_IDX, p))
    ++ ports.map fun p => (Fld.RTE_CONGHIST_ENTRY, p * 256 + pos)

theorem frame_congShown (s : State) (k : Nat) : Frame [] (congKeys s.net.congPos) s (congShown s k) := by
  refine (frame_setfs _ s).mono (by simp) fun x hx => ?_
  obtain ⟨y, hy, rfl⟩ := List.mem_map.1 hx
  obtain ⟨p, hp, hy⟩ := List.mem_flatMap.1 hy
  simp only [congFields, List.mem_cons, List.not_mem_nil, or_false] at hy
  simp only [congKeys, List.mem_append, List.mem_map]
  rcases hy with rfl | rfl | rfl | rfl | rfl <;> simp_all

theorem congShown_fields (s : State) (k : Nat) {p : Nat} (hp : p < 9) :
    let g := sget (fun _ => {}) s.net.cong p
    (congShown s k).rf .RTE_CONG_BLOCKED p = min g.blocked (2 ^ 24 - 1)
      ∧ (congShown s k).rf .RTE_CONG_PEAK_BYTES p = g.bytes % 2 ^ fwidth .RTE_CONG_PEAK_BYTES
      ∧ (congShown s k).rf .RTE_CONG_STAGE_IDX p = k % 2 ^ fwidth .RTE_CONG_STAGE_IDX := by
  intro g
  have hmem : ∀ x, x ∈ (List.range 9).flatMap (congFields s.net k) ↔ ∃ q, q < 9 ∧ x ∈ congFields s.net k q := fun x => by simp [List.mem_flatMap]
  have hshown : ∀ {f : Fld} {v : Nat}, (f, p, v) ∈ congFields s.net k p → (∀ q w, (f, p, w) ∈ congFields s.net k q → w = v) →
      (congShown s k).rf f p = v % 2 ^ fwidth f := fun hm hu =>
    rf_setfs ((hmem _).2 ⟨p, hp, hm⟩) (fun w hw => by obtain ⟨q, -, hq⟩ := (hmem _).1 hw; exact hu q w hq) s
  refine ⟨?_, ?_, ?_⟩
  · have hlt : min g.blocked (2 ^ 24 - 1) < 2 ^ fwidth .RTE_CONG_BLOCKED := Nat.lt_of_le_of_lt (Nat.min_le_right ..) (by decide)
    rw [← Nat.mod_eq_of_lt hlt]
    exact hshown (by simp [congFields, g]) fun q w hw => by
      obtain ⟨rfl, rfl⟩ : p = q ∧ w = _ := by simpa [congFields] using hw
      rfl
  · exact hshown (by simp [congFields, g]) fun q w hw => by
      obtain ⟨rfl, rfl⟩ : p = q ∧ w = _ := by simpa [congFields] using hw
      rfl
  · exact hshown (by simp [congFields]) fun q w hw => by
      obtain ⟨rfl, rfl⟩ : p = q ∧ w = _ := by simpa [congFields] using hw
      rfl

/-- The new stage begins with an empty record of congestion. -/
def congCleared (s : State) : State := { s with net := { s.net with cong := [], congPos := (s.net.congPos + 1) % 256 } }

theorem frame_peaks (s : State) : Frame [.net] [] s ((List.range 9).foldl (fun (s : State) p => s.peak p) s) :=
  Frame.foldl (List.range 9) (fun u _ _ => frame_net u _) s

/-- What follows the showing of the congestion stays in the router. -/
theorem frame_moveCong_after (s : State) (k : Nat) : Frame [.net] [] (congShown s k) (s.moveCong k) := by
  have h : s.moveCong k = (List.range 9).foldl (fun (s : State) p => s.peak p) (congCleared (congShown s k)) := by
    rw [congShown, ← congOut_foldl]
    rfl
  rw [h]
  exact Frame.trans (frame_net (congShown s k) _) (frame_peaks _)

/-- The wait of row y's operations. -/
def waitOf (a : ArraySt) (y : Nat) : Nat := min (coreCycles (sget (fun _ => 0) a.wait y)) (2 ^ 32 - 1)

/-- The waits of the rows stand in their registers. -/
def waitsShown (s : State) : State :=
  nat4.foldl (fun (s : State) y =>
    s.setfs [(.ARR_WAIT_WAIT, y, waitOf s.arr y), (.ARR_WAIT_PEAK, y, max (waitOf s.arr y) (s.rf .ARR_WAIT_PEAK y))]) s

theorem moveWait_eq (s : State) : s.moveWait = { waitsShown s with arr := { (waitsShown s).arr with wait := [] } } := rfl

/-- The register fields of the rows' waits. -/
def waitKeys : List (Fld × Nat) := nat4.map (fun y => (Fld.ARR_WAIT_WAIT, y)) ++ nat4.map fun y => (Fld.ARR_WAIT_PEAK, y)

theorem frame_waitsShown (s : State) : Frame [] waitKeys s (waitsShown s) := by
  refine Frame.foldl nat4 (fun u y hy => (frame_setfs _ u).mono (by simp) ?_) s
  simp [fieldsIn, waitKeys, hy]

theorem frame_moveWait_after (s : State) : Frame [.arr] [] (waitsShown s) s.moveWait := frame_arr _ _

theorem moveWait_arr (s : State) : s.moveWait.arr = { s.arr with wait := [] } := by
  have h : (waitsShown s).arr = s.arr := (frame_waitsShown s).part .arr (by simp)
  rw [moveWait_eq, ← h]

theorem waitsShown_wait (s : State) {y : Nat} (hy : y < 4) : (waitsShown s).rf .ARR_WAIT_WAIT y = waitOf s.arr y := by
  have hlt : ∀ y, waitOf s.arr y % 2 ^ fwidth .ARR_WAIT_WAIT = waitOf s.arr y := fun y =>
    Nat.mod_eq_of_lt (Nat.lt_of_le_of_lt (Nat.min_le_right ..) (by decide))
  have hcases : y = 0 ∨ y = 1 ∨ y = 2 ∨ y = 3 := by omega
  rcases hcases with rfl | rfl | rfl | rfl <;> simp [waitsShown, nat4, State.setfs, State.rf_setf, hlt]

/-! ## Thermal levels (R365), the pulse (R43) -/

theorem frame_applyThermal (s : State) :
    Frame [] [(.PWR_THERM_THROTTLE, 0), (.PWR_THERM_REFRESH_X2, 0), (.DEP_STATUS_THROTTLE, 0)] s s.applyThermal := frame_setfs _ s

theorem applyThermal_throttle (s : State) :
    s.applyThermal.rf .PWR_THERM_THROTTLE = greatest ((List.range 16).map s.chanLevel) % 2 ^ fwidth .PWR_THERM_THROTTLE :=
  rf_setfs (List.mem_cons_self ..) (fun w hw => by simpa using hw) s

theorem advance_stopped {s : State} (h : s.engSt = 0) (t : Nat) : s.advance t = s := by
  have hn : s.nextStage t = none := by simp only [State.nextStage, h]
  simp [State.advance, hn, h]

theorem trace_off {s : State} (h : s.rf .DBG_TRACE_CTL_EN = 0) (typ payload : Nat) : s.trace typ payload = s := by
  simp [State.trace, State.on, h]

/-- The pulse of a tick. -/
def pulse (s : State) (t : Nat) : OutEv := .tickOut t (if s.on .AON_MTC_STATUS_TRUSTED then 16 else 48)

theorem tickPulse_plain {s : State} (h : s.rf .DBG_TRACE_CTL_EN = 0) (t : Nat) : s.tickPulse t false = sending s [pulse s t] := by
  have h' : (sending s [pulse s t]).rf .DBG_TRACE_CTL_EN = 0 := h
  exact trace_off h' ..

/-! ## The report of a stage -/

/-- The telemetry of the ended stage, of index k, and the throttle levels stand in their registers. -/
def reported (s : State) (k : Nat) : State := ((s.moveCong k).moveWait).applyThermal

section
variable (s : State) (k : Nat)

theorem frame_moveCong : Frame [.net] (congKeys s.net.congPos) s (s.moveCong k) :=
  ((frame_congShown s k).append (frame_moveCong_after s k)).mono (by simp) (by simp)

theorem frame_moveWait : Frame [.arr] waitKeys s s.moveWait :=
  ((frame_waitsShown s).append (frame_moveWait_after s)).mono (by simp) (by simp)

/-- What follows the telemetry of the ports and of the array. -/
theorem frame_reported_after : Frame [.arr] (waitKeys ++ [(.PWR_THERM_THROTTLE, 0), (.PWR_THERM_REFRESH_X2, 0), (.DEP_STATUS_THROTTLE, 0)])
    (s.moveCong k) (reported s k) := (frame_moveWait _).append (frame_applyThermal _)

theorem frame_reported : Frame [.net, .arr]
    (congKeys s.net.congPos ++ (waitKeys ++ [(.PWR_THERM_THROTTLE, 0), (.PWR_THERM_REFRESH_X2, 0), (.DEP_STATUS_THROTTLE, 0)])) s (reported s k) :=
  (frame_moveCong s k).append (frame_reported_after s k)

theorem reported_cong {p : Nat} (hp : p < 9) :
    let g := sget (fun _ => {}) s.net.cong p
    (reported s k).rf .RTE_CONG_BLOCKED p = min g.blocked (2 ^ 24 - 1)
      ∧ (reported s k).rf .RTE_CONG_PEAK_BYTES p = g.bytes % 2 ^ fwidth .RTE_CONG_PEAK_BYTES
      ∧ (reported s k).rf .RTE_CONG_STAGE_IDX p = k % 2 ^ fwidth .RTE_CONG_STAGE_IDX := by
  intro g
  have hf := (frame_moveCong_after s k).append (frame_reported_after s k)
  obtain ⟨h1, h2, h3⟩ := congShown_fields s k hp
  exact ⟨(hf.rf (by simp [waitKeys])).trans h1, (hf.rf (by simp [waitKeys])).trans h2, (hf.rf (by simp [waitKeys])).trans h3⟩

theorem reported_wait {y : Nat} (hy : y < 4) : (reported s k).rf .ARR_WAIT_WAIT y = waitOf s.arr y := by
  have hf := (frame_moveWait_after (s.moveCong k)).append (frame_applyThermal _)
  have harr : (s.moveCong k).arr = s.arr := (frame_moveCong s k).part .arr (by simp)
  rw [← harr]
  exact (hf.rf (by simp)).trans (waitsShown_wait _ hy)

theorem reported_arr : (reported s k).arr = { s.arr with wait := [] } := by
  have harr : (s.moveCong k).arr = s.arr := (frame_moveCong s k).part .arr (by simp)
  have hthermal : (reported s k).arr = (s.moveCong k).moveWait.arr := (frame_applyThermal _).part .arr (by simp)
  rw [hthermal, moveWait_arr, harr]

theorem reported_throttle :
    (reported s k).rf .PWR_THERM_THROTTLE = greatest ((List.range 16).map s.chanLevel) % 2 ^ fwidth .PWR_THERM_THROTTLE := by
  have hpow : (s.moveCong k).moveWait.power = s.power := ((frame_moveCong s k).append (frame_moveWait _)).part .power (by simp)
  have hlevel : (s.moveCong k).moveWait.chanLevel = s.chanLevel := by
    funext c
    rw [State.chanLevel, hpow, State.chanLevel]
  rw [← hlevel]
  exact applyThermal_throttle _

end

/-! ## The whole tick -/

/-- The engine is STOPPED, nothing waits for the tick, and no command, team, postilion, carriage or yard reset is there. -/
structure Idle (s : State) (t : Nat) : Prop where
  eng : s.engSt = 0
  shadows : s.shadows = []
  posts : s.posts = []
  vecs : s.net.vecs = []
  swap : s.tt.swap = none
  evalEn : s.eng.evalPending = none
  cmds : s.qs.cmds = []
  yards : s.yards = []
  realign : s.realignAt t = false
  root : s.rf .SYN_TIME_CTL_ROOT = 0
  untraced : s.rf .DBG_TRACE_CTL_EN = 0

/-- The tick at t is noted as served. -/
def tickBegun (s : State) (t : Nat) : State := { s with time := { s.time with lastTick := t, suppress := false } }

/-- Actions 1 and 2 of an idle block. -/
def lossesTaken (s : State) : State := { (s.noteLate []).markLate with net := { (s.noteLate []).markLate.net with rx := [] } }

/-- The root has nothing to restore. -/
def regainDropped (s : State) : State := { s with time := { s.time with rootRegain := false } }

/-- Actions 1 to 3 of an idle block. -/
def settled (s : State) (t : Nat) : State := (regainDropped (lossesTaken (tickBegun s t))).sourceUpdate

section
variable (s : State) (t : Nat)

theorem frame_lossesTaken : Frame [.net] [(.TT_OVR_POST_POSTILIONS, 0)] s (lossesTaken s) :=
  (frame_noteLate s []).append (frame_net (s.noteLate []) _)

theorem frame_regainDropped_lossesTaken : Frame [.time, .net] [(.TT_OVR_POST_POSTILIONS, 0)] s (regainDropped (lossesTaken (tickBegun s t))) :=
  (((frame_time s _).append (frame_lossesTaken (tickBegun s t))).append (frame_time _ _)).mono (by simp) (by simp)

theorem frame_settled : Frame [.time, .net]
    [(.TT_OVR_POST_POSTILIONS, 0), (.SYN_TIME_STATE_SOURCE_LINK, 0), (.AON_MTC_STATUS_HOLDOVER_LINKS, 0)] s (settled s t) :=
  ((frame_regainDropped_lossesTaken s t).append (frame_sourceUpdate _)).mono (by simp) (by simp)

theorem settled_time (hs : s.time.suppress = false) : (settled s t).time =
    { s.time with lastTick := t, rootRegain := false, samples := (settled s t).time.samples } := by
  have hbegun : (tickBegun s t).time = { s.time with lastTick := t } := by
    calc (tickBegun s t).time = { s.time with lastTick := t, suppress := s.time.suppress } := by rw [hs]; rfl
      _ = { s.time with lastTick := t } := rfl
  have hlost : (lossesTaken (tickBegun s t)).time = (tickBegun s t).time := (frame_lossesTaken _).part .time (by simp)
  have hregain : (regainDropped (lossesTaken (tickBegun s t))).time = { s.time with lastTick := t, rootRegain := false } := by
    rw [regainDropped, hlost, hbegun]
  have h := sourceUpdate_time (regainDropped (lossesTaken (tickBegun s t)))
  rw [hregain] at h
  exact h

theorem settled_net : (settled s t).net.cong = s.net.cong ∧ (settled s t).net.congPos = s.net.congPos := by
  have h : (settled s t).net = (regainDropped (lossesTaken (tickBegun s t))).net := (frame_sourceUpdate _).part .net (by simp)
  rw [h]
  exact ⟨rfl, rfl⟩

theorem frame_idleReported : Frame [.time, .net, .arr]
    ((.TT_OVR_POST_POSTILIONS, 0) :: (.SYN_TIME_STATE_SOURCE_LINK, 0) :: (.AON_MTC_STATUS_HOLDOVER_LINKS, 0) :: (congKeys s.net.congPos
      ++ (waitKeys ++ [(.PWR_THERM_THROTTLE, 0), (.PWR_THERM_REFRESH_X2, 0), (.DEP_STATUS_THROTTLE, 0)])))
    s (reported (settled s t) (s.rf .TT_STATUS_STAGE_IDX)) := by
  have h := (frame_settled s t).append (frame_reported (settled s t) (s.rf .TT_STATUS_STAGE_IDX))
  rw [(settled_net s t).2] at h
  exact h.mono (by simp) (by simp)

end

section
variable {s : State} {t : Nat} (h : Idle s t)
include h

/-- Actions 1 to 3 come to this. -/
theorem actions_settled :
    nat4.foldl (fun (s : State) y => s.yardTick y) ((((tickBegun s t).sampleDone.declareLost.swapTick t).commitTick3 t).realign t) = settled s t := by
  have hlost : (tickBegun s t).sampleDone.declareLost = lossesTaken (tickBegun s t) := by
    rw [sampleDone_stopped (s := tickBegun s t) h.posts h.eng, declareLost_none (s := (tickBegun s t).noteLate []) h.posts h.vecs]
    rfl
  have hf := (frame_time s { s.time with lastTick := t, suppress := false }).append (frame_lossesTaken (tickBegun s t))
  have hqs : (lossesTaken (tickBegun s t)).qs = s.qs := hf.part .qs (by simp)
  have hroot : (lossesTaken (tickBegun s t)).rf .SYN_TIME_CTL_ROOT = 0 := (hf.rf (by simp)).trans h.root
  have hs := frame_settled s t
  have hrealign : (settled s t).realignAt t = false := by
    rw [← h.realign]
    simp only [State.realignAt, State.stageLen, hs.rf (f := .TT_STAGE_LEN_LEN_US) (i := 0) (by simp), hs.rf (f := .SYN_REALIGN_STAGES) (i := 0) (by simp)]
  have hyards : (settled s t).yards = [] := Eq.trans (hs.part .yards (by simp)) h.yards
  rw [hlost, swapTick_none (s := lossesTaken (tickBegun s t)) h.swap,
    commitTick3_none (s := lossesTaken (tickBegun s t)) h.shadows h.evalEn h.cmds, rootTick_follower hroot]
  show nat4.foldl _ ((settled s t).realign t) = _
  rw [realign_not hrealign, yardTicks_none hyards]

/-- The tick of an idle block: actions 1 to 3, the report, the pulse. -/
theorem tick_idle (hs : s.time.suppress = false) :
    s.tick t = sending (reported (settled s t) (s.rf .TT_STATUS_STAGE_IDX)) [pulse s t] := by
  have hlost : (tickBegun s t).sampleDone.declareLost.engSt = 0 := by
    rw [sampleDone_stopped (s := tickBegun s t) h.posts h.eng, declareLost_none (s := (tickBegun s t).noteLate []) h.posts h.vecs]
    exact ((frame_lossesTaken (tickBegun s t)).rf (by simp)).trans h.eng
  have hk : (tickBegun s t).rf .TT_STATUS_STAGE_IDX = s.rf .TT_STATUS_STAGE_IDX := rfl
  have hf := frame_idleReported s t
  have heng : (reported (settled s t) (s.rf .TT_STATUS_STAGE_IDX)).engSt = 0 := (hf.rf (by simp [congKeys, waitKeys])).trans h.eng
  have htrace : (reported (settled s t) (s.rf .TT_STATUS_STAGE_IDX)).rf .DBG_TRACE_CTL_EN = 0 := (hf.rf (by simp [congKeys, waitKeys])).trans h.untraced
  have hpulse : pulse (reported (settled s t) (s.rf .TT_STATUS_STAGE_IDX)) t = pulse s t := by
    rw [pulse, pulse, State.on, State.on, hf.rf (f := .AON_MTC_STATUS_TRUSTED) (i := 0) (by simp [congKeys, waitKeys])]
  have htick : s.tick t = ((reported (nat4.foldl (fun (s : State) y => s.yardTick y)
      ((((if 2 ≤ (tickBegun s t).sampleDone.declareLost.engSt then (tickBegun s t).sampleDone.declareLost.endSlots
        else (tickBegun s t).sampleDone.declareLost).swapTick t).commitTick3 t).realign t)) ((tickBegun s t).rf .TT_STATUS_STAGE_IDX)).advance t).tickPulse t s.time.suppress := rfl
  rw [htick, hlost, if_neg (by decide), actions_settled h, hk, hs, advance_stopped heng, tickPulse_plain htrace, hpulse]

end

theorem sending_outbox (s : State) (out : List OutEv) : (sending s out).outbox = s.outbox ++ out := rfl

/-- The state after the tick of an idle block. -/
def idleTicked (s : State) (t : Nat) : State := sending (reported (settled s t) (s.rf .TT_STATUS_STAGE_IDX)) [pulse s t]

section
variable (s : State) (t : Nat)

/-- The pulse moves nothing but the outbox. -/
theorem frame_idleTicked_after : Frame [.outbox] [] (reported (settled s t) (s.rf .TT_STATUS_STAGE_IDX)) (idleTicked s t) := frame_sending ..

theorem idleTicked_outbox : (idleTicked s t).outbox = s.outbox ++ [pulse s t] := by
  rw [idleTicked, sending_outbox, (frame_idleReported s t).part .outbox (by simp)]

theorem idleTicked_time (hs : s.time.suppress = false) : (idleTicked s t).time =
    { s.time with lastTick := t, rootRegain := false, samples := (idleTicked s t).time.samples } := by
  have h : (idleTicked s t).time = (settled s t).time := ((frame_reported (settled s t) _).append (frame_idleTicked_after s t)).part .time (by simp)
  rw [h]
  exact settled_time s t hs

theorem idleTicked_cong {p : Nat} (hp : p < 9) :
    let g := sget (fun _ => {}) s.net.cong p
    (idleTicked s t).rf .RTE_CONG_BLOCKED p = min g.blocked (2 ^ 24 - 1)
      ∧ (idleTicked s t).rf .RTE_CONG_PEAK_BYTES p = g.bytes % 2 ^ fwidth .RTE_CONG_PEAK_BYTES
      ∧ (idleTicked s t).rf .RTE_CONG_STAGE_IDX p = s.rf .TT_STATUS_STAGE_IDX % 2 ^ fwidth .RTE_CONG_STAGE_IDX := by
  have h := reported_cong (settled s t) (s.rf .TT_STATUS_STAGE_IDX) hp
  rw [(settled_net s t).1] at h
  obtain ⟨h1, h2, h3⟩ := h
  have hf := frame_idleTicked_after s t
  exact ⟨(hf.rf (by simp)).trans h1, (hf.rf (by simp)).trans h2, (hf.rf (by simp)).trans h3⟩

theorem idleTicked_wait {y : Nat} (hy : y < 4) : (idleTicked s t).rf .ARR_WAIT_WAIT y = waitOf s.arr y := by
  have harr : (settled s t).arr = s.arr := (frame_settled s t).part .arr (by simp)
  rw [(frame_idleTicked_after s t).rf (by simp), reported_wait _ _ hy, harr]

theorem idleTicked_throttle :
    (idleTicked s t).rf .PWR_THERM_THROTTLE = greatest ((List.range 16).map s.chanLevel) % 2 ^ fwidth .PWR_THERM_THROTTLE := by
  have hpower : (settled s t).power = s.power := (frame_settled s t).part .power (by simp)
  have hlevel : (settled s t).chanLevel = s.chanLevel := by
    funext c
    rw [State.chanLevel, hpower, State.chanLevel]
  rw [(frame_idleTicked_after s t).rf (by simp), reported_throttle, hlevel]

theorem idleTicked_arr : (idleTicked s t).arr = { s.arr with wait := [] } := by
  have harr : (settled s t).arr = s.arr := (frame_settled s t).part .arr (by simp)
  have h : (idleTicked s t).arr = (reported (settled s t) (s.rf .TT_STATUS_STAGE_IDX)).arr := (frame_idleTicked_after s t).part .arr (by simp)
  rw [h, reported_arr, harr]

end

/-! ## The rows that serve a tick -/

/-- The rows that serve a tick, with what each asks of it. -/
def tickRows (s : State) : List (Instr × Prop) :=
  [(.stageTick false, True), (.engineStart, s.engSt = 1 ∧ s.rf .TT_START_MTC_START ≤ s.tickAt),
    (.periodEnd, 2 ≤ s.engSt ∧ s.stageAt s.tickAt = 0), (.realignment, s.realignAt s.tickAt = true)]

section
variable {s : State}

theorem tickIf_due {c : Nat → Bool} (h : s.time.lastTick < s.tickAt) (hc : c s.tickAt = true) : s.tickIf c = s.tick s.tickAt :=
  if_pos (by simp [State.tickDue, h, hc])

theorem tickIf_not {c : Nat → Bool} (h : s.tickAt ≤ s.time.lastTick ∨ ¬ c s.tickAt = true) : s.tickIf c = s := by
  refine if_neg ?_
  rw [State.tickDue, Bool.and_eq_true, decide_eq_true_eq]
  rintro ⟨h1, h2⟩
  exact h.elim (fun h => absurd h1 (Nat.not_lt.2 h)) (fun h => h h2)

variable (hc : s.coreOn = true)
include hc

theorem exec_stageTick (ue : Bool) : exec (.stageTick ue) s =
    .next (s.keep (if s.tickDue then (if ue && s.tt.active.isSome then s.storeUe else s).tick s.tickAt else s)) := by
  show execStageTick s ue = _
  rw [execStageTick, event_on _ _ hc]

/-- Each row serves the last tick instant where its condition holds of it. -/
theorem tickRows_tickIf {x : Instr × Prop} (hx : x ∈ tickRows s) :
    ∃ c : Nat → Bool, (c s.tickAt = true ↔ x.2) ∧ exec x.1 s = .next (s.keep (s.tickIf c)) := by
  simp only [tickRows, List.mem_cons, List.not_mem_nil, or_false] at hx
  rcases hx with rfl | rfl | rfl | rfl
  · refine ⟨fun _ => true, by simp, (exec_stageTick hc false).trans ?_⟩
    simp only [State.tickIf, Bool.and_true, Bool.false_and, Bool.false_eq_true, if_false]
  · exact ⟨fun t => s.engSt == 1 && decide (s.rf .TT_START_MTC_START ≤ t), by simp, event_on s (fun s => s.tickIf fun t =>
      s.engSt == 1 && decide (s.rf .TT_START_MTC_START ≤ t)) hc⟩
  · exact ⟨fun t => decide (2 ≤ s.engSt) && s.stageAt t == 0, by simp, event_on s (fun s => s.tickIf fun t =>
      decide (2 ≤ s.engSt) && s.stageAt t == 0) hc⟩
  · exact ⟨s.realignAt, Iff.rfl, event_on s (fun s => s.tickIf s.realignAt) hc⟩

/-- A STAGE_TICK whose read has an error first does what that asks, where a timetable is loaded. -/
theorem exec_stageTick_error (h : s.time.lastTick < s.tickAt) : exec (.stageTick true) s =
    .next (s.keep ((if s.tt.active = none then s else s.storeUe).tick s.tickAt)) := by
  have hdue : s.tickDue = true := by simp [State.tickDue, h]
  rw [exec_stageTick hc, hdue, if_pos rfl, Bool.true_and]
  cases s.tt.active <;> rfl

theorem exec_stageTick_served (h : s.tickAt ≤ s.time.lastTick) (ue : Bool) : exec (.stageTick ue) s = .next (s.keep s) := by
  have hdue : s.tickDue = false := by simp [State.tickDue, h]
  rw [exec_stageTick hc, hdue, if_neg Bool.false_ne_true]

end

/-- Settles O47: each row is `tickIf` under its condition; the tick of an idle block is `tick_idle`. -/
theorem ticksAreServedOnceInOrder : Obligations.TicksAreServedOnceInOrder := by
  intro s hc at_ rows idle ports congs waits g
  refine ⟨fun x hx hd h => ?_, fun x hx h => ?_, fun hd => exec_stageTick_error hc hd, fun hd => does_nothing (exec_stageTick_served hc hd true),
    fun hd hidle => ?_⟩
  · obtain ⟨c, hiff, he⟩ := tickRows_tickIf hc hx
    exact he.trans (by rw [tickIf_due hd (hiff.2 h)])
  · obtain ⟨c, hiff, he⟩ := tickRows_tickIf hc hx
    exact does_nothing (he.trans (by rw [tickIf_not (h.imp_right (mt hiff.1))]))
  · obtain ⟨heng, hshadows, hposts, -, hvecs, -, hswap, heval, hcmds, hyards, hrealign, hsup, hroot, htrace⟩ := hidle
    have hi : Idle s at_ := ⟨heng, hshadows, hposts, hvecs, hswap, heval, hcmds, hyards, hrealign, hroot, htrace⟩
    obtain ⟨c, hiff, he⟩ := tickRows_tickIf hc (x := (.stageTick false, True)) (by simp [tickRows])
    rw [tickIf_due hd (hiff.2 trivial), tick_idle hi hsup] at he
    have hf := (frame_idleReported s at_).append (frame_idleTicked_after s at_)
    refine does_of_frame (u := idleTicked s at_) he hf ⟨idleTicked_time s at_ hsup, idleTicked_outbox s at_, fun p hp => idleTicked_cong s at_ hp,
      fun y hy => idleTicked_wait s at_ hy, idleTicked_throttle s at_, idleTicked_arr s at_, hf.mono (by simp) fun x hx => ?_⟩
    show x ∈ congKeys s.net.congPos ++ waitKeys ++ _
    simp only [List.mem_append, List.mem_cons, List.not_mem_nil, or_false] at hx ⊢
    tauto

end Sys2Proof

namespace Sys2Proof

/-! # Postilion words (O60) -/

theorem pwOp_toNat (w : BitVec 32) : (pwOp w).toNat = w.toNat / 2 ^ 26 := by
  have := w.isLt
  simp only [pwOp, bitsOf, BitVec.toNat_ofNat]
  omega

/-! ## The fields of a word of format A or B (R76) -/

section
variable {op d a b imm : Nat}

theorem pwOp_wordA (hop : op < 64) (hd : d < 16) (ha : a < 16) (hb : b < 16) (hi : imm < 2 ^ 14) : (pwOp (wordA op d a b imm)).toNat = op := by
  simp only [pwOp_toNat, wordA, BitVec.toNat_ofNat]
  omega

theorem pwOp_wordB (hop : op < 64) (hd : d < 16) (hi : imm < 2 ^ 22) : (pwOp (wordB op d imm)).toNat = op := by
  simp only [pwOp_toNat, wordB, BitVec.toNat_ofNat]
  omega

theorem pwD_wordA (d : GReg) (ha : a < 16) (hb : b < 16) (hi : imm < 2 ^ 14) : pwD (wordA op d a b imm) = d := by
  have := d.isLt
  apply Fin.ext
  simp only [pwD, bitsOf, wordA, BitVec.toNat_ofNat, Fin.ofNat]
  omega

theorem pwA_wordA (a : GReg) (hb : b < 16) (hi : imm < 2 ^ 14) : pwA (wordA op d a b imm) = a := by
  have := a.isLt
  apply Fin.ext
  simp only [pwA, bitsOf, wordA, BitVec.toNat_ofNat, Fin.ofNat]
  omega

theorem pwB_wordA (b : GReg) (hi : imm < 2 ^ 14) : pwB (wordA op d a b imm) = b := by
  have := b.isLt
  apply Fin.ext
  simp only [pwB, bitsOf, wordA, BitVec.toNat_ofNat, Fin.ofNat]
  omega

theorem pwImm14_wordA (i : BitVec 14) : pwImm14 (wordA op d a b i.toNat) = i := by
  have := i.isLt
  apply BitVec.eq_of_toNat_eq
  simp only [pwImm14, wordA, BitVec.toNat_ofNat]
  omega

theorem pwD_wordB (d : GReg) (hi : imm < 2 ^ 22) : pwD (wordB op d imm) = d := by
  have := d.isLt
  apply Fin.ext
  simp only [pwD, bitsOf, wordB, BitVec.toNat_ofNat, Fin.ofNat]
  omega

theorem pwImm22_wordB (i : BitVec 22) : pwImm22 (wordB op d i.toNat) = i := by
  have := i.isLt
  apply BitVec.eq_of_toNat_eq
  simp only [pwImm22, wordB, BitVec.toNat_ofNat]
  omega

end

/-! ## Decoding -/

/-- The opcode picks the row of the tables, and the row's fields are the operands. -/
theorem decodePost_encodePost {i : Instr} {w : BitVec 32} (h : encodePost i = some w) : ∃ p, decodePost p w = i := by
  unfold encodePost at h
  split at h
  case h_32 => cases h
  all_goals
    cases h
    exact ⟨‹PostId›, by simp (disch := omega) only [decodePost, pwOp_wordA, pwOp_wordB, pwD_wordA, pwA_wordA, pwB_wordA, pwImm14_wordA,
      pwD_wordB, pwImm22_wordB]⟩

/-- The opcodes of Tables 3.5 and 3.6. -/
def postOps : List Nat :=
  List.range 0x0B ++ [0x10, 0x11, 0x12, 0x13, 0x14, 0x18, 0x19, 0x1C, 0x20, 0x21, 0x22, 0x23] ++ (List.range 8).map (· + 0x28)

/-- A word decodes to an undefined opcode just where the tables have no row for its opcode (R75). -/
theorem decodePost_undefined_iff (p : PostId) (w : BitVec 32) : (∃ op, decodePost p w = .undefinedOpcode p op) ↔ (pwOp w).toNat ∉ postOps := by
  unfold decodePost
  split
  case h_32 =>
    refine iff_of_true ⟨_, rfl⟩ fun hm => ?_
    simp only [postOps, List.mem_append, List.mem_range, List.mem_cons, List.not_mem_nil, or_false, List.mem_map, imp_false] at *
    obtain (hm | hm) | ⟨k, hk, hm⟩ := hm <;> omega
  all_goals
    next h => exact iff_of_false (by rintro ⟨_, ⟨⟩⟩) (by rw [h]; decide)

/-- Settles O60: each field is read back from its bits, and the opcode picks the row. -/
theorem postilionWordsDecodeToTheirInstruction : Obligations.PostilionWordsDecodeToTheirInstruction :=
  ⟨fun _ _ h => decodePost_encodePost h, fun p w => pwOp_toNat w ▸ decodePost_undefined_iff p w⟩

end Sys2Proof

namespace Sys2Proof

open Machine

/-! # What an instruction of a postilion does (O1 to O7) -/

theorem Does.imp {c : Instr} {s : State} {P Q : State → Prop} (h : Does c s P) (k : ∀ t, P t → Q t) : Does c s Q :=
  let ⟨t, he, hp⟩ := h
  ⟨t, he, k t hp⟩

/-- The instruction at the pc of a postilion that executes does its own meaning f. -/
theorem postRun_of_runs {s : State} {p : PostId} {i : Instr} (h : Runs s p i) (f : State → Post → State) : s.postRun p i f = f s (s.post p) := by
  obtain ⟨-, hr, hd⟩ := h
  simp [State.postRun, hr, hd]

theorem exec_of_runs {s : State} {p : PostId} {i : Instr} {f : State → Post → State} (h : Runs s p i)
    (he : exec i s = event s fun s => s.postRun p i f) : exec i s = .next (s.keep (f s (s.post p))) := by
  rw [he, event_on _ _ h.1, postRun_of_runs h]

theorem wait_of_runs {s : State} {p : PostId} {i : Instr} (h : Runs s p i) : (s.post p).wait = .run := by
  have hr := h.2.1
  simp only [State.runnable, Bool.and_eq_true, beq_iff_eq] at hr
  exact hr.1.1.2

theorem quiet_of_runs {s : State} {p : PostId} {i : Instr} (h : Runs s p i) : (s.post p).quiet = false := quiet_of_runnable h.2.1

theorem cur_of_runs {s : State} {p : PostId} {i : Instr} (h : Runs s p i) : ∃ g, (s.post p).cur = some g := by
  have hr := h.2.1
  simp only [State.runnable, Bool.and_eq_true] at hr
  exact Option.isSome_iff_exists.1 hr.1.1.1

/-- One that only makes its postilion x. -/
theorem does_setPost {s : State} {p : PostId} {i c : Instr} {x : Post} (h : Runs s p i) (he : exec c s = .next (s.keep (s.setPost p x))) :
    Does c s (PostIs s p x) := ⟨_, he, postIs_setPost h.2.1 x⟩

/-- The postilion has written register d and gone on. -/
theorem setsReg_of_postIs {s t : State} {p : PostId} {d : GReg} {v : Word} (h : PostIs s p ((s.post p).setReg d v).next t) : SetsReg s p d v t := by
  obtain ⟨hp, ho, hf⟩ := h
  refine ⟨?_, ho, hf⟩
  rw [hp]
  have hpc : ((s.post p).setReg d v).pc = (s.post p).pc := by unfold Post.setReg; split <;> rfl
  simpa only [Post.next, hpc, nextPc] using wroteReg_setReg (s.post p) d v (nextPc (s.post p))

theorem does_setReg {s : State} {p : PostId} {i c : Instr} {d : GReg} {v : Word} (h : Runs s p i)
    (he : exec c s = .next (s.keep (s.setPost p ((s.post p).setReg d v).next))) : Does c s (SetsReg s p d v) :=
  (does_setPost h he).imp fun _ => setsReg_of_postIs

/-! ## Arithmetic (O1) -/

theorem exec_alu {s : State} {p : PostId} {i : Instr} {d a b : GReg} {f : Word → Word → Word} (h : Runs s p i)
    (he : exec i s = event s fun s => alu p i d a b f s) : Does i s (SetsReg s p d (f ((s.post p).reg a) ((s.post p).reg b))) :=
  does_setReg h (exec_of_runs h he)

section
variable (x y : Word)

theorem add_eq_ofNat : x + y = BitVec.ofNat 64 (x.toNat + y.toNat) := BitVec.eq_of_toNat_eq (by simp)

theorem sub_eq_ofInt : x - y = BitVec.ofInt 64 ((x.toNat : Int) - y.toNat) := by
  have hx := x.isLt
  have hy := y.isLt
  apply BitVec.eq_of_toNat_eq
  rw [BitVec.toNat_sub, BitVec.toNat_ofInt]
  omega

theorem and_eq_ofNat : x &&& y = BitVec.ofNat 64 (x.toNat &&& y.toNat) := BitVec.eq_of_toNat_eq (by simp)

theorem or_eq_ofNat : x ||| y = BitVec.ofNat 64 (x.toNat ||| y.toNat) := BitVec.eq_of_toNat_eq (by simp)

theorem xor_eq_ofNat : x ^^^ y = BitVec.ofNat 64 (x.toNat ^^^ y.toNat) := BitVec.eq_of_toNat_eq (by simp)

theorem mul_eq_ofNat : x * y = BitVec.ofNat 64 (x.toNat * y.toNat) := BitVec.eq_of_toNat_eq (by simp)

theorem shl_eq_ofNat (k : Nat) : x <<< k = BitVec.ofNat 64 (x.toNat * 2 ^ k) := BitVec.eq_of_toNat_eq (by simp [Nat.shiftLeft_eq])

theorem shr_eq_ofNat (k : Nat) : x >>> k = BitVec.ofNat 64 (x.toNat / 2 ^ k) := by
  apply BitVec.eq_of_toNat_eq
  rw [BitVec.toNat_ushiftRight, Nat.shiftRight_eq_div_pow, BitVec.toNat_ofNat, Nat.mod_eq_of_lt (Nat.lt_of_le_of_lt (Nat.div_le_self ..) x.isLt)]

/-- A sign-extended 14-bit immediate added. -/
theorem add_imm14 (i : BitVec 14) : x + imm14 i = BitVec.ofInt 64 ((x.toNat : Int) + i.toInt) := by
  rw [BitVec.ofInt_add, BitVec.ofInt_natCast, BitVec.ofNat_toNat, BitVec.setWidth_eq]
  rfl

end

/-- Settles O1: each row is `alu`, or writes its register from an immediate; the results are those of the words. -/
theorem postilionArithmeticSetsItsRegister : Obligations.PostilionArithmeticSetsItsRegister := by
  intro s p d a b i j
  refine ⟨fun h => does_postOnly h rfl, fun h => ?_, fun h => ?_, fun h => ?_, fun h => ?_, fun h => ?_, fun h => ?_, fun h => ?_,
    fun h => ?_, fun h => ?_, fun h => ?_⟩
  · exact add_eq_ofNat _ _ ▸ exec_alu h rfl
  · exact sub_eq_ofInt _ _ ▸ exec_alu h rfl
  · exact and_eq_ofNat _ _ ▸ exec_alu h rfl
  · exact or_eq_ofNat _ _ ▸ exec_alu h rfl
  · exact xor_eq_ofNat _ _ ▸ exec_alu h rfl
  · exact shl_eq_ofNat _ _ ▸ exec_alu h rfl
  · exact shr_eq_ofNat _ _ ▸ exec_alu h rfl
  · exact add_imm14 _ _ ▸ (does_postOnly h rfl).imp fun _ => setsReg_of_postIs
  · exact (does_postOnly h rfl).imp fun _ => setsReg_of_postIs
  · exact mul_eq_ofNat _ _ ▸ exec_alu h rfl

end Sys2Proof

namespace Sys2Proof

open Machine

/-! # Branches, faults, data RAM (O2, O3) -/

/-! ## Latching a source that asks for no safe state (R314 to R317) -/

theorem frame_fltVector (s : State) : Frame [.outbox, .aon] [(.IRQ_DATA_PENDING, s.rf .FLT_CTL_VECTOR)] s s.fltVector := by
  unfold State.fltVector State.vector State.message
  split
  · split
    · exact (frame_setf ..).mono (by simp) (by simp)
    · split
      · exact (frame_message s _ _).mono (by simp) (by simp)
      · exact (frame_aon s _).mono (by simp) (by simp)
  · exact Frame.refl ..

theorem frame_first (s : State) (b : Nat) :
    Frame [] [(.FLT_FIRST_OVF, 0), (.FLT_FIRST_VALID, 0), (.FLT_FIRST_SOURCE, 0), (.FLT_FIRST_MTC_MTC, 0)] s (s.first b) := by
  unfold State.first
  split
  · exact Frame.refl ..
  · split
    · exact (frame_setf ..).mono (by simp) (by simp)
    · exact (frame_setfs ..).mono (by simp) (by simp [fieldsIn])

/-- The fields that latching a source may change. -/
def latchFields (s : State) : List (Fld × Nat) :=
  [(.FLT_STATUS_SOURCES, 0), (.AON_LOG_PTR_HEAD, 0), (.AON_LOG_PTR_WRAPS, 0), (.FLT_MASKED_COUNT, 0), (.FLT_FIRST_OVF, 0), (.FLT_FIRST_VALID, 0),
   (.FLT_FIRST_SOURCE, 0), (.FLT_FIRST_MTC_MTC, 0), (.DBG_TRACE_STAT_SENT, 0), (.IRQ_DATA_PENDING, s.rf .FLT_CTL_VECTOR)]

theorem frame_latch (s : State) (b : Nat) (o : Origin) (d : Nat) : Frame [.outbox, .aon] (latchFields s) s (s.latch b o d) := by
  have hset := ((frame_setf s .FLT_STATUS_SOURCES 0 (s.rf .FLT_STATUS_SOURCES + 2 ^ b)).append (frame_log _ 1 b d [])).append
    ((frame_first _ b).append (frame_trace _ 3 b))
  unfold State.latch
  split
  · exact Frame.refl ..
  split
  · exact ((frame_log s 2 b d []).append (frame_sat _ .FLT_MASKED_COUNT 0 1)).mono (by simp) (by simp [latchFields])
  split
  · exact Frame.refl ..
  dsimp only
  split
  · exact hset.mono (by simp) (by simp [latchFields])
  · have hv := frame_fltVector ((((s.setf .FLT_STATUS_SOURCES 0 (s.rf .FLT_STATUS_SOURCES + 2 ^ b)).log 1 b d).first b).trace 3 b)
    rw [hset.rf (f := .FLT_CTL_VECTOR) (i := 0) (by simp)] at hv
    exact (hset.append hv).mono (by simp) (by simp [latchFields])

theorem frame_fault {s : State} {b : Nat} (o : Origin) (d : Nat) (hb : b ≠ 0) (hlt : b < 32) (hr : s.reaction b < 2) :
    Frame [.outbox, .aon] (latchFields s) s (s.fault b o d) := by
  have hf := frame_latch s b o d
  have hw : (s.latch b o d).wantsSafe b = false := by
    simp only [State.reaction, hlt, if_true] at hr
    simp only [State.wantsSafe, State.reaction, hlt, if_true, hf.rf (f := .FLT_REACT0_REACT) (i := 0) (by simp [latchFields])]
    simp [hb, hr]
  simpa only [State.fault, hw, Bool.false_and, Bool.false_eq_true, if_false] using hf

theorem reaction_frame {ps : List Part} {fs : List (Fld × Nat)} {s t : State} (h : Frame ps fs s t) (h0 : (.FLT_REACT0_REACT, 0) ∉ fs)
    (h1 : (.FLT_REACT1_REACT, 0) ∉ fs) (b : Nat) : t.reaction b = s.reaction b := by
  simp only [State.reaction, h.rf h0, h.rf h1]

/-! ## Postilion faults (R75) -/

/-- The fault as it stands in TT_POST_FAULT. -/
def faultNoted (s : State) (p cause : Nat) : State :=
  (s.sat .TT_POST_FAULT_COUNT 0).setfs [(.TT_POST_FAULT_POSTILION, 0, p), (.TT_POST_FAULT_CAUSE, 0, cause), (.TT_POST_FAULT_PC, 0, (s.post p).pc)]

theorem frame_faultNoted (s : State) (p cause : Nat) : Frame []
    [(.TT_POST_FAULT_COUNT, 0), (.TT_POST_FAULT_POSTILION, 0), (.TT_POST_FAULT_CAUSE, 0), (.TT_POST_FAULT_PC, 0)] s (faultNoted s p cause) :=
  (frame_sat ..).append (frame_setfs ..)

theorem faultNoted_fields (s : State) (p : PostId) {cause : Nat} (hc : cause < 16) :
    (faultNoted s p cause).rf .TT_POST_FAULT_COUNT = min (s.rf .TT_POST_FAULT_COUNT + 1) (2 ^ fwidth .TT_POST_FAULT_COUNT - 1)
      ∧ (faultNoted s p cause).rf .TT_POST_FAULT_POSTILION = p ∧ (faultNoted s p cause).rf .TT_POST_FAULT_CAUSE = cause
      ∧ (faultNoted s p cause).rf .TT_POST_FAULT_PC = (s.post p).pc % 2 ^ fwidth .TT_POST_FAULT_PC := by
  refine ⟨?_, ?_, ?_, ?_⟩
  · exact ((frame_setfs ..).rf (by simp [fieldsIn])).trans (rf_sat ..)
  · simp only [faultNoted, State.setfs, State.rf_setf]
    exact Nat.mod_eq_of_lt p.isLt
  · simp only [faultNoted, State.setfs, State.rf_setf]
    exact Nat.mod_eq_of_lt hc
  · simp only [faultNoted, State.setfs, State.rf_setf]
    rfl

/-- With no team to abort and no safe state to enter a fault is noted and latched. -/
theorem postFault_noted {s : State} {p cause : Nat} (h : ∀ g, (s.post p).cur = some g → s.rf .TT_TEAM_STATE g.team ≠ 1) (hr : s.reaction 18 < 2) :
    s.postFault p cause = (faultNoted s p cause).fault 18 (.yard (rowOf p)) := by
  have hn := frame_faultNoted s p cause
  have hr' : (faultNoted s p cause).reaction 18 < 2 := reaction_frame hn (by simp) (by simp) 18 ▸ hr
  have hf := frame_fault (.yard (rowOf p)) 0 (by decide) (by decide) hr'
  unfold State.postFault
  dsimp only
  split
  · next g hg =>
    have ht : ((faultNoted s p cause).fault 18 (.yard (rowOf p))).rf .TT_TEAM_STATE g.team ≠ 1 := by
      rw [hf.rf (by simp [latchFields]), hn.rf (by simp)]
      exact h g hg
    exact if_pos (bne_iff_ne.2 ht)
  · rfl

/-! ## Jumps (R75) -/

theorem jumpTo_inside {s : State} {p : PostId} {x : Post} {t : Int} (h0 : 0 ≤ t) (h1 : t < x.iramLen) :
    s.jumpTo p x t = s.setPost p { x with pc := t.toNat } := by
  simp [State.jumpTo, h0, h1]

theorem jumpTo_outside {s : State} {p : PostId} {x : Post} {t : Int} (h : ¬ (0 ≤ t ∧ t < x.iramLen)) : s.jumpTo p x t = s.postFault p 4 := by
  simp only [State.jumpTo, Bool.and_eq_true, decide_eq_true_eq, h, if_false]

/-- Where the instruction goes: `goes` of the statement. -/
def Goes (s : State) (p : PostId) (c : Instr) (taken : Bool) (target : Int) : Prop :=
  (taken = true → 0 ≤ target → target < (s.post p).iramLen → Does c s (PostIs s p { s.post p with pc := target.toNat }))
    ∧ (taken = false → Does c s (PostIs s p { s.post p with pc := nextPc (s.post p) }))
    ∧ (taken = true → ¬ (0 ≤ target ∧ target < (s.post p).iramLen) → exec c s = .next (s.keep (s.postFault p 4)))

theorem goes_of_jump {s : State} {p : PostId} {c : Instr} {taken : Bool} {target : Int} (h : Runs s p c)
    (he : exec c s = .next (s.keep (if taken then s.jumpTo p (s.post p) target else s.setPost p (s.post p).next))) : Goes s p c taken target := by
  refine ⟨fun ht h0 h1 => ?_, fun ht => ?_, fun ht ho => ?_⟩
  · rw [ht, if_pos rfl, jumpTo_inside h0 h1] at he
    exact does_setPost h he
  · rw [ht, if_neg Bool.false_ne_true] at he
    exact does_setPost h he
  · rwa [ht, if_pos rfl, jumpTo_outside ho] at he

theorem reg_slt (x y : Word) : x.slt y = decide (x.toInt < y.toInt) := rfl

/-! ## Waiting for tags (R77) -/

/-- A tag that register b names is open. -/
theorem tags_any {x : Post} {m : Nat} : (x.tags.any fun t => bitAt m t.tag) = true ↔ ∃ t ∈ x.tags, m / 2 ^ t.tag % 2 = 1 := by
  simp [bitAt]

theorem exec_waitx {s : State} {p : PostId} {b : GReg} (h : Runs s p (.waitx p b)) : exec (.waitx p b) s = .next (s.keep
    (if (s.post p).tags.any (fun t => bitAt (((s.post p).reg b).toNat % 256) t.tag)
      then s.setPost p { s.post p with wait := .tags (((s.post p).reg b).toNat % 256) } else s.setPost p (s.post p).next)) :=
  (exec_of_runs h rfl :)

theorem waitx_goes {s : State} {p : PostId} {b : GReg} (h : Runs s p (.waitx p b))
    (ho : ¬ ∃ t ∈ (s.post p).tags, ((s.post p).reg b).toNat % 256 / 2 ^ t.tag % 2 = 1) :
    Does (.waitx p b) s (PostIs s p { s.post p with pc := nextPc (s.post p) }) := by
  have he := exec_waitx h
  rw [if_neg (mt tags_any.1 ho)] at he
  exact does_setPost h he

theorem waitx_waits {s : State} {p : PostId} {b : GReg} (h : Runs s p (.waitx p b))
    (ho : ∃ t ∈ (s.post p).tags, ((s.post p).reg b).toNat % 256 / 2 ^ t.tag % 2 = 1) :
    Does (.waitx p b) s (PostIs s p { s.post p with wait := .tags (((s.post p).reg b).toNat % 256) }) := by
  have he := exec_waitx h
  rw [if_pos (tags_any.2 ho)] at he
  exact does_setPost h he

end Sys2Proof

namespace Sys2Proof

open Machine

/-! # END (O4) -/

/-! ## One change of a postilion after another -/

theorem frame_setPost (s : State) (p : Nat) (x : Post) : Frame [.posts, .yards] [] s (s.setPost p x) :=
  ⟨by simp, by simp, fun q hq => by cases q <;> simp_all [Part.Same], fun f i _ => State.rf_setPost s p x f i⟩

theorem postIs_of_moving {s : State} {p : PostId} (h : (s.post p).quiet = false) (x : Post) : PostIs s p x (s.setPost p x) :=
  ⟨State.post_setPost_same s p x, ⟨fun q hq => State.post_setPost_other s p q x hq, fun y => State.yard_setPost x h y⟩, frame_setPost s p x⟩

theorem OnlyPost.trans {s t u : State} {p : PostId} (h : OnlyPost s t p) (k : OnlyPost t u p) (hn : t.now = s.now) : OnlyPost s u p := by
  refine ⟨fun q hq => (k.1 q hq).trans (h.1 q hq), fun y => ?_⟩
  rw [k.2 y, h.2 y, hn]
  split <;> rfl

theorem PostIs.trans {s t u : State} {p : PostId} {x y : Post} (h : PostIs s p x t) (k : PostIs t p y u) : PostIs s p y u :=
  ⟨k.1, h.2.1.trans k.2.1 (h.2.2.now (by simp) (by simp) (by simp)), h.2.2.trans k.2.2⟩

/-- What follows from a change of parts that hold no postilion and no yard. -/
theorem OnlyPost.frame {s t u : State} {p : PostId} {ps : List Part} {fs : List (Fld × Nat)} (h : OnlyPost s t p) (k : Frame ps fs t u)
    (hp : .posts ∉ ps) (hy : .yards ∉ ps) : OnlyPost s u p := by
  have hpost : u.posts = t.posts := k.part .posts hp
  have hyard : u.yards = t.yards := k.part .yards hy
  refine ⟨fun q hq => ?_, fun y => ?_⟩
  · rw [State.post, hpost]; exact h.1 q hq
  · rw [State.yard, hyard]; exact h.2 y

theorem quiet_of_run {x : Post} (hw : x.wait = .run) (hc : x.cur.isSome = true) : x.quiet = false := by
  cases hcur : x.cur <;> simp_all [Post.quiet, Post.stuck]

/-! ## Bytes of a binding record (R81, R82) -/

theorem rdBytes_congr {m m' : List (Nat × Byte)} {a n : Nat} (h : ∀ k, a ≤ k → k < a + n → sget byte0 m k = sget byte0 m' k) :
    rdBytes m a n = rdBytes m' a n := by
  induction n generalizing a with
  | zero => rfl
  | succ n ih =>
    rw [rdBytes, rdBytes, h a (Nat.le_refl _) (by omega), ih fun k h1 h2 => h k (by omega) (by omega)]

/-- STATE is byte 3 of the record. -/
theorem recState_eq (x : Post) (t n : Nat) : x.recState t n = (sget byte0 x.dram (recAddr t n + 3)).toNat := by
  simp [Post.recState, Post.rdRam, rdBytes, leNat]

/-- The number that a record names is in bytes 4 to 7. -/
theorem recInst_congr {x y : Post} {t n : Nat} (h : ∀ k, recAddr t n + 4 ≤ k → k < recAddr t n + 8 → sget byte0 x.dram k = sget byte0 y.dram k) :
    x.recInst t n = y.recInst t n := by
  rw [Post.recInst, Post.rdRam, rdBytes_congr h]
  rfl

theorem sget_wrByte (m : List (Nat × Byte)) (a k : Nat) (b : Byte) : sget byte0 (wrBytes m a [b]) k = if k = a then b else sget byte0 m k := by
  rw [wrBytes, wrBytes, sget_sset]

/-- STATE is no byte of that number. -/
theorem recAddr_state_ne (t n t' n' : Nat) {k : Nat} (h1 : recAddr t n + 4 ≤ k) (h2 : k < recAddr t n + 8) : k ≠ recAddr t' n' + 3 := by
  unfold recAddr at *
  omega

/-! ## The segment that ends -/

/-- The record of segment g goes to STATE 3 with the end of this segment. -/
def recEnds (s : State) (p : Nat) (g : SegEnt) : Bool :=
  (s.post p).recState g.team (s.post p).inst == 2 && (s.post p).recInst g.team (s.post p).inst == (s.post p).inst
    && !s.moreSegs p g.team (match s.running g.team with
      | some i => i.last
      | none => s.rf .TT_STATUS_STAGE_IDX)

/-- The data RAM with that record. -/
def endedRam (s : State) (p : Nat) (g : SegEnt) : List (Nat × Byte) :=
  if recEnds s p g then wrBytes (s.post p).dram (recAddr g.team (s.post p).inst + 3) [BitVec.ofNat 8 3] else (s.post p).dram

/-- The postilion that has ended segment g. -/
def endedPost (s : State) (p : Nat) (g : SegEnt) : Post := { s.post p with dram := endedRam s p g, wait := .run }

theorem endSeg_eq {s : State} {p : Nat} {g : SegEnt} (h : (s.post p).cur = some g) : s.endSeg p = (s.setPost p (endedPost s p g)).nextSeg p := by
  have hx : endedPost s p g = { (if recEnds s p g then (s.post p).setRecState g.team (s.post p).inst 3 else s.post p) with wait := .run } := by
    unfold endedPost endedRam
    split <;> rfl
  rw [hx]
  unfold State.endSeg
  dsimp only
  split
  · next hn => cases hn.symm.trans h
  · next g' hg =>
    cases hg.symm.trans h
    rfl

/-- Byte k of the record of segment g is the STATE that its end sets to 3. -/
def Ends (s : State) (p : Nat) (g : SegEnt) (k : Nat) : Prop :=
  (s.post p).recState g.team (s.post p).inst = 2 ∧ (s.post p).recInst g.team (s.post p).inst = (s.post p).inst
    ∧ s.moreSegs p g.team ((s.running g.team).elim (s.rf .TT_STATUS_STAGE_IDX) (·.last)) = false ∧ k = recAddr g.team (s.post p).inst + 3

theorem ends_iff {s : State} {p : Nat} {g : SegEnt} {k : Nat} : Ends s p g k ↔ recEnds s p g = true ∧ k = recAddr g.team (s.post p).inst + 3 := by
  simp only [Ends, recEnds, Bool.and_eq_true, beq_iff_eq, Bool.not_eq_true', and_assoc]
  cases s.running g.team <;> rfl

theorem endedRam_ends {s : State} {p : Nat} {g : SegEnt} {k : Nat} (h : Ends s p g k) : sget byte0 (endedRam s p g) k = 3 := by
  obtain ⟨he, hk⟩ := ends_iff.1 h
  rw [endedRam, if_pos he, sget_wrByte, if_pos hk]
  rfl

theorem endedRam_else {s : State} {p : Nat} {g : SegEnt} {k : Nat} (h : ¬ Ends s p g k) :
    sget byte0 (endedRam s p g) k = sget byte0 (s.post p).dram k := by
  unfold endedRam
  split
  · next he => rw [sget_wrByte, if_neg fun hk => h (ends_iff.2 ⟨he, hk⟩)]
  · rfl

theorem recInst_endedPost (s : State) (p : Nat) (g : SegEnt) (t n : Nat) : (endedPost s p g).recInst t n = (s.post p).recInst t n :=
  recInst_congr fun _ h1 h2 => endedRam_else fun he => recAddr_state_ne t n g.team (s.post p).inst h1 h2 (ends_iff.1 he).2

/-! ## The segment that starts -/

/-- Byte k of x's copy of the record n of segment h's team is the STATE that the segment's start sets to 2. -/
def StartsAt (x : Post) (h : SegEnt) (n k : Nat) : Prop := x.recState h.team n = 1 ∧ x.recInst h.team n = n ∧ k = recAddr h.team n + 3

@[simp] theorem setReg_frame (x : Post) (d : Nat) (v : Word) :
    (x.setReg d v).pc = x.pc ∧ (x.setReg d v).cur = x.cur ∧ (x.setReg d v).inst = x.inst ∧ (x.setReg d v).missing = x.missing ∧
    (x.setReg d v).rest = x.rest ∧ (x.setReg d v).wait = x.wait ∧ (x.setReg d v).iram = x.iram ∧ (x.setReg d v).iramLen = x.iramLen ∧
    (x.setReg d v).dram = x.dram ∧ (x.setReg d v).mbox = x.mbox ∧ (x.setReg d v).map = x.map ∧ (x.setReg d v).tags = x.tags := by
  unfold Post.setReg
  split <;> exact ⟨rfl, rfl, rfl, rfl, rfl, rfl, rfl, rfl, rfl, rfl, rfl, rfl⟩

theorem startSeg_ram (x : Post) (h : SegEnt) (n stage fresh : Nat) : (x.startSeg h n stage fresh).dram =
    if x.recState h.team n == 1 && x.recInst h.team n == n then wrBytes x.dram (recAddr h.team n + 3) [BitVec.ofNat 8 2] else x.dram := by
  simp only [Post.startSeg, setReg_frame]
  split <;> rfl

theorem startSeg_ram_starts {x : Post} {h : SegEnt} {n k : Nat} (hs : StartsAt x h n k) (stage fresh : Nat) :
    sget byte0 (x.startSeg h n stage fresh).dram k = 2 := by
  obtain ⟨h1, h2, hk⟩ := hs
  rw [startSeg_ram, if_pos (by simp [h1, h2]), sget_wrByte, if_pos hk]
  rfl

theorem startSeg_ram_else {x : Post} {h : SegEnt} {n k : Nat} (hs : ¬ StartsAt x h n k) (stage fresh : Nat) :
    sget byte0 (x.startSeg h n stage fresh).dram k = sget byte0 x.dram k := by
  rw [startSeg_ram]
  split
  · next he =>
    simp only [Bool.and_eq_true, beq_iff_eq] at he
    rw [sget_wrByte, if_neg fun hk => hs ⟨he.1, he.2, hk⟩]
  · rfl

/-- Where the end of the last segment left the byte alone the record reads as before. -/
theorem startsAt_endedPost {s : State} {p : Nat} {g h : SegEnt} {n k : Nat} (hk : ¬ Ends s p g k) :
    StartsAt (endedPost s p g) h n k ↔ StartsAt (s.post p) h n k := by
  simp only [StartsAt, recInst_endedPost, recState_eq]
  constructor <;> rintro ⟨h1, h2, rfl⟩ <;> refine ⟨?_, h2, rfl⟩
  · rwa [← endedRam_else hk]
  · rwa [← endedRam_else hk] at h1

/-- A record that this end has set to STATE 3 starts nothing. -/
theorem not_startsAt_ended {s : State} {p : Nat} {g h : SegEnt} {n k : Nat} (hk : Ends s p g k) : ¬ StartsAt (endedPost s p g) h n k := by
  rintro ⟨h1, -, rfl⟩
  rw [recState_eq, show (endedPost s p g).dram = endedRam s p g from rfl, endedRam_ends hk] at h1
  exact absurd h1 (by decide)

theorem startSeg_regs (x : Post) (g : SegEnt) (n stage fresh : Nat) :
    (x.startSeg g n stage fresh).reg 1 = w64 g.team ∧ (x.startSeg g n stage fresh).reg 2 = w64 (recAddr g.team n)
      ∧ (x.startSeg g n stage fresh).reg 3 = w64 stage := by
  simp [Post.startSeg, Post.setReg, Post.reg, sget_sset]

theorem startSeg_fields (x : Post) (g : SegEnt) (n stage fresh : Nat) :
    (x.startSeg g n stage fresh).cur = some g ∧ (x.startSeg g n stage fresh).rest = x.rest ∧ (x.startSeg g n stage fresh).pc = g.entry
      ∧ (x.startSeg g n stage fresh).wait = .run ∧ (x.startSeg g n stage fresh).tags = [] ∧ (x.startSeg g n stage fresh).inst = n
      ∧ (x.startSeg g n stage fresh).iram = x.iram ∧ (x.startSeg g n stage fresh).mbox = x.mbox ∧ (x.startSeg g n stage fresh).map = x.map := by
  simp only [Post.startSeg, setReg_frame, true_and]
  split <;> exact ⟨rfl, rfl, rfl, rfl⟩

/-! ## Which segment starts -/

/-- The number of the run of team u that a segment serves. -/
def segNumber (s : State) (u : Nat) : Nat :=
  match s.running u with
  | some i => i.n
  | none => s.rf .TT_TEAM_INSTANCE u

theorem running_setPost (s : State) (p : Nat) (x : Post) (u : Nat) : (s.setPost p x).running u = s.running u := by
  simp [State.running]

theorem segNumber_setPost (s : State) (p : Nat) (x : Post) (u : Nat) : segNumber (s.setPost p x) u = segNumber s u := by
  simp [segNumber, running_setPost]

theorem skipSeg_setPost (s : State) (p : Nat) (x : Post) (q : Nat) : (s.setPost p x).skipSeg q = s.skipSeg q := by
  funext g
  simp [State.skipSeg, State.on, running_setPost]

theorem nextSeg_none {s : State} {p : Nat} (h : (s.post p).rest.dropWhile (s.skipSeg p) = []) :
    s.nextSeg p = s.setPost p { s.post p with cur := none, rest := [], wait := .run, tags := [] } := by
  simp only [State.nextSeg, h]

theorem nextSeg_some {s : State} {p : Nat} {g : SegEnt} {t : List SegEnt} (h : (s.post p).rest.dropWhile (s.skipSeg p) = g :: t) :
    s.nextSeg p = { s.setPost p ({ s.post p with rest := t }.startSeg g (segNumber s g.team) (s.rf .TT_STATUS_STAGE_IDX) s.fresh) with
      fresh := s.fresh + 1 } := by
  simp only [State.nextSeg, h]
  rfl

/-- With no segment left the postilion is gated. -/
def gatedPost (s : State) (p : Nat) (g : SegEnt) : Post := { endedPost s p g with cur := none, rest := [], wait := .run, tags := [] }

/-- The postilion that has started segment h after g. -/
def startedPost (s : State) (p : Nat) (g h : SegEnt) (tl : List SegEnt) : Post :=
  { endedPost s p g with rest := tl }.startSeg h (segNumber s h.team) (s.rf .TT_STATUS_STAGE_IDX) s.fresh

/-- The registers and the rest of a segment's start (R71, R72). -/
theorem started_fields {s : State} {p : Nat} {g h : SegEnt} {tl : List SegEnt} {y : Post} (hy : y = startedPost s p g h tl) :
    y.cur = some h ∧ y.rest = tl ∧ y.pc = h.entry ∧ y.wait = .run ∧ y.tags = [] ∧ y.inst = segNumber s h.team
      ∧ y.reg 0 = 0 ∧ y.reg 1 = BitVec.ofNat 64 h.team ∧ y.reg 2 = BitVec.ofNat 64 (128 * h.team + 64 * (y.inst % 2))
      ∧ y.reg 3 = BitVec.ofNat 64 (s.rf .TT_STATUS_STAGE_IDX) ∧ y.iram = (s.post p).iram ∧ y.mbox = (s.post p).mbox ∧ y.map = (s.post p).map := by
  subst hy
  obtain ⟨h1, h2, h3, h4, h5, h6, h7, h8, h9⟩ := startSeg_fields { endedPost s p g with rest := tl } h (segNumber s h.team) (s.rf .TT_STATUS_STAGE_IDX) s.fresh
  obtain ⟨r1, r2, r3⟩ := startSeg_regs { endedPost s p g with rest := tl } h (segNumber s h.team) (s.rf .TT_STATUS_STAGE_IDX) s.fresh
  refine ⟨h1, h2, h3, h4, h5, h6, rfl, r1, ?_, r3, h7, h8, h9⟩
  rw [show (startedPost s p g h tl).inst = _ from h6]
  exact r2

theorem started_ram_starts {s : State} {p : Nat} {g h : SegEnt} {k : Nat} (tl : List SegEnt)
    (hs : StartsAt (endedPost s p g) h (segNumber s h.team) k) : sget byte0 (startedPost s p g h tl).dram k = 2 := by
  unfold startedPost
  exact startSeg_ram_starts (x := { endedPost s p g with rest := tl }) hs _ _

theorem started_ram_else {s : State} {p : Nat} {g h : SegEnt} {k : Nat} (tl : List SegEnt)
    (hs : ¬ StartsAt (endedPost s p g) h (segNumber s h.team) k) : sget byte0 (startedPost s p g h tl).dram k = sget byte0 (endedRam s p g) k := by
  unfold startedPost
  exact startSeg_ram_else (x := { endedPost s p g with rest := tl }) hs _ _

section
variable {s : State} {p : PostId} (hr : Runs s p (.endSeg p))
include hr

theorem exec_endSeg : exec (.endSeg p) s = .next (s.keep
    (if (s.post p).tags.isEmpty then s.endSeg p else s.setPost p { s.post p with wait := .ending })) := (exec_of_runs hr rfl :)

/-- With an open tag END waits. -/
theorem endSeg_waits (ht : (s.post p).tags ≠ []) : Does (.endSeg p) s (PostIs s p { s.post p with wait := .ending }) := by
  have he := exec_endSeg hr
  rw [if_neg (by simpa using ht)] at he
  exact does_setPost hr he

/-- With none the segment ends. -/
theorem exec_endSeg_done (ht : (s.post p).tags = []) : exec (.endSeg p) s = .next (s.keep (s.endSeg p)) := by
  rw [exec_endSeg hr, if_pos (by simp [ht])]

theorem postIs_ended (g : SegEnt) : PostIs s p (endedPost s p g) (s.setPost p (endedPost s p g)) := postIs_of_moving (quiet_of_runs hr) _

omit hr in
theorem ended_moving {g : SegEnt} (hg : (s.post p).cur = some g) : ((s.setPost p (endedPost s p g)).post p).quiet = false := by
  rw [State.post_setPost_same]
  exact quiet_of_run rfl (by simp [endedPost, hg])

variable {g : SegEnt} (hg : (s.post p).cur = some g)
include hg

theorem endSeg_gates (hl : (s.post p).rest.dropWhile (s.skipSeg p) = []) : PostIs s p (gatedPost s p g) (s.endSeg p) := by
  rw [endSeg_eq hg, nextSeg_none]
  · rw [State.post_setPost_same]
    exact (postIs_ended hr g).trans (postIs_of_moving (ended_moving hg) _)
  · rwa [State.post_setPost_same, skipSeg_setPost]

theorem endSeg_starts {h : SegEnt} {tl : List SegEnt} (hl : (s.post p).rest.dropWhile (s.skipSeg p) = h :: tl) :
    ∃ u, s.endSeg p = { u with fresh := s.fresh + 1 } ∧ PostIs s p (startedPost s p g h tl) u := by
  refine ⟨_, ?_, (postIs_ended hr g).trans (postIs_of_moving (ended_moving hg) (startedPost s p g h tl))⟩
  rw [endSeg_eq hg, nextSeg_some (g := h) (t := tl)]
  · simp only [State.post_setPost_same, segNumber_setPost, State.rf_setPost, State.setPost_frame]
    rfl
  · rwa [State.post_setPost_same, skipSeg_setPost]

/-- The bytes of the data RAM after END. -/
theorem endSeg_ram (k : Nat) :
    (Ends s p g k → sget byte0 ((s.endSeg p).post p).dram k = 3)
    ∧ (¬ Ends s p g k →
      (∀ h tl, (s.post p).rest.dropWhile (s.skipSeg p) = h :: tl → StartsAt (s.post p) h (segNumber s h.team) k →
        sget byte0 ((s.endSeg p).post p).dram k = 2)
      ∧ ((∀ h tl, (s.post p).rest.dropWhile (s.skipSeg p) = h :: tl → ¬ StartsAt (s.post p) h (segNumber s h.team) k) →
        sget byte0 ((s.endSeg p).post p).dram k = sget byte0 (s.post p).dram k)) := by
  cases hl : (s.post p).rest.dropWhile (s.skipSeg p) with
  | nil =>
    rw [(endSeg_gates hr hg hl).1]
    exact ⟨fun he => endedRam_ends he, fun he => ⟨nofun, fun _ => endedRam_else he⟩⟩
  | cons h tl =>
    obtain ⟨u, he, hu⟩ := endSeg_starts hr hg hl
    have hp : (s.endSeg p).post p = startedPost s p g h tl := he ▸ hu.1
    rw [hp]
    refine ⟨fun hk => ?_, fun hk => ⟨?_, fun hs => ?_⟩⟩
    · exact (started_ram_else tl (not_startsAt_ended hk)).trans (endedRam_ends hk)
    · rintro h' tl' ⟨⟩ hs
      exact started_ram_starts tl ((startsAt_endedPost hk).2 hs)
    · exact (started_ram_else tl (mt (startsAt_endedPost hk).1 (hs h tl rfl))).trans (endedRam_else hk)

end

/-- Settles O4: END waits, gates the postilion or starts the next segment; the records change by the bytes `Ends` and `StartsAt` name. -/
theorem endFinishesTheSegment : Obligations.EndFinishesTheSegment := by
  intro s p hr x left number ends starts
  obtain ⟨g, hg⟩ := cur_of_runs hr
  refine ⟨fun ht => endSeg_waits hr ht, fun ht hl => ?_, fun h tl ht hl => ?_, fun g' ht hg' => ?_⟩
  · have hpi := endSeg_gates hr hg hl
    refine does_of_frame (exec_endSeg_done hr ht) hpi.2.2 ⟨?_, hpi.2⟩
    rw [hpi.1]
    simp [gatedPost, endedPost, x, ht]
  · obtain ⟨u, he, hp, ho, hf⟩ := endSeg_starts hr hg hl
    have hfresh := frame_fresh u (s.fresh + 1)
    obtain ⟨h1, h2, h3, h4, h5, h6, h0, r1, r2, r3, h7, h8, h9⟩ := started_fields (show State.post { u with fresh := s.fresh + 1 } p = _ from hp)
    have hx := exec_endSeg_done hr ht
    rw [he] at hx
    exact does_of_frame hx (hf.append hfresh)
      ⟨h1, h2, h3, h4, h5, h6, h0, r1, r2, r3, h7, h8, h9, rfl, ho.frame hfresh (by simp) (by simp), hf.append hfresh⟩
  · cases hg.symm.trans hg'
    exact ⟨_, exec_endSeg_done hr ht, fun k => endSeg_ram hr hg k⟩

end Sys2Proof

namespace Sys2Proof

open Machine

/-! # Branches and undefined opcodes (O2) -/

theorem Frame.keeps {ps qs : List Part} {fs : List (Fld × Nat)} {s t : State} (h : Frame ps fs s t) (hq : ∀ p ∈ qs, p ∉ ps) : Keeps qs s t :=
  fun p hp => h.part p (hq p hp)

theorem bne_eq_decide (x y : Word) : (x != y) = decide (x ≠ y) := by by_cases h : x = y <;> simp [h]

section
variable {s : State} {p : PostId} {op : BitVec 6} (h : Runs s p (.undefinedOpcode p op))
include h

theorem exec_undefinedOpcode : exec (.undefinedOpcode p op) s = .next (s.keep (s.postFault p 1)) := (exec_of_runs h rfl :)

/-- The fault of an undefined opcode where it aborts no team and asks for no safe state. -/
theorem undefinedOpcode_noted (hr : s.reaction 18 < 2) (ht : ∀ g, (s.post p).cur = some g → s.rf .TT_TEAM_STATE g.team ≠ 1) :
    Does (.undefinedOpcode p op) s fun t =>
      t.rf .TT_POST_FAULT_COUNT = min (s.rf .TT_POST_FAULT_COUNT + 1) (2 ^ fwidth .TT_POST_FAULT_COUNT - 1)
      ∧ t.rf .TT_POST_FAULT_POSTILION = p ∧ t.rf .TT_POST_FAULT_CAUSE = 1
      ∧ t.rf .TT_POST_FAULT_PC = (s.post p).pc % 2 ^ fwidth .TT_POST_FAULT_PC ∧ Keeps [.posts, .host, .depot, .scratch] s t := by
  have he := exec_undefinedOpcode h
  rw [postFault_noted ht hr] at he
  have hn := frame_faultNoted s p 1
  have hr' : (faultNoted s p 1).reaction 18 < 2 := reaction_frame hn (by simp) (by simp) 18 ▸ hr
  have hf := frame_fault (.yard (rowOf p)) 0 (by decide) (by decide) hr'
  obtain ⟨h1, h2, h3, h4⟩ := faultNoted_fields s p (cause := 1) (by decide)
  exact does_of_frame he (hn.append hf) ⟨(hf.rf (by simp [latchFields])).trans h1, (hf.rf (by simp [latchFields])).trans h2,
    (hf.rf (by simp [latchFields])).trans h3, (hf.rf (by simp [latchFields])).trans h4, (hn.append hf).keeps (by simp)⟩

end

/-- END with no open tag and no further segment (R72). -/
theorem endSeg_last {s : State} {p : PostId} (hr : Runs s p (.endSeg p)) (ht : (s.post p).tags = []) (hl : (s.post p).rest = []) :
    Does (.endSeg p) s fun t =>
      (t.post p).cur = none ∧ (t.post p).rest = [] ∧ (t.post p).tags = [] ∧ OnlyPost s t p ∧ Frame [.posts, .yards] [] s t := by
  obtain ⟨g, hg⟩ := cur_of_runs hr
  have hp := endSeg_gates hr hg (by rw [hl, List.dropWhile_nil])
  refine does_of_frame (exec_endSeg_done hr ht) hp.2.2 ?_
  rw [hp.1]
  exact ⟨rfl, rfl, rfl, hp.2⟩

/-- Settles O2: a branch is `jumpTo` under its condition; the fault, WAITX and END by their lemmas. -/
theorem postilionBranchesGoToTheirTarget : Obligations.PostilionBranchesGoToTheirTarget := by
  intro s p a b i j op x goes
  refine ⟨fun h => ?_, fun h => ?_, fun h => ?_, fun h => ?_, fun h => ⟨exec_undefinedOpcode h, undefinedOpcode_noted h⟩, fun h ho => ?_, endSeg_last⟩
  · exact goes_of_jump h (exec_of_runs h rfl :)
  · exact bne_eq_decide (x.reg a) (x.reg b) ▸ goes_of_jump h (exec_of_runs h rfl :)
  · exact goes_of_jump h (exec_of_runs h rfl :)
  · exact goes_of_jump h (exec_of_runs h rfl :)
  · refine waitx_goes h ?_
    rintro ⟨t, ht, hb⟩
    exact absurd ((ho t ht).symm.trans hb) (by decide)

/-! # Loads, stores, STG (O3) -/

section
variable {s : State} {p : PostId} {d a b : GReg} {i : BitVec 14}

theorem exec_ld (h : Runs s p (.ld p d a i)) (ue : Bool) : exec (.ld p d a i ue) s = .next (s.keep
    (if !ramOk ((s.post p).reg a + imm14 i) 8 then s.postFault p 3
      else if ue then (s.fault 20 (.yard (rowOf p))).postFault p 3
      else s.setPost p ((s.post p).setReg d (w64 (leNat ((s.post p).rdRam ((s.post p).reg a + imm14 i).toNat 8)))).next)) := by
  show execLd p d a i s ue = _
  rw [execLd, event_on _ _ h.1, postRun_of_runs h]

theorem exec_st (h : Runs s p (.st p a b i)) : exec (.st p a b i) s = .next (s.keep
    (if ramOk ((s.post p).reg a + imm14 i) 8
      then s.setPost p ((s.post p).wrRam ((s.post p).reg a + imm14 i).toNat (leBytes 8 ((s.post p).reg b).toNat)).next
      else s.postFault p 3)) := (exec_of_runs h rfl :)

theorem ramOk_iff (x : Word) (n : Nat) : ramOk x n = true ↔ x.toNat % 8 = 0 ∧ x.toNat + n ≤ 16384 := by
  simp [ramOk]

/-- Byte j of the little-endian bytes of n. -/
theorem getD_leBytes (k n j : Nat) (h : j < k) : (leBytes k n).getD j 0 = BitVec.ofNat 8 (n / 2 ^ (8 * j)) := by
  induction k generalizing n j with
  | zero => omega
  | succ k ih =>
    cases j with
    | zero => simp [leBytes]
    | succ j => rw [leBytes, List.getD_cons_succ, ih _ _ (by omega), Nat.div_div_eq_div_mul, Nat.mul_succ, Nat.pow_add, Nat.mul_comm]

/-- The bytes of a store. -/
theorem sget_wr8 (m : List (Nat × Byte)) (ad : Nat) (v : Nat) (k : Nat) : sget byte0 (wrBytes m ad (leBytes 8 v)) k =
    if ad ≤ k ∧ k < ad + 8 then BitVec.ofNat 8 (v / 2 ^ (8 * (k - ad))) else sget byte0 m k := by
  rw [sget_wrBytes, length_leBytes]
  split
  · exact getD_leBytes _ _ _ (by omega)
  · rfl

theorem exec_stg (h : Runs s p (.stg p d i)) : exec (.stg p d i) s = .next (s.keep
    (match i.toNat with
      | 0 => s.setPost p ((s.post p).setReg d (w64 (s.rf .TT_STATUS_STAGE_IDX))).next
      | 1 => s.setPost p ((s.post p).setReg d (w64 (s.post p).inst)).next
      | 2 => s.setPost p ((s.post p).setReg d (w64 (s.now - s.tickAt))).next
      | _ => { s.setPost p ((s.post p).setReg d (Config.freeWord s.fresh 0)).next with fresh := s.fresh + 1 })) := (exec_of_runs h rfl :)

theorem now_sub_tickAt (s : State) : s.now - s.tickAt = s.now % s.stageLen := by
  rw [State.tickAt, Nat.mod_eq_sub_div_mul]

/-- STG with another immediate. -/
theorem stg_free (h : Runs s p (.stg p d i)) (hi : 2 < i.toNat) : Does (.stg p d i) s fun t =>
    WroteReg (s.post p) (t.post p) d (Config.freeWord s.fresh 0) (nextPc (s.post p)) ∧ OnlyPost s t p ∧ t.fresh = s.fresh + 1
      ∧ Frame [.posts, .yards, .fresh] [] s t := by
  have he := exec_stg h
  split at he
  case h_4 =>
    have hp := postIs_of_moving (quiet_of_runs h) ((s.post p).setReg d (Config.freeWord s.fresh 0)).next
    obtain ⟨hw, ho, hf⟩ := setsReg_of_postIs hp
    have hfresh := frame_fresh (s.setPost p ((s.post p).setReg d (Config.freeWord s.fresh 0)).next) (s.fresh + 1)
    exact does_of_frame he (hf.append hfresh) ⟨hw, ho.frame hfresh (by simp) (by simp), rfl, hf.append hfresh⟩
  all_goals omega

end

/-- Settles O3: an access the data RAM can take moves one word, any other faults; STG by its immediate. -/
theorem postilionLoadsAndStoresUseItsDataRam : Obligations.PostilionLoadsAndStoresUseItsDataRam := by
  intro s p d a b i x ad
  have had : ((s.post p).reg a + imm14 i).toNat = ad := by rw [add_imm14]
  have hok : ramOk ((s.post p).reg a + imm14 i) 8 = true ↔ ad % 8 = 0 ∧ ad + 8 ≤ 16384 := had ▸ ramOk_iff _ _
  have hbad : ¬ (ad % 8 = 0 ∧ ad + 8 ≤ 16384) → ramOk ((s.post p).reg a + imm14 i) 8 = false := fun hn => Bool.eq_false_iff.2 (mt hok.1 hn)
  refine ⟨fun h => ⟨fun h8 hle => ?_, fun ue hn => ?_, fun h8 hle => ?_⟩, fun h => ⟨fun h8 hle => ?_, fun hn => ?_⟩,
    fun h => ⟨fun hi => ?_, fun hi => ?_, fun hi => ?_, stg_free h⟩⟩
  · have he := exec_ld h false
    rw [hok.2 ⟨h8, hle⟩, had] at he
    exact does_setReg h he
  · have he := exec_ld h ue
    rwa [hbad hn] at he
  · have he := exec_ld h true
    rwa [hok.2 ⟨h8, hle⟩] at he
  · have he := exec_st h
    rw [hok.2 ⟨h8, hle⟩, had] at he
    refine (does_setPost h he).imp fun t ht => ?_
    obtain ⟨hp, ho, hf⟩ := ht
    rw [hp]
    exact ⟨fun k => sget_wr8 .., rfl, ho, hf⟩
  · have he := exec_st h
    rwa [hbad hn] at he
  · subst hi
    exact does_setReg h (exec_stg h)
  · subst hi
    exact does_setReg h (exec_stg h)
  · subst hi
    exact now_sub_tickAt s ▸ does_setReg h (exec_stg h)

end Sys2Proof

namespace Sys2Proof

open Machine

/-! # Mailboxes (O5) -/

/-- A value of a map whose listed values were changed one by one, the default unchanged. -/
theorem sget_map {α : Type} {d : Nat → α} {f : Nat → α → α} (hd : ∀ k, f k (d k) = d k) (m : List (Nat × α)) (k : Nat) :
    sget d (m.map fun x => (x.1, f x.1 x.2)) k = f k (sget d m k) := by
  induction m with
  | nil => exact (hd k).symm
  | cons x m ih =>
    simp only [List.map_cons, sget]
    split
    · exact (hd k).symm
    · split
      · next h => rw [h]
      · exact ih

theorem box_setBox (x : Post) (m k : Nat) (ms : List Word) : (x.setBox m ms).box k = if k = m then ms else x.box k := sget_sset ..

theorem box_setReg (x : Post) (d : Nat) (v : Word) (k : Nat) : (x.setReg d v).box k = x.box k := by
  unfold Post.setReg
  split <;> rfl

theorem frame_posts (s : State) (x : List (Nat × Post)) : Frame [.posts] [] s { s with posts := x } :=
  frame_of_parts rfl rfl rfl fun p _ => by cases p <;> simp_all [Part.Same]

theorem frame_mesh (s : State) (x : List Msg) : Frame [.mesh] [] s { s with mesh := x } :=
  frame_of_parts rfl rfl rfl fun p _ => by cases p <;> simp_all [Part.Same]

/-! ## SEND (R74, R78, R79) -/

section
variable {s : State} {p : PostId} {a b d : GReg} {i : BitVec 14}

theorem exec_send (h : Runs s p (.send p a b i)) : exec (.send p a b i) s = .next (s.keep
    (if !s.mayMail p (((s.post p).reg a).toNat % 64) (i.toNat % 8) then s.postFault p 5
      else if 4 ≤ s.boxLoad (((s.post p).reg a).toNat % 64) (i.toNat % 8)
        then s.setPost p { s.post p with wait := .sendStall (((s.post p).reg a).toNat % 64) (i.toNat % 8) }
      else { s.setPost p (s.post p).next with
        mesh := s.mesh ++ [{ src := p, dst := ((s.post p).reg a).toNat % 64, m := i.toNat % 8, val := (s.post p).reg b }] })) :=
  (exec_of_runs h rfl :)

/-! ## WAITM (R77, R78) -/

theorem exec_waitm_empty (h : Runs s p (.waitm p d i)) (hb : (s.post p).box (i.toNat % 8) = []) :
    exec (.waitm p d i) s = .next (s.keep (s.setPost p { s.post p with wait := .mailbox (i.toNat % 8) })) := by
  show execWaitm p d i s = _
  rw [execWaitm, event_on _ _ h.1, postRun_of_runs h]
  simp only [hb]

/-- A postilion that was stalled on mailbox m of d runs again. -/
def freed (d m : Nat) (x : Post) : Post := if x.wait = .sendStall d m then { x with wait := .run } else x

theorem post_freeSenders (s : State) (d m q : Nat) : (s.freeSenders d m).post q = freed d m (s.post q) := by
  have h := sget_map (d := fun _ => ({} : Post)) (f := fun _ x => freed d m x) (fun _ => rfl) s.posts q
  rw [State.post, State.post, ← h]
  simp only [State.freeSenders, freed, beq_iff_eq]

theorem frame_freeSenders (s : State) (d m : Nat) : Frame [.posts] [] s (s.freeSenders d m) := frame_posts s _

/-- The postilion that has taken a message. -/
def mailTaken (x : Post) (d m : Nat) (v : Word) (rest : List Word) : Post := ((x.setBox m rest).setReg d v).next

/-- The state in which it has, the postilions stalled on the mailbox free. -/
def mailOut (s : State) (p d m : Nat) (v : Word) (rest : List Word) : State := (s.setPost p (mailTaken (s.post p) d m v rest)).freeSenders p m

theorem exec_waitm_some (h : Runs s p (.waitm p d i)) {v : Word} {rest : List Word} (hb : (s.post p).box (i.toNat % 8) = v :: rest) :
    exec (.waitm p d i) s = .next (s.keep (mailOut s p d (i.toNat % 8) v rest)) := by
  show execWaitm p d i s = _
  rw [execWaitm, event_on _ _ h.1, postRun_of_runs h]
  simp only [hb]
  rfl

theorem freed_mailTaken {x : Post} (hw : x.wait = .run) (q d m : Nat) (v : Word) (rest : List Word) :
    freed q m (mailTaken x d m v rest) = mailTaken x d m v rest := by
  refine if_neg ?_
  simp [mailTaken, Post.next, Post.setBox, hw]

theorem reg_mailTaken (x : Post) (d r : GReg) (m : Nat) (v : Word) (rest : List Word) :
    (mailTaken x d m v rest).reg r = if r = 0 then 0 else if r = d then v else x.reg r := reg_setReg (x.setBox m rest) d v r

theorem mailTaken_only (x : Post) (d m : Nat) (v : Word) (rest : List Word) : mailTaken x d m v rest =
    { x with regs := (mailTaken x d m v rest).regs, pc := (mailTaken x d m v rest).pc, mbox := (mailTaken x d m v rest).mbox } := by
  simp [mailTaken, Post.next, Post.setBox]

theorem pc_mailTaken (x : Post) (d m : Nat) (v : Word) (rest : List Word) : (mailTaken x d m v rest).pc = nextPc x := by
  simp [mailTaken, Post.next, Post.setBox, nextPc]

theorem box_mailTaken (x : Post) (d m k : Nat) (v : Word) (rest : List Word) :
    (mailTaken x d m v rest).box k = if k = m then rest else x.box k := (box_setReg ..).trans (box_setBox ..)

theorem frame_mailOut (s : State) (p d m : Nat) (v : Word) (rest : List Word) : Frame [.posts, .yards] [] s (mailOut s p d m v rest) :=
  ((frame_setPost s p _).append (frame_freeSenders _ p m)).mono (by simp) (by simp)

theorem post_mailOut {s : State} {p : Nat} (hw : (s.post p).wait = .run) (d m : Nat) (v : Word) (rest : List Word) :
    (mailOut s p d m v rest).post p = mailTaken (s.post p) d m v rest := by
  rw [mailOut, post_freeSenders, State.post_setPost_same, freed_mailTaken hw]

theorem post_mailOut_other (s : State) {p q : Nat} (hq : q ≠ p) (d m : Nat) (v : Word) (rest : List Word) :
    (mailOut s p d m v rest).post q = freed p m (s.post q) := by
  rw [mailOut, post_freeSenders, State.post_setPost_other _ _ _ _ hq]

end

/-! ## Arrival (R78) -/

/-- The postilion at which a message has arrived. -/
def mailed (x : Post) (m : Nat) (v : Word) : Post :=
  if x.wait == .mailbox m then { x.setBox m (x.box m ++ [v]) with wait := .run } else x.setBox m (x.box m ++ [v])

theorem mailed_eq (x : Post) (m : Nat) (v : Word) : mailed x m v =
    { x with mbox := (x.setBox m (x.box m ++ [v])).mbox, wait := if x.wait = .mailbox m then .run else x.wait } := by
  by_cases h : x.wait = .mailbox m <;> simp [mailed, h, Post.setBox]

theorem box_mailed (x : Post) (m k : Nat) (v : Word) : (mailed x m v).box k = if k = m then x.box m ++ [v] else x.box k := by
  rw [mailed_eq]
  exact box_setBox ..

theorem exec_mailArrive {s : State} {src dst : PostId} {m : Fin 8} {g : Msg} (hc : s.coreOn = true)
    (hg : s.mesh.find? (fun y => y.src == src.val && y.dst == dst.val && y.m == m.val) = some g) :
    exec (.mailboxMessageArrive src dst m) s =
      .next (s.keep { s.setPost dst (mailed (s.post dst) m g.val) with mesh := s.mesh.erase g }) := by
  show execMailboxMessageArrive src dst m s = _
  rw [execMailboxMessageArrive, event_on _ _ hc, State.deliver]
  simp only [hg]
  rfl

/-- Settles O5: SEND, WAITM and the arrival each have one branch per case, and a message that leaves a mailbox frees only the
postilions that are stalled on it. -/
theorem mailboxesCarryMessagesInOrder : Obligations.MailboxesCarryMessagesInOrder := by
  intro s p d a b i src dst m g x tgt box
  refine ⟨fun h => ⟨fun hm hl => ?_, fun hm hl => ?_, fun hm => ?_⟩, fun h => ⟨fun hb => ?_, fun v rest hb => ?_⟩, fun hc hg => ?_⟩
  · have he := exec_send h
    rw [if_neg (by simp [tgt, box] at hm ⊢; exact hm), if_neg (Nat.not_le.2 hl)] at he
    have hp := postIs_of_moving (quiet_of_runs h) x.next
    have hf := frame_mesh (s.setPost p x.next) (s.mesh ++ [⟨p, tgt, box, x.reg b⟩])
    exact does_of_frame he (hp.2.2.append hf) ⟨rfl, hp.1, hp.2.1.frame hf (by simp) (by simp), hp.2.2.append hf⟩
  · have he := exec_send h
    rw [if_neg (by simp [tgt, box] at hm ⊢; exact hm), if_pos hl] at he
    exact does_setPost h he
  · have he := exec_send h
    rwa [if_pos (by simp [tgt, box] at hm ⊢; exact hm)] at he
  · exact does_setPost h (exec_waitm_empty h hb)
  · have hp := post_mailOut (wait_of_runs h) d box v rest
    have hf := frame_mailOut s p d box v rest
    refine does_of_frame (exec_waitm_some h hb) hf ⟨?_, fun k hk => ?_, fun r => ?_, ?_, ?_, fun q hq => post_mailOut_other s hq .., hf⟩
    all_goals rw [hp]
    · rw [box_mailTaken, if_pos rfl]
    · rw [box_mailTaken, if_neg hk]
    · exact reg_mailTaken ..
    · exact pc_mailTaken ..
    · exact mailTaken_only ..
  · have hf := (frame_setPost s dst (mailed (s.post dst) m g.val)).append (frame_mesh _ (s.mesh.erase g))
    have hpost : ({ s.setPost dst (mailed (s.post dst) m g.val) with mesh := s.mesh.erase g } : State).post dst = mailed (s.post dst) m g.val :=
      State.post_setPost_same ..
    refine does_of_frame (exec_mailArrive hc hg) hf ⟨rfl, ?_, fun k hk => ?_, ?_, fun q hq => State.post_setPost_other s dst q _ hq, hf⟩
    · rw [hpost, box_mailed, if_pos rfl]
    · rw [hpost, box_mailed, if_neg hk]
    · rw [hpost, mailed_eq]

end Sys2Proof

namespace Sys2Proof

open Machine

/-! # Waits and signals (O6) -/

theorem bitAt_top {x : Word} : bitAt x.toNat 63 = true ↔ 2 ^ 63 ≤ x.toNat := by
  have := x.isLt
  simp only [bitAt, beq_iff_eq]
  omega

theorem bitAt_low (n : Nat) : bitAt n 0 = (n % 2 == 1) := by simp [bitAt]

/-! ## WAITS (R77, R246) -/

section
variable {s : State} {p : PostId} {a b : GReg} {i : BitVec 14}

theorem exec_waits (h : Runs s p (.waits p a b i)) : exec (.waits p a b i) s = .next (s.keep
    (if bitAt ((s.post p).reg a).toNat 63 || !s.ownObj p (((s.post p).reg a).toNat % 2 ^ 14) then s.postFault p 7
      else if released (s.rf .SYN_FLAG_KIND (((s.post p).reg a).toNat % 2 ^ 14)) (s.rf .SYN_OBJ_VALUE (((s.post p).reg a).toNat % 2 ^ 14))
        ((s.post p).reg b).toNat (i.toNat % 2 == 1) then s.setPost p (s.post p).next
      else s.setPost p { s.post p with wait := .sync (((s.post p).reg a).toNat % 2 ^ 14) ((s.post p).reg b).toNat (i.toNat % 2 == 1) })) := by
  rw [← bitAt_low]
  exact (exec_of_runs h rfl :)

theorem exec_signal (h : Runs s p (.signal p a b)) : exec (.signal p a b) s = .next (s.keep
    (if bitAt ((s.post p).reg a).toNat 63
      then s.remoteSignal p (s.post p) (((s.post p).reg a).toNat / 2 ^ 32 % 65536) (((s.post p).reg a).toNat % 2 ^ 14) ((s.post p).reg b).toNat
      else if !s.ownObj p (((s.post p).reg a).toNat % 2 ^ 14) then s.postFault p 7
      else (s.setPost p (s.post p).next).localAdd (((s.post p).reg a).toNat % 2 ^ 14) ((s.post p).reg b).toNat)) := (exec_of_runs h rfl :)

end

/-! ## Adding to an object (R245) -/

theorem frame_posts_sync (s : State) (x : List (Nat × Post)) (y : Sync) : Frame [.posts, .sync] [] s { s with posts := x, sync := y } :=
  frame_of_parts rfl rfl rfl fun p _ => by cases p <;> simp_all [Part.Same]

theorem frame_wake (s : State) (n : Nat) : Frame [.posts, .sync, .outbox] [] s (s.wake n) := by
  rw [State.wake, emit_foldl]
  exact ((frame_posts_sync s _ _).append (frame_outbox _ _)).mono (by simp) (by simp)

/-- A listed value that the change of a map, which keeps the keys, leaves alone. -/
theorem sget_map_fixed {α : Type} {d : Nat → α} {f : Nat × α → Nat × α} (hk : ∀ x, (f x).1 = x.1) {m : List (Nat × α)} {k : Nat}
    (h : f (k, sget d m k) = (k, sget d m k)) : sget d (m.map f) k = sget d m k := by
  induction m with
  | nil => rfl
  | cons x m ih =>
    obtain ⟨j, v⟩ := x
    obtain ⟨w, hw⟩ : ∃ w, f (j, v) = (j, w) := ⟨(f (j, v)).2, Prod.ext (hk (j, v)) rfl⟩
    simp only [sget] at h
    simp only [List.map_cons, hw, sget]
    split
    · rfl
    · next hlt =>
      rw [if_neg hlt] at h
      split
      · next hj =>
        rw [if_pos hj, hj, hw] at h
        exact congrArg Prod.snd h
      · next hj => exact ih (by rwa [if_neg hj] at h)

/-- A postilion that waits on no object is not woken. -/
theorem post_wake {s : State} {n p : Nat} (h : (s.post p).wait = .run) : (s.wake n).post p = s.post p := by
  rw [State.wake, emit_foldl]
  refine sget_map_fixed (fun x => ?_) ?_
  · dsimp only
    split <;> rfl
  · change (match (s.post p).wait with | .sync o op eq => _ | _ => (p, s.post p)) = _
    rw [h]
    rfl

/-- Object n given the value v. -/
theorem frame_setObj (s : State) (n v op : Nat) :
    Frame [.posts, .sync, .outbox] [(.SYN_OBJ_VALUE, n), (.DBG_TRACE_STAT_SENT, 0)] s (s.setObj n v op) :=
  (((frame_setf s .SYN_OBJ_VALUE n v).append (frame_wake _ n)).append (frame_trace _ 5 _)).mono (by simp) (by simp)

theorem rf_setObj (s : State) (n v op : Nat) : (s.setObj n v op).rf .SYN_OBJ_VALUE n = v % 2 ^ 64 := by
  rw [State.setObj, (frame_trace ..).rf (by simp), (frame_wake ..).rf (by simp), State.rf_setf_same]
  rfl

theorem post_setObj {s : State} {p : Nat} (h : (s.post p).wait = .run) (n v op : Nat) : (s.setObj n v op).post p = s.post p := by
  have htrace : (s.setObj n v op).posts = ((s.setf .SYN_OBJ_VALUE n v).wake n).posts := (frame_trace ..).part .posts (by simp)
  rw [State.post, htrace]
  exact post_wake (s := s.setf .SYN_OBJ_VALUE n v) h

theorem frame_groomSignal (s : State) (n : Nat) : Frame [.groom] [] s (s.groomSignal n) := by
  unfold State.groomSignal
  split
  · exact Frame.refl ..
  · exact frame_groom s _

/-- An add that does not overflow. -/
theorem localAdd_small {s : State} {n k : Nat} (hk : s.rf .SYN_FLAG_KIND n ≠ 1) (hv : s.rf .SYN_OBJ_VALUE n + k < 2 ^ 63) :
    s.localAdd n k = (s.setObj n (s.rf .SYN_OBJ_VALUE n + k) 1).groomSignal n := by
  rw [State.localAdd, if_neg hk, State.objAdd, if_pos hv]

theorem frame_localAdd {s : State} {n k : Nat} (hk : s.rf .SYN_FLAG_KIND n ≠ 1) (hv : s.rf .SYN_OBJ_VALUE n + k < 2 ^ 63) :
    Frame [.posts, .sync, .outbox, .groom] [(.SYN_OBJ_VALUE, n), (.DBG_TRACE_STAT_SENT, 0)] s (s.localAdd n k) := by
  rw [localAdd_small hk hv]
  exact ((frame_setObj ..).append (frame_groomSignal ..)).mono (by simp) (by simp)

theorem localAdd_value {s : State} {n k : Nat} (hk : s.rf .SYN_FLAG_KIND n ≠ 1) (hv : s.rf .SYN_OBJ_VALUE n + k < 2 ^ 63) :
    (s.localAdd n k).rf .SYN_OBJ_VALUE n = s.rf .SYN_OBJ_VALUE n + k := by
  rw [localAdd_small hk hv, (frame_groomSignal ..).rf (by simp), rf_setObj, Nat.mod_eq_of_lt (by omega)]

theorem post_localAdd {s : State} {n k p : Nat} (hk : s.rf .SYN_FLAG_KIND n ≠ 1) (hv : s.rf .SYN_OBJ_VALUE n + k < 2 ^ 63)
    (hw : (s.post p).wait = .run) : (s.localAdd n k).post p = s.post p := by
  have hg : (s.localAdd n k).posts = (s.setObj n (s.rf .SYN_OBJ_VALUE n + k) 1).posts :=
    localAdd_small hk hv ▸ (frame_groomSignal ..).part .posts (by simp)
  rw [State.post, hg]
  exact post_setObj hw ..

/-! ## What sending leaves alone: every part but the router and the yards' records (R184, R246, R257) -/

theorem AllBut.refl (ps : List Part) (s : State) : AllBut ps s s := fun p _ => Part.Same.refl s p

theorem AllBut.trans {ps : List Part} {s t u : State} (h : AllBut ps s t) (k : AllBut ps t u) : AllBut ps s u := fun p hp => (h p hp).trans (k p hp)

theorem AllBut.mono {ps qs : List Part} {s t : State} (h : AllBut ps s t) (hq : ps ⊆ qs) : AllBut qs s t := fun p hp => h p fun hm => hp (hq hm)

theorem Frame.allBut {ps qs : List Part} {fs : List (Fld × Nat)} {s t : State} (h : Frame ps fs s t) (hq : ps ⊆ qs) : AllBut qs s t :=
  AllBut.mono (fun p hp => h.part p hp) hq

theorem AllBut.ite {ps : List Part} {s t u : State} {c : Prop} [Decidable c] (h : AllBut ps s t) (k : AllBut ps s u) :
    AllBut ps s (if c then t else u) := by
  split
  · exact h
  · exact k

theorem allBut_setf (ps : List Part) (s : State) (f : Fld) (i v : Nat) : AllBut ps s (s.setf f i v) := (frame_setf s f i v).allBut (by simp)

theorem allBut_net {ps : List Part} (h : .net ∈ ps) (s : State) (x : Net) : AllBut ps s { s with net := x } := (frame_net s x).allBut (by simpa using h)

theorem allBut_setWin (s : State) (w : Win) : AllBut [.net] s (s.setWin w) :=
  .ite (allBut_net (by simp) s _) ((allBut_net (by simp) s _).trans (allBut_setf _ _ _ _ _))

theorem allBut_openWin {s s1 : State} {ep tenant team : Nat} {w : Win} (h : s.openWin ep tenant team = some (s1, w)) : AllBut [.net] s s1 := by
  unfold State.openWin at h
  split at h
  · cases h; exact .refl _ _
  · split at h
    · cases h
    · cases h; exact (allBut_net (by simp) s _).trans (allBut_setWin _ _)

theorem allBut_takeCredit {s s1 : State} {ep tenant team : Nat} {w : Win} (h : s.takeCredit ep tenant team = some (s1, w)) : AllBut [.net] s s1 := by
  unfold State.takeCredit at h
  split at h
  · cases h
  · next hw =>
    split at h
    · cases h
    · cases h; exact (allBut_openWin hw).trans (allBut_setWin _ _)

theorem allBut_owe (s : State) (ep tenant team seq q id : Nat) : AllBut [.net] s (s.owe ep tenant team seq q id) := by
  unfold State.owe
  split
  · exact allBut_setWin _ _
  · exact .refl _ _

theorem allBut_touchFor (s : State) (c : Carriage) : AllBut [.net, .yards] s (s.touchFor c) :=
  (Frame.foldl (ps := [.yards]) (fs := []) _ (fun u y _ => frame_yards u _) s).allBut (by simp)

theorem allBut_refuse (s : State) (l : Nat) (c : Carriage) : AllBut [.net, .yards] s (s.refuse l c) := by
  have h1 : AllBut [.net, .yards] s (if farKind c then (s.sat .RTE_DROPS_TENANT 0).sat .GRM_FARWIN_REJECT l else s.sat .RTE_DROPS_TENANT 0) :=
    .ite ((allBut_setf _ _ _ _ _).trans (allBut_setf _ _ _ _ _)) (allBut_setf _ _ _ _ _)
  exact .ite (h1.trans ((reinsOnly_reinFor _ c true).frame.allBut (by simp))) h1

theorem allBut_receiveAt (s : State) (c : Carriage) (port id : Nat) : AllBut [.net, .yards] s (s.receiveAt c port id) := by
  have h0 : AllBut [.net, .yards] s (if cDst c = s.self then s.undoze else s) := .ite (.ite (allBut_setf _ _ _ _ _) (.refl _ _)) (.refl _ _)
  unfold State.receiveAt
  dsimp only
  split
  · exact h0.trans (allBut_setf _ _ _ _ _)
  · exact h0.trans (allBut_setf _ _ _ _ _)
  · exact h0.trans ((allBut_setf _ _ _ _ _).trans (allBut_setf _ _ _ _ _))
  · exact h0.trans (allBut_refuse _ _ _)
  · exact h0.trans (allBut_setf _ _ _ _ _)
  · exact h0.trans ((AllBut.trans (.ite (allBut_setf _ _ _ _ _) (.refl _ _)) (allBut_net (by simp) _ _)).trans (allBut_touchFor _ _))

theorem allBut_enqueue (s : State) (l port : Nat) (adv : Bool) (c : Carriage) : AllBut [.net, .yards] s (s.enqueue l port adv c) :=
  (allBut_net (by simp) s _).trans (allBut_net (by simp) _ _)

theorem allBut_inject (s : State) (c : Carriage) (port inAxis : Nat) : AllBut [.net, .yards] s (s.inject c port inAxis) := by
  unfold State.inject
  dsimp only
  refine .ite (.ite (allBut_setf _ _ _ _ _) (allBut_enqueue _ _ _ _ _)) ?_
  split
  · exact allBut_enqueue _ _ _ _ _
  · exact (allBut_net (by simp) s _).trans (allBut_receiveAt _ _ _ _)
  · exact allBut_setf _ _ _ _ _

/-! ## SIGNAL to a remote object (R246, R257) -/

section
variable {s : State} {p ep n v : Nat} {x : Post}

/-- Entry ep is VALID and admits the tenant of postilion p's yard. -/
def OpenEntry (s : State) (p ep : Nat) : Prop :=
  s.on .RTE_EP_LO_VALID ep = true ∧ bitAt (s.rf .RTE_EP_LO_TENANT_MASK ep) (s.yardTenant (rowOf p)) = true

theorem openEntry_iff : OpenEntry s p ep ↔
    ¬ (!s.on .RTE_EP_LO_VALID ep || !bitAt (s.rf .RTE_EP_LO_TENANT_MASK ep) (s.yardTenant (rowOf p))) = true := by
  simp [OpenEntry]

theorem remoteSignal_closed (h : ¬ OpenEntry s p ep) : s.remoteSignal p x ep n v = s.setPost p x.next := if_pos (not_not.1 (mt openEntry_iff.2 h))

theorem remoteSignal_stalled (h : OpenEntry s p ep) (hc : s.takeCredit ep (s.yardTenant (rowOf p)) 64 = none) :
    s.remoteSignal p x ep n v = s.setPost p { x with wait := .reinStall } := by
  rw [State.remoteSignal]
  simp only [if_neg (openEntry_iff.1 h), hc]

/-- The carriage that adds v to object n of entry ep. -/
def signalCarriage (s : State) (p ep n v : Nat) (w : Win) : Carriage := mkCarriage
  { cls := 2, kind := 6, dst := ep, src := s.self, tenant := s.yardTenant (rowOf p), yard := rowOf p, ygen := s.rf .YRD_STATE_GEN (rowOf p),
    gen := w.gen, seq := w.seq, dgen := s.rf .RTE_EP_LO_GEN ep } (granule n 0 0 0 0 v s.epochNow)

theorem remoteSignal_sent (h : OpenEntry s p ep) {s1 : State} {w : Win} (hc : s.takeCredit ep (s.yardTenant (rowOf p)) 64 = some (s1, w)) :
    s.remoteSignal p x ep n v =
      ((s1.owe ep (s.yardTenant (rowOf p)) 64 w.seq 0 0).inject (signalCarriage s p ep n v w) 8 3).setPost p x.next := by
  rw [State.remoteSignal]
  simp only [if_neg (openEntry_iff.1 h), hc]
  rfl

end

/-! ## The statement -/

section
variable {s : State} {p : PostId} {a b : GReg}

/-- The add to an object of the yard, the postilion gone on. -/
theorem does_signal_small (h : Runs s p (.signal p a b)) {n v : Nat}
    (he : exec (.signal p a b) s = .next (s.keep ((s.setPost p (s.post p).next).localAdd n v)))
    (hk : s.rf .SYN_FLAG_KIND n ≠ 1) (hv : s.rf .SYN_OBJ_VALUE n + v < 2 ^ 63) : Does (.signal p a b) s fun t =>
      t.rf .SYN_OBJ_VALUE n = s.rf .SYN_OBJ_VALUE n + v ∧ t.post p = { s.post p with pc := nextPc (s.post p) }
      ∧ Frame [.posts, .yards, .sync, .outbox, .groom] [(.SYN_OBJ_VALUE, n), (.DBG_TRACE_STAT_SENT, 0)] s t := by
  have hf := frame_setPost s p (s.post p).next
  have hp := State.post_setPost_same s p (s.post p).next
  have hw : ((s.setPost p (s.post p).next).post p).wait = .run := by
    rw [hp]
    exact wait_of_runs h
  rw [← hf.rf (f := .SYN_FLAG_KIND) (by simp)] at hk
  rw [← hf.rf (f := .SYN_OBJ_VALUE) (i := n) (by simp)] at hv ⊢
  have hframe := hf.append (frame_localAdd hk hv)
  exact does_of_frame he hframe ⟨localAdd_value hk hv, (post_localAdd hk hv hw).trans hp, hframe.mono (by simp) (by simp)⟩

/-- A far add: the carriage in the router, the postilion gone on. -/
theorem does_signal_sent {u : State} (hu : AllBut [.net, .yards] s u) {x : Post}
    (he : exec (.signal p a b) s = .next (s.keep (u.setPost p x))) : Does (.signal p a b) s fun t =>
      t.post p = x ∧ (∀ q : Nat, q ≠ p → t.post q = s.post q)
      ∧ Keeps [.host, .depot, .scratch, .mesh, .teams, .insts, .qs, .sync, .links, .arr, .groom, .hitch, .boot, .power] s t := by
  have hposts : u.posts = s.posts := hu .posts (by simp)
  refine ⟨_, he, State.post_setPost_same u p x, fun q hq => ?_, fun k hk => ?_⟩
  · exact (State.post_setPost_other u p q x hq).trans (congrArg (sget _ · q) hposts)
  · have hp : AllBut [.net, .yards, .posts] s (u.setPost p x) :=
      (hu.mono (by simp)).trans ((frame_setPost u p x).allBut (by simp))
    refine (hp k ?_).keep
    rintro hm
    simp only [List.mem_cons, List.not_mem_nil, or_false] at hm
    rcases hm with rfl | rfl | rfl <;> simp at hk

end

theorem bitAt_top_near {x : Word} (h : x.toNat < 2 ^ 63) : bitAt x.toNat 63 = false := Bool.eq_false_iff.2 fun ht => absurd (bitAt_top.1 ht) (by omega)

/-- Settles O6: each case is one branch of the instruction; an add that does not overflow wakes only postilions that wait on
the object, and sending a carriage changes the router alone. -/
theorem postilionSyncAndTagWaits : Obligations.PostilionSyncAndTagWaits := by
  intro s p a b i x ra n v open_ ep tn admits car
  refine ⟨fun h => ?_, fun h => ?_, fun h => ⟨waitx_goes h, waitx_waits h⟩⟩
  · have he := exec_waits h
    change exec _ s = .next (s.keep (if bitAt ra 63 || !s.ownObj p n then _ else
      if released (s.rf .SYN_FLAG_KIND n) (s.rf .SYN_OBJ_VALUE n) v (i.toNat % 2 == 1) then s.setPost p x.next
      else s.setPost p { x with wait := .sync n v (i.toNat % 2 == 1) })) at he
    refine ⟨fun hl ho hr => ?_, fun hl ho hr => ?_, fun hn => ?_⟩
    · rw [bitAt_top_near hl, ho, hr] at he
      exact does_setPost h he
    · rw [bitAt_top_near hl, ho, hr] at he
      exact does_setPost h he
    · rwa [if_pos] at he
      by_contra hc
      rw [Bool.or_eq_true, bitAt_top, Bool.not_eq_true', not_or, Bool.not_eq_false, not_le] at hc
      exact hn hc
  · have he := exec_signal h
    change exec _ s = .next (s.keep (if bitAt ra 63 then s.remoteSignal p x ep n v else if !s.ownObj p n then _ else
      (s.setPost p x.next).localAdd n v)) at he
    have hfar (hl : 2 ^ 63 ≤ ra) : bitAt ra 63 = true := bitAt_top.2 hl
    refine ⟨fun hl ho => ?_, fun hl ho hk hv => ?_, fun hl ho => ?_, fun hl ha => ?_, fun hl ha hc => ?_, fun s1 w hl ha hc => ?_⟩
    · rwa [bitAt_top_near hl, ho] at he
    · rw [bitAt_top_near hl, ho] at he
      exact does_signal_small h he hk hv
    · rwa [bitAt_top_near hl, ho] at he
    · rw [hfar hl, if_pos rfl, remoteSignal_closed ha] at he
      exact does_setPost h he
    · rw [hfar hl, if_pos rfl, remoteSignal_stalled ha hc] at he
      exact does_setPost h he
    · rw [hfar hl, if_pos rfl, remoteSignal_sent ha hc] at he
      exact ⟨he, does_signal_sent
        (((allBut_takeCredit hc).mono (by simp)).trans (((allBut_owe _ _ _ _ _ _ _).mono (by simp)).trans (allBut_inject _ _ _ _))) he⟩

end Sys2Proof

namespace Sys2Proof

open Machine

/-! # Datapath instructions (O7) -/

/-! ## Their issue (R77): the column, the descriptor's place, the tag -/

theorem tagOp_isSome {x : Post} {tag : Nat} : (x.tagOp tag).isSome = true ↔ ∃ t ∈ x.tags, t.tag = tag := by
  simp [Post.tagOp]

section
variable {s : State} {p : PostId} {a : GReg} {i : BitVec 14} {c : Instr} {own : Nat → Bool} {f : State → Post → List Byte → Nat → State}

theorem exec_of_dataOp (h : Runs s p c) (he : exec c s = event s fun s => s.dataOp p c a i own f) : exec c s = .next (s.keep
    (if !own (colOf p) then s.postFault p 2
      else if !ramOk (descAddr (s.post p) a i) 32 then s.postFault p 3
      else if ((s.post p).tagOp (i.toNat % 8)).isSome then s.setPost p { s.post p with wait := .tagStall }
      else f s (s.post p) ((s.post p).rdRam (descAddr (s.post p) a i).toNat 32) (i.toNat % 8))) := exec_of_runs h he

theorem dataOp_foreign (h : Runs s p c) (he : exec c s = event s fun s => s.dataOp p c a i own f) (ho : own (colOf p) = false) :
    exec c s = .next (s.keep (s.postFault p 2)) := by
  rw [exec_of_dataOp h he, ho]
  rfl

theorem dataOp_misplaced (h : Runs s p c) (he : exec c s = event s fun s => s.dataOp p c a i own f) (ho : own (colOf p) = true)
    (hr : ¬ ((descAddr (s.post p) a i).toNat % 8 = 0 ∧ (descAddr (s.post p) a i).toNat + 32 ≤ 16384)) :
    exec c s = .next (s.keep (s.postFault p 3)) := by
  have hram : ramOk (descAddr (s.post p) a i) 32 = false := Bool.eq_false_iff.2 (mt (ramOk_iff _ _).1 hr)
  rw [exec_of_dataOp h he, ho, hram]
  rfl

theorem dataOp_stalls (h : Runs s p c) (he : exec c s = event s fun s => s.dataOp p c a i own f) (ho : own (colOf p) = true)
    (h8 : (descAddr (s.post p) a i).toNat % 8 = 0) (hin : (descAddr (s.post p) a i).toNat + 32 ≤ 16384)
    (ht : ∃ t ∈ (s.post p).tags, t.tag = i.toNat % 8) : Does c s (PostIs s p { s.post p with wait := .tagStall }) := by
  have hx := exec_of_dataOp h he
  rw [ho, (ramOk_iff _ _).2 ⟨h8, hin⟩, tagOp_isSome.2 ht] at hx
  exact does_setPost h hx

/-- The descriptor of a datapath instruction is in the data RAM, and its tag is free. -/
def DataReady (s : State) (p : PostId) (a : GReg) (i : BitVec 14) : Prop :=
  (descAddr (s.post p) a i).toNat % 8 = 0 ∧ (descAddr (s.post p) a i).toNat + 32 ≤ 16384 ∧ ∀ t ∈ (s.post p).tags, t.tag ≠ i.toNat % 8

theorem DataReady.free (h : DataReady s p a i) : ∀ t ∈ (s.post p).tags, t.tag ≠ i.toNat % 8 := h.2.2

/-- The descriptor that it reads. -/
def descBytes (s : State) (p : PostId) (a : GReg) (i : BitVec 14) : List Byte := (s.post p).rdRam (descAddr (s.post p) a i).toNat 32

theorem dataOp_ready (h : Runs s p c) (he : exec c s = event s fun s => s.dataOp p c a i own f) (ho : own (colOf p) = true)
    (hr : DataReady s p a i) : exec c s = .next (s.keep (f s (s.post p) (descBytes s p a i) (i.toNat % 8))) := by
  obtain ⟨h8, hin, hfree⟩ := hr
  have ht : ((s.post p).tagOp (i.toNat % 8)).isSome = false := Bool.eq_false_iff.2 fun hs =>
    let ⟨t, hm, hk⟩ := tagOp_isSome.1 hs
    hfree t hm hk
  rw [exec_of_dataOp h he, ho, (ramOk_iff _ _).2 ⟨h8, hin⟩, ht]
  rfl

end

/-! ## Taking a tag, changing it, freeing it -/

/-- Postilion p has issued an operation: it is now y, and no other postilion has changed. -/
structure Taken (s : State) (p : PostId) (y : Post) (ps : List Part) (fs : List (Fld × Nat)) (t : State) : Prop where
  post : t.post p = y
  only : OnlyPost s t p
  serial : t.serial = s.serial + 1
  frame : Frame ps fs s t

/-- The postilion with operation u under its tag, gone on. -/
def holding (x : Post) (u : TagOp) : Post := { x with pc := nextPc x, tags := x.tags ++ [u] }

/-- The postilion gone on, its tag free again. -/
def wentOn (x : Post) : Post := { x with pc := nextPc x }

theorem quiet_holding (x : Post) (u : TagOp) : (holding x u).quiet = x.quiet := rfl

section
variable {s t v : State} {p : PostId} {x y : Post} {u : TagOp} {ps qs : List Part} {fs gs : List (Fld × Nat)}

theorem frame_serial (s : State) (n : Nat) : Frame [.serial] [] s { s with serial := n } :=
  frame_of_parts rfl rfl rfl fun p _ => by cases p <;> simp_all [Part.Same]

theorem taken_takeTag (hq : (s.post p).quiet = false) (u : TagOp) :
    Taken s p (holding (s.post p) u) [.posts, .yards, .serial] [] (s.takeTag p (s.post p) u) := by
  obtain ⟨hp, ho, hf⟩ := postIs_of_moving hq (holding (s.post p) u)
  exact ⟨hp, ho.frame (frame_serial _ _) (by simp) (by simp), rfl, (hf.append (frame_serial _ _)).mono (by simp) (by simp)⟩

/-- A later change that no postilion and no yard sees. -/
theorem Taken.after (h : Taken s p y ps fs t) (k : Frame qs gs t v) (hp : .posts ∉ qs) (hy : .yards ∉ qs) (hs : .serial ∉ qs) :
    Taken s p y (ps ++ qs) (fs ++ gs) v := by
  have hposts : v.posts = t.posts := k.part .posts hp
  have hserial : v.serial = t.serial := k.part .serial hs
  refine ⟨?_, h.only.frame k hp hy, hserial.trans h.serial, h.frame.append k⟩
  rw [State.post, hposts]
  exact h.post

theorem Taken.mono (h : Taken s p y ps fs t) (hq : ps ⊆ qs) (hg : fs ⊆ gs) : Taken s p y qs gs t :=
  ⟨h.post, h.only, h.serial, h.frame.mono hq hg⟩

/-- The postilion changes again. -/
theorem Taken.setPost (h : Taken s p y ps fs t) (hq : y.quiet = false) (hn : t.now = s.now) (hp : .posts ∈ ps) (hy : .yards ∈ ps) (z : Post) :
    Taken s p z ps fs (t.setPost p z) := by
  obtain ⟨hz, ho, hf⟩ := postIs_of_moving (h.post ▸ hq : (t.post p).quiet = false) z
  have hserial : (t.setPost p z).serial = t.serial := hf.part .serial (by simp)
  exact ⟨hz, h.only.trans ho hn, hserial.trans h.serial, h.frame.trans (hf.mono (by simp [hp, hy]) (by simp))⟩

theorem Taken.does {c : Instr} (h : Taken s p y ps fs t) (he : exec c s = .next (s.keep t)) {P : State → Prop} (hP : P t) : Does c s P :=
  does_of_frame he h.frame hP

/-- The only operation of a tag completes while its postilion runs. -/
theorem tagDone_holding (hp : t.post p = holding x u) (hw : x.wait = .run) (hf : ∀ w ∈ x.tags, w.tag ≠ u.tag) :
    t.tagDone p u.tag u.serial = t.setPost p (wentOn x) := by
  have hfilter : (x.tags ++ [u]).filter (fun w => !(w.tag == u.tag && w.serial == u.serial)) = x.tags := by
    rw [List.filter_append, List.filter_eq_self.2 fun w hw => by simp [hf w hw]]
    simp
  rw [State.tagDone, hp]
  simp only [holding, hfilter, hw]
  simp [wentOn, hw]

theorem updTag_holding (hp : t.post p = holding x u) (hf : ∀ w ∈ x.tags, w.tag ≠ u.tag) (f : TagOp → TagOp) :
    t.updTag p u.tag u.serial f = t.setPost p (holding x (f u)) := by
  have hmap : updWhere (fun w => w.tag == u.tag && w.serial == u.serial) f (x.tags ++ [u]) = x.tags ++ [f u] := by
    rw [updWhere, List.map_append, List.map_congr_left (g := id) fun w hw => by simp [hf w hw]]
    simp
  rw [State.updTag, hp]
  simp only [holding, hmap]

end

end Sys2Proof

namespace Sys2Proof

open Machine

/-! ## The instructions that hold their tag or free it at once: HWR, DWR and XMIT (R165, R308) -/

section
variable {s t : State} {p : PostId} {u : TagOp} {ps : List Part} {fs : List (Fld × Nat)} {a : GReg} {i : BitVec 14} {c : Instr}

/-- The tag that was just taken is free again. -/
theorem Taken.tagDone (h : Taken s p (holding (s.post p) u) ps fs t) (hr : Runs s p c) (hf : ∀ w ∈ (s.post p).tags, w.tag ≠ u.tag)
    (hn : t.now = s.now) (hp : .posts ∈ ps) (hy : .yards ∈ ps) : Taken s p (wentOn (s.post p)) ps fs (t.tagDone p u.tag u.serial) := by
  rw [tagDone_holding h.post (wait_of_runs hr) hf]
  exact h.setPost (quiet_of_runs hr) hn hp hy _

theorem Taken.updTag (h : Taken s p (holding (s.post p) u) ps fs t) (hr : Runs s p c) (hf : ∀ w ∈ (s.post p).tags, w.tag ≠ u.tag)
    (hn : t.now = s.now) (hp : .posts ∈ ps) (hy : .yards ∈ ps) (f : TagOp → TagOp) :
    Taken s p (holding (s.post p) (f u)) ps fs (t.updTag p u.tag u.serial f) := by
  rw [updTag_holding h.post hf]
  exact h.setPost (quiet_of_runs hr) hn hp hy _

theorem taken_of_runs (hr : Runs s p c) (u : TagOp) : Taken s p (holding (s.post p) u) [.posts, .yards, .serial] [] (s.takeTag p (s.post p) u) :=
  taken_takeTag (quiet_of_runs hr) u

/-- An XMIT's operation, with the bytes that it names. -/
def xmitOp (s : State) (p : PostId) (a : GReg) (i : BitVec 14) : TagOp :=
  { s.newTag (i.toNat % 8) .xmit (descBytes s p a i) with
    blob := some (s.xmitBytes (rowOf p) (descOf (descBytes s p a i))), fwd := s.xmitsRx (rowOf p) (descOf (descBytes s p a i)) }

theorem exec_xmit (h : Runs s p (.xmit p a i)) (ho : colOf p < 12) (hc : colOf p % 2 = 0) (hr : DataReady s p a i) :
    exec (.xmit p a i) s = .next (s.keep
      (if s.foreignLink p then s.postFault p 2
        else if s.mirUnstaged p (descOf (descBytes s p a i))
          then (s.takeTag p (s.post p) (xmitOp s p a i)).tagDone p (xmitOp s p a i).tag (xmitOp s p a i).serial
        else if (s.mirPlace (rowOf p) (colLink (colOf p)) (descOf (descBytes s p a i))).isSome && s.mirDown (colLink (colOf p))
          then (s.takeTag p (s.post p) (xmitOp s p a i)).loseMirXmit p (xmitOp s p a i)
        else s.takeTag p (s.post p) (xmitOp s p a i))) :=
  dataOp_ready h rfl (by simp [ho, hc]) hr

/-- The state in which the mirror's bytes of operation u are counted as lost. -/
def mirLostState (s : State) (p : PostId) (u : TagOp) : State :=
  { (s.takeTag p (s.post p) u).sat .GRM_MIR_OUTSTAT_LOST 0 with
    groom := { s.groom with mirSent := s.groom.mirSent + mirBytesOf u.desc } }

theorem taken_mirLost (hr : Runs s p c) (u : TagOp) : Taken s p (holding (s.post p) u) [.posts, .yards, .serial, .groom]
    [(.GRM_MIR_OUTSTAT_LOST, 0)] (mirLostState s p u) :=
  ((taken_of_runs hr u).after ((frame_sat _ .GRM_MIR_OUTSTAT_LOST 0 1).append (frame_groom _ _)) (by simp) (by simp) (by simp)).mono (by simp) (by simp)

theorem loseMirXmit_eq (s : State) (p : PostId) (u : TagOp) :
    (s.takeTag p (s.post p) u).loseMirXmit p u = (mirLostState s p u).tagDone p u.tag u.serial := by
  have hg : (s.takeTag p (s.post p) u).groom = s.groom := (frame_setPost ..).part .groom (by simp)
  rw [State.loseMirXmit, mirLostState, hg]

theorem counted_mirLost (hr : Runs s p c) (u : TagOp) : Counted s .GRM_MIR_OUTSTAT_LOST 0 (mirLostState s p u) := by
  have h : Counted (s.takeTag p (s.post p) u) .GRM_MIR_OUTSTAT_LOST 0 (mirLostState s p u) :=
    counted_frame (counted_sat _ .GRM_MIR_OUTSTAT_LOST 0) (frame_groom _ _) (by simp)
  rwa [Counted, (taken_of_runs hr u).frame.rf (by simp)] at h

/-- The operation u under its tag: `takes` of the statement. -/
def TakesTag (s : State) (p : PostId) (c : Instr) (u : TagOp) : Prop := Does c s fun t =>
  t.post p = holding (s.post p) u ∧ OnlyPost s t p ∧ t.serial = s.serial + 1 ∧ Frame [.posts, .yards, .serial] [] s t

theorem takesTag_of_exec (hr : Runs s p c) (he : exec c s = .next (s.keep (s.takeTag p (s.post p) u))) : TakesTag s p c u :=
  have h := taken_of_runs hr u
  h.does he ⟨h.post, h.only, h.serial, h.frame⟩

theorem hwr_takesTag (h : Runs s p (.hwr p a i)) (hr : DataReady s p a i) (hc : colOf p = 14) :
    TakesTag s p (.hwr p a i) (s.newTag (i.toNat % 8) .hwr (descBytes s p a i)) :=
  takesTag_of_exec h (dataOp_ready h rfl (beq_iff_eq.2 hc) hr)

theorem dwr_takesTag (h : Runs s p (.dwr p a i)) (hr : DataReady s p a i) (hc : colOf p = 15) :
    TakesTag s p (.dwr p a i) (s.newTag (i.toNat % 8) .dwr (descBytes s p a i)) :=
  takesTag_of_exec h (dataOp_ready h rfl (beq_iff_eq.2 hc) hr)

/-- A skipped step sends nothing: the tag is free at once. -/
theorem does_xmit_unstaged (h : Runs s p (.xmit p a i)) (hr : DataReady s p a i)
    (he : exec (.xmit p a i) s = .next (s.keep ((s.takeTag p (s.post p) (xmitOp s p a i)).tagDone p (xmitOp s p a i).tag (xmitOp s p a i).serial))) :
    Does (.xmit p a i) s fun t => t.post p = wentOn (s.post p) ∧ OnlyPost s t p ∧ t.serial = s.serial + 1
      ∧ Frame [.posts, .yards, .serial] [] s t :=
  have hk := taken_of_runs h (xmitOp s p a i)
  have hd := hk.tagDone h hr.free (hk.frame.now (by simp) (by simp) (by simp)) (by simp) (by simp)
  hd.does he ⟨hd.post, hd.only, hd.serial, hd.frame⟩

/-- The mirror's link has failed: its bytes are counted as lost. -/
theorem does_xmit_lost (h : Runs s p (.xmit p a i)) (hr : DataReady s p a i)
    (he : exec (.xmit p a i) s = .next (s.keep ((s.takeTag p (s.post p) (xmitOp s p a i)).loseMirXmit p (xmitOp s p a i)))) :
    Does (.xmit p a i) s fun t => t.post p = wentOn (s.post p) ∧ OnlyPost s t p ∧ t.serial = s.serial + 1
      ∧ Counted s .GRM_MIR_OUTSTAT_LOST 0 t
      ∧ t.groom = { s.groom with mirSent := s.groom.mirSent + min 8128 (descOf (descBytes s p a i)).len }
      ∧ Frame [.posts, .yards, .serial, .groom] [(.GRM_MIR_OUTSTAT_LOST, 0)] s t := by
  rw [loseMirXmit_eq] at he
  have hk := taken_mirLost h (xmitOp s p a i)
  have hd := hk.tagDone h hr.free (hk.frame.now (by simp) (by simp) (by simp)) (by simp) (by simp)
  have hset := frame_setPost (mirLostState s p (xmitOp s p a i)) p (wentOn (s.post p))
  rw [← tagDone_holding hk.post (wait_of_runs h) hr.free] at hset
  have hgroom := hset.part .groom (by simp)
  exact hd.does he ⟨hd.post, hd.only, hd.serial, counted_frame (counted_mirLost h _) hset (by simp), hgroom, hd.frame⟩

end

end Sys2Proof

namespace Sys2Proof

open Machine

/-! ## Reads: HRD and DRD (R109, R155, R342) -/

/-- The state in which a read has its tag, and its stream holds nothing. -/
def reading (s : State) (p : PostId) (u : TagOp) : State := (s.takeTag p (s.post p) u).dropStream (rowOf p) (colOf p) u.tag

/-- The stream is handed over and the postilion goes on: `hands` of the statement. -/
def HandsOver (s : State) (p : PostId) (c : Instr) (tag : Nat) (b : Blob) : Prop :=
  ((s.arr.cur.bind fun k => k.feed (rowOf p) (colOf p) tag b) = none → Does c s fun t =>
    t.post p = wentOn (s.post p) ∧ t.stream (rowOf p) (colOf p) tag = some ⟨rowOf p, colOf p, tag, b⟩ ∧ t.arr = { s.arr with streams := t.arr.streams }
    ∧ OnlyPost s t p ∧ t.serial = s.serial + 1 ∧ Frame [.posts, .yards, .serial, .arr] [] s t)
  ∧ ∀ k, (s.arr.cur.bind fun k => k.feed (rowOf p) (colOf p) tag b) = some k → Does c s fun t =>
    t.post p = wentOn (s.post p) ∧ t.arr = { (s.dropStream (rowOf p) (colOf p) tag).arr with cur := some k }
    ∧ OnlyPost s t p ∧ t.serial = s.serial + 1 ∧ Frame [.posts, .yards, .serial, .arr] [] s t

section
variable {s : State} {p : PostId} {u : TagOp} {c : Instr} {b : Blob}

theorem arr_takeTag (s : State) (p : Nat) (x : Post) (u : TagOp) : (s.takeTag p x u).arr = s.arr := (frame_setPost ..).part .arr (by simp)

theorem taken_reading (hr : Runs s p c) (u : TagOp) : Taken s p (holding (s.post p) u) [.posts, .yards, .serial, .arr] [] (reading s p u) :=
  (taken_of_runs hr u).after (frame_arr _ _) (by simp) (by simp) (by simp)

theorem arr_reading (s : State) (p : PostId) (u : TagOp) : (reading s p u).arr = (s.dropStream (rowOf p) (colOf p) u.tag).arr := by
  simp only [reading, State.dropStream, arr_takeTag]

/-- The state in which the stream waits for the array. -/
def streamQueued (s : State) (p : PostId) (u : TagOp) (b : Blob) : State :=
  let s1 := (reading s p u).dropStream (rowOf p) (colOf p) u.tag
  { s1 with arr := { s1.arr with streams := s1.arr.streams ++ [⟨rowOf p, colOf p, u.tag, b⟩] } }

/-- The state in which the running operation has taken it. -/
def streamFed (s : State) (p : PostId) (u : TagOp) (k : ArrCur) : State :=
  { reading s p u with arr := { (reading s p u).arr with cur := some k } }

theorem streamReady_none (h : (s.arr.cur.bind fun k => k.feed (rowOf p) (colOf p) u.tag b) = none) :
    (reading s p u).streamReady p u b = (streamQueued s p u b).tagDone p u.tag u.serial := by
  have hc : ((reading s p u).arr.cur.bind fun k => k.feed (rowOf p) (colOf p) u.tag b) = none := by rw [arr_reading]; exact h
  rw [State.streamReady]
  simp only [hc]
  rfl

theorem streamReady_some {k : ArrCur} (h : (s.arr.cur.bind fun k => k.feed (rowOf p) (colOf p) u.tag b) = some k) :
    (reading s p u).streamReady p u b = (streamFed s p u k).tagDone p u.tag u.serial := by
  have hc : ((reading s p u).arr.cur.bind fun k => k.feed (rowOf p) (colOf p) u.tag b) = some k := by rw [arr_reading]; exact h
  rw [State.streamReady]
  simp only [hc]
  rfl

theorem stream_streamQueued (s : State) (p : PostId) (u : TagOp) (b : Blob) :
    (streamQueued s p u b).stream (rowOf p) (colOf p) u.tag = some ⟨rowOf p, colOf p, u.tag, b⟩ := by
  have hnone : ((reading s p u).dropStream (rowOf p) (colOf p) u.tag).stream (rowOf p) (colOf p) u.tag = none :=
    List.find?_eq_none.2 fun x hx => Bool.eq_false_iff.1 ((Bool.not_eq_true' _).mp (List.mem_filter.1 hx).2)
  rw [State.stream] at hnone ⊢
  rw [streamQueued, List.find?_append, hnone]
  simp

theorem arr_streamQueued (s : State) (p : PostId) (u : TagOp) (b : Blob) :
    (streamQueued s p u b).arr = { s.arr with streams := (streamQueued s p u b).arr.streams } := by
  simp only [streamQueued, State.dropStream, arr_reading]

/-- What a read whose bytes are there at once does. -/
theorem handsOver_of_exec (hr : Runs s p c) (hf : ∀ w ∈ (s.post p).tags, w.tag ≠ u.tag)
    (he : exec c s = .next (s.keep ((reading s p u).streamReady p u b))) : HandsOver s p c u.tag b := by
  have hk := taken_reading hr u
  refine ⟨fun hn => ?_, fun k hn => ?_⟩
  · rw [streamReady_none hn] at he
    have hq : Taken s p (holding (s.post p) u) [.posts, .yards, .serial, .arr] [] (streamQueued s p u b) :=
      (hk.after ((frame_arr _ _).trans (frame_arr _ _)) (by simp) (by simp) (by simp)).mono (by simp) (by simp)
    have hd := hq.tagDone hr hf (hq.frame.now (by simp) (by simp) (by simp)) (by simp) (by simp)
    have harr : ((streamQueued s p u b).tagDone p u.tag u.serial).arr = (streamQueued s p u b).arr := by
      rw [tagDone_holding hq.post (wait_of_runs hr) hf]
      exact (frame_setPost ..).part .arr (by simp)
    refine hd.does he ⟨hd.post, ?_, ?_, hd.only, hd.serial, hd.frame⟩
    · rw [State.stream, harr]
      exact stream_streamQueued ..
    · rw [harr]
      exact arr_streamQueued ..
  · rw [streamReady_some hn] at he
    have hq : Taken s p (holding (s.post p) u) [.posts, .yards, .serial, .arr] [] (streamFed s p u k) :=
      (hk.after (frame_arr _ _) (by simp) (by simp) (by simp)).mono (by simp) (by simp)
    have hd := hq.tagDone hr hf (hq.frame.now (by simp) (by simp) (by simp)) (by simp) (by simp)
    have harr : ((streamFed s p u k).tagDone p u.tag u.serial).arr = (streamFed s p u k).arr := by
      rw [tagDone_holding hq.post (wait_of_runs hr) hf]
      exact (frame_setPost ..).part .arr (by simp)
    refine hd.does he ⟨hd.post, ?_, hd.only, hd.serial, hd.frame⟩
    rw [harr, streamFed, arr_reading]

/-- Zeros for the bytes of a read. -/
def readZeros (u : TagOp) : Blob := { data := List.replicate u.desc.len 0 }

theorem readOp_missing (h : (s.post p).missing = true) :
    s.readOp p (s.post p) u = (reading s p u).streamReady p u (voidBlob u.desc.len) := if_pos h

theorem readOp_skipped (h : (s.post p).missing = false) (hs : s.skipped p = true) :
    s.readOp p (s.post p) u = (reading s p u).streamReady p u (readZeros u) := (if_neg (Bool.eq_false_iff.1 h)).trans (if_pos hs)

/-- A read's operation once its n requests are made. -/
def asked (u : TagOp) (n : Nat) : TagOp := { u with parts := n, blob := some (readZeros u), issued := true }

/-- The requests of a depot read. -/
def drdReqs (s : State) (p : PostId) (u : TagOp) : List DepotReq :=
  depotReqs (s.reqFor p false (tagRef p u)) (offsetOf u.desc.addr) u.desc.len 0 []

/-- The requests of a hitch read. -/
def hrdReqs (s : State) (p : PostId) (u : TagOp) : List HitchReq :=
  hitchReqs (s.reqFor p false (tagRef p u)) (portFor (rowOf p)) [] (s.hostPieces (s.instOf p) u.desc.addr u.desc.len) 0

/-- The state in which a read has its tag with n requests. -/
def readAsked (s : State) (p : PostId) (u : TagOp) (n : Nat) : State := (reading s p u).updTag p u.tag u.serial fun v =>
  { v with parts := n, blob := some (readZeros u), issued := true }

theorem readOp_drd (h : (s.post p).missing = false) (hs : s.skipped p = false) (hk : u.kind = .drd) :
    s.readOp p (s.post p) u = (readAsked s p u (drdReqs s p u).length).depotAdd (drdReqs s p u) :=
  (if_neg (Bool.eq_false_iff.1 h)).trans ((if_neg (Bool.eq_false_iff.1 hs)).trans (if_pos (beq_iff_eq.2 hk)))

theorem readOp_hrd (h : (s.post p).missing = false) (hs : s.skipped p = false) (hk : u.kind = .hrd) :
    s.readOp p (s.post p) u = (readAsked s p u (hrdReqs s p u).length).hitchAdd (hrdReqs s p u) :=
  (if_neg (Bool.eq_false_iff.1 h)).trans ((if_neg (Bool.eq_false_iff.1 hs)).trans (if_neg (by simp [hk])))

theorem taken_readAsked (hr : Runs s p c) (hf : ∀ w ∈ (s.post p).tags, w.tag ≠ u.tag) (n : Nat) :
    Taken s p (holding (s.post p) (asked u n)) [.posts, .yards, .serial, .arr] [] (readAsked s p u n) :=
  have hk := taken_reading hr u
  hk.updTag hr hf (hk.frame.now (by simp) (by simp) (by simp)) (by simp) (by simp) fun v =>
    { v with parts := n, blob := some (readZeros u), issued := true }

end

end Sys2Proof

namespace Sys2Proof

open Machine

/-! ## The queue of hitch requests (R146, R342) -/

/-- One step of `pumpHitch`: the request is issued where its port has a credit, and waits otherwise. -/
def pumpOne (s : State) (r : HitchReq) : State :=
  if 0 < sget (fun _ => 0) s.hitch.cred r.port then s.issueFor r else { s with hitch := { s.hitch with waitq := s.hitch.waitq ++ [r] } }

/-- The order in which waiting requests are issued: column 14's before the groom unit's. -/
def hitchOrder (l : List HitchReq) : List HitchReq := (l.filter fun r => !r.grooms) ++ l.filter HitchReq.grooms

/-- The state with waiting requests l. -/
def withWaitq (s : State) (l : List HitchReq) : State := { s with hitch := { s.hitch with waitq := l } }

theorem pumpHitch_eq (s : State) : s.pumpHitch = (hitchOrder s.hitch.waitq).foldl pumpOne (withWaitq s []) := rfl

theorem hitchAdd_eq (s : State) (rs : List HitchReq) : s.hitchAdd rs = (hitchOrder (s.hitch.waitq ++ rs)).foldl pumpOne (withWaitq s []) := rfl

theorem mem_hitchOrder {r : HitchReq} {l : List HitchReq} (h : r ∈ hitchOrder l) : r ∈ l := by
  rcases List.mem_append.1 h with h | h <;> exact (List.mem_filter.1 h).1

theorem hitchOrder_singleton (r : HitchReq) : hitchOrder [r] = [r] := by
  cases h : r.grooms <;> simp [hitchOrder, h]

/-! ### What it leaves alone -/

section
variable (s : State) (r : HitchReq)

theorem frame_issueReq : Frame [.hitch, .yards, .outbox] [] s (s.issueReq r) :=
  (((frame_hitch s _).append (frame_yards _ _)).append (frame_outbox _ _)).mono (by simp) (by simp)

theorem frame_groomWrote (job : Nat) : Frame [.insts, .groom] [] s (s.groomWrote job) := by
  unfold State.groomWrote
  split
  · split
    · exact ((frame_insts s _).append (frame_groom _ _)).mono (by simp) (by simp)
    · exact Frame.refl ..
  · exact Frame.refl ..

theorem frame_issueFor : Frame [.hitch, .yards, .outbox, .insts, .groom] [] s (s.issueFor r) := by
  unfold State.issueFor
  split
  · split
    · exact ((frame_issueReq s r).append (frame_groomWrote _ _)).mono (by simp) (by simp)
    · exact (frame_issueReq s r).mono (by simp) (by simp)
  · exact (frame_issueReq s r).mono (by simp) (by simp)

theorem frame_pumpOne : Frame [.hitch, .yards, .outbox, .insts, .groom] [] s (pumpOne s r) := by
  unfold pumpOne
  split
  · exact frame_issueFor s r
  · exact (frame_hitch s _).mono (by simp) (by simp)

theorem frame_hitchAdd (rs : List HitchReq) : Frame [.hitch, .yards, .outbox, .insts, .groom] [] s (s.hitchAdd rs) := by
  rw [hitchAdd_eq]
  exact ((frame_hitch s _).mono (by simp) (by simp)).trans (Frame.foldl _ (fun u x _ => frame_pumpOne u x) _)

theorem hitch_groomWrote (job : Nat) : (s.groomWrote job).hitch = s.hitch := (frame_groomWrote s job).part .hitch (by simp)

/-- Issuing leaves the depot's requests. -/
theorem dreqs_pumpOne : (pumpOne s r).hitch.dreqs = s.hitch.dreqs := by
  unfold pumpOne
  split
  · unfold State.issueFor
    split
    · split
      · rw [hitch_groomWrote]
        rfl
      · rfl
    · rfl
  · rfl

theorem dreqs_hitchAdd (rs : List HitchReq) : (s.hitchAdd rs).hitch.dreqs = s.hitch.dreqs := by
  rw [hitchAdd_eq]
  generalize hitchOrder (s.hitch.waitq ++ rs) = l
  have h (u : State) : (l.foldl pumpOne u).hitch.dreqs = u.hitch.dreqs := by
    induction l generalizing u with
    | nil => rfl
    | cons r l ih => exact (ih _).trans (dreqs_pumpOne u r)
  exact h _

end

/-! ### Without credits all wait; one request with a credit is issued -/

theorem foldl_pumpOne_idle {l : List HitchReq} {s : State} (h : ∀ r ∈ l, sget (fun _ => 0) s.hitch.cred r.port = 0) :
    l.foldl pumpOne s = withWaitq s (s.hitch.waitq ++ l) := by
  induction l generalizing s with
  | nil => simp [withWaitq]
  | cons r l ih =>
    have hr : pumpOne s r = withWaitq s (s.hitch.waitq ++ [r]) := if_neg (by simp [h r])
    rw [List.foldl_cons, hr, ih (s := withWaitq s (s.hitch.waitq ++ [r])) fun x hx => h x (List.mem_cons_of_mem _ hx)]
    simp [withWaitq]

theorem hitchAdd_idle {s : State} {rs : List HitchReq} (h : ∀ r ∈ s.hitch.waitq ++ rs, sget (fun _ => 0) s.hitch.cred r.port = 0) :
    s.hitchAdd rs = withWaitq s (hitchOrder (s.hitch.waitq ++ rs)) := by
  rw [hitchAdd_eq, foldl_pumpOne_idle (s := withWaitq s []) fun r hr => h r (mem_hitchOrder hr)]
  rfl

theorem hitchAdd_credited {s : State} {r : HitchReq} (hw : s.hitch.waitq = []) (hc : 0 < sget (fun _ => 0) s.hitch.cred r.port)
    (hu : r.grooms = false) : s.hitchAdd [r] = (withWaitq s []).issueReq r := by
  have hi : (withWaitq s []).issueFor r = (withWaitq s []).issueReq r := by
    unfold State.issueFor
    split
    · next h => simp [HitchReq.grooms, h] at hu
    · rfl
  rw [hitchAdd_eq, hw, List.nil_append, hitchOrder_singleton]
  exact (if_pos hc).trans hi

/-- The requests of a hitch operation are of its direction and its user, with no beat sent. -/
theorem mem_hitchReqs {q : ReqFor} {port : Nat → Nat} {data : List Byte} {ps : List (Nat × Nat)} {o : Nat} {r : HitchReq}
    (h : r ∈ hitchReqs q port data ps o) : r.wr = q.wr ∧ r.use = q.use ∧ r.beats = 0 := by
  induction ps generalizing o with
  | nil => cases h
  | cons x ps ih =>
    rcases List.mem_append.1 h with h | h
    · obtain ⟨-, -, rfl⟩ := List.mem_map.1 h
      exact ⟨rfl, rfl, rfl⟩
    · exact ih h

/-- A read issued: its request, its credit, and what the port sends. -/
theorem issueReq_read {s : State} {r : HitchReq} (hw : r.wr = false) (hb : r.beats = 0) :
    (s.issueReq r).hitch.reqs = s.hitch.reqs ++ [{ r with tag := s.nextHitchTag, t := s.now }]
    ∧ (s.issueReq r).hitch.waitq = s.hitch.waitq
    ∧ (s.issueReq r).hitch.cred = sset (fun _ => 0) s.hitch.cred r.port (sget (fun _ => 0) s.hitch.cred r.port - 1)
    ∧ (s.issueReq r).outbox = s.outbox ++ [.hitchRead r.port s.nextHitchTag r.yg r.addr r.len] := by
  refine ⟨?_, rfl, rfl, ?_⟩
  · simp [State.issueReq, State.emit, State.setYard, hw, ← hb]
  · simp [State.issueReq, State.emit, State.setYard, hw]


/-! ## HRD and DRD -/

section
variable {s : State} {p : PostId} {u : TagOp} {c : Instr}

theorem hitch_readAsked (hr : Runs s p c) (hf : ∀ w ∈ (s.post p).tags, w.tag ≠ u.tag) (n : Nat) : (readAsked s p u n).hitch = s.hitch :=
  (taken_readAsked hr hf n).frame.part .hitch (by simp)

/-- The depot's requests are made. -/
theorem does_drd (hr : Runs s p c) (hf : ∀ w ∈ (s.post p).tags, w.tag ≠ u.tag)
    (he : exec c s = .next (s.keep ((readAsked s p u (drdReqs s p u).length).depotAdd (drdReqs s p u)))) : Does c s fun t =>
      t.post p = holding (s.post p) (asked u (drdReqs s p u).length)
      ∧ t.hitch = { s.hitch with dreqs := s.hitch.dreqs ++ drdReqs s p u } ∧ OnlyPost s t p ∧ t.serial = s.serial + 1
      ∧ Frame [.posts, .yards, .serial, .arr, .hitch] [] s t := by
  have hd := (taken_readAsked hr hf (drdReqs s p u).length).after (frame_depotAdd _ (drdReqs s p u)) (by simp) (by simp) (by simp)
  refine hd.does he ⟨hd.post, ?_, hd.only, hd.serial, hd.frame⟩
  rw [State.depotAdd, hitch_readAsked hr hf]

/-- The hitch ports' requests are queued, and one with a credit is issued. -/
theorem does_hrd (hr : Runs s p c) (hf : ∀ w ∈ (s.post p).tags, w.tag ≠ u.tag)
    (he : exec c s = .next (s.keep ((readAsked s p u (hrdReqs s p u).length).hitchAdd (hrdReqs s p u)))) : Does c s fun t =>
      t.post p = holding (s.post p) (asked u (hrdReqs s p u).length) ∧ (∀ q : Nat, q ≠ p → t.post q = s.post q)
      ∧ t.serial = s.serial + 1 ∧ t.hitch.dreqs = s.hitch.dreqs
      ∧ ((∀ r ∈ s.hitch.waitq ++ hrdReqs s p u, sget (fun _ => 0) s.hitch.cred r.port = 0) →
        t.hitch = { s.hitch with waitq := hitchOrder (s.hitch.waitq ++ hrdReqs s p u) })
      ∧ (∀ r, s.hitch.waitq = [] → hrdReqs s p u = [r] → 0 < sget (fun _ => 0) s.hitch.cred r.port →
        t.hitch.reqs = s.hitch.reqs ++ [{ r with tag := s.nextHitchTag, t := s.now }] ∧ t.hitch.waitq = []
        ∧ t.hitch.cred = sset (fun _ => 0) s.hitch.cred r.port (sget (fun _ => 0) s.hitch.cred r.port - 1)
        ∧ t.outbox = s.outbox ++ [.hitchRead r.port s.nextHitchTag r.yg r.addr r.len])
      ∧ Frame [.posts, .yards, .serial, .arr, .hitch, .outbox, .insts, .groom] [] s t := by
  have hk := taken_readAsked hr hf (hrdReqs s p u).length
  have hh := hitch_readAsked hr hf (hrdReqs s p u).length
  generalize readAsked s p u (hrdReqs s p u).length = v at he hk hh
  have hadd := frame_hitchAdd v (hrdReqs s p u)
  have hposts : (v.hitchAdd (hrdReqs s p u)).posts = v.posts := hadd.part .posts (by simp)
  have hserial : (v.hitchAdd (hrdReqs s p u)).serial = v.serial := hadd.part .serial (by simp)
  have hframe := (hk.frame.append hadd).mono (qs := [.posts, .yards, .serial, .arr, .hitch, .outbox, .insts, .groom]) (gs := []) (by simp) (by simp)
  refine does_of_frame he hframe ⟨?_, fun q hq => ?_, hserial.trans hk.serial, ?_, fun h0 => ?_, fun r hw h1 hc => ?_, hframe⟩
  · exact (congrArg (sget _ · p) hposts).trans hk.post
  · exact (congrArg (sget _ · q) hposts).trans (hk.only.1 q hq)
  · rw [dreqs_hitchAdd, hh]
  · rw [← hh] at h0 ⊢
    rw [hitchAdd_idle h0]
    rfl
  · obtain ⟨hwr, huse, hb⟩ := mem_hitchReqs (h1 ▸ List.mem_singleton_self r : r ∈ hrdReqs s p u)
    have hg : r.grooms = false := by simp [HitchReq.grooms, huse, State.reqFor]
    have hnow : (withWaitq v []).now = s.now := hk.frame.now (by simp) (by simp) (by simp)
    have hout : (withWaitq v []).outbox = s.outbox := hk.frame.part .outbox (by simp)
    have htag : (withWaitq v []).nextHitchTag = s.nextHitchTag := congrArg (·.nextTag % 65536) hh
    have hi := issueReq_read (s := withWaitq v []) hwr hb
    rw [hnow, hout, htag] at hi
    rw [← hh] at hw hc ⊢
    rw [h1, hitchAdd_credited hw hc hg]
    exact hi

end

end Sys2Proof

namespace Sys2Proof

open Machine

/-! ## RECV (R298) -/

/-- The state in which a RECV has its tag, and its buffer is empty. -/
def receiving (s : State) (p : PostId) (u : TagOp) : State := (s.takeTag p (s.post p) u).dropRx (rowOf p) u.desc.addr

/-- The state in which carriage r is in its buffer. -/
def received (s : State) (p : PostId) (u : TagOp) (r : RxCar) : State :=
  let s1 := (receiving s p u).putRx (rowOf p) u.desc.addr (((receiving s p u).carBlob r.id r.c).slice 0 u.desc.len)
  { s1 with net := { s1.net with rx := s1.net.rx.erase r } }

section
variable {s : State} {p : PostId} {u : TagOp} {c : Instr} {a : GReg} {i : BitVec 14}

theorem exec_recv (h : Runs s p (.recv p a i)) (ho : colOf p < 12) (hc : colOf p % 2 = 1) (hr : DataReady s p a i) :
    exec (.recv p a i) s = .next (s.keep
      (if s.foreignLink p then s.postFault p 2
        else (receiving s p (s.newTag (i.toNat % 8) .recv (descBytes s p a i))).tryRecv p (s.newTag (i.toNat % 8) .recv (descBytes s p a i)))) :=
  dataOp_ready h rfl (by simp [ho, hc]) hr

theorem taken_receiving (hr : Runs s p c) (u : TagOp) : Taken s p (holding (s.post p) u) [.posts, .yards, .serial, .arr] [] (receiving s p u) :=
  (taken_of_runs hr u).after (frame_arr _ _) (by simp) (by simp) (by simp)

theorem net_receiving (hr : Runs s p c) (u : TagOp) : (receiving s p u).net = s.net := (taken_receiving hr u).frame.part .net (by simp)

theorem rxFor_receiving (hr : Runs s p c) (u v : TagOp) : (receiving s p u).rxFor p v = s.rxFor p v := by
  simp only [State.rxFor, (taken_receiving hr u).post, net_receiving hr]
  rfl

theorem carBlob_congr {t : State} (h : t.net = s.net) (id : Nat) (k : Carriage) : t.carBlob id k = s.carBlob id k := by
  rw [State.carBlob, State.carBlob, State.unconfirmed, State.unconfirmed, h]

theorem rxBuf_dropRx (s : State) (row a : Nat) : (s.dropRx row a).rxBuf row a = none :=
  List.find?_eq_none.2 fun _ hx => Bool.eq_false_iff.1 ((Bool.not_eq_true' _).mp (List.mem_filter.1 hx).2)

theorem rxBuf_putRx (s : State) (row a : Nat) (b : Blob) : (s.putRx row a b).rxBuf row a = some { row := row, addr := bufAddr a, blob := b } := by
  have h := rxBuf_dropRx s row a
  rw [State.rxBuf] at h ⊢
  rw [State.putRx, List.find?_append, h]
  simp

theorem does_recv_waits (hr : Runs s p c) (hn : s.rxFor p u = none) (he : exec c s = .next (s.keep ((receiving s p u).tryRecv p u))) :
    Does c s fun t => t.post p = holding (s.post p) u ∧ OnlyPost s t p ∧ t.rxBuf (rowOf p) u.desc.addr = none
      ∧ Frame [.posts, .yards, .serial, .arr] [] s t := by
  have hk := taken_receiving hr u
  have hstep : (receiving s p u).tryRecv p u = receiving s p u := by
    rw [State.tryRecv]
    simp only [rxFor_receiving hr, hn]
  rw [hstep] at he
  exact hk.does he ⟨hk.post, hk.only, rxBuf_dropRx .., hk.frame⟩

theorem does_recv_takes (hr : Runs s p c) (hf : ∀ w ∈ (s.post p).tags, w.tag ≠ u.tag) {r : RxCar} (hn : s.rxFor p u = some r)
    (he : exec c s = .next (s.keep ((receiving s p u).tryRecv p u))) : Does c s fun t =>
      t.post p = wentOn (s.post p) ∧ t.net = { s.net with rx := s.net.rx.erase r }
      ∧ (t.rxBuf (rowOf p) u.desc.addr).map (·.blob) = some ((s.carBlob r.id r.c).slice 0 u.desc.len)
      ∧ Frame [.posts, .yards, .serial, .arr, .net] [] s t := by
  have hstep : (receiving s p u).tryRecv p u = (received s p u r).tagDone p u.tag u.serial := by
    rw [State.tryRecv]
    simp only [rxFor_receiving hr, hn]
    rfl
  rw [hstep] at he
  have hk : Taken s p (holding (s.post p) u) [.posts, .yards, .serial, .arr, .net] [] (received s p u r) :=
    ((taken_receiving hr u).after (((frame_arr _ _).trans (frame_arr _ _)).append (frame_net _ _)) (by simp) (by simp) (by simp)).mono
      (by simp) (by simp)
  have hd := hk.tagDone hr hf (hk.frame.now (by simp) (by simp) (by simp)) (by simp) (by simp)
  have hset := frame_setPost (received s p u r) p (wentOn (s.post p))
  rw [← tagDone_holding hk.post (wait_of_runs hr) hf] at hset
  have hnet : ((received s p u r).tagDone p u.tag u.serial).net = (received s p u r).net := hset.part .net (by simp)
  have harr : ((received s p u r).tagDone p u.tag u.serial).arr = (received s p u r).arr := hset.part .arr (by simp)
  refine hd.does he ⟨hd.post, ?_, ?_, hd.frame⟩
  · rw [hnet, ← net_receiving hr u]
    rfl
  · rw [State.rxBuf, harr, ← carBlob_congr (net_receiving hr u)]
    exact congrArg (Option.map (·.blob)) (rxBuf_putRx ..)

/-! ## AOP (R24, R115, R144) -/

/-- The operation's tag, on an array operation. -/
def aopOp (s : State) (tag : Nat) (bs : List Byte) : TagOp := { s.newTag tag .aop bs with issued := true }

theorem exec_aop (h : Runs s p (.aop p a i)) (ho : colOf p = 12 ∨ colOf p = 13) (hr : DataReady s p a i) :
    exec (.aop p a i) s = .next (s.keep
      (if s.aopBad (s.arrOp p (s.post p) (descBytes s p a i) (i.toNat % 8)) then s.postFault p 6
        else s.issueAop p (s.post p) (descBytes s p a i) (s.arrOp p (s.post p) (descBytes s p a i) (i.toNat % 8)))) :=
  dataOp_ready h rfl (by simp [ho]) hr

/-- The state in which operation o has joined the array's queue. -/
def aopQueued (s : State) (p : PostId) (bs : List Byte) (o : ArrOp) : State :=
  let s1 := s.takeTag p (s.post p) (aopOp s o.tag bs)
  { (s1.updInst (fun i => i.team == o.team && i.n == o.inst && i.st == .running) fun i => o.scrRanges.foldl Inst.widen i) with
    arr := { s1.arr with queue := o.join s1.arr.queue } }

/-- The fields of ARR_LASTOP with the descriptor. -/
def lastOpFields (row : Nat) (bs : List Byte) : List (Fld × Nat × Nat) :=
  nat4.map fun w => (.ARR_LASTOP_DESC, 4 * row + w, leNat ((bs.drop (8 * w)).take 8))

theorem issueAop_eq (s : State) (p : PostId) (bs : List Byte) (o : ArrOp) :
    s.issueAop p (s.post p) bs o = (aopQueued s p bs o).setfs (lastOpFields (rowOf p) bs) := rfl

theorem taken_aopQueued (hr : Runs s p c) (bs : List Byte) (o : ArrOp) :
    Taken s p (holding (s.post p) (aopOp s o.tag bs)) [.posts, .yards, .serial, .insts, .arr] [] (aopQueued s p bs o) :=
  (taken_of_runs hr _).after ((frame_insts _ _).append (frame_arr _ _)) (by simp) (by simp) (by simp)

theorem rf_lastOp (t : State) (row : Nat) (bs : List Byte) {w : Nat} (hw : w < 4) :
    (t.setfs (lastOpFields row bs)).rf .ARR_LASTOP_DESC (4 * row + w) = leNat ((bs.drop (8 * w)).take 8) := by
  have hlt : leNat ((bs.drop (8 * w)).take 8) < 2 ^ fwidth .ARR_LASTOP_DESC :=
    Nat.lt_of_lt_of_le (leNat_lt _) (Nat.pow_le_pow_right (by decide) (Nat.mul_le_mul_left 8 (List.length_take_le ..)))
  rw [rf_setfs (v := leNat ((bs.drop (8 * w)).take 8)), Nat.mod_eq_of_lt hlt]
  · exact List.mem_map.2 ⟨w, by simp [nat4]; omega, rfl⟩
  · intro v hm
    obtain ⟨k, -, hk⟩ := List.mem_map.1 hm
    simp only [Prod.mk.injEq, true_and] at hk
    obtain ⟨hkw, rfl⟩ := hk
    rw [show k = w by omega]

theorem does_aop (hr : Runs s p c) (bs : List Byte) (o : ArrOp) (he : exec c s = .next (s.keep (s.issueAop p (s.post p) bs o))) :
    Does c s fun t => t.arr = { s.arr with queue := o.join s.arr.queue } ∧ (t.post p).pc = nextPc (s.post p) ∧ OnlyPost s t p
      ∧ (∀ w : Nat, w < 4 → t.rf .ARR_LASTOP_DESC (4 * rowOf p + w) = leNat ((bs.drop (8 * w)).take 8))
      ∧ Frame [.posts, .yards, .serial, .insts, .arr] ((List.range 4).map fun w => (.ARR_LASTOP_DESC, 4 * rowOf p + w)) s t := by
  rw [issueAop_eq] at he
  have hset := frame_setfs (lastOpFields (rowOf p) bs) (aopQueued s p bs o)
  have hd := (taken_aopQueued hr bs o).after hset (by simp) (by simp) (by simp)
  have harr : ((aopQueued s p bs o).setfs (lastOpFields (rowOf p) bs)).arr = (aopQueued s p bs o).arr := hset.part .arr (by simp)
  refine hd.does he ⟨?_, congrArg Post.pc hd.post, hd.only, fun w hw => rf_lastOp _ _ _ hw, hd.frame⟩
  rw [harr]
  simp only [aopQueued, arr_takeTag]

end

/-! ## The statement -/

section
variable {s : State} {p : PostId} {a : GReg} {i : BitVec 14} {c : Instr} {own : Nat → Bool} {f : State → Post → List Byte → Nat → State}

/-- The traps of a datapath instruction and its stall. -/
theorem dataOp_traps (h : Runs s p c) (he : exec c s = event s fun s => s.dataOp p c a i own f) :
    (own (colOf p) = false → exec c s = .next (s.keep (s.postFault p 2)))
    ∧ (own (colOf p) = true → ¬ ((descAddr (s.post p) a i).toNat % 8 = 0 ∧ (descAddr (s.post p) a i).toNat + 32 ≤ 16384) →
      exec c s = .next (s.keep (s.postFault p 3)))
    ∧ (own (colOf p) = true → (descAddr (s.post p) a i).toNat % 8 = 0 → (descAddr (s.post p) a i).toNat + 32 ≤ 16384 →
      (∃ t ∈ (s.post p).tags, t.tag = i.toNat % 8) → Does c s (PostIs s p { s.post p with wait := .tagStall })) :=
  ⟨dataOp_foreign h he, dataOp_misplaced h he, dataOp_stalls h he⟩

end

section
variable {s : State} {p : PostId} {a : GReg} {i : BitVec 14}

/-- The read that an HRD takes its tag for. -/
def hrdOp (s : State) (p : PostId) (a : GReg) (i : BitVec 14) : TagOp := s.newTag (i.toNat % 8) .hrd (descBytes s p a i)

/-- The read that a DRD takes its tag for. -/
def drdOp (s : State) (p : PostId) (a : GReg) (i : BitVec 14) : TagOp := s.newTag (i.toNat % 8) .drd (descBytes s p a i)

theorem exec_hrd (h : Runs s p (.hrd p a i)) (hr : DataReady s p a i) (hc : colOf p = 14) :
    exec (.hrd p a i) s = .next (s.keep (s.readOp p (s.post p) (hrdOp s p a i))) := dataOp_ready h rfl (beq_iff_eq.2 hc) hr

theorem exec_drd (h : Runs s p (.drd p a i)) (hr : DataReady s p a i) (hc : colOf p = 15) :
    exec (.drd p a i) s = .next (s.keep (s.readOp p (s.post p) (drdOp s p a i))) := dataOp_ready h rfl (beq_iff_eq.2 hc) hr

/-- The XMIT's bytes are staged for a mirror whose link has failed: `mirLost` of the statement. -/
def xmitLost (s : State) (p : PostId) (a : GReg) (i : BitVec 14) : Bool :=
  (s.mirPlace (rowOf p) (colLink (colOf p)) (descOf (descBytes s p a i))).isSome && s.mirDown (colLink (colOf p))

theorem xmit_cases (h : Runs s p (.xmit p a i)) (hr : DataReady s p a i) (ho : colOf p < 12) (hc : colOf p % 2 = 0) :
    (s.foreignLink p = true → exec (.xmit p a i) s = .next (s.keep (s.postFault p 2)))
    ∧ (s.foreignLink p = false → s.mirUnstaged p (descOf (descBytes s p a i)) = false → xmitLost s p a i = false →
      TakesTag s p (.xmit p a i) (xmitOp s p a i))
    ∧ (s.foreignLink p = false → s.mirUnstaged p (descOf (descBytes s p a i)) = true → Does (.xmit p a i) s fun t =>
      t.post p = wentOn (s.post p) ∧ OnlyPost s t p ∧ t.serial = s.serial + 1 ∧ Frame [.posts, .yards, .serial] [] s t)
    ∧ (s.foreignLink p = false → s.mirUnstaged p (descOf (descBytes s p a i)) = false → xmitLost s p a i = true → Does (.xmit p a i) s fun t =>
      t.post p = wentOn (s.post p) ∧ OnlyPost s t p ∧ t.serial = s.serial + 1 ∧ Counted s .GRM_MIR_OUTSTAT_LOST 0 t
      ∧ t.groom = { s.groom with mirSent := s.groom.mirSent + min 8128 (descOf (descBytes s p a i)).len }
      ∧ Frame [.posts, .yards, .serial, .groom] [(.GRM_MIR_OUTSTAT_LOST, 0)] s t) := by
  have he : exec _ s = .next (s.keep (if s.foreignLink p then _ else if s.mirUnstaged p _ then _ else if xmitLost s p a i then _ else _)) :=
    exec_xmit h ho hc hr
  refine ⟨fun hl => ?_, fun hl hu hm => ?_, fun hl hu => ?_, fun hl hu hm => ?_⟩
  · rwa [hl] at he
  · rw [hl, hu, hm] at he
    exact takesTag_of_exec h he
  · rw [hl, hu] at he
    exact does_xmit_unstaged h hr he
  · rw [hl, hu, hm] at he
    exact does_xmit_lost h hr he

/-- The reads of a missing or skipped member hand over their stream at once. -/
theorem readOp_hands {c : Instr} {u : TagOp} (h : Runs s p c) (hf : ∀ w ∈ (s.post p).tags, w.tag ≠ u.tag)
    (he : exec c s = .next (s.keep (s.readOp p (s.post p) u))) :
    ((s.post p).missing = true → HandsOver s p c u.tag (voidBlob u.desc.len))
    ∧ ((s.post p).missing = false → s.skipped p = true → HandsOver s p c u.tag (readZeros u)) :=
  ⟨fun hm => handsOver_of_exec h hf (readOp_missing hm ▸ he), fun hm hs => handsOver_of_exec h hf (readOp_skipped hm hs ▸ he)⟩

theorem hrd_asks (h : Runs s p (.hrd p a i)) (hr : DataReady s p a i) (hc : colOf p = 14) (hm : (s.post p).missing = false)
    (hs : s.skipped p = false) : exec (.hrd p a i) s = .next (s.keep
      ((readAsked s p (hrdOp s p a i) (hrdReqs s p (hrdOp s p a i)).length).hitchAdd (hrdReqs s p (hrdOp s p a i)))) := by
  rw [exec_hrd h hr hc, readOp_hrd hm hs rfl]

theorem drd_asks (h : Runs s p (.drd p a i)) (hr : DataReady s p a i) (hc : colOf p = 15) (hm : (s.post p).missing = false)
    (hs : s.skipped p = false) : exec (.drd p a i) s = .next (s.keep
      ((readAsked s p (drdOp s p a i) (drdReqs s p (drdOp s p a i)).length).depotAdd (drdReqs s p (drdOp s p a i)))) := by
  rw [exec_drd h hr hc, readOp_drd hm hs rfl]

theorem recv_cases (h : Runs s p (.recv p a i)) (hr : DataReady s p a i) (ho : colOf p < 12) (hc : colOf p % 2 = 1)
    (hl : s.foreignLink p = false) (u : TagOp) (hu : u = s.newTag (i.toNat % 8) .recv (descBytes s p a i)) :
    (s.rxFor p u = none → Does (.recv p a i) s fun t => t.post p = holding (s.post p) u ∧ OnlyPost s t p
      ∧ t.rxBuf (rowOf p) u.desc.addr = none ∧ Frame [.posts, .yards, .serial, .arr] [] s t)
    ∧ ∀ r, s.rxFor p u = some r → Does (.recv p a i) s fun t =>
      t.post p = wentOn (s.post p) ∧ t.net = { s.net with rx := s.net.rx.erase r }
      ∧ (t.rxBuf (rowOf p) u.desc.addr).map (·.blob) = some ((s.carBlob r.id r.c).slice 0 u.desc.len)
      ∧ Frame [.posts, .yards, .serial, .arr, .net] [] s t := by
  have he := exec_recv h ho hc hr
  rw [hl, ← hu] at he
  have hf : ∀ w ∈ (s.post p).tags, w.tag ≠ u.tag := hu ▸ hr.free
  exact ⟨fun hn => does_recv_waits h hn he, fun r hn => does_recv_takes h hf hn he⟩

theorem aop_cases (h : Runs s p (.aop p a i)) (hr : DataReady s p a i) (hc : colOf p = 12 ∨ colOf p = 13) :
    (s.aopBad (s.arrOp p (s.post p) (descBytes s p a i) (i.toNat % 8)) = true → exec (.aop p a i) s = .next (s.keep (s.postFault p 6)))
    ∧ (s.aopBad (s.arrOp p (s.post p) (descBytes s p a i) (i.toNat % 8)) = false → Does (.aop p a i) s fun t =>
      t.arr = { s.arr with queue := (s.arrOp p (s.post p) (descBytes s p a i) (i.toNat % 8)).join s.arr.queue }
      ∧ (t.post p).pc = nextPc (s.post p) ∧ OnlyPost s t p
      ∧ (∀ w : Nat, w < 4 → t.rf .ARR_LASTOP_DESC (4 * rowOf p + w) = leNat (((descBytes s p a i).drop (8 * w)).take 8))
      ∧ Frame [.posts, .yards, .serial, .insts, .arr] ((List.range 4).map fun w => (.ARR_LASTOP_DESC, 4 * rowOf p + w)) s t) := by
  have he := exec_aop h hc hr
  refine ⟨fun hb => ?_, fun hb => ?_⟩
  · rwa [hb] at he
  · rw [hb] at he
    exact does_aop h _ _ he

end

/-- Settles O7: the issue of the seven instructions is one (`exec_of_dataOp`), and what each does next follows the branches of
its meaning; a tag that was just taken is the only operation that `tagDone` frees. -/
theorem datapathInstructionsTakeTheirTag : Obligations.DatapathInstructionsTakeTheirTag := by
  intro s p a i x ad tag bs col row ready traps takes d ux mirLost hands zeros reads hreqs dreqs cred
  refine ⟨⟨fun h => (dataOp_traps h rfl :), fun h => (dataOp_traps h rfl :), fun h => (dataOp_traps h rfl :), fun h => (dataOp_traps h rfl :),
      fun h => (dataOp_traps h rfl :), fun h => (dataOp_traps h rfl :), fun h => (dataOp_traps h rfl :)⟩,
    xmit_cases, hwr_takesTag, dwr_takesTag, fun h hr hc => ?_, fun h hr hc => ?_, fun h hr ho hc hl => ?_, fun h hr ho hc hl => recv_cases h hr ho hc hl _ rfl,
    aop_cases⟩
  · obtain ⟨hmissing, hskipped⟩ := readOp_hands h (DataReady.free hr) (exec_hrd h hr hc)
    exact ⟨hmissing, hskipped, hrd_asks h hr hc, fun hm hs => does_hrd h (DataReady.free hr) (hrd_asks h hr hc hm hs)⟩
  · obtain ⟨hmissing, hskipped⟩ := readOp_hands h (DataReady.free hr) (exec_drd h hr hc)
    exact ⟨hmissing, hskipped, fun hm hs => does_drd h (DataReady.free hr) (drd_asks h hr hc hm hs)⟩
  · have he := exec_recv h ho hc hr
    rwa [hl] at he

end Sys2Proof

namespace Sys2Proof

open Machine

/-! # Binding records (O31) -/

/-- The record is written into the data RAMs of columns l of row y. -/
def recWritten (y a : Nat) (bs : List Byte) (l : List Nat) (s : State) : State :=
  l.foldl (fun (s : State) c => s.setPost (16 * y + c) ((s.post (16 * y + c)).wrRam a bs)) s

/-- Instance i bound, with its staging place. -/
def instBound (i : Inst) (stage len : Nat) (s : State) : State :=
  s.updInst (fun j => j.team == i.team && j.n == i.n) fun j => { j with st := .bound, stageBase := stage, stageLen := len }

theorem writeRecord_eq (s : State) (i : Inst) (id stage len : Nat) : s.writeRecord i id stage len =
    instBound i stage len (recWritten (s.rf .TT_TEAM_YARD i.team) (recAddr i.team i.n) (s.recBytes i id) (List.range 16) s) := rfl

theorem frame_recWritten (y a : Nat) (bs : List Byte) (l : List Nat) (s : State) : Frame [.posts, .yards] [] s (recWritten y a bs l s) :=
  Frame.foldl l (fun u _ _ => frame_setPost u _ _) s

theorem post_recWritten {y a : Nat} {bs : List Byte} {l : List Nat} (hl : l.Nodup) (s : State) (k : Nat) :
    (recWritten y a bs l s).post k = if k ∈ l.map (16 * y + ·) then (s.post k).wrRam a bs else s.post k := by
  induction l generalizing s with
  | nil => rfl
  | cons c l ih =>
    obtain ⟨hc, hl⟩ := List.nodup_cons.1 hl
    have hstep : recWritten y a bs (c :: l) s = recWritten y a bs l (s.setPost (16 * y + c) ((s.post (16 * y + c)).wrRam a bs)) := rfl
    rw [hstep, ih hl]
    by_cases hk : k = 16 * y + c
    · subst hk
      rw [if_neg (by simpa using hc), if_pos (by simp), State.post_setPost_same]
    · rw [State.post_setPost_other _ _ _ _ hk]
      simp [hk]

theorem mem_row {y k : Nat} : k ∈ (List.range 16).map (16 * y + ·) ↔ k / 16 = y := by
  simp only [List.mem_map, List.mem_range]
  refine ⟨fun ⟨c, hc, hk⟩ => by omega, fun h => ⟨k % 16, by omega, by omega⟩⟩

/-- The record is in its place on every postilion of row y, and on no other. -/
theorem post_recWritten_row (y a : Nat) (bs : List Byte) (s : State) (k : Nat) :
    (recWritten y a bs (List.range 16) s).post k = if k / 16 = y then (s.post k).wrRam a bs else s.post k := by
  rw [post_recWritten List.nodup_range, if_congr mem_row rfl rfl]

theorem length_recBytes (s : State) (i : Inst) (id : Nat) : (s.recBytes i id).length = 64 := by
  simp only [State.recBytes, List.length_append, length_leBytes]
  split <;> simp [length_leBytes]

/-- The record for i stands in its row, and i is bound: `bound` of the statement. -/
def RecordBound (s : State) (i : Inst) (id stage len : Nat) (t : State) : Prop :=
  (∀ c, c < 16 → ∀ k, sget byte0 (t.post (16 * s.rf .TT_TEAM_YARD i.team + c)).dram k =
    if recAddr i.team i.n ≤ k ∧ k < recAddr i.team i.n + 64 then (s.recBytes i id).getD (k - recAddr i.team i.n) 0
    else sget byte0 (s.post (16 * s.rf .TT_TEAM_YARD i.team + c)).dram k)
  ∧ (∀ p, p / 16 ≠ s.rf .TT_TEAM_YARD i.team → t.post p = s.post p)
  ∧ (∀ p, t.post p = { s.post p with dram := (t.post p).dram })
  ∧ t.insts = updWhere (fun j => j.team == i.team && j.n == i.n) (fun j => { j with st := .bound, stageBase := stage, stageLen := len }) s.insts
  ∧ Frame [.posts, .yards, .insts] [] s t

theorem wrRam_dram (x : Post) (a : Nat) (bs : List Byte) : x.wrRam a bs = { x with dram := (x.wrRam a bs).dram } := rfl

theorem recordBound_writeRecord (s : State) (i : Inst) (id stage len : Nat) : RecordBound s i id stage len (s.writeRecord i id stage len) := by
  have hf := frame_recWritten (s.rf .TT_TEAM_YARD i.team) (recAddr i.team i.n) (s.recBytes i id) (List.range 16) s
  have hw := post_recWritten_row (s.rf .TT_TEAM_YARD i.team) (recAddr i.team i.n) (s.recBytes i id) s
  have hlen := length_recBytes s i id
  rw [RecordBound, writeRecord_eq]
  generalize recWritten (s.rf .TT_TEAM_YARD i.team) (recAddr i.team i.n) (s.recBytes i id) (List.range 16) s = t at hf hw
  have hinsts : t.insts = s.insts := hf.part .insts (by simp)
  have hpost (k : Nat) : (instBound i stage len t).post k = t.post k := rfl
  refine ⟨fun c hc k => ?_, fun k hk => ?_, fun k => ?_, congrArg (updWhere _ _) hinsts,
    (hf.append (frame_insts _ _)).mono (by simp) (by simp)⟩
  · rw [hpost, hw, if_pos (by omega), Post.wrRam, sget_wrBytes, hlen]
  · rw [hpost, hw, if_neg hk]
  · rw [hpost, hw]
    split
    · exact wrRam_dram ..
    · rfl

section
variable {s : State} {q : QP} {id : BitVec 16} {i : Inst}

theorem exec_bind (hon : s.coreOn = true) (hi : s.insts.find? (fun j => j.cmd == some (q.val, id.toNat) && j.st == .waiting) = some i) :
    exec (.bindingRecordWrite q id) s = .next (s.keep
      (if !s.coachOk q || s.safe || !s.recFree (s.rf .TT_TEAM_YARD i.team) i.team i.n then s
        else if !i.epoch then s.writeRecord i id.toNat 0 0
        else if s.unknownHeld i.team then s
        else (s.stagePlace (s.rf .TT_TEAM_YARD i.team) (s.bufSizes i.entry).2).elim s
          fun a => s.writeRecord i id.toNat a (s.bufSizes i.entry).2)) := by
  show execBindingRecordWrite q id s = _
  rw [execBindingRecordWrite, event_on _ _ hon, State.bindRecord]
  simp only [hi]
  cases s.stagePlace (s.rf .TT_TEAM_YARD i.team) (s.bufSizes i.entry).2 <;> rfl

theorem does_writeRecord {stage len : Nat} (he : exec (.bindingRecordWrite q id) s = .next (s.keep (s.writeRecord i id.toNat stage len))) :
    Does (.bindingRecordWrite q id) s (RecordBound s i id.toNat stage len) :=
  have h := recordBound_writeRecord s i id.toNat stage len
  let ⟨_, _, _, _, hf⟩ := h
  does_of_frame he hf h

end

/-- Settles O31: the row's sixteen writes are each of one postilion, and the branches of BINDING_RECORD_WRITE are the cases. -/
theorem bindingRecordIsWrittenToTheRow : Obligations.BindingRecordIsWrittenToTheRow := by
  intro s q id i hon hi y a bs bound n
  have he := exec_bind hon hi
  refine ⟨fun hno => ?_, fun hc hs hr => ⟨length_recBytes .., fun hep => ?_, fun hep hw => ?_, fun b hep hu hp => ?_⟩⟩
  · rw [if_pos] at he
    · exact does_nothing he
    · rcases hno with h | h
      · simp [h]
      · simp [show s.recFree (s.rf .TT_TEAM_YARD i.team) i.team i.n = false from h]
  all_goals
    rw [hc, hs, show s.recFree (s.rf .TT_TEAM_YARD i.team) i.team i.n = true from hr, hep] at he
  · exact does_writeRecord he
  · rcases hw with h | h
    · rw [h] at he
      exact does_nothing he
    · rw [show s.stagePlace (s.rf .TT_TEAM_YARD i.team) (s.bufSizes i.entry).2 = none from h] at he
      exact does_nothing (he.trans (by simp))
  · rw [hu, show s.stagePlace (s.rf .TT_TEAM_YARD i.team) (s.bufSizes i.entry).2 = some b from hp] at he
    exact does_writeRecord he

end Sys2Proof

namespace Sys2Proof

open Machine

/-! # Timetables (O16) -/

theorem frame_tt (s : State) (x : TtStore) : Frame [.tt] [] s { s with tt := x } :=
  frame_of_parts rfl rfl rfl fun p _ => by cases p <;> simp_all [Part.Same]

/-! ## LOAD_TIMETABLE (R64) -/

theorem frame_adopt (s : State) (ft : Fetched) (ph : Phase) : Frame [.qs] [] s (s.adopt ft ph) := frame_qs s _

theorem adopted_adopt (s : State) (ft : Fetched) (ph : Phase) : Adopted s (s.adopt ft ph) ft.q ft.e ph := ⟨⟨ft.t0, rfl⟩, rfl, rfl⟩

/-- LOAD_TIMETABLE names no table that the coachman reads. -/
theorem tableOf_load {s : State} {q : Nat} {e : Entry} {fs : List (Nat × Nat)} (h : Starts s q 0x07 e fs) : tableOf e = none := by
  obtain ⟨-, hst, -, hform⟩ := h
  obtain ⟨ft, hft⟩ := Option.isSome_iff_exists.1 hst
  obtain ⟨-, -, hop⟩ := start?_some hft
  have hflags : flagsOk e = true := by
    by_contra hn
    rw [formBad, if_pos (by simpa using hn)] at hform
    cases hform
  have hfrag : eFrag e = false := by
    simp only [flagsOk, Bool.and_eq_true, hop] at hflags
    obtain ⟨-, hf⟩ := hflags
    simpa [fragOps] using hf
  simp [tableOf, hop, hfrag]

/-- The load that command e of pair q asks for. -/
def loadOf (s : State) (q : Nat) (e : Entry) (atMtc : Bool) : Load :=
  ⟨q, eId e, atMtc, ent e 24 8, rdBytes s.host (ent e 8 8) (min (ent e 16 4) 4194368)⟩

/-- The state in which that load is being checked. -/
def loading (s : State) (ft : Fetched) (ld : Load) : State :=
  { (s.adopt ft .load).setf .TT_STORE_STANDBY_VALID 0 0 with tt := { s.tt with standby := none, load := some ld } }

theorem frame_loading (s : State) (ft : Fetched) (ld : Load) : Frame [.qs, .tt] [(.TT_STORE_STANDBY_VALID, 0)] s (loading s ft ld) :=
  ((frame_adopt s ft .load).append (frame_setf _ .TT_STORE_STANDBY_VALID 0 0)).append (frame_tt _ _)

theorem standbyValid_loading (s : State) (ft : Fetched) (ld : Load) : (loading s ft ld).rf .TT_STORE_STANDBY_VALID = 0 :=
  ((frame_tt _ _).rf (by simp)).trans (State.rf_setf_same (s.adopt ft .load) .TT_STORE_STANDBY_VALID 0 0)

theorem startLoad_eq {s : State} {e : Entry} {atMtc : Bool} {ft : Fetched} (h : Starts s 0 0x07 e [(4, 1), (8, 8), (16, 4), (24, 8)])
    (hft : s.start? 0 0x07 e = some ft) (ha : ent e 4 1 = b2n atMtc) (hl : s.tt.load = none) (hw : s.tt.swap = none) :
    s.startLoad 0 e atMtc = loading s ft (loadOf s 0 e atMtc) := by
  have hdrop : s.dropSwap = s := by simp only [State.dropSwap, hw]
  rw [State.startLoad, if_neg (by simp [ha, hl])]
  refine (startCmd_read h hft fun _ => tableOf_load h).trans ?_
  rw [hdrop]
  rfl

theorem does_load {s : State} {c : Instr} {e : Entry} {atMtc : Bool} (h : Starts s 0 0x07 e [(4, 1), (8, 8), (16, 4), (24, 8)])
    (ha : ent e 4 1 = b2n atMtc) (hl : s.tt.load = none) (hw : s.tt.swap = none)
    (he : exec c s = .next (s.keep (s.startLoad 0 e atMtc))) : Does c s fun t =>
      t.tt = { s.tt with standby := none, load := some (loadOf s 0 e atMtc) } ∧ Adopted s t 0 e .load ∧ t.rf .TT_STORE_STANDBY_VALID = 0
      ∧ Frame [.qs, .tt] [(.TT_STORE_STANDBY_VALID, 0)] s t := by
  obtain ⟨ft, hft⟩ := Option.isSome_iff_exists.1 h.2.1
  obtain ⟨hq, hent, -⟩ := start?_some hft
  rw [startLoad_eq h hft ha hl hw] at he
  have hadopt := adopted_adopt s ft .load
  rw [hq, hent] at hadopt
  exact does_of_frame he (frame_loading ..) ⟨rfl, hadopt, standbyValid_loading .., frame_loading ..⟩

theorem exec_loadNow {s : State} {q : QP} {e : Entry} (hon : s.coreOn = true) (ha : ent e 4 1 = b2n false) :
    exec (.loadTimetableNow q e) s = .next (s.keep (s.startLoad q e false)) := by
  show execLoadTimetableNow q e s = _
  rw [execLoadTimetableNow, event_on _ _ hon, State.loadOther, if_neg (by rw [ha]; decide)]

theorem exec_loadAtMtc {s : State} {q : QP} {e : Entry} (hon : s.coreOn = true) :
    exec (.loadTimetableAtMtc q e) s = .next (s.keep (s.startLoad q e true)) := by
  show execLoadTimetableAtMtc q e s = _
  rw [execLoadTimetableAtMtc, event_on _ _ hon]

/-! ## The end of the checks (R64, R65) -/

/-- The state in which no load is being checked. -/
def noLoad (s : State) : State := { s with tt := { s.tt with load := none } }

/-- The state in which image im stands in the standby bank. -/
def inStandby (s : State) (im : Image) : State :=
  { noLoad s with tt := { s.tt with load := none, standby := some im } }.setf .TT_STORE_STANDBY_VALID 0 1

/-- The state in which load ld waits for its swap. -/
def awaitingSwap (s : State) (im : Image) (ld : Load) : State :=
  { inStandby s im with tt := { s.tt with load := none, standby := some im, swap := some ⟨ld.q, ld.id, ld.atMtc, ld.swapMtc⟩ } }

/-- What the end of load ld's checks does. -/
def checkedState (s : State) (ld : Load) : Nat ⊕ Image → State
  | .inl k => (noLoad s).finish ld.q ld.id 0x07 6 (invResult rTimetable k)
  | .inr im =>
    if !ld.atMtc then
      (if s.engSt = 0 then awaitingSwap s im ld else (inStandby s im).finish ld.q ld.id 0x07 6 (invResult rTimetable 8))
    else if !s.atMtcOk im ld.swapMtc then (inStandby s im).finish ld.q ld.id 0x07 6 (invResult rTimetable 8)
    else if ld.swapMtc ≤ s.now then (inStandby s im).finish ld.q ld.id 0x07 1
    else (awaitingSwap s im ld).setfs [(.TT_STORE_SWAP_PENDING, 0, 1), (.TT_SWAP_MTC_SWAP, 0, ld.swapMtc)]

section
variable {s : State} {ld : Load} {im : Image}

theorem exec_imageChecked (hon : s.coreOn = true) (hl : s.tt.load = some ld) : exec .timetableImageChecked s = .next (s.keep
    (checkedState s ld (checkImage ld.bytes s.fuses.conf.code s.nteam (s.here 0, s.here 1, s.here 2)))) := by
  show execTimetableImageChecked s = _
  rw [execTimetableImageChecked, event_on _ _ hon]
  simp only [hl, State.imageChecked]
  cases checkImage ld.bytes s.fuses.conf.code s.nteam (s.here 0, s.here 1, s.here 2) <;> rfl

theorem frame_inStandby (s : State) (im : Image) : Frame [.tt] [(.TT_STORE_STANDBY_VALID, 0)] s (inStandby s im) :=
  (frame_tt s _).append (frame_setf _ .TT_STORE_STANDBY_VALID 0 1)

theorem frame_awaitingSwap (s : State) (im : Image) (ld : Load) : Frame [.tt] [(.TT_STORE_STANDBY_VALID, 0)] s (awaitingSwap s im ld) :=
  ((frame_inStandby s im).append (frame_tt _ _)).mono (by simp) (by simp)

theorem standbyValid_inStandby (s : State) (im : Image) : (inStandby s im).rf .TT_STORE_STANDBY_VALID = 1 := State.rf_setf_same ..

/-- A command that completes after changes which leave the lists of commands alone. -/
theorem completed_after {s u : State} {ps : List Part} {fs : List (Fld × Nat)} (h : Frame ps fs s u) (hq : .qs ∉ ps) (q id op status result : Nat) :
    Completed s (u.finish q id op status result) (plainDone q id op status result) := by
  have hc := completed_finish u q id op status result
  have hqs : u.qs = s.qs := h.part .qs hq
  rwa [Completed, hqs] at hc

theorem does_checked_bad {k : Nat} (he : exec .timetableImageChecked s = .next (s.keep (checkedState s ld (.inl k)))) :
    Does .timetableImageChecked s fun t => t.tt = { s.tt with load := none }
      ∧ Completed s t (plainDone ld.q ld.id 0x07 6 (10 + 256 * k)) ∧ Frame [.qs, .tt] [] s t :=
  have h0 : Frame [.tt] [] s (noLoad s) := frame_tt s _
  have hf : Frame [.qs, .tt] [] s ((noLoad s).finish ld.q ld.id 0x07 6 (invResult rTimetable k)) :=
    (h0.append (frame_finish ..)).mono (by simp) (by simp)
  does_of_frame he hf ⟨rfl, completed_after h0 (by simp) .., hf⟩

theorem does_checked_waits (hm : ld.atMtc = false) (hs : s.engSt = 0)
    (he : exec .timetableImageChecked s = .next (s.keep (checkedState s ld (.inr im)))) : Does .timetableImageChecked s fun t =>
      t.tt = { s.tt with load := none, standby := some im, swap := some ⟨ld.q, ld.id, false, ld.swapMtc⟩ }
      ∧ t.rf .TT_STORE_STANDBY_VALID = 1 ∧ Frame [.tt] [(.TT_STORE_STANDBY_VALID, 0)] s t := by
  rw [checkedState, if_pos (by simp [hm]), if_pos hs] at he
  have hf := frame_awaitingSwap s im ld
  refine does_of_frame he hf ⟨?_, ((frame_tt _ _).rf (by simp)).trans (standbyValid_inStandby s im), hf⟩
  rw [← hm]
  rfl

theorem does_checked_running (hm : ld.atMtc = false) (hs : s.engSt ≠ 0)
    (he : exec .timetableImageChecked s = .next (s.keep (checkedState s ld (.inr im)))) : Does .timetableImageChecked s fun t =>
      t.tt = { s.tt with load := none, standby := some im } ∧ Completed s t (plainDone ld.q ld.id 0x07 6 (10 + 256 * 8))
      ∧ t.rf .TT_STORE_STANDBY_VALID = 1 ∧ Frame [.qs, .tt] [(.TT_STORE_STANDBY_VALID, 0)] s t := by
  rw [checkedState, if_pos (by simp [hm]), if_neg hs] at he
  have h0 := frame_inStandby s im
  have hfin := frame_finish (inStandby s im) ld.q ld.id 0x07 6 (invResult rTimetable 8)
  have hf := (h0.append hfin).mono (qs := [.qs, .tt]) (gs := [(.TT_STORE_STANDBY_VALID, 0)]) (by simp) (by simp)
  exact does_of_frame he hf ⟨rfl, completed_after h0 (by simp) .., (hfin.rf (by simp)).trans (standbyValid_inStandby s im), hf⟩

theorem does_checked_atMtc (hm : ld.atMtc = true) (hok : s.atMtcOk im ld.swapMtc = true) (hn : s.now < ld.swapMtc) (hlt : ld.swapMtc < 2 ^ 64)
    (he : exec .timetableImageChecked s = .next (s.keep (checkedState s ld (.inr im)))) : Does .timetableImageChecked s fun t =>
      t.tt = { s.tt with load := none, standby := some im, swap := some ⟨ld.q, ld.id, true, ld.swapMtc⟩ }
      ∧ t.rf .TT_STORE_STANDBY_VALID = 1 ∧ t.rf .TT_STORE_SWAP_PENDING = 1 ∧ t.rf .TT_SWAP_MTC_SWAP = ld.swapMtc
      ∧ Frame [.tt] [(.TT_STORE_STANDBY_VALID, 0), (.TT_STORE_SWAP_PENDING, 0), (.TT_SWAP_MTC_SWAP, 0)] s t := by
  rw [checkedState, if_neg (by simp [hm]), if_neg (by simp [hok]), if_neg (by omega)] at he
  have hset := frame_setfs [(.TT_STORE_SWAP_PENDING, 0, 1), (.TT_SWAP_MTC_SWAP, 0, ld.swapMtc)] (awaitingSwap s im ld)
  have hf := (frame_awaitingSwap s im ld).append hset
  have htt : ((awaitingSwap s im ld).setfs [(.TT_STORE_SWAP_PENDING, 0, 1), (.TT_SWAP_MTC_SWAP, 0, ld.swapMtc)]).tt = (awaitingSwap s im ld).tt :=
    hset.part .tt (by simp)
  refine does_of_frame he hf ⟨?_, ?_, ?_, ?_, hf⟩
  · rw [htt, ← hm]
    rfl
  · rw [hset.rf (by simp [fieldsIn])]
    exact ((frame_tt _ _).rf (by simp)).trans (standbyValid_inStandby s im)
  · exact rf_setfs (v := 1) (by simp) (by simp) _
  · rw [rf_setfs (v := ld.swapMtc) (by simp) (by simp)]
    exact Nat.mod_eq_of_lt hlt

end

/-! ## The swap (R65 to R67) -/

/-- Postilions, their records and the instances are all that dropping instances changes. -/
theorem frame_clearRec (s : State) (t n : Nat) : Frame [.posts, .yards] [] s (s.clearRec t n) := by
  refine Frame.foldl _ (fun u c _ => ?_) s
  dsimp only
  split
  · exact frame_setPost ..
  · exact Frame.refl ..

theorem frame_dropInsts (s : State) (f : Inst → Bool) : Frame [.posts, .yards, .insts] [] s (s.dropInsts f) :=
  (Frame.foldl (ps := [.posts, .yards]) (fs := []) _ (fun u (i : Inst) _ => frame_clearRec u i.team i.n) s).append (frame_insts _ _)

theorem frame_abortBound (s : State) : Frame [.qs, .posts, .yards, .insts] [] s s.abortBound :=
  (Frame.foldl (ps := [.qs]) (fs := []) _ (fun u (c : Cmd) _ => frame_finish u c.q c.id (eOp c.e) 1 0) s).append (frame_dropInsts ..)

/-- The field that restarting a team's counts sets. -/
def countFields (im : Image) : List (Fld × Nat) := im.teams.map fun x => (.TT_TEAM_INSTANCE, x.slot)

theorem frame_restartAll (im : Image) (s : State) :
    Frame [.teams] (countFields im) s (im.teams.foldl (fun (s : State) x => s.restartCounts x) s) :=
  Frame.foldl _ (fun u (x : TeamEnt) hx =>
    have hm : (.TT_TEAM_INSTANCE, x.slot) ∈ countFields im := List.mem_map.2 ⟨x, hx, rfl⟩
    ((frame_setf u .TT_TEAM_INSTANCE x.slot 0).append (frame_teams _ _)).mono (by simp) (by simpa using hm)) s

/-- The fields that choosing a variant sets. -/
def variantFields : List (Fld × Nat) := [(.TT_STORE_NO_VARIANT, 0), (.TT_STORE_VAR_IDX, 0), (.TT_STORE_VAR_RUNG, 0), (.TT_STORE_VAR_LANES, 0)]

theorem frame_loadPrograms (s : State) (v : Variant) : Frame [.posts, .yards] [] s (s.loadPrograms v) := by
  refine Frame.foldl _ (fun u p _ => ?_) s
  split
  · exact Frame.refl ..
  · exact frame_setPost ..

theorem frame_ite {ps : List Part} {fs : List (Fld × Nat)} {s t u : State} {c : Prop} [Decidable c] (h : Frame ps fs s t) (k : Frame ps fs s u) :
    Frame ps fs s (if c then t else u) := by
  split
  · exact h
  · exact k

/-- Choosing a variant sets its fields, loads postilions, and forgets the links that the old one lost. -/
theorem selectVariant_changes (s : State) (force : Bool) : ∃ l, Frame [.posts, .yards] variantFields { s with tt := { s.tt with lostLinks := l } } (s.selectVariant force) := by
  unfold State.selectVariant
  split
  · exact ⟨s.tt.lostLinks, Frame.refl ..⟩
  · refine ⟨[], ?_⟩
    dsimp only
    split
    · exact (frame_setfs [(.TT_STORE_NO_VARIANT, 0, 1), (.TT_STORE_VAR_IDX, 0, 0), (.TT_STORE_VAR_RUNG, 0, 0), (.TT_STORE_VAR_LANES, 0, 0)] _).mono
        (by simp) (by simp [fieldsIn, variantFields])
    · next k v _ =>
      have hset := frame_setfs [(.TT_STORE_NO_VARIANT, 0, 0), (.TT_STORE_VAR_IDX, 0, k), (.TT_STORE_VAR_RUNG, 0, v.rung),
        (.TT_STORE_VAR_LANES, 0, v.lanes)] { s with tt := { s.tt with lostLinks := [] } }
      exact frame_ite ((hset.append (frame_loadPrograms _ v)).mono (by simp) (by simp [fieldsIn, variantFields]))
        (hset.mono (by simp) (by simp [fieldsIn, variantFields]))

/-- The fields of the active image. -/
def imageFields (s : State) (im : Image) : List (Fld × Nat × Nat) :=
  [(.TT_STORE_ACTIVE_ID, 0, im.id), (.TT_STORE_ACTIVE_VALID, 0, 1), (.TT_STORE_STANDBY_VALID, 0, 0),
    (.TT_STORE_ACTIVE_BANK, 0, s.rf .TT_STORE_ACTIVE_BANK + 1), (.TT_PERIOD_PERIOD_STAGES, 0, im.period)]

/-- The state in which the banks have swapped, before a variant is chosen. -/
def banksSwapped (s : State) (im : Image) : State :=
  let s1 := im.teams.foldl (fun (s : State) x => s.restartCounts x) s.abortBound
  { s1 with tt := { s1.tt with active := some im, standby := none, badVars := [] } }.setfs (imageFields s im)

theorem takeImage_eq (s : State) (im : Image) : s.takeImage im = (banksSwapped s im).selectVariant true := rfl

theorem frame_banksSwapped (s : State) (im : Image) :
    Frame ([.qs, .posts, .yards, .insts] ++ [.teams] ++ [.tt]) (countFields im ++ fieldsIn (imageFields s im)) s (banksSwapped s im) :=
  ((((frame_abortBound s).append (frame_restartAll im _)).append (frame_tt _ _)).append (frame_setfs (imageFields s im) _)).mono (by simp) (by simp)

theorem tt_banksSwapped (s : State) (im : Image) : (banksSwapped s im).tt = { s.tt with active := some im, standby := none, badVars := [] } := by
  have hset := frame_setfs (imageFields s im)
  have h1 : (im.teams.foldl (fun (s : State) x => s.restartCounts x) s.abortBound).tt = s.tt :=
    ((frame_abortBound s).append (frame_restartAll im _)).part .tt (by simp)
  rw [banksSwapped]
  dsimp only
  rw [(hset _).part .tt (by simp), h1]

/-- The fields of the active image, once the banks have swapped. -/
theorem rf_banksSwapped {s : State} {im : Image} {f : Fld} {v : Nat} (hm : (f, 0, v) ∈ imageFields s im)
    (hu : ∀ w, (f, 0, w) ∈ imageFields s im → w = v) : (banksSwapped s im).rf f = v % 2 ^ fwidth f := rf_setfs hm hu _

/-- The state in which no swap is pending. -/
def swapCleared (s : State) : State :=
  { s with tt := { s.tt with swap := none } }.setfs [(.TT_STORE_SWAP_PENDING, 0, 0), (.TT_SWAP_MTC_SWAP, 0, 0)]

theorem frame_swapCleared (s : State) : Frame [.tt] [(.TT_STORE_SWAP_PENDING, 0), (.TT_SWAP_MTC_SWAP, 0)] s (swapCleared s) :=
  (frame_tt s _).append (frame_setfs [(.TT_STORE_SWAP_PENDING, 0, 0), (.TT_SWAP_MTC_SWAP, 0, 0)] _)

theorem tt_swapCleared (s : State) : (swapCleared s).tt = { s.tt with swap := none } :=
  (frame_setfs [(.TT_STORE_SWAP_PENDING, 0, 0), (.TT_SWAP_MTC_SWAP, 0, 0)] _).part .tt (by simp)

/-- Matching a team reads its record and its fields only. -/
theorem teamMatches_swapCleared (s : State) : (swapCleared s).teamMatches = s.teamMatches := by
  have hf := frame_swapCleared s
  have hteams : (swapCleared s).teams = s.teams := hf.part .teams (by simp)
  have hrf (f : Fld) (i : Nat) (h : f ∈ [.TT_TEAM_STATE, .TT_TEAM_YARD, .TT_TEAM_AXES, .TT_TEAM_ALG, .TT_TEAM_CHUNK_LOG2]) :
      (swapCleared s).rf f i = s.rf f i := by
    refine hf.rf fun hm => ?_
    simp only [List.mem_cons, List.not_mem_nil, or_false, Prod.mk.injEq] at hm
    rcases hm with ⟨rfl, -⟩ | ⟨rfl, -⟩ <;> simp at h
  funext x
  simp only [State.teamMatches, State.team, hteams, hrf .TT_TEAM_STATE _ (by simp), hrf .TT_TEAM_YARD _ (by simp),
    hrf .TT_TEAM_AXES _ (by simp), hrf .TT_TEAM_ALG _ (by simp), hrf .TT_TEAM_CHUNK_LOG2 _ (by simp)]

section
variable {s : State} {r : SwapReq} {im : Image}

theorem exec_swap (hon : s.coreOn = true) (hr : s.tt.swap = some r) (hm : r.atMtc = false) (he : s.engSt = 0) (hi : s.tt.standby = some im) :
    exec .timetableSwap s = .next (s.keep
      (if !im.teams.all s.teamMatches then (swapCleared s).finish r.q r.id 0x07 6 (invResult rTimetable 8)
        else ((swapCleared s).takeImage im).finish r.q r.id 0x07 0)) := by
  have hstandby : (swapCleared s).tt.standby = some im := by rw [tt_swapCleared]; exact hi
  show execTimetableSwap s = _
  rw [execTimetableSwap, event_on _ _ hon]
  simp only [hr, hm, he, if_true, Bool.false_eq_true, if_false]
  rw [State.doSwap, ← swapCleared]
  simp only [hstandby, teamMatches_swapCleared, hm, Bool.false_eq_true, if_false]

/-- A team that does not match its slot: the swap is refused. -/
theorem does_swap_refused (he : exec .timetableSwap s = .next (s.keep ((swapCleared s).finish r.q r.id 0x07 6 (invResult rTimetable 8)))) :
    Does .timetableSwap s fun t => t.tt = { s.tt with swap := none } ∧ Completed s t (plainDone r.q r.id 0x07 6 (10 + 256 * 8))
      ∧ Frame [.qs, .tt] [(.TT_STORE_SWAP_PENDING, 0), (.TT_SWAP_MTC_SWAP, 0)] s t :=
  have h0 := frame_swapCleared s
  have hf := (h0.append (frame_finish (swapCleared s) r.q r.id 0x07 6 (invResult rTimetable 8))).mono (qs := [.qs, .tt])
    (gs := [(.TT_STORE_SWAP_PENDING, 0), (.TT_SWAP_MTC_SWAP, 0)]) (by simp) (by simp)
  does_of_frame he hf ⟨tt_swapCleared s, completed_after h0 (by simp) .., hf⟩

/-- The banks swap: the standby image is the active one. -/
theorem does_swap_taken (he : exec .timetableSwap s = .next (s.keep (((swapCleared s).takeImage im).finish r.q r.id 0x07 0))) :
    Does .timetableSwap s fun t =>
      t.tt.active = some im ∧ t.tt.standby = none ∧ t.tt.swap = none ∧ t.rf .TT_STORE_ACTIVE_VALID = 1
      ∧ t.rf .TT_STORE_ACTIVE_ID = im.id % 2 ^ fwidth .TT_STORE_ACTIVE_ID ∧ t.rf .TT_STORE_STANDBY_VALID = 0
      ∧ t.rf .TT_PERIOD_PERIOD_STAGES = im.period % 2 ^ fwidth .TT_PERIOD_PERIOD_STAGES
      ∧ t.qs.dones.getLast? = some (ofGen t (plainDone r.q r.id 0x07 0 0)) ∧ t.host = s.host ∧ t.depot = s.depot ∧ t.scratch = s.scratch := by
  rw [takeImage_eq] at he
  have hb := (frame_swapCleared s).append (frame_banksSwapped (swapCleared s) im)
  have htt := tt_banksSwapped (swapCleared s) im
  have hrf (f : Fld) (v : Nat) := rf_banksSwapped (s := swapCleared s) (im := im) (f := f) (v := v)
  generalize banksSwapped (swapCleared s) im = b at he hb htt hrf
  obtain ⟨l, hv⟩ := selectVariant_changes b true
  have hfin := frame_finish (b.selectVariant true) r.q r.id 0x07 0 0
  have hlast := completed_finish (b.selectVariant true) r.q r.id 0x07 0 0
  have hvf := ((frame_tt b _).append hv).append hfin
  have hf := hb.append hvf
  have httl : ((b.selectVariant true).finish r.q r.id 0x07 0).tt = { b.tt with lostLinks := l } :=
    (hv.append hfin).part .tt (by simp)
  have hkeep (f : Fld) (v : Nat) (hn : (f, 0) ∉ variantFields) (hm : (f, 0, v) ∈ imageFields (swapCleared s) im)
      (hu : ∀ w, (f, 0, w) ∈ imageFields (swapCleared s) im → w = v) :
      ((b.selectVariant true).finish r.q r.id 0x07 0).rf f = v % 2 ^ fwidth f :=
    (hvf.rf (by simpa using hn)).trans (hrf f v hm hu)
  refine does_of_frame he hf ⟨?_, ?_, ?_, ?_, ?_, ?_, ?_, ?_, hf.part .host (by simp), hf.part .depot (by simp), hf.part .scratch (by simp)⟩
  · rw [httl, htt]
  · rw [httl, htt]
  · rw [httl, htt, tt_swapCleared]
  · exact hkeep .TT_STORE_ACTIVE_VALID 1 (by simp [variantFields]) (by simp [imageFields]) (by simp [imageFields])
  · exact hkeep .TT_STORE_ACTIVE_ID im.id (by simp [variantFields]) (by simp [imageFields]) (by simp [imageFields])
  · exact hkeep .TT_STORE_STANDBY_VALID 0 (by simp [variantFields]) (by simp [imageFields]) (by simp [imageFields])
  · exact hkeep .TT_PERIOD_PERIOD_STAGES im.period (by simp [variantFields]) (by simp [imageFields]) (by simp [imageFields])
  · rw [hlast.1]
    exact List.getLast?_concat

end

/-- Settles O16: a load only copies its image, `checkedState` says how the checks end, and the swap is a chain of changes that
spares the memories. -/
theorem timetableLoadsAreCopiedCheckedAndSwapped : Obligations.TimetableLoadsAreCopiedCheckedAndSwapped := by
  intro s q e ld r im k fs loads
  refine ⟨fun hq hst ha hl hw => ?_, fun hq hst ha hl hw => ?_, fun hon hl => ?_, fun hon hr hm he hi => ?_⟩
  · subst hq
    exact does_load hst ha hl hw (exec_loadNow hst.1 ha)
  · subst hq
    exact does_load hst ha hl hw (exec_loadAtMtc hst.1)
  · have he := exec_imageChecked hon hl
    refine ⟨fun hc => ?_, fun hc hm hs => ?_, fun hc hm hs => ?_, fun hc hm hok hn hlt => ?_⟩
    all_goals rw [show checkImage ld.bytes s.fuses.conf.code s.nteam (s.here 0, s.here 1, s.here 2) = _ from hc] at he
    · exact does_checked_bad he
    · exact does_checked_waits hm hs he
    · exact does_checked_running hm hs he
    · exact does_checked_atMtc hm hok hn hlt he
  · have he := exec_swap hon hr hm he hi
    refine ⟨fun ht => ?_, fun ht => ?_⟩
    · rw [ht] at he
      exact does_swap_taken he
    · rw [ht] at he
      exact does_swap_refused he

end Sys2Proof

namespace Sys2Proof

open Machine

/-! # Teams are defined and retired (O11) -/

/-! ## Commands of pair 0 that name no table -/

/-- An entry of an opcode that takes neither descriptors nor fragments (R273, R274) names no table. -/
theorem tableOf_of_opcode {s : State} {q op : Nat} {e : Entry} {fs : List (Nat × Nat)} (h : Starts s q op e fs) (hfrag : fragOps op = false)
    (hdesc : op ≠ 0x30 ∧ op ≠ 0x31 ∧ op ≠ 0x32) : tableOf e = none := by
  obtain ⟨-, hst, -, hform⟩ := h
  obtain ⟨ft, hft⟩ := Option.isSome_iff_exists.1 hst
  obtain ⟨-, -, hop⟩ := start?_some hft
  have hflags : flagsOk e = true := by
    by_contra hn
    rw [formBad, if_pos (by simpa using hn)] at hform
    cases hform
  have hno : eFrag e = false := by
    simp only [flagsOk, Bool.and_eq_true, hop, hfrag] at hflags
    simpa using hflags.2
  simp [tableOf, hop, hno, hdesc]

section
variable {s : State} {e : Entry} {ft : Fetched}

theorem exec_defineTeam (h : Starts s 0 0x05 e [(4, 1), (5, 1), (6, 1), (7, 1), (8, 1), (9, 1), (10, 1), (12, 3), (16, 3), (20, 2)])
    (hb : firstBad (defineTeamBad e s) = none) :
    exec (.defineTeam 0 e) s = .next (s.keep ((defineTeam e s).finish 0 (eId e) 0x05 0 (ent e 5 1))) := by
  obtain ⟨ft, hft⟩ := Option.isSome_iff_exists.1 h.2.1
  show execDefineTeam 0 e s = _
  rw [execDefineTeam, event_on _ _ h.1]
  refine congrArg (fun t => Host.Outcome.next (s.keep t)) ((startCmd_read h hft fun _ => tableOf_of_opcode h rfl (by decide)).trans ?_)
  rw [hb]
  rfl

/-- RETIRE_TEAM of a team slot of the configuration (R279). -/
theorem exec_retireTeam (h : Starts s 0 0x06 e [(4, 1), (5, 1)]) (hft : s.start? 0 0x06 e = some ft) (ht : ent e 4 1 < s.nteam) :
    exec (.retireTeam 0 e) s = .next (s.keep (
      if ent e 5 1 ≠ s.rf .TT_TEAM_GEN (ent e 4 1) then s.finish 0 (eId e) 0x06 8
      else if s.rf .TT_TEAM_STATE (ent e 4 1) = 0 ∨ s.rf .TT_TEAM_STATE (ent e 4 1) = 3 then s.invalid 0 e rState 4
      else ((s.adopt ft (.retire (ent e 4 1))).dropTeamCmds (ent e 4 1) 1).retireCheck (ent e 4 1))) := by
  show execRetireTeam 0 e s = _
  rw [execRetireTeam, event_on _ _ h.1]
  refine congrArg (fun t => Host.Outcome.next (s.keep t)) ((startCmd_read h hft fun _ => tableOf_of_opcode h rfl (by decide)).trans ?_)
  simp only [Nat.not_le.2 ht, if_false, bne_iff_ne, Bool.or_eq_true, decide_eq_true_eq]
  rfl

end

/-! ## DEFINE_TEAM (R278, Table 10.7) -/

/-- Where no check of a list fails, none of its members does. -/
theorem not_bad_of_firstBad {l : List (Bool × Nat × Nat)} (h : firstBad l = none) {b : Bool} {r d : Nat} (hm : (b, r, d) ∈ l) : b = false := by
  induction l with
  | nil => cases hm
  | cons x l ih =>
    obtain ⟨c, r', d'⟩ := x
    cases c with
    | true => cases h
    | false =>
      rcases List.mem_cons.1 hm with hx | hl
      · exact (Prod.mk.inj hx).1
      · exact ih h hl

theorem ent_lt (e : Entry) (o k : Nat) : ent e o k < 2 ^ (8 * k) := Nat.mod_lt _ (Nat.two_pow_pos _)

/-- The operands of a DEFINE_TEAM that passes its checks fit the fields of TT_TEAMt. -/
theorem defineTeam_operands {s : State} {e : Entry} (h : firstBad (defineTeamBad e s) = none) :
    ent e 6 1 ≤ 3 ∧ ent e 7 1 ≤ 1 ∧ ent e 8 1 ≤ 7 ∧ ent e 9 1 ≤ 22 := by
  have hy : ¬ 3 < dtYard e := of_decide_eq_false (not_bad_of_firstBad h (r := rField) (d := 6) (by simp [defineTeamBad, teamFieldBad]))
  have ha : ¬ 1 < ent e 7 1 := of_decide_eq_false (not_bad_of_firstBad h (r := rField) (d := 7) (by simp [defineTeamBad, teamFieldBad]))
  have hx : (dtAxes e == 0 || decide (7 < dtAxes e)) = false :=
    not_bad_of_firstBad h (r := rField) (d := 8) (by simp [defineTeamBad, teamFieldBad])
  have hc : ¬ (ent e 9 1 < 16 || 22 < ent e 9 1) :=
    of_decide_eq_false (not_bad_of_firstBad h (r := rField) (d := 9) (by simp [defineTeamBad, teamFieldBad]))
  simp only [Bool.or_eq_false_iff, decide_eq_false_iff_not, Bool.or_eq_true, decide_eq_true_eq] at hx hc
  rw [dtYard] at hy
  rw [dtAxes] at hx
  omega

/-- The fields that DEFINE_TEAM sets. -/
def teamFields (e : Entry) : List (Fld × Nat × Nat) :=
  let t := ent e 4 1
  [(.TT_TEAM_INSTANCE, t, 0), (.TT_TEAM_GEN, t, ent e 5 1), (.TT_TEAM_YARD, t, ent e 6 1), (.TT_TEAM_ALG, t, ent e 7 1),
    (.TT_TEAM_AXES, t, ent e 8 1), (.TT_TEAM_CHUNK_LOG2, t, ent e 9 1), (.TT_TEAM_STATE, t, 1), (.TT_TEAMCNT_MISSING_SELF, t, 0),
    (.TT_TEAMCNT_PEER_ABSENT, t, 0), (.TT_TEAMCNT_POISONED, t, 0), (.TT_TEAMCNT_DEGRADED, t, 0)]

theorem teamFields_unique {e : Entry} {f : Fld} {i v w : Nat} (hv : (f, i, v) ∈ teamFields e) (hw : (f, i, w) ∈ teamFields e) : v = w := by
  have hnd : (fieldsIn (teamFields e)).Nodup := by simp [fieldsIn, teamFields]
  simpa using List.inj_on_of_nodup_map hnd hv hw rfl

/-- The checked operands fit the fields of TT_TEAMt. -/
theorem teamFields_fit {s : State} {e : Entry} (hb : firstBad (defineTeamBad e s) = none) {x : Fld × Nat × Nat} (hx : x ∈ teamFields e) :
    x.2.2 < 2 ^ fwidth x.1 := by
  obtain ⟨hy, ha, hax, hc⟩ := defineTeam_operands hb
  have hg := ent_lt e 5 1
  have hall : ∀ x ∈ teamFields e, x.2.2 < 2 ^ fwidth x.1 := by
    simp only [teamFields, List.forall_mem_cons]
    exact ⟨Nat.two_pow_pos _, hg, Nat.lt_of_le_of_lt hy (by decide), Nat.lt_of_le_of_lt ha (by decide), Nat.lt_of_le_of_lt hax (by decide),
      Nat.lt_of_le_of_lt hc (by decide), by decide, Nat.two_pow_pos _, Nat.two_pow_pos _, Nat.two_pow_pos _, Nat.two_pow_pos _,
      fun _ h => absurd h List.not_mem_nil⟩
  exact hall x hx

/-- The state in which those fields are set and the yard of the team has been bound (R341). -/
def yardBound (s : State) (e : Entry) : State :=
  let s1 := s.setfs (teamFields e)
  s1.setYard (ent e 6 1) { s1.yard (ent e 6 1) with everBound := true }

/-- The record of the new team, at place `pos` of its slot list. -/
def newTeam (e : Entry) (pos : Nat) : TeamRec :=
  { origin := dtOrigin e, ext := dtExtent e, eval := bitAt (ent e 10 1) 0, queue := dtQueue e, everDefined := true, slotPos := pos }

section
variable (s : State) (e : Entry)

theorem defineTeam_eq : ∃ pos, defineTeam e s = (yardBound s e).setTeam (ent e 4 1) (newTeam e pos) := ⟨_, rfl⟩

theorem frame_yardBound : Frame [.yards] (fieldsIn (teamFields e)) s (yardBound s e) :=
  ((frame_setfs (teamFields e) s).append (frame_yards _ _)).mono (by simp) (by simp)

theorem frame_defineTeam : Frame [.yards, .teams] (fieldsIn (teamFields e)) s (defineTeam e s) := by
  obtain ⟨pos, hd⟩ := defineTeam_eq s e
  rw [hd]
  exact ((frame_yardBound s e).append (frame_teams _ _)).mono (by simp) (by simp)

/-- Each field that a DEFINE_TEAM with checked operands sets holds the value it is given. -/
theorem rf_defineTeam {s : State} {e : Entry} (hb : firstBad (defineTeamBad e s) = none) {x : Fld × Nat × Nat} (hx : x ∈ teamFields e) :
    (defineTeam e s).rf x.1 x.2.1 = x.2.2 := by
  obtain ⟨pos, hd⟩ := defineTeam_eq s e
  calc (defineTeam e s).rf x.1 x.2.1 = (yardBound s e).rf x.1 x.2.1 := hd ▸ (frame_teams _ _).rf List.not_mem_nil
    _ = (s.setfs (teamFields e)).rf x.1 x.2.1 := (frame_yards _ _).rf List.not_mem_nil
    _ = x.2.2 % 2 ^ fwidth x.1 := rf_setfs hx (fun w hw => teamFields_unique hw hx) s
    _ = x.2.2 := Nat.mod_eq_of_lt (teamFields_fit hb hx)

theorem team_defineTeam : ∃ pos, (defineTeam e s).team (ent e 4 1) = newTeam e pos := by
  obtain ⟨pos, hd⟩ := defineTeam_eq s e
  exact ⟨pos, hd ▸ sget_sset_same ..⟩

theorem team_defineTeam_other {u : Nat} (h : u ≠ ent e 4 1) : (defineTeam e s).team u = s.team u := by
  obtain ⟨pos, hd⟩ := defineTeam_eq s e
  have hteams : (yardBound s e).teams = s.teams := (frame_yardBound s e).part .teams (by simp)
  calc (defineTeam e s).team u = (yardBound s e).team u := hd ▸ sget_sset_other _ _ _ _ _ _ h
    _ = s.team u := by rw [State.team, hteams, State.team]

end

/-! ## RETIRE_TEAM (R279) -/

section
variable {s : State} {t : Nat}

theorem dropInsts_none (hi : s.insts = []) (p : Inst → Bool) : s.dropInsts p = s := by
  cases s
  cases hi
  rfl

/-- Retiring a team drops nothing where no instance is there, no command works for the team, and no fetched entry names it. -/
theorem dropTeamCmds_idle (status : Nat) (hi : s.insts = []) (hc : ∀ c ∈ s.qs.cmds, ∀ u n, c.phase ≠ .work u n)
    (hf : ∀ f ∈ s.qs.fetched, teamOp (eOp f.e) = true → ent f.e 4 1 ≠ t) : s.dropTeamCmds t status = s := by
  unfold State.dropTeamCmds
  dsimp only
  rw [(List.filter_eq_nil_iff (l := s.qs.cmds)).2, (List.filter_eq_nil_iff (l := s.qs.fetched)).2]
  · exact dropInsts_none hi _
  · intro f hm
    simpa using hf f hm
  · intro c hm
    split
    · next hw => exact absurd hw (hc c hm _ _)
    · exact Bool.false_ne_true

/-- The state in which team t is in quarantine from the later of now and its last traffic (R113, R202). -/
def teamRetired (s : State) (t : Nat) : State :=
  (s.setf .TT_TEAM_STATE t 3).setTeam t { s.team t with quarEnd := max s.now (s.team t).lastTraffic + s.quarantine }

theorem frame_teamRetired (s : State) (t : Nat) : Frame [.teams] [(.TT_TEAM_STATE, t)] s (teamRetired s t) :=
  (frame_setf s .TT_TEAM_STATE t 3).append (frame_teams _ _)

theorem state_teamRetired (s : State) (t : Nat) : (teamRetired s t).rf .TT_TEAM_STATE t = 3 := State.rf_setf_same s .TT_TEAM_STATE t 3

theorem team_teamRetired (s : State) (t : Nat) :
    (teamRetired s t).team t = { s.team t with quarEnd := max s.now (s.team t).lastTraffic + s.quarantine } := sget_sset_same ..

theorem team_teamRetired_other {u : Nat} (h : u ≠ t) : (teamRetired s t).team u = s.team u := sget_sset_other _ _ _ _ _ _ h

/-- With no instance and no other command of the team, RETIRE_TEAM takes effect and completes at once. -/
theorem retire_idle {ft : Fetched} (hi : s.insts = []) (hc : s.qs.cmds = [])
    (hf : ∀ f ∈ s.qs.fetched, teamOp (eOp f.e) = true → ent f.e 4 1 ≠ t) :
    ((s.adopt ft (.retire t)).dropTeamCmds t 1).retireCheck t
      = (teamRetired (s.adopt ft (.retire t)) t).finish ft.q (eId ft.e) 0x06 0 := by
  have hdrop : (s.adopt ft (.retire t)).dropTeamCmds t 1 = s.adopt ft (.retire t) :=
    dropTeamCmds_idle 1 hi (by simp [State.adopt, hc]) fun f hm => hf f (List.mem_of_mem_filter hm)
  have hrun : (s.adopt ft (.retire t)).running t = none := by
    rw [State.running, show (s.adopt ft (.retire t)).insts = [] from hi]
    rfl
  have hfind : ((s.adopt ft (.retire t)).qs.cmds.find? fun c => c.phase == .retire t) = some ⟨ft.q, eId ft.e, ft.e, ft.t0, .retire t⟩ := by
    simp [State.adopt, hc]
  rw [hdrop, State.retireCheck, hrun, hfind]
  simp only [Option.isSome_none, Bool.false_eq_true, if_false, State.retireNow, hdrop]
  rfl

end

/-- A DEFINE_TEAM that passes its checks: the first clause of O11. -/
theorem does_defineTeam {s : State} {e : Entry}
    (h : Starts s 0 0x05 e [(4, 1), (5, 1), (6, 1), (7, 1), (8, 1), (9, 1), (10, 1), (12, 3), (16, 3), (20, 2)])
    (hb : firstBad (defineTeamBad e s) = none) : Does (.defineTeam 0 e) s fun t =>
      (∀ x ∈ teamFields e, t.rf x.1 x.2.1 = x.2.2) ∧ (∃ pos, t.team (ent e 4 1) = newTeam e pos)
      ∧ (∀ u, u ≠ ent e 4 1 → t.team u = s.team u) ∧ Completed s t (plainDone 0 (eId e) 0x05 0 (ent e 5 1))
      ∧ Frame [.qs, .teams, .yards] (fieldsIn (teamFields e)) s t := by
  have hd := frame_defineTeam s e
  have hfin := frame_finish (defineTeam e s) 0 (eId e) 0x05 0 (ent e 5 1)
  have hf := (hd.append hfin).mono (qs := [.qs, .teams, .yards]) (gs := fieldsIn (teamFields e)) (by simp) (by simp)
  refine does_of_frame (exec_defineTeam h hb) hf
    ⟨fun x hx => ?_, team_defineTeam s e, fun u hu => team_defineTeam_other s e hu, completed_after hd (by simp) .., hf⟩
  rw [hfin.rf List.not_mem_nil]
  exact rf_defineTeam hb hx

/-- A RETIRE_TEAM of an idle team: the second clause of O11. -/
theorem does_retireTeam_idle {s : State} {e : Entry} (h : Starts s 0 0x06 e [(4, 1), (5, 1)]) (ht : ent e 4 1 < s.nteam)
    (hg : ent e 5 1 = s.rf .TT_TEAM_GEN (ent e 4 1)) (hst : s.rf .TT_TEAM_STATE (ent e 4 1) = 1 ∨ s.rf .TT_TEAM_STATE (ent e 4 1) = 2)
    (hi : s.insts = []) (hc : s.qs.cmds = []) (hf : ∀ f ∈ s.qs.fetched, teamOp (eOp f.e) = true → ent f.e 4 1 ≠ ent e 4 1) :
    Does (.retireTeam 0 e) s fun t =>
      t.rf .TT_TEAM_STATE (ent e 4 1) = 3
      ∧ t.team (ent e 4 1) = { s.team (ent e 4 1) with quarEnd := max s.now (s.team (ent e 4 1)).lastTraffic + s.quarantine }
      ∧ t.qs.dones = s.qs.dones ++ [ofGen t (plainDone 0 (eId e) 0x06 0 0)] ∧ t.qs.cmds = []
      ∧ (∀ u, u ≠ ent e 4 1 → t.team u = s.team u) ∧ Frame [.qs, .teams] [(.TT_TEAM_STATE, ent e 4 1)] s t := by
  obtain ⟨ft, hft⟩ := Option.isSome_iff_exists.1 h.2.1
  obtain ⟨hq, hent, -⟩ := start?_some hft
  have he := exec_retireTeam h hft ht
  rw [if_neg (not_not.2 hg), if_neg (by omega), retire_idle hi hc hf, hq, hent] at he
  have hr := frame_teamRetired (s.adopt ft (.retire (ent e 4 1))) (ent e 4 1)
  have hfin := frame_finish (teamRetired (s.adopt ft (.retire (ent e 4 1))) (ent e 4 1)) 0 (eId e) 0x06 0 0
  have hframe := (((frame_adopt s ft _).append hr).append hfin).mono (qs := [.qs, .teams]) (gs := [(.TT_TEAM_STATE, ent e 4 1)])
    (by simp) (by simp)
  refine does_of_frame he hframe ⟨?_, team_teamRetired _ _, rfl, ?_, fun u hu => team_teamRetired_other hu, hframe⟩
  · exact (hfin.rf List.not_mem_nil).trans (state_teamRetired ..)
  · have hcmds : (teamRetired (s.adopt ft (.retire (ent e 4 1))) (ent e 4 1)).qs.cmds = [⟨0, eId e, e, ft.t0, .retire (ent e 4 1)⟩] := by
      show s.qs.cmds ++ [(⟨ft.q, eId ft.e, ft.e, ft.t0, .retire (ent e 4 1)⟩ : Cmd)] = _
      rw [hc, hq, hent, List.nil_append]
    rw [(completed_finish ..).2.2, hcmds]
    simp [plainDone]

/-- A RETIRE_TEAM of another generation completes STALE_GEN: the third clause of O11. -/
theorem does_retireTeam_stale {s : State} {e : Entry} (h : Starts s 0 0x06 e [(4, 1), (5, 1)]) (ht : ent e 4 1 < s.nteam)
    (hg : ent e 5 1 ≠ s.rf .TT_TEAM_GEN (ent e 4 1)) : Does (.retireTeam 0 e) s fun t =>
      Completed s t (plainDone 0 (eId e) 0x06 8 0) ∧ Frame [.qs] [] s t := by
  obtain ⟨ft, hft⟩ := Option.isSome_iff_exists.1 h.2.1
  have he := exec_retireTeam h hft ht
  rw [if_pos hg] at he
  exact does_of_frame he (frame_finish ..) ⟨completed_finish .., frame_finish ..⟩

/-- Settles O11: DEFINE_TEAM sets its list of fields and its team's record; RETIRE_TEAM of an idle team finds nothing to drop and
nothing to wait for. -/
theorem teamsAreDefinedAndRetired : Obligations.TeamsAreDefinedAndRetired := by
  intro s q e t0
  refine ⟨fun hq hst hb => ?_, fun hq hst ht => ⟨fun hg hstate hi hc hf => ?_, fun hg => ?_⟩⟩ <;> subst hq
  · obtain ⟨t, he, hrf, ⟨pos, hteam⟩, hother, hdone, hf⟩ := does_defineTeam hst hb
    simp only [teamFields, List.forall_mem_cons] at hrf
    obtain ⟨hinst, hgen, hyard, halg, haxes, hchunk, hstate, hself, habsent, hpoison, hdegraded, -⟩ := hrf
    refine ⟨t, he, hstate, hgen, hinst, hyard, halg, haxes, hchunk, hself, habsent, hpoison, hdegraded, ?_, ?_, ?_, ?_, hother, hdone,
      hf.mono (List.Subset.refl _) ?_⟩
    · exact congrArg TeamRec.origin hteam
    · exact congrArg TeamRec.ext hteam
    · exact congrArg TeamRec.queue hteam
    · exact congrArg TeamRec.everDefined hteam
    · simp [fieldsIn, teamFields, t0]
  · exact does_retireTeam_idle hst ht hg hstate hi hc hf
  · exact does_retireTeam_stale hst ht hg

end Sys2Proof

namespace Sys2Proof

open Machine

/-! # REINs, HALTs and MARKs (O41) -/

section
variable {s : State} {l : Link} (hc : s.coreOn = true)
include hc

/-! ## What each command runs -/

theorem exec_reinReceive (v : Slot) : exec (.reinReceive l v) s = .next (s.keep (if s.live l = true then
    (if unitOk kRein v = true then
      (if (reinOf v).dst = s.self then s.reinHere (reinOf v) else nat6.foldl (fun (s : State) k => s.pumpReins k) (s.sendRein (reinOf v)))
      else s.badUnit l) else s)) := by
  show execReinReceive l v s = _
  rw [execReinReceive, event_on _ _ hc]
  cases s.live l <;> cases unitOk kRein v <;> rfl

theorem exec_haltReceive (v : Slot) : exec (.haltReceive l v) s =
    .next (s.keep (if s.live l = true ∧ slotAt v 1 1 ≠ 0xFF then s.halt l v else s)) := by
  show execHaltReceive l v s = _
  rw [execHaltReceive, event_on _ _ hc]
  simp only [Bool.and_eq_true, bne_iff_ne]

theorem exec_linkHaltReceive (v : Slot) (hl : s.live l = true ∨ s.linkSt l = 7) (ht : slotAt v 1 1 = 0xFF) : exec (.linkHaltReceive l v) s =
    .next (s.keep (if haltOk v = true ∧ linkReason (slotAt v 3 1) = true then s.linkHalt l (slotAt v 3 1) else s.badUnit l)) := by
  have hgo : (!(s.live l || s.linkSt l == 7) || slotAt v 1 1 != 0xFF) = false := by rcases hl with h | h <;> simp [h, ht]
  show execLinkHaltReceive l v s = _
  rw [execLinkHaltReceive, event_on _ _ hc, hgo]
  cases haltOk v <;> cases linkReason (slotAt v 3 1) <;> rfl

theorem exec_linkHaltReceive_not (v : Slot) (hl : ¬ (s.live l = true ∨ s.linkSt l = 7)) : exec (.linkHaltReceive l v) s = .next (s.keep s) := by
  rw [not_or, Bool.not_eq_true] at hl
  show execLinkHaltReceive l v s = _
  rw [execLinkHaltReceive, event_on _ _ hc, if_pos (by simp [hl])]

theorem exec_attributionPeriodEnd : exec (.attributionPeriodEnd l) s =
    .next (s.keep (if (s.link l).attrib ≠ 0 ∧ (s.link l).attrib ≤ s.now then s.setLink l { s.link l with attrib := 0 } else s)) := by
  show execAttributionPeriodEnd l s = _
  rw [execAttributionPeriodEnd, event_on _ _ hc]
  simp only [Bool.and_eq_true, bne_iff_ne, decide_eq_true_eq]

theorem exec_markReceive (lanes : BitVec 64) (sk : List (BitVec 6)) (t : Tenant) : exec (.markReceive l lanes sk t) s =
    .next (s.keep (if s.live l = true then s.markIn l t lanes.toNat (sk.map BitVec.toNat) else s)) :=
  event_on s (fun s => if s.live l then s.markIn l t lanes.toNat (sk.map BitVec.toNat) else s) hc

end

/-! ## REIN (R185, R201, R170) -/

section
variable {s : State} {r : Rein}

/-- A REIN marked BLOCKED that no window explains answers a running far transfer (log entry 91). -/
def answersFar (s : State) (r : Rein) : Bool :=
  r.blocked && !(s.net.wins.any fun w => w.ep == r.src && w.tenant == r.tenant && w.gen == r.gen && !w.owed.isEmpty) && s.insts.any (s.farBlocked r)

/-- The window that a REIN names. -/
def reinWin (s : State) (r : Rein) : Option Win := s.net.wins.find? fun w => w.ep == r.src && w.tenant == r.tenant && w.gen == r.gen

theorem reinHere_far (h : answersFar s r = true) : s.reinHere r = s.updInst (s.farBlocked r) fun i => { i with blocked := true } := if_pos h

theorem reinHere_stale (h : answersFar s r = false) (hw : reinWin s r = none) : s.reinHere r = s.sat .RTE_DROPS_STALE 0 := by
  refine (if_neg (Bool.eq_false_iff.1 h)).trans ?_
  rw [show List.find? _ _ = none from hw]

theorem reinHere_held {w : Win} (h : answersFar s r = false) (hw : reinWin s r = some w) (hq : w.quarEnd ≤ s.now) : s.reinHere r =
    (((s.reinMany w.ep w.tenant w.team r.blocked r.credits).freeReinStalls).pumpWaiting).pumpRemotes := by
  refine (if_neg (Bool.eq_false_iff.1 h)).trans ?_
  rw [show List.find? _ _ = some w from hw]
  exact if_neg (Nat.not_lt.2 hq)

end

/-! ## HALT (R231, R232, R326, R327) -/

section
variable {s : State} {l : Nat} {v : Slot}

theorem teamReason_iff (r : Nat) : teamReason r = true ↔ r ∈ [1, 2, 3, 4, 7] := List.contains_iff_mem

theorem linkReason_iff (r : Nat) : linkReason r = true ↔ r ∈ [3, 4, 5, 6] := List.contains_iff_mem

theorem halt_good (hv : haltOk v = true) (hr : slotAt v 3 1 ∈ [1, 2, 3, 4, 7]) : s.halt l v =
    ((if s.haltSeen (slotAt v 1 1) (slotAt v 2 1) (slotAt v 4 2) then s else s.haltAll l (slotAt v 1 1) (slotAt v 2 1) (slotAt v 3 1) (slotAt v 4 2)).noteHalt
      (slotAt v 1 1) (slotAt v 2 1) (slotAt v 4 2)).applyHalt (slotAt v 1 1) (slotAt v 2 1) (slotAt v 3 1) (slotAt v 4 2) :=
  if_neg (by rw [hv, (teamReason_iff _).2 hr]; decide)

theorem halt_bad (h : ¬ (haltOk v = true ∧ slotAt v 3 1 ∈ [1, 2, 3, 4, 7])) : s.halt l v = s.badUnit l := by
  rw [← teamReason_iff, not_and_or, Bool.not_eq_true, Bool.not_eq_true] at h
  exact if_pos (by rcases h with h | h <;> simp [h])

theorem linkHalt_attributes {r : Nat} (h : r = 3 ∨ r = 4) : s.linkHalt l r = s.setLink l { s.link l with attrib := s.now + 100000000 } := by
  rcases h with rfl | rfl <;> rfl

end

/-! ## MARK (R213, R227, R296) -/

section
variable {s : State} {l : Link} {t : Tenant}

/-- A MARK has left. -/
def markSent (s : State) (l t : Nat) : State :=
  (s.emit (.mark l t)).setSub l t { s.sub l t with marks := (s.sub l t).marks + 1 }

theorem frame_markSent (s : State) (l t : Nat) : Frame [.net, .outbox] [] s (markSent s l t) :=
  ((frame_outbox s _).append (frame_setSub (s.emit (.mark l t)) l t _)).mono (by simp) (by simp)

theorem subIs_markSent (s : State) (l t : Nat) : SubIs s l t { s.sub l t with marks := (s.sub l t).marks + 1 } (markSent s l t) :=
  subIs_setSub (s.emit (.mark l t)) l t _

theorem exec_markSend (hc : s.coreOn = true) (hs : s.safe = false)
    (hgo : (s.live l = true ∧ s.subGroups l t ≠ [] ∧ s.markDue l t = true) ∨ (s.live l = false ∧ s.inAlign l = true ∧ s.alignMarkDue l t = true)) :
    exec (.markSend l t) s = .next (s.keep (markSent s l t)) := by
  have hdue : ((if s.live l then !(s.subGroups l t).isEmpty && s.markDue l t else s.inAlign l && s.alignMarkDue l t) && !s.safe) = true := by
    rcases hgo with ⟨hl, hg, hm⟩ | ⟨hl, ha, hm⟩
    · simp [hl, hg, hm, hs]
    · simp [hl, ha, hm, hs]
  refine (event_on s _ hc).trans ?_
  dsimp only
  rw [if_pos hdue, markSent]

end

section
variable (s : State) (l t lanes : Nat) (sk : List Nat)

/-- The lanes that the sub-link uses. -/
def lanesUsed : List Nat := (List.range 64).filter fun k => (s.subGroups l t).contains (k / 16)

/-- Those of them that had the MARK. -/
def lanesMarked : List Nat := (lanesUsed s l t).filter fun k => bitAt lanes k

/-- Those of them that missed it. -/
def lanesMissed : List Nat := (lanesUsed s l t).filter fun k => !bitAt lanes k

/-- The lanes of the link's other sub-links that missed their last MARK. -/
def missedElsewhere : List Nat := (List.range 64).filter fun k => bitAt (s.link l).markMiss k && !(lanesUsed s l t).contains k

/-- Each lane that had the MARK shows its skew behind the latest. -/
def skewsShown (here : List Nat) : State :=
  setEach .LNK_LANE_SKEW (fun k => 64 * l + k) (fun k => greatest (here.map fun k => sk.getD k 0) - sk.getD k 0) (fun _ => true) here s

/-- A column of MARKs that no lane misses for the second time: skews shown, lanes that miss it marked. -/
def markTaken : State :=
  (skewsShown s l sk (lanesMarked s l t lanes)).updLink l fun x =>
    { x with markMiss := (missedElsewhere s l t ++ lanesMissed s l t lanes).foldl (fun m k => m + 2 ^ k) 0 }

variable {s l t lanes sk}

theorem markIn_none (h : lanesMarked s l t lanes = []) : s.markIn l t lanes sk = s := if_pos (List.isEmpty_iff.2 h)

theorem markIn_taken (h : lanesMarked s l t lanes ≠ []) (hm : (lanesMissed s l t lanes).any (bitAt (s.link l).markMiss) = false) :
    s.markIn l t lanes sk = markTaken s l t lanes sk := by
  have hgroups : (nat4.filter fun g => ((lanesMissed s l t lanes).filter fun k => bitAt (s.link l).markMiss k).any fun k => k / 16 == g) = [] := by
    rw [List.filter_eq_nil_iff.2 (List.any_eq_false.1 hm)]
    rfl
  show (if (lanesMarked s l t lanes).isEmpty then s else List.foldl _ (markTaken s l t lanes sk) (nat4.filter fun g =>
    ((lanesMissed s l t lanes).filter fun k => bitAt (s.link l).markMiss k).any fun k => k / 16 == g)) = _
  rw [if_neg (by simpa using h), hgroups, List.foldl_nil]

theorem frame_skewsShown (here : List Nat) : Frame [] (here.map fun k => (.LNK_LANE_SKEW, 64 * l + k)) s (skewsShown s l sk here) := frame_setEach ..

theorem frame_markTaken : Frame [.links] ((lanesMarked s l t lanes).map fun k => (.LNK_LANE_SKEW, 64 * l + k)) s (markTaken s l t lanes sk) :=
  ((frame_skewsShown _).append (frame_updLink _ l _)).mono (by simp) (by simp)

theorem nodup_lanesMarked : ((lanesMarked s l t lanes).map fun k => 64 * l + k).Nodup :=
  ((List.nodup_range.filter _).filter _).map fun _ _ h => Nat.add_left_cancel h

theorem markTaken_skew {k : Nat} (hk : k ∈ lanesMarked s l t lanes) : (markTaken s l t lanes sk).rf .LNK_LANE_SKEW (64 * l + k) =
    (greatest ((lanesMarked s l t lanes).map fun k => sk.getD k 0) - sk.getD k 0) % 2 ^ fwidth .LNK_LANE_SKEW := by
  rw [markTaken, (frame_updLink _ l _).rf List.not_mem_nil]
  exact rf_setEach s nodup_lanesMarked hk rfl

theorem linkIs_markTaken : LinkIs s l { s.link l with markMiss := (missedElsewhere s l t ++ lanesMissed s l t lanes).foldl (fun m k => m + 2 ^ k) 0 }
    (markTaken s l t lanes sk) := by
  have hl : (skewsShown s l sk (lanesMarked s l t lanes)).links = s.links := (frame_skewsShown _).part .links List.not_mem_nil
  have hk := linkIs_of_links hl l
  have hu := linkIs_updLink (skewsShown s l sk (lanesMarked s l t lanes)) l fun x =>
    { x with markMiss := (missedElsewhere s l t ++ lanesMissed s l t lanes).foldl (fun m k => m + 2 ^ k) 0 }
  rw [hk.1] at hu
  exact hk.trans hu

end

/-- Settles O41: each command is the branch of its function that the hypotheses name. -/
theorem reinsHaltsAndMarksAreTaken : Obligations.ReinsHaltsAndMarksAreTaken := by
  intro s l t v w lanes sk hc live x r reason ht hg he applied used here missed others skew top far lives
  have hlink : ∀ {c : Instr} {y : LinkRec}, exec c s = .next (s.keep (s.setLink l y)) → Does c s fun u => LinkIs s l y u ∧ Frame [.links] [] s u :=
    fun h => does_of_frame h (frame_links s _) ⟨linkIs_setLink .., frame_links s _⟩
  have hmark : exec (.markSend l t) s = .next (s.keep (markSent s l t)) → Does (.markSend l t) s fun u =>
      SubIs s l t { s.sub l t with marks := (s.sub l t).marks + 1 } u ∧ u.outbox = s.outbox ++ [.mark l t] ∧ Frame [.net, .outbox] [] s u :=
    fun h => does_of_frame h (frame_markSent ..) ⟨subIs_markSent .., rfl, frame_markSent ..⟩
  have hrein : live → unitOk kRein v = true → r.dst = s.self → exec (.reinReceive l v) s = .next (s.keep (s.reinHere r)) := fun hl hv hd =>
    (exec_reinReceive hc v).trans (by rw [if_pos hl, if_pos hv, if_pos hd])
  have hhalt : live → ht ≠ 0xFF → exec (.haltReceive l v) s = .next (s.keep (s.halt l v)) := fun hl h =>
    (exec_haltReceive hc v).trans (by rw [if_pos ⟨hl, h⟩])
  have hgood : lives → ht = 0xFF → haltOk v = true → reason ∈ [3, 4, 5, 6] →
      exec (.linkHaltReceive l v) s = .next (s.keep (s.linkHalt l reason)) := fun hl h hv hr =>
    (exec_linkHaltReceive hc v hl h).trans (by rw [if_pos ⟨hv, (linkReason_iff _).2 hr⟩])
  refine ⟨fun hl => ⟨?_, ?_, ?_⟩, fun hl => does_nothing (exec_linkHaltReceive_not hc v hl), fun hl hv hd hf => ?_, fun hl hv => ?_,
    fun hl hv hd hf hw => ?_, fun hl hv hd hf hw hq => ?_, fun hl hv hd => ?_, fun hl h hv hr => ⟨fun hs => ?_, fun hs => ?_⟩, fun hl h hb => ?_,
    fun hl h hb => ?_, fun hl h hv => ⟨fun hr => ?_, fun hr => ?_, fun hr => ?_⟩, fun h0 hn => ?_, fun hn => ?_,
    fun hl hg hm hs => hmark (exec_markSend hc hs (.inl ⟨hl, hg, hm⟩)), fun hl ha hm hs => hmark (exec_markSend hc hs (.inr ⟨hl, ha, hm⟩)),
    fun hl hh => ?_, fun hl hh hm => ?_⟩
  · exact does_nothing ((exec_reinReceive hc v).trans (by rw [if_neg hl]))
  · exact does_nothing ((exec_haltReceive hc v).trans (by rw [if_neg fun h => hl h.1]))
  · exact does_nothing ((exec_markReceive hc lanes sk t).trans (by rw [if_neg hl]))
  · have hx := hrein hl hv hd
    rw [reinHere_far hf] at hx
    exact does_of_frame hx (frame_insts s _) ⟨rfl, frame_insts s _⟩
  · exact (exec_reinReceive hc v).trans (by rw [if_pos hl, if_neg (Bool.eq_false_iff.1 hv)])
  · have hx := hrein hl hv hd
    rw [reinHere_stale hf hw] at hx
    exact does_of_frame hx (frame_sat ..) ⟨counted_sat .., frame_sat ..⟩
  · exact (hrein hl hv hd).trans (by rw [reinHere_held hf hw hq])
  · exact (exec_reinReceive hc v).trans (by rw [if_pos hl, if_pos hv, if_neg hd])
  · exact (hhalt hl h).trans (by rw [halt_good hv hr, if_pos hs])
  · exact (hhalt hl h).trans (by rw [halt_good hv hr, if_neg (Bool.eq_false_iff.1 hs)])
  · exact (hhalt hl h).trans (by rw [halt_bad hb])
  · exact (exec_linkHaltReceive hc v hl h).trans (by rw [if_neg fun hk => hb ⟨hk.1, (linkReason_iff _).1 hk.2⟩])
  · exact (hgood hl h hv (by simp [hr])).trans (by rw [hr]; rfl)
  · exact hlink ((hgood hl h hv (by simp [hr])).trans (by rw [hr]; rfl))
  · exact hlink ((hgood hl h hv (by rcases hr with hr | hr <;> simp [hr])).trans (by rw [linkHalt_attributes hr]))
  · exact hlink ((exec_attributionPeriodEnd hc).trans (by rw [if_pos ⟨h0, hn⟩]))
  · exact does_nothing ((exec_attributionPeriodEnd hc).trans (by rw [if_neg fun h => Nat.not_le.2 hn h.2]))
  · exact does_nothing ((exec_markReceive hc lanes sk t).trans (by rw [if_pos hl, markIn_none hh]))
  · have hx := exec_markReceive (l := l) hc lanes sk t
    rw [if_pos hl, markIn_taken hh hm] at hx
    exact does_of_frame hx frame_markTaken ⟨linkIs_markTaken, fun k hk => markTaken_skew hk, frame_markTaken⟩

end Sys2Proof

namespace Sys2Proof

open Machine

/-! # Groom jobs, hitch and depot answers (O49) -/

/-! ## GROOM_JOB_START (R145, R149, Table 6.1) -/

/-- The request is dropped: its yard is in reset, or its KIND is none of Table 6.1. -/
def jobStops (s : State) (r : GroomReq) : Bool := s.rf .YRD_STATE_STATE r.y = 1 || s.rf .YRD_STATE_STATE r.y = 3 || r.kind = 0 || 3 < r.kind

theorem jobStops_iff {s : State} {r : GroomReq} : jobStops s r = true ↔
    s.rf .YRD_STATE_STATE r.y = 1 ∨ s.rf .YRD_STATE_STATE r.y = 3 ∨ r.kind = 0 ∨ 3 < r.kind := by
  simp [jobStops, or_assoc]

/-- The job that a request becomes. -/
def jobOf (s : State) (r : GroomReq) : GroomJob :=
  { req := r, id := s.groom.jobs + 1, inst := match s.insts.find? fun i => i.team == r.team && i.st == .running && i.n % 2 == r.rec_ % 2 with
    | some i => i.n
    | none => s.jobRec r 4 4 }

/-- The front request has become the running job, is shown and traced. -/
def jobShown (s : State) (r : GroomReq) (rest : List GroomReq) : State :=
  (({ s with groom := { s.groom with queue := rest, job := some (jobOf s r), jobs := s.groom.jobs + 1 } } : State).setfs
    [(.GRM_STATUS_BUSY, 0, 1), (.GRM_STATUS_KIND, 0, r.kind), (.GRM_STATUS_YARD, 0, r.y), (.GRM_STATUS_TEAM, 0, r.team),
      (.GRM_STATUS_CUT, 0, 0)]).trace 4 (r.team + 256 * r.kind + 65536 * r.y)

section
variable {s : State}

theorem groomStart_still (h : s.groom.job.isSome = true ∨ s.groom.queue = []) : s.groomStart = s := by
  unfold State.groomStart
  split
  · next r t hj hq =>
    rcases h with h | h
    · rw [hj] at h; cases h
    · rw [hq] at h; cases h
  · rfl

/-- What becomes of the front request where no job runs. -/
theorem groomStart_front {r : GroomReq} {rest : List GroomReq} (hj : s.groom.job = none) (hq : s.groom.queue = r :: rest) : s.groomStart =
    if jobStops s r then { s with groom := { s.groom with queue := rest } }
    else if s.safe || !s.jobConfirmed r then s else (jobShown s r rest).groomBegin (jobOf s r) := by
  unfold State.groomStart
  split
  · next r' t' _ hq' =>
    obtain ⟨rfl, rfl⟩ := List.cons.inj (hq.symm.trans hq')
    rfl
  · next hn => exact (hn r rest hj hq).elim

/-! ## GROOM_JOB_END (R145, R162) -/

theorem exec_groomJobEnd_none (hc : s.coreOn = true) (hj : s.groom.job = none) : exec .groomJobEnd s = .next (s.keep s) := by
  show execGroomJobEnd s = _
  rw [execGroomJobEnd, event_on _ _ hc]
  simp only [hj]

/-- The fields of GRM_STATUS that show the running job, with no job. -/
def statusClear : List (Fld × Nat × Nat) := [(.GRM_STATUS_BUSY, 0, 0), (.GRM_STATUS_KIND, 0, 0), (.GRM_STATUS_YARD, 0, 0), (.GRM_STATUS_TEAM, 0, 0)]

/-- The running job has left the unit, with the word that its norms may have taken. -/
def jobLeft (s : State) : State := { s with groom := { s.groom with job := none }, fresh := s.fresh + 1 }

/-- The groom unit is free, and shows it. -/
def unitFreed (s : State) : State := (jobLeft s).setfs statusClear

/-- The job that has ended is counted. -/
def jobCounted (s : State) : State := (unitFreed s).inc .GRM_COUNTS_JOBS 0

section
variable {j : GroomJob} (hj : s.groom.job = some j)
include hj

theorem exec_groomJobEnd_some (hc : s.coreOn = true) : exec .groomJobEnd s =
    .next (s.keep (if j.over && !s.safe then s.groomEnd.afterJob j.req else s)) := by
  show execGroomJobEnd s = _
  rw [execGroomJobEnd, event_on _ _ hc]
  simp only [hj]

theorem groomEnd_plain (ho : j.over = true) (hs : s.safe = false) (hb : s.backWrites j = []) (hv : s.rf .GRM_START_VALID j.req.y = 0) :
    s.groomEnd = jobCounted s := by
  have hvalid : (jobCounted s).on .GRM_START_VALID j.req.y = false := by
    rw [State.on, jobCounted, State.inc, (frame_setf ..).rf (by simp), unitFreed, (frame_setfs ..).rf (by simp [fieldsIn, statusClear])]
    exact bne_eq_false_iff_eq.2 hv
  unfold State.groomEnd
  split
  · next h => cases hj.symm.trans h
  · next k h =>
    obtain rfl := Option.some.inj (hj.symm.trans h)
    rw [if_neg (by simp [ho, hs])]
    simp only [hb, List.isEmpty_nil, if_true, List.foldl_nil]
    exact if_neg (Bool.eq_false_iff.1 hvalid)

end

theorem frame_jobLeft (s : State) : Frame [.groom, .fresh] [] s (jobLeft s) :=
  (frame_groom s { s.groom with job := none }).append (frame_fresh { s with groom := { s.groom with job := none } } (s.fresh + 1))

theorem frame_unitFreed (s : State) : Frame [.groom, .fresh] (fieldsIn statusClear) s (unitFreed s) :=
  (frame_jobLeft s).append (frame_setfs statusClear (jobLeft s))

theorem frame_jobCounted (s : State) : Frame [.groom, .fresh] (fieldsIn statusClear ++ [(.GRM_COUNTS_JOBS, 0)]) s (jobCounted s) :=
  (frame_unitFreed s).append (frame_setf (unitFreed s) .GRM_COUNTS_JOBS 0 _)

theorem jobCounted_status {f : Fld × Nat} (hf : f ∈ fieldsIn statusClear) : (jobCounted s).rf f.1 f.2 = 0 := by
  have hzero : (f.1, f.2, 0) ∈ statusClear ∧ (∀ w, (f.1, f.2, w) ∈ statusClear → w = 0) ∧ f ≠ (.GRM_COUNTS_JOBS, 0) := by
    simp only [fieldsIn, statusClear, List.map_cons, List.map_nil, List.mem_cons, List.not_mem_nil, or_false] at hf
    rcases hf with rfl | rfl | rfl | rfl <;> simp [statusClear]
  obtain ⟨hm, hu, hn⟩ := hzero
  rw [jobCounted, State.inc, (frame_setf ..).rf (by simpa using hn), unitFreed, rf_setfs hm hu, Nat.zero_mod]

theorem jobCounted_count : (jobCounted s).rf .GRM_COUNTS_JOBS = (s.rf .GRM_COUNTS_JOBS + 1) % 2 ^ fwidth .GRM_COUNTS_JOBS := by
  rw [jobCounted, State.inc, State.rf_setf_same, (frame_unitFreed s).rf (by simp [fieldsIn, statusClear])]

theorem running_frame {ps : List Part} {fs : List (Fld × Nat)} {t : State} (h : Frame ps fs s t) (hi : .insts ∉ ps) (u : Nat) :
    t.running u = s.running u := by
  have hinsts : t.insts = s.insts := h.part .insts hi
  rw [State.running, hinsts, State.running]

theorem afterJob_none {r : GroomReq} (h : s.running r.team = none) : s.afterJob r = s := by
  unfold State.afterJob
  rw [h]

/-! ## EPOCH_COPY_COMPLETE (R334) -/

/-- The instance of team t that has ended and decided to write. -/
def endedInst (s : State) (t : Nat) : Option Inst := s.insts.find? fun i => i.team == t && i.st == .ended && i.decision == 1

theorem epochCopy_none {t : Nat} (h : endedInst s t = none) : s.epochCopy t = s := by
  unfold State.epochCopy
  rw [show List.find? _ _ = none from h]

theorem epochCopy_some {t : Nat} {i : Inst} (h : endedInst s t = some i) : s.epochCopy t =
    if s.safe || s.unacked (some (i.team, i.n)) then s else
      ((i.staged.foldl (fun (s : State) w => s.wrPieces (pieces (s.bufFrags i.entry 44) w.dst w.len) (rdBytes s.depot w.stage w.len)) s).finishInst
        i i.outcome).dropInst i := by
  unfold State.epochCopy
  rw [show List.find? _ _ = some i from h]

/-! ## VEH_TILE_COMPLETE (R351) -/

theorem vehReport_other {tile : Nat} (h : s.hitch.vehDone.head? ≠ some tile) : s.vehReport tile = s := by
  unfold State.vehReport
  split
  · next t rest ht => exact if_neg fun hm => h (by rw [ht, List.head?_cons, hm])
  · rfl

/-- The oldest full tile is taken from the list, and its doorbell message is on its way. -/
def tileSent (s : State) (tile : Nat) (tiles : List Nat) : State :=
  { (({ s with hitch := { s.hitch with vehDone := tiles } } : State).emit
      (.irq (s.rf .HCH_VEH_DB_ADDR * 4) (tile % 65536 * 65536 + s.rf .HCH_VEH_SEQ_SEQ % 65536))) with aon := { s.aon with irqOut := s.aon.irqOut + 1 } }

theorem vehReport_oldest {tile : Nat} {tiles : List Nat} (h : s.hitch.vehDone = tile :: tiles) (ho : s.aon.irqOut < 32) :
    s.vehReport tile = (tileSent s tile tiles).inc .HCH_VEH_SEQ_SEQ 0 := by
  unfold State.vehReport
  rw [h]
  dsimp only
  rw [if_pos rfl, State.message, if_pos ho, tileSent]

theorem frame_tileSent (s : State) (tile : Nat) (tiles : List Nat) : Frame [.hitch, .outbox, .aon] [] s (tileSent s tile tiles) :=
  (frame_hitch s { s.hitch with vehDone := tiles }).append (frame_message _ _ _)

/-! ## Responses of the hitch (R323, R342 to R347) -/

theorem pastBound_frame {ps : List Part} {fs : List (Fld × Nat)} {t : State} (h : Frame ps fs s t) (hf : (.AON_MTC_MTC_NS, 0) ∉ fs)
    (hb : (.HCH_BOUND_BOUND_US, 0) ∉ fs) (ht : .time ∉ ps) (hp : .power ∉ ps) (r : HitchReq) : t.pastBound r = s.pastBound r := by
  rw [State.pastBound, h.now hf ht hp, h.rf hb, State.pastBound]

theorem vehAt_frame {ps : List Part} {t : State} (h : Frame ps [] s t) (a : Nat) : t.vehAt a = s.vehAt a := by
  have hrf : ∀ f i, t.rf f i = s.rf f i := fun _ _ => h.rf List.not_mem_nil
  unfold State.vehAt State.tileSize State.on
  rw [hrf, hrf, hrf, hrf]

section
variable {port tag yg err : Nat} {last : Bool} {data : List Byte} {r : HitchReq}

theorem readBeat_unknown (h : s.reqOf port tag false = none) : s.readBeat port tag yg last err data = s.fault 7 := by
  unfold State.readBeat
  rw [h]

theorem writeResponse_unknown (h : s.reqOf port tag true = none) : s.writeResponse port tag yg err = s.fault 7 := by
  unfold State.writeResponse
  rw [h]

theorem readBeat_stale (h : s.reqOf port tag false = some r) (hy : s.ygStale r yg = true) : s.readBeat port tag yg last err data =
    if last then ((s.dropReq r).staleResponse r).lateResponse r else s.staleResponse r := by
  unfold State.readBeat
  rw [h]
  exact if_pos hy

theorem writeResponse_stale (h : s.reqOf port tag true = some r) (hy : s.ygStale r yg = true) : s.writeResponse port tag yg err =
    ((if err = 0 then (s.dropReq r).wrHitch r.addr r.data else s.dropReq r).staleResponse r).lateResponse r := by
  unfold State.writeResponse
  rw [h]
  exact if_pos hy

/-- The request with one beat more. -/
def oneBeat (r : HitchReq) (data : List Byte) : HitchReq := { r with beats := r.beats + 1, data := r.data ++ data }

/-- The request has taken a good beat. -/
def beatTaken (s : State) (r : HitchReq) (data : List Byte) : State := s.updReq r fun _ => oneBeat r data

section
variable (h : s.reqOf port tag false = some r) (hy : s.ygStale r yg = false)
include h hy

theorem readBeat_good : s.readBeat port tag yg last 0 data =
    if last then
      (if r.beats + 1 = beatCount r.len then ((beatTaken s r data).lateResponse r).readDone (oneBeat r data)
        else (((beatTaken s r data).lateResponse r).fault 7).readDone { oneBeat r data with err := true })
    else if beatCount r.len ≤ r.beats + 1 then (beatTaken s r data).fault 7 else (beatTaken s r data).readBegins r.use := by
  unfold State.readBeat
  rw [h]
  simp only [hy, bne_self_eq_false, Bool.or_false, Bool.false_eq_true, if_false]
  rfl

theorem readBeat_more (hb : r.beats + 1 < beatCount r.len) : s.readBeat port tag yg false 0 data = (beatTaken s r data).readBegins r.use := by
  rw [readBeat_good h hy, if_neg Bool.false_ne_true, if_neg (Nat.not_le.2 hb)]

theorem readBeat_last (hb : r.beats + 1 = beatCount r.len) :
    s.readBeat port tag yg true 0 data = ((beatTaken s r data).lateResponse r).readDone (oneBeat r data) := by
  rw [readBeat_good h hy, if_pos rfl, if_pos hb]

end

theorem frame_updTag (s : State) (p tag serial : Nat) (f : TagOp → TagOp) : Frame [.posts, .yards] [] s (s.updTag p tag serial f) := frame_setPost ..

theorem frame_readBegins (s : State) (u : HitchUse) : Frame [.posts, .yards, .groom] [] s (s.readBegins u) := by
  cases u with
  | tag u => exact (frame_updTag ..).mono (by simp) (by simp)
  | groom job part =>
    show Frame _ _ s (s.groomBegun job part)
    unfold State.groomBegun
    split
    · exact frame_ite ((frame_groom s _).mono (by simp) (by simp)) (Frame.refl ..)
    · exact Frame.refl ..

/-! ### A good write response -/

/-- A postilion without operations has none that a change of one could reach. -/
theorem updTag_none {p : Nat} (h : (s.post p).tags = []) (tag serial : Nat) (f : TagOp → TagOp) :
    s.updTag p tag serial f = s.setPost p (s.post p) := by
  have hsame : ({ s.post p with tags := updWhere (fun t => t.tag == tag && t.serial == serial) f (s.post p).tags } : Post) = s.post p := by
    rw [h, show updWhere _ f [] = [] from rfl, ← h]
  exact congrArg (s.setPost p) hsame

theorem writePart_none {u : TagRef} (h : (s.post u.post).tags = []) : s.writePart u = s.setPost u.post (s.post u.post) := by
  unfold State.writePart
  simp only [updTag_none h, State.post_setPost_same, Post.tagOp, h, List.find?_nil]

theorem post_setPost_self (s : State) (p q : Nat) : (s.setPost p (s.post p)).post q = s.post q := by
  by_cases hq : q = p
  · rw [hq, State.post_setPost_same]
  · rw [State.post_setPost_other _ _ _ _ hq]

theorem frame_dropReq (s : State) (r : HitchReq) : Frame [.yards, .hitch] [] s (s.dropReq r) :=
  (frame_yards s _).append (frame_hitch (s.touch (r.yg / 16)) _)

/-- The request is answered, its bytes stand in host memory. -/
def writeDone (s : State) (r : HitchReq) : State := (s.dropReq r).wrHost r.addr r.data

theorem frame_writeDone (s : State) (r : HitchReq) : Frame [.yards, .hitch, .host] [] s (writeDone s r) :=
  (frame_dropReq s r).append (frame_host (s.dropReq r) _)

theorem writeResponse_good {u : TagRef} (h : s.reqOf port tag true = some r) (hy : s.ygStale r yg = false) (hb : s.pastBound r = false)
    (hv : s.vehAt r.addr = none) (hu : r.use = .tag u) (ht : (s.post u.post).tags = []) :
    s.writeResponse port tag yg 0 = (writeDone s r).setPost u.post ((writeDone s r).post u.post) := by
  have hf := frame_writeDone s r
  have hwr : (s.dropReq r).wrHitch r.addr r.data = writeDone s r := by
    rw [State.wrHitch, vehAt_frame (frame_dropReq s r), hv, writeDone]
  have hlate : (writeDone s r).lateResponse r = writeDone s r := by
    rw [State.lateResponse, pastBound_frame hf (by simp) (by simp) (by simp) (by simp), hb, if_neg Bool.false_ne_true]
  have hveh : (writeDone s r).vehCount (r.yg / 16) r.addr r.len = writeDone s r := by
    rw [State.vehCount, vehAt_frame hf, hv]
  have hpart : (writeDone s r).writePart u = _ := writePart_none (s := writeDone s r) ht
  unfold State.writeResponse
  rw [h]
  dsimp only
  rw [hy, if_neg Bool.false_ne_true, if_pos rfl, if_pos rfl, hwr, hlate, hveh, hu]
  exact hpart

end

/-! ## Credits and the bound (R323, R342) -/

section
variable {port tag : Nat}

theorem hitchCredit_beat_over (h : 256 ≤ sget (fun _ => 0) s.hitch.beats port) : s.hitchCredit port true = s.fault 7 := by
  unfold State.hitchCredit
  exact if_pos h

theorem hitchCredit_over (h : 64 ≤ sget (fun _ => 0) s.hitch.cred port) : s.hitchCredit port false = s.fault 7 := by
  unfold State.hitchCredit
  exact if_pos h

theorem hitchCredit_beat (h : sget (fun _ => 0) s.hitch.beats port < 256)
    (hn : (s.hitch.reqs.find? fun r => r.port == port && r.wr && decide (r.beats < beatCount r.len)) = none) : s.hitchCredit port true =
      { s with hitch := { s.hitch with beats := sset (fun _ => 0) s.hitch.beats port (sget (fun _ => 0) s.hitch.beats port + 1) } } := by
  unfold State.hitchCredit
  refine (if_neg (Nat.not_le.2 h)).trans ?_
  unfold State.sendBeat
  dsimp only
  rw [hn]

theorem hitchCredit_idle (h : sget (fun _ => 0) s.hitch.cred port < 64) (hw : s.hitch.waitq = []) : s.hitchCredit port false =
    { s with hitch := { s.hitch with cred := sset (fun _ => 0) s.hitch.cred port (sget (fun _ => 0) s.hitch.cred port + 1) } } := by
  unfold State.hitchCredit
  refine (if_neg (Nat.not_le.2 h)).trans ?_
  simp only [pumpHitch_eq, hw, hitchOrder, List.filter_nil, List.append_nil, List.foldl_nil, withWaitq]

/-- The request of a port that carries a tag. -/
def reqAt (s : State) (port tag : Nat) : Option HitchReq := s.hitch.reqs.find? fun r => r.port == port && r.tag == tag

theorem boundExpiry_none (h : reqAt s port tag = none) : s.boundExpiry port tag = s := by
  unfold State.boundExpiry
  rw [show List.find? _ _ = none from h]

theorem boundExpiry_some {r : HitchReq} (h : reqAt s port tag = some r) : s.boundExpiry port tag =
    if s.pastBound r && !r.late then (s.updReq r fun x => { x with late := true }).fault 27 (.yard (r.yg / 16)) else s := by
  unfold State.boundExpiry
  rw [show List.find? _ _ = some r from h]

end

/-! ## Depot answers and the patrol scrub (R170, R379) -/

section
variable {ch : Nat} {d : DepotReq}

/-- The oldest access of a channel. -/
def oldestAccess (s : State) (ch : Nat) : Option DepotReq := s.hitch.dreqs.find? fun r => r.ch == ch

/-- The access has left the channel's queue. -/
def accessTaken (s : State) (d : DepotReq) : State := { s with hitch := { s.hitch with dreqs := s.hitch.dreqs.erase d } }

theorem depotDone_none (h : oldestAccess s ch = none) (ue : Nat) : s.depotDone ch ue = s := by
  unfold State.depotDone
  rw [show List.find? _ _ = none from h]

theorem depotDone_read (h : oldestAccess s ch = some d) (hw : d.wr = false) (hd : d.addr + d.len ≤ s.depotSize) :
    s.depotDone ch 0 = (accessTaken s d).depotUser d 0 := by
  have hin : decide (s.depotSize < d.addr + d.len) = false := decide_eq_false (Nat.not_lt.2 hd)
  have hbad : (List.range (granCount d.len)).filter (bitAt 0) = [] := List.filter_eq_nil_iff.2 fun k _ => by simp [bitAt]
  unfold State.depotDone
  rw [show List.find? _ _ = some d from h]
  simp only [hin, hw, hbad, Bool.false_and, Bool.false_eq_true, if_false, List.foldl_nil, Nat.zero_mod, accessTaken]

theorem depotDone_write (h : oldestAccess s ch = some d) (hw : d.wr = true) (hd : d.addr + d.len ≤ s.depotSize) (ue : Nat) :
    s.depotDone ch ue = ((accessTaken s d).wrDepot d.addr d.data).depotUser d 0 := by
  have hin : decide (s.depotSize < d.addr + d.len) = false := decide_eq_false (Nat.not_lt.2 hd)
  unfold State.depotDone
  rw [show List.find? _ _ = some d from h]
  simp only [hin, hw, Bool.not_false, Bool.and_self, Bool.false_eq_true, if_true, if_false, List.foldl_nil, accessTaken]

theorem depotUser_farWrite (hu : d.use = .farWrite) : s.depotUser d 0 = s := by
  unfold State.depotUser
  rw [hu]
  rfl

theorem depotUser_farRead {l : Nat} {c : Carriage} (hu : d.use = .farRead l c) :
    s.depotUser d 0 = s.farAnswer l c (rdBytes s.depot d.addr d.len) false := by
  unfold State.depotUser
  rw [hu]
  rfl

end

theorem frame_wrDepot (s : State) (a : Nat) (bs : List Byte) : Frame [.depot] [] s (s.wrDepot a bs) :=
  frame_of_parts rfl rfl rfl fun p _ => by cases p <;> simp_all [Part.Same]

/-- The patrol is on, and the word lies in the depot. -/
def Scrubs (s : State) (a : Nat) : Prop := s.rf .DEP_SCRUB_EN ≠ 0 ∧ 64 * a < s.depotSize

theorem scrub_not {a : Nat} (h : ¬ Scrubs s a) (e : EccResult) : s.scrub a e = s := by
  rw [Scrubs, not_and_or, not_not, Nat.not_lt] at h
  unfold State.scrub
  exact if_pos (by simpa [State.on] using h)

theorem scrub_word {a : Nat} (h : Scrubs s a) : s.scrub a .good = s ∧ s.scrub a .corrected = (s.sat .DEP_ECC_CE 0).fault 24
    ∧ s.scrub a .chipkill = (s.sat .DEP_ECC_CHIPKILL 0).fault 24 ∧ s.scrub a .uncorrectable = s.depotUe (s.channelOf (64 * a)) (64 * a) := by
  obtain ⟨hon, ha⟩ := h
  have hgo : (!s.on .DEP_SCRUB_EN || decide (s.depotSize ≤ 64 * a)) = false := by simp [State.on, hon, ha]
  refine ⟨?_, ?_, ?_, ?_⟩ <;> exact if_neg (Bool.eq_false_iff.1 hgo)

end

/-! ## The statement -/

/-- Settles O49: each command is the branch of its function that the hypotheses name. -/
theorem groomHitchAndDepotServeTheirRequests : Obligations.GroomHitchAndDepotServeTheirRequests := by
  intro s r rest j u i tile tiles port tag yg err last data h d ch ue a ur fl fc hc j0 s1 ended still dreq stop status creds beats fits proto gone h1 scrubs
  have hstart : exec .groomJobStart s = .next (s.keep s.groomStart) := event_on s _ hc
  have hcopy : exec (.epochCopyComplete u) s = .next (s.keep (s.epochCopy u)) := event_on s (fun s => s.epochCopy u) hc
  have htile : exec (.vehTileComplete tile) s = .next (s.keep (s.vehReport tile.toNat)) := event_on s (fun s => s.vehReport tile.toNat) hc
  have hread : ∀ (b : Bool) (e : BitVec 2), exec (.hitchReadResponse port tag yg b e data) s =
      .next (s.keep (s.readBeat port tag.toNat yg.toNat b e.toNat (leBytes 256 data.toNat))) := fun b e =>
    event_on s (fun s => s.readBeat port tag.toNat yg.toNat b e.toNat (leBytes 256 data.toNat)) hc
  have hbeat : ∀ b : Bool, exec (.hitchReadResponse port tag yg b 0 data) s =
      .next (s.keep (s.readBeat port tag.toNat yg.toNat b 0 (leBytes 256 data.toNat))) := fun b => hread b 0
  have hwrite : ∀ e : BitVec 2, exec (.hitchWriteResponse port tag yg e) s =
      .next (s.keep (s.writeResponse port tag.toNat yg.toNat e.toNat)) := fun e =>
    event_on s (fun s => s.writeResponse port tag.toNat yg.toNat e.toNat) hc
  have hcredit : ∀ b : Bool, exec (.hitchCreditReturn port b) s = .next (s.keep (s.hitchCredit port b)) := fun b =>
    event_on s (fun s => s.hitchCredit port b) hc
  have hbound : exec (.hitchBoundExpiry port tag) s = .next (s.keep (s.boundExpiry port tag.toNat)) :=
    event_on s (fun s => s.boundExpiry port tag.toNat) hc
  have hdepot : ∀ e : BitVec 128, exec (.depotAccessComplete ch e) s = .next (s.keep ((s.depotDone ch e.toNat).movesDone)) := fun e =>
    event_on s (fun s => (s.depotDone ch e.toNat).movesDone) hc
  have hscrub : ∀ e, exec (.patrolScrubRead a e) s = .next (s.keep (s.scrub a.toNat e)) := fun e => event_on s (fun s => s.scrub a.toNat e) hc
  have hmoves : still → ∀ i ∈ s.insts, ¬ (i.degraded = true ∧ (i.op = 0x48 ∨ i.op = 0x49)) := fun hs i hi hm =>
    hm.2.elim (hs i hi).1 (hs i hi).2
  refine ⟨fun hs => ?_, fun hj hq hs => ?_, fun hj hq hs hw => ?_, fun hj hq hs hsafe hk => ?_, fun hj => ?_, fun hj ho => ?_, fun hj ho hsafe => ?_,
    fun hj ho hsafe hb hv hr => ?_, fun he => ?_, fun he hw => ?_, fun he hsafe hw => ?_, fun hv ho => ?_, fun hv => ?_, fun hn => ?_, fun hn => ?_,
    fun hn hy hb => ?_, fun hn hy hb => ?_, fun hn hy => ?_, fun hn hy => ?_, fun hn hy hb hv hyg hu ht => ?_, fun hb => ?_, fun hb => ?_,
    fun hb hn => ?_, fun hb hn => ?_, fun hn => ?_, fun hn hb => ?_, fun hn hb hl => ?_, fun hn hs => ?_, fun hn hw hu hd => ?_,
    fun hn hw hu hd hl hs => ?_, fun hs e => ?_, fun hs => ?_⟩
  · exact does_nothing (hstart.trans (by rw [groomStart_still hs]))
  · rw [groomStart_front hj hq, if_pos (jobStops_iff.2 hs)] at hstart
    exact does_of_frame hstart (frame_groom s _) ⟨rfl, frame_groom s _⟩
  · exact does_nothing (hstart.trans (by rw [groomStart_front hj hq, if_neg (mt jobStops_iff.1 hs), if_pos (by simpa using hw)]))
  · exact hstart.trans (by rw [groomStart_front hj hq, if_neg (mt jobStops_iff.1 hs), if_neg (by simp [hsafe, hk])]; rfl)
  · exact does_nothing (exec_groomJobEnd_none hc hj)
  · exact does_nothing ((exec_groomJobEnd_some hj hc).trans (by rw [if_neg (by rcases ho with ho | ho <;> simp [ho])]))
  · exact (exec_groomJobEnd_some hj hc).trans (by rw [if_pos (by simp [ho, hsafe])])
  · have hx := exec_groomJobEnd_some hj hc
    have hf := frame_jobCounted s
    have hrun : (jobCounted s).running j.req.team = none := (running_frame hf (by simp) _).trans hr
    rw [if_pos (by simp [ho, hsafe]), groomEnd_plain hj ho hsafe hb hv, afterJob_none hrun] at hx
    exact does_of_frame hx hf ⟨rfl, fun f hm => jobCounted_status hm, rfl, jobCounted_count, hf⟩
  · exact does_nothing (hcopy.trans (by rw [epochCopy_none he]))
  · exact does_nothing (hcopy.trans (by rw [epochCopy_some he, if_pos (by simpa using hw)]))
  · exact hcopy.trans (by rw [epochCopy_some he, if_neg (by simp [hsafe, hw])])
  · have hf := frame_tileSent s tile.toNat tiles
    have hinc := frame_setf (tileSent s tile.toNat tiles) .HCH_VEH_SEQ_SEQ 0
    rw [vehReport_oldest hv ho] at htile
    refine does_of_frame htile (hf.append (hinc _)) ⟨?_, rfl, rfl, State.rf_setf_same .., hf.append (hinc _)⟩
    show s.outbox ++ [OutEv.irq _ (tile.toNat % 65536 * 65536 + _)] = _
    rw [Nat.mod_eq_of_lt tile.isLt]
  · exact does_nothing (htile.trans (by rw [vehReport_other hv]))
  · exact (hread last err).trans (by rw [readBeat_unknown hn])
  · exact (hwrite err).trans (by rw [writeResponse_unknown hn])
  · have hx := hbeat false
    have hbegin := frame_readBegins (beatTaken s h (leBytes 256 data.toNat)) h.use
    have hf := (frame_hitch s (beatTaken s h (leBytes 256 data.toNat)).hitch).append hbegin
    rw [readBeat_more hn hy hb] at hx
    exact does_of_frame hx hf ⟨hbegin.part .hitch (by simp), hf⟩
  · exact (hbeat true).trans (by rw [readBeat_last hn hy hb]; rfl)
  · exact (hread last err).trans (by rw [readBeat_stale hn hy])
  · refine (hwrite err).trans ?_
    rw [writeResponse_stale hn hy]
    by_cases h0 : err = 0
    · rw [if_pos h0, if_pos (by rw [h0]; rfl)]
    · have hz : err.toNat ≠ 0 := fun h => h0 (BitVec.eq_of_toNat_eq h)
      rw [if_neg h0, if_neg hz]
  · have hx := hwrite 0
    have hf := (frame_writeDone s h).append (frame_setPost (writeDone s h) ur.post ((writeDone s h).post ur.post))
    rw [show s.writeResponse port tag.toNat yg.toNat (0 : BitVec 2).toNat = _ from writeResponse_good hn hy hb hv hu ht] at hx
    obtain ⟨-, -, hsame, -⟩ := frame_setPost (writeDone s h) ur.post ((writeDone s h).post ur.post)
    have hhost : _ = wrBytes s.host h.addr h.data := hsame .host (by simp)
    refine does_of_frame hx hf ⟨?_, hsame .hitch (by simp), fun p => post_setPost_self (writeDone s h) ur.post p, hf.mono (by simp) (by simp)⟩
    rw [hhost]
    exact stored_wrBytes s.host h.addr h.data
  · exact (hcredit true).trans (by rw [hitchCredit_beat_over hb])
  · exact (hcredit false).trans (by rw [hitchCredit_over hb])
  · have hx := hcredit true
    rw [hitchCredit_beat hb hn] at hx
    exact does_of_frame hx (frame_hitch s _) ⟨rfl, frame_hitch s _⟩
  · have hx := hcredit false
    rw [hitchCredit_idle hb hn] at hx
    exact does_of_frame hx (frame_hitch s _) ⟨rfl, frame_hitch s _⟩
  · exact does_nothing (hbound.trans (by rw [boundExpiry_none hn]))
  · exact does_nothing (hbound.trans (by rw [boundExpiry_some hn, if_neg (by rcases hb with hb | hb <;> simp [hb])]))
  · exact hbound.trans (by rw [boundExpiry_some hn, if_pos (by simp [hb, hl])])
  · exact does_nothing ((hdepot ue).trans (by rw [depotDone_none hn, movesDone_none (hmoves hs)]))
  · have hx := hdepot 0
    rw [show s.depotDone ch (0 : BitVec 128).toNat = _ from depotDone_read hn hw hd, depotUser_farRead hu] at hx
    exact hx
  · have hx := hdepot ue
    have hf := (frame_hitch s (accessTaken s d).hitch).append (frame_wrDepot (accessTaken s d) d.addr d.data)
    rw [depotDone_write hn hw (hl ▸ hd), depotUser_farWrite hu, movesDone_none (s := (accessTaken s d).wrDepot d.addr d.data) (hmoves hs)] at hx
    exact does_of_frame hx hf ⟨stored_wrBytes s.depot d.addr d.data, rfl, hf.mono (by simp) (by simp)⟩
  · exact does_nothing ((hscrub e).trans (by rw [scrub_not hs]))
  · obtain ⟨hgood, hcorr, hkill, hunc⟩ := scrub_word hs
    refine ⟨does_nothing ((hscrub .good).trans (by rw [hgood])), (hscrub .corrected).trans (by rw [hcorr]),
      (hscrub .chipkill).trans (by rw [hkill]), (hscrub .uncorrectable).trans ?_⟩
    rw [hunc, State.depotUe, Nat.mul_div_cancel_left _ (by decide : 0 < 64)]

end Sys2Proof

namespace Sys2Proof

open Machine

/-! # The trailer and the header check (O59) -/

/-! ## Little-endian bytes -/

/-- The k low bytes depend on the number modulo 256 ^ k only. -/
theorem leBytes_congr {k n m : Nat} (h : n % 256 ^ k = m % 256 ^ k) : leBytes k n = leBytes k m := by
  induction k generalizing n m with
  | zero => rfl
  | succ k ih =>
    rw [Nat.pow_succ, Nat.mul_comm] at h
    have hlow : n % 256 = m % 256 := by
      rw [← Nat.mod_mul_right_mod n 256 (256 ^ k), h, Nat.mod_mul_right_mod]
    have hhigh : n / 256 % 256 ^ k = m / 256 % 256 ^ k := by
      rw [← Nat.mod_mul_right_div_self, h, Nat.mod_mul_right_div_self]
    have hbyte : BitVec.ofNat 8 n = BitVec.ofNat 8 m := BitVec.eq_of_toNat_eq hlow
    rw [leBytes, leBytes, hbyte, ih hhigh]

theorem take_leBytes (k j n : Nat) : (leBytes (k + j) n).take k = leBytes k n := by
  induction k generalizing n with
  | zero => rfl
  | succ k ih => rw [Nat.succ_add, leBytes, List.take_succ_cons, ih, leBytes]

theorem drop_leBytes (k j n : Nat) : (leBytes (k + j) n).drop k = leBytes j (n / 256 ^ k) := by
  induction k generalizing n with
  | zero => rw [Nat.zero_add, Nat.pow_zero, Nat.div_one, List.drop_zero]
  | succ k ih => rw [Nat.succ_add, leBytes, List.drop_succ_cons, ih, Nat.div_div_eq_div_mul, Nat.pow_succ']

/-! ## The CRC fits its field -/

theorem crcBits_lt (n : Nat) {c : Nat} (h : c < 2 ^ 32) : crcBits n c < 2 ^ 32 := by
  induction n generalizing c with
  | zero => exact h
  | succ n ih =>
    rw [crcBits]
    split
    · exact ih (Nat.xor_lt_two_pow (by omega) (by decide))
    · exact ih (by omega)

theorem crcRun_lt (bs : List Byte) {c : Nat} (h : c < 2 ^ 32) : crcRun c bs < 2 ^ 32 := by
  induction bs generalizing c with
  | nil => exact h
  | cons b bs ih => exact ih (crcBits_lt 8 (Nat.xor_lt_two_pow h (Nat.lt_of_lt_of_le b.isLt (by decide))))

theorem crc32c_lt (bs : List Byte) : crc32c bs < 2 ^ 32 := Nat.xor_lt_two_pow (crcRun_lt bs (by decide)) (by decide)

/-! ## Header checks and trailers (R173) -/

/-- The bytes that the trailer CRC covers. -/
theorem carCrc_eq (c : Carriage) :
    carCrc c = crc32c ((leBytes 16 c.hdr.toNat).take 13 ++ c.payload ++ (leBytes 8 c.trl.toNat).drop 4) := by
  rw [carCrc, take_leBytes 13 3, drop_leBytes 4 4]
  rfl

/-- The CRC does not see the hop fields, HCHK and its own field. -/
theorem carCrc_congr {c d : Carriage} (hh : c.hdr.toNat % 2 ^ 104 = d.hdr.toNat % 2 ^ 104) (hp : c.payload = d.payload)
    (ht : c.trl.toNat / 2 ^ 32 = d.trl.toNat / 2 ^ 32) : carCrc c = carCrc d := by
  rw [carCrc, carCrc, hp, ht, leBytes_congr (m := d.hdr.toNat) hh]

/-- A header of 15 bytes under its check. -/
def checkedHdr (h : Nat) : BitVec 128 := BitVec.ofNat 128 (h + hchk h * 2 ^ 120)

theorem checkedHdr_toNat {h : Nat} (hh : h < 2 ^ 120) : (checkedHdr h).toNat = h + hchk h * 2 ^ 120 := by
  have hk : hchk h < 256 := Nat.mod_lt _ (by decide)
  rw [checkedHdr, BitVec.toNat_ofNat]
  omega

/-- HCHK is right in such a header. -/
theorem cHchk_of_checkedHdr {c : Carriage} {h : Nat} (hh : h < 2 ^ 120) (hc : c.hdr = checkedHdr h) :
    cHchk c = crc32c ((leBytes 16 c.hdr.toNat).take 15) % 256 := by
  have hk : hchk h < 256 := Nat.mod_lt _ (by decide)
  have hlow : leBytes 15 (h + hchk h * 2 ^ 120) = leBytes 15 h := leBytes_congr (by omega)
  rw [take_leBytes 15 1, cHchk, hb, hc, checkedHdr_toNat hh, hlow]
  show (h + hchk h * 2 ^ 120) / 2 ^ 120 % 2 ^ 8 = hchk h
  omega

theorem b2n_le (b : Bool) : b2n b ≤ 1 := by cases b <;> decide

theorem b2n_beq (b : Bool) : (b2n b == 1) = b := by cases b <;> rfl

/-- The 15 bytes that a router's HCHK covers. -/
def hopHdr (c : Carriage) (lsn retry : Nat) (dph rev rdir : Bool) : Nat :=
  c.hdr.toNat % 2 ^ 104 + lsn % 2048 * 2 ^ 104 + retry % 4 * 2 ^ 115 + b2n dph * 2 ^ 117 + b2n rev * 2 ^ 118 + b2n rdir * 2 ^ 119

section
variable (c : Carriage) (lsn retry : Nat) (dph rev rdir : Bool)

theorem setHop_hdr : (setHop c lsn retry dph rev rdir).hdr = checkedHdr (hopHdr c lsn retry dph rev rdir) := rfl

theorem hopHdr_lt : hopHdr c lsn retry dph rev rdir < 2 ^ 120 := by
  have h1 := b2n_le dph
  have h2 := b2n_le rev
  have h3 := b2n_le rdir
  unfold hopHdr
  omega

/-- A router's hop fields, and its header check. -/
theorem setHop_fields :
    cLsn (setHop c lsn retry dph rev rdir) = lsn % 2048 ∧ cRetry (setHop c lsn retry dph rev rdir) = retry % 4
      ∧ cDphase (setHop c lsn retry dph rev rdir) = dph ∧ cRev (setHop c lsn retry dph rev rdir) = rev
      ∧ cRdir (setHop c lsn retry dph rev rdir) = rdir := by
  have h1 := b2n_le dph
  have h2 := b2n_le rev
  have h3 := b2n_le rdir
  have hb1 := b2n_beq dph
  have hb2 := b2n_beq rev
  have hb3 := b2n_beq rdir
  simp only [cLsn, cRetry, cDphase, cRev, cRdir, hb, bitsOf, setHop_hdr, checkedHdr_toNat (hopHdr_lt c lsn retry dph rev rdir)]
  generalize hchk _ = k
  unfold hopHdr
  generalize b2n dph = x at *
  generalize b2n rev = y at *
  generalize b2n rdir = z at *
  refine ⟨by omega, by omega, ?_, ?_, ?_⟩
  · rw [← hb1]; congr 1; omega
  · rw [← hb2]; congr 1; omega
  · rw [← hb3]; congr 1; omega

theorem carCrc_setHop : carCrc (setHop c lsn retry dph rev rdir) = carCrc c :=
  carCrc_congr (setHop_low ..) (setHop_payload ..) (by rw [setHop_trl])

theorem crcGood_setHop : crcGood (setHop c lsn retry dph rev rdir) = crcGood c := by
  rw [crcGood, crcGood, carCrc_setHop, tCrc, tCrc, setHop_trl]

end

/-! ## New carriages (Tables 7.1, 7.3) -/

section
variable (k : CarInfo) (bs : List Byte)

/-- Header bytes 0 to 14 of a new carriage, its hop fields 0. -/
def infoHdr : Nat :=
  k.cls % 4 + k.kind % 16 * 2 ^ 2 + b2n k.spec * 2 ^ 6 + k.dst % 65536 * 2 ^ 8 + k.src % 65536 * 2 ^ 24
    + k.tenant % 4 * 2 ^ 40 + k.yard % 4 * 2 ^ 42 + k.maxis % 4 * 2 ^ 44 + k.ygen % 256 * 2 ^ 48 + k.team % 256 * 2 ^ 56
    + k.gen % 256 * 2 ^ 64 + k.seq % 65536 * 2 ^ 72 + ((pad64 bs).length / 64 - 1) % 128 * 2 ^ 88 + k.dgen % 256 * 2 ^ 96

theorem infoHdr_lt : infoHdr k bs < 2 ^ 120 := by
  have h := b2n_le k.spec
  unfold infoHdr
  omega

/-- Trailer bytes 4 to 7, in their place. -/
def infoTrl : Nat := (k.cv % 128) * 2 ^ 32 + k.ncon % 8 * 2 ^ 40 + k.flags.num * 2 ^ 48

/-- The new carriage before its CRC is there. -/
def unsummed : Carriage := ⟨checkedHdr (infoHdr k bs), pad64 bs, BitVec.ofNat 64 (infoTrl k)⟩

theorem mkCarriage_eq : mkCarriage k bs = { unsummed k bs with trl := BitVec.ofNat 64 (infoTrl k + carCrc (unsummed k bs)) } := rfl

theorem flags_num_lt (f : Flags3) : f.num < 8 := by
  obtain ⟨a, b, c⟩ := f
  cases a <;> cases b <;> cases c <;> decide

/-- The CRC stands below the other trailer bytes. -/
theorem infoTrl_toNat {x : Nat} (hx : x < 2 ^ 32) : (BitVec.ofNat 64 (infoTrl k + x)).toNat % 2 ^ 32 = x
    ∧ (BitVec.ofNat 64 (infoTrl k + x)).toNat / 2 ^ 32 = infoTrl k / 2 ^ 32 := by
  have hf := flags_num_lt k.flags
  rw [BitVec.toNat_ofNat]
  unfold infoTrl
  omega

theorem tCrc_mkCarriage : tCrc (mkCarriage k bs) = carCrc (mkCarriage k bs) := by
  have hlt : carCrc (unsummed k bs) < 2 ^ 32 := crc32c_lt _
  obtain ⟨hlow, hhigh⟩ := infoTrl_toNat k hlt
  have hempty : (BitVec.ofNat 64 (infoTrl k)).toNat / 2 ^ 32 = infoTrl k / 2 ^ 32 := by
    obtain ⟨-, h⟩ := infoTrl_toNat k (x := 0) (by decide)
    rwa [Nat.add_zero] at h
  have hsame : carCrc (mkCarriage k bs) = carCrc (unsummed k bs) :=
    carCrc_congr (by rw [mkCarriage_eq]) (by rw [mkCarriage_eq]) (by rw [mkCarriage_eq, hhigh, unsummed, hempty])
  rw [hsame, mkCarriage_eq, tCrc, bitsOf]
  show _ / 2 ^ 0 % 2 ^ 32 = _
  rw [Nat.pow_zero, Nat.div_one, hlow]

theorem cHchk_mkCarriage : cHchk (mkCarriage k bs) = crc32c ((leBytes 16 (mkCarriage k bs).hdr.toNat).take 15) % 256 :=
  cHchk_of_checkedHdr (infoHdr_lt k bs) (by rw [mkCarriage_eq]; exact Eq.refl (checkedHdr (infoHdr k bs)))

end

/-! ## Leaving on a link -/

/-- After the units that waited comes the carriage, under the next LSN and with RETRY 0. -/
theorem sendOn_outbox (s : State) (l t : Nat) (c : Carriage) (m : Nat) :
    ((s.sendOn l t c m).outbox.drop (s.outbox.length + (waitingUnits s l t).length)).head? = some (.carriage l t (underLsn c (s.sub l t).next)) := by
  obtain ⟨r, hr⟩ := (noted_sendOn s l t c m).outbox
  rw [hr, carriageOut_outbox, ← List.append_assoc, ← List.length_append, List.append_assoc, List.drop_left]
  rfl

/-- A replay leaves first, under its own LSN. -/
theorem does_replay {s : State} {l : Link} {t : Tenant} {e : RetryEnt} (hc : s.coreOn = true) (hf : s.subFree l t = true)
    (hg : s.inGuard = false) (he : ((s.sub l t).retry.find? fun e => e.replay) = some e) :
    Does (.replaySend l t) s fun v => (v.outbox.drop s.outbox.length).head? = some (.carriage l t (replayCar e)) := by
  have hx := exec_replaySend hc l t
  rw [if_pos (by simp [hf, hg]), sendReplay_some he] at hx
  exact does_of_frame hx ((frame_replayOut s l t e).append (frame_replayCounted_after s l t e)) (replayCounted_outbox s l t e)

/-- Settles O59: the CRC does not see what a router writes, and HCHK is recomputed over it. -/
theorem theTrailerTravelsUnchangedUnderARightHeaderCheck : Obligations.TheTrailerTravelsUnchangedUnderARightHeaderCheck := by
  intro s l t m lsn retry c dph rev rdir k bs c1 out
  have hlow : (leBytes 16 c1.hdr.toNat).take 13 = (leBytes 16 c.hdr.toNat).take 13 := by
    rw [take_leBytes 13 3, take_leBytes 13 3, leBytes_congr (m := c.hdr.toNat) (setHop_low ..)]
  obtain ⟨hlsn, hretry, hdph, hrev, hrdir⟩ := setHop_fields c lsn retry dph rev rdir
  exact ⟨carCrc_eq c, tCrc_mkCarriage k bs, cHchk_mkCarriage k bs, setHop_payload .., setHop_trl .., hlow, hlsn, hretry, hdph, hrev, hrdir,
    cHchk_of_checkedHdr (hopHdr_lt ..) (setHop_hdr ..), crcGood_setHop .., sendOn_outbox .., fun _ _ _ hc hf hg he => does_replay hc hf hg he⟩

end Sys2Proof

namespace Sys2Proof

open Machine

/-! # Endpoints and detours for a tick (O15) -/

theorem frame_shadows (s : State) (x : List Shadow) : Frame [.shadows] [] s { s with shadows := x } :=
  frame_of_parts rfl rfl rfl fun p _ => by cases p <;> simp_all [Part.Same]

/-! ## Shadow copies -/

theorem frame_shadowAt (s : State) (tk : Nat) (f : Fld) (i v : Nat) : Frame [.shadows] [] s (s.shadowAt tk f i v) := frame_shadows s _

section
variable {s : State} {tk : Nat} {f : Fld} {i v : Nat} {x : Shadow}

theorem mem_shadowAt (s : State) (tk : Nat) (f : Fld) (i v : Nat) : ⟨tk, f, i, v⟩ ∈ (s.shadowAt tk f i v).shadows :=
  List.mem_append_right _ (List.mem_singleton.2 rfl)

/-- A copy for another tick, of another field or of another index stays. -/
theorem mem_shadowAt_of_mem (hx : x ∈ s.shadows) (hn : ¬ (x.at_ = tk ∧ x.f = f ∧ x.i = i)) : x ∈ (s.shadowAt tk f i v).shadows :=
  List.mem_append_left _ (List.mem_filter.2 ⟨hx, by grind⟩)

end

/-- Shadow copies of the fields of a list, each with its part of the word. -/
def shadowFields (tk i w : Nat) (fs : List Fld) (s : State) : State := fs.foldl (fun s f => s.shadowAt tk f i (fpart f w)) s

theorem shadowEntry_eq (s : State) (tk ep w : Nat) : s.shadowEntry tk ep w = shadowFields tk ep w (regFields .RTE_EP_LO) s := rfl

theorem frame_shadowFields (tk i w : Nat) (fs : List Fld) (s : State) : Frame [.shadows] [] s (shadowFields tk i w fs s) :=
  Frame.foldl fs (fun u _ _ => frame_shadowAt u ..) s

section
variable {tk i w : Nat} {x : Shadow}

theorem mem_shadowFields_of_mem {fs : List Fld} {s : State} (hx : x ∈ s.shadows) (hn : ¬ (x.at_ = tk ∧ x.f ∈ fs ∧ x.i = i)) :
    x ∈ (shadowFields tk i w fs s).shadows := by
  induction fs generalizing s with
  | nil => exact hx
  | cons f fs ih =>
    refine ih (mem_shadowAt_of_mem hx fun ⟨ht, hf, hi⟩ => hn ⟨ht, ?_, hi⟩) fun ⟨ht, hf, hi⟩ => hn ⟨ht, List.mem_cons_of_mem _ hf, hi⟩
    exact hf ▸ List.mem_cons_self

theorem mem_shadowFields {fs : List Fld} (hd : fs.Nodup) {f : Fld} (hf : f ∈ fs) (s : State) :
    ⟨tk, f, i, fpart f w⟩ ∈ (shadowFields tk i w fs s).shadows := by
  induction fs generalizing s with
  | nil => cases hf
  | cons g fs ih =>
    obtain ⟨hg, hd⟩ := List.nodup_cons.1 hd
    rcases List.mem_cons.1 hf with rfl | hf
    · exact mem_shadowFields_of_mem (s := s.shadowAt tk f i (fpart f w)) (mem_shadowAt ..) fun ⟨_, hm, _⟩ => hg hm
    · exact ih hd hf _

end

/-- Shadow copies of n entries of the endpoint table from entry `ep` on; W gives the word of each. -/
def shadowEntries (tk ep : Nat) (W : Nat → Nat) (n : Nat) (s : State) : State :=
  (List.range n).foldl (fun s j => s.shadowEntry tk (ep + j) (W j)) s

section
variable {tk ep : Nat} {W : Nat → Nat} {s : State}

theorem shadowEntries_succ (n : Nat) :
    shadowEntries tk ep W (n + 1) s = (shadowEntries tk ep W n s).shadowEntry tk (ep + n) (W n) := by
  simp only [shadowEntries, List.range_succ, List.foldl_append, List.foldl_cons, List.foldl_nil]

theorem frame_shadowEntries (n : Nat) : Frame [.shadows] [] s (shadowEntries tk ep W n s) :=
  Frame.foldl _ (fun u _ _ => frame_shadowFields _ _ _ _ u) s

theorem nodup_endpointFields : (regFields .RTE_EP_LO).Nodup := by decide

theorem mem_shadowEntries {n j : Nat} (hj : j < n) {f : Fld} (hf : f ∈ regFields .RTE_EP_LO) :
    ⟨tk, f, ep + j, fpart f (W j)⟩ ∈ (shadowEntries tk ep W n s).shadows := by
  induction n with
  | zero => omega
  | succ n ih =>
    rw [shadowEntries_succ, shadowEntry_eq]
    rcases Nat.lt_succ_iff_lt_or_eq.1 hj with h | rfl
    · exact mem_shadowFields_of_mem (ih h) fun ⟨_, _, hi⟩ => absurd (show ep + j = ep + n from hi) (by omega)
    · exact mem_shadowFields nodup_endpointFields hf _

theorem mem_shadowEntries_of_mem {x : Shadow} (hx : x ∈ s.shadows) (hn : x.at_ ≠ tk ∨ x.f ∉ regFields .RTE_EP_LO) (n : Nat) :
    x ∈ (shadowEntries tk ep W n s).shadows := by
  induction n with
  | zero => exact hx
  | succ n ih =>
    rw [shadowEntries_succ, shadowEntry_eq]
    exact mem_shadowFields_of_mem ih fun ⟨ht, hf, _⟩ => hn.elim (fun h => h ht) fun h => h hf

end

/-! ## The commands -/

/-- The state with every shadow copy of a SET_ENDPOINTS. -/
def endpointsShadowed (s : State) (e : Entry) : State :=
  shadowEntries (s.atTick (ent e 16 8)) (ent e 4 2) (fun j => rdLe s.host (ent e 8 8 + 16 * j) 8) (ent e 6 2) s

/-- The state with both shadow copies of a SET_DETOUR. -/
def detourShadowed (s : State) (e : Entry) : State :=
  (s.shadowAt (s.atTick (ent e 16 8)) .RTE_EP_LO_DETOUR_EP (ent e 4 2) (ent e 6 2)).shadowAt (s.atTick (ent e 16 8)) .RTE_EP_LO_DETOUR_EN
    (ent e 4 2) (ent e 8 1)

section
variable {s : State} {e : Entry} {ft : Fetched}

theorem exec_setEndpoints (h : Starts s 0 0x10 e [(4, 2), (6, 2), (8, 8), (16, 8)]) (hft : s.start? 0 0x10 e = some ft)
    (hb : firstBad (setEndpointsBad e s) = none) :
    exec (.setEndpoints 0 e) s = .next (s.keep ((endpointsShadowed s e).adopt ft (.endpoints (s.atTick (ent e 16 8))))) := by
  show execSetEndpoints 0 e s = _
  rw [execSetEndpoints, event_on _ _ h.1]
  refine congrArg (fun t => Host.Outcome.next (s.keep t)) ((startCmd_read h hft fun _ => tableOf_of_opcode h rfl (by decide)).trans ?_)
  simp only [hb]
  rfl

theorem exec_setDetour (h : Starts s 0 0x11 e [(4, 2), (6, 2), (8, 1), (16, 8)]) (hft : s.start? 0 0x11 e = some ft)
    (hb : firstBad (setDetourBad e s) = none) :
    exec (.setDetour 0 e) s = .next (s.keep ((detourShadowed s e).adopt ft (.detour (s.atTick (ent e 16 8))))) := by
  show execSetDetour 0 e s = _
  rw [execSetDetour, event_on _ _ h.1]
  refine congrArg (fun t => Host.Outcome.next (s.keep t)) ((startCmd_read h hft fun _ => tableOf_of_opcode h rfl (by decide)).trans ?_)
  simp only [hb]
  rfl

/-- A command that leaves shadow copies and stays outstanding. -/
theorem does_adopt_shadowed {c : Instr} {u : State} {op : Nat} {ph : Phase} {P : List Shadow → Prop} (hft : s.start? 0 op e = some ft)
    (he : exec c s = .next (s.keep (u.adopt ft ph))) (hu : Frame [.shadows] [] s u) (hp : P u.shadows) :
    Does c s fun t => P t.shadows ∧ Adopted s t 0 e ph ∧ Frame [.qs, .shadows] [] s t := by
  obtain ⟨hq, hent, -⟩ := start?_some hft
  have hqs : u.qs = s.qs := hu.part .qs (by simp)
  have hadopt := adopted_adopt u ft ph
  rw [hq, hent, Adopted, hqs] at hadopt
  have hf := (hu.append (frame_adopt u ft ph)).mono (qs := [.qs, .shadows]) (gs := []) (by simp) (by simp)
  exact does_of_frame he hf ⟨hp, hadopt, hf⟩

end

/-- Settles O15: a shadow copy stays until a copy for the same tick, field and endpoint replaces it, and no two entries of a table share one. -/
theorem endpointChangesWaitForTheirTick : Obligations.EndpointChangesWaitForTheirTick := by
  intro s q e tk
  refine ⟨fun hq h hb => ?_, fun hq h hb => ?_⟩ <;> subst hq <;> obtain ⟨ft, hft⟩ := Option.isSome_iff_exists.1 h.2.1
  · have hd := does_adopt_shadowed (P := fun l => (∀ j, j < ent e 6 2 → ∀ f ∈ regFields .RTE_EP_LO,
        ⟨tk, f, ent e 4 2 + j, fpart f (rdLe s.host (ent e 8 8 + 16 * j) 8)⟩ ∈ l)
        ∧ ∀ x ∈ s.shadows, x.at_ ≠ tk ∨ x.f ∉ regFields .RTE_EP_LO → x ∈ l)
      hft (exec_setEndpoints h hft hb) (frame_shadowEntries _)
      ⟨fun j hj f hf => mem_shadowEntries hj hf, fun x hx hn => mem_shadowEntries_of_mem hx hn _⟩
    exact hd.imp fun t ⟨⟨hnew, hold⟩, hadopt, hf⟩ => ⟨hnew, hold, hadopt, hf⟩
  · have hd := does_adopt_shadowed (P := fun l => ⟨tk, .RTE_EP_LO_DETOUR_EP, ent e 4 2, ent e 6 2⟩ ∈ l
        ∧ ⟨tk, .RTE_EP_LO_DETOUR_EN, ent e 4 2, ent e 8 1⟩ ∈ l)
      hft (exec_setDetour h hft hb) ((frame_shadowAt s ..).trans (frame_shadowAt _ ..))
      ⟨mem_shadowAt_of_mem (mem_shadowAt ..) (by simp), mem_shadowAt ..⟩
    exact hd.imp fun t ⟨⟨hep, hen⟩, hadopt, hf⟩ => ⟨hep, hen, hadopt, hf⟩

end Sys2Proof

namespace Sys2Proof

open Machine

/-! # Doorbells (O24, O19) -/

/-! ## Writes to a doorbell page -/

section
variable {s : State} {q : QP} {v : Word} (hc : s.coreOn = true) (hq : q.val < s.fuses.conf.queues)
include hc hq

/-- A write to a register of a doorbell page, of which there is one for each queue pair of the configuration. -/
theorem exec_doorbell {r : Reg} (hr : (regInfo r).n1 * (regInfo r).n2 = 4096) (ho : ∀ i, s.occupied r i = decide (i < s.nq)) :
    putWord r q v s = .next (s.keep ((answered s).writeReg r q v.toNat (regOff r q))) :=
  putWord_on hc (Nat.lt_of_lt_of_eq q.isLt hr.symm) ((ho q).trans (decide_eq_true hq))

theorem exec_sqDoorbell : exec (.sqDoorbell q v) s = .next (s.keep ((answered s).sqTail q (v.toNat % 65536))) :=
  exec_doorbell (r := .DB_SQ_TAIL) hc hq (by decide) fun _ => rfl

theorem exec_cqHeadWrite : exec (.cqHeadWrite q v) s = .next (s.keep ((answered s).cqHead q (v.toNat % 65536))) :=
  exec_doorbell (r := .DB_CQ_HEAD) hc hq (by decide) fun _ => rfl

theorem exec_cqArm : exec (.cqArm q v) s = .next (s.keep ((answered s).cqArmWrite q (v ||| 1).toNat)) :=
  exec_doorbell (r := .DB_CQ_ARM) hc hq (by decide) fun _ => rfl

theorem exec_cancel : exec (.cancel q v) s = .next (s.keep ((answered s).undoze.dbCancel q (v.toNat % 65536))) :=
  exec_doorbell (r := .DB_CANCEL) hc hq (by decide) fun _ => rfl

end

/-! ## Waking from Doze (R367) -/

/-- The block wakes: from Doze the power state is Run. -/
abbrev woken (s : State) : State := (answered s).undoze

/-- What PWR_STATE.CUR reads then. -/
def wokenCur (s : State) : Nat := if s.rf .PWR_STATE_CUR = 1 then 0 else s.rf .PWR_STATE_CUR

theorem frame_undoze (s : State) : Frame [] [(.PWR_STATE_CUR, 0)] s s.undoze := frame_ite (frame_setf ..) (Frame.refl ..)

theorem frame_woken (s : State) : Frame [.rdata] [(.PWR_STATE_CUR, 0)] s (woken s) := (frame_rdata s 0).append (frame_undoze _)

theorem rf_woken (s : State) {f : Fld} (hf : f ≠ .PWR_STATE_CUR) (i : Nat) : (woken s).rf f i = s.rf f i := (frame_woken s).rf (by simp [hf])

theorem cur_woken (s : State) : (woken s).rf .PWR_STATE_CUR = wokenCur s := by
  unfold woken State.undoze
  split
  · next h => exact (State.rf_setf_same ..).trans (if_pos h).symm
  · next h => exact (if_neg h).symm

theorem rdata_woken (s : State) : (woken s).rdata = 0 := (frame_undoze (answered s)).part .rdata (by simp)

section
variable (s : State) (q : Nat)

theorem sqLog_woken : (woken s).sqLog q = s.sqLog q := by
  simp only [State.sqLog, rf_woken s (f := .ADM_CTL_SQ_LOG2) (by decide), rf_woken s (f := .DB_STATUS_SQ_LOG2) (by decide)]

theorem cqLog_woken : (woken s).cqLog q = s.cqLog q := by
  simp only [State.cqLog, rf_woken s (f := .ADM_CTL_CQ_LOG2) (by decide), rf_woken s (f := .DB_STATUS_CQ_LOG2) (by decide)]

theorem cqVector_woken : (woken s).cqVector q = s.cqVector q := by
  simp only [State.cqVector, rf_woken s (f := .ADM_CTL_VECTOR) (by decide), rf_woken s (f := .DB_STATUS_VECTOR) (by decide)]

end

/-- A command that wakes the block and then changes something else. -/
theorem does_woken {c : Instr} {s u : State} {ps : List Part} {fs : List (Fld × Nat)} {P : State → Prop} (he : exec c s = .next (s.keep u))
    (hf : Frame ps fs (woken s) u) (hr : .rdata ∉ ps) (hcur : (.PWR_STATE_CUR, 0) ∉ fs) (hp : P u) : Does c s fun t =>
      P t ∧ t.rf .PWR_STATE_CUR = wokenCur s ∧ t.rdata = 0 ∧ Frame (.rdata :: ps) ((.PWR_STATE_CUR, 0) :: fs) s t := by
  have hall := (frame_woken s).append hf
  exact does_of_frame he hall ⟨hp, (hf.rf hcur).trans (cur_woken s), Eq.trans (hf.part .rdata hr) (rdata_woken s), hall⟩

/-- One that wakes the block and counts. -/
theorem does_counted {c : Instr} {s : State} {f : Fld} {i : Nat} (he : exec c s = .next (s.keep ((woken s).sat f i))) (hf : f ≠ .PWR_STATE_CUR) :
    Does c s fun t => t.rf f i = min (s.rf f i + 1) (2 ^ fwidth f - 1) ∧ t.rf .PWR_STATE_CUR = wokenCur s
      ∧ Frame [.rdata] [(f, i), (.PWR_STATE_CUR, 0)] s t := by
  have hd := does_woken (P := fun t => t.rf f i = min (s.rf f i + 1) (2 ^ fwidth f - 1)) he (frame_sat ..) (by simp) (by simp [hf.symm])
    (rf_woken s hf i ▸ rf_sat ..)
  exact hd.imp fun t ⟨hcount, hcur, _, hframe⟩ => ⟨hcount, hcur, hframe.mono (by simp) (by simp)⟩

/-! ## Ring indices (R267, R269, R270) -/

section
variable {s : State} {q x : Nat}

theorem sqTail_inside (h : x < 2 ^ s.sqLog q) :
    (answered s).sqTail q x = ((woken s).setf .DB_SQ_TAIL_TAIL q x).touch ((woken s).qYard q) :=
  if_neg (Nat.not_le.2 (sqLog_woken s q ▸ h))

theorem sqTail_outside (h : 2 ^ s.sqLog q ≤ x) : (answered s).sqTail q x = (woken s).sat .DB_STATUS_BAD_DB q :=
  if_pos (sqLog_woken s q ▸ h)

/-- A completion head that lies in the ring and does not pass the tail. -/
def HeadOk (s : State) (q x : Nat) : Prop :=
  x < 2 ^ s.cqLog q ∧ ringCount (s.cqLog q) (s.rf .DB_CQ_HEAD_HEAD q) x ≤ ringCount (s.cqLog q) (s.rf .DB_CQ_HEAD_HEAD q) (s.rf .DB_CQ_TAIL_TAIL q)

theorem headOk_woken : HeadOk (woken s) q x ↔ HeadOk s q x := by
  simp only [HeadOk, cqLog_woken, rf_woken s (f := .DB_CQ_HEAD_HEAD) (by decide), rf_woken s (f := .DB_CQ_TAIL_TAIL) (by decide)]

theorem not_headOk_iff : ¬ HeadOk s q x ↔ 2 ^ s.cqLog q ≤ x ∨
    ringCount (s.cqLog q) (s.rf .DB_CQ_HEAD_HEAD q) (s.rf .DB_CQ_TAIL_TAIL q) < ringCount (s.cqLog q) (s.rf .DB_CQ_HEAD_HEAD q) x := by
  rw [HeadOk, not_and_or, Nat.not_lt, Nat.not_le]

theorem cqHead_eq : (answered s).cqHead q x =
    if 2 ^ (woken s).cqLog q ≤ x ∨ ringCount ((woken s).cqLog q) ((woken s).rf .DB_CQ_HEAD_HEAD q) ((woken s).rf .DB_CQ_TAIL_TAIL q) <
      ringCount ((woken s).cqLog q) ((woken s).rf .DB_CQ_HEAD_HEAD q) x then (woken s).sat .DB_STATUS_BAD_DB q
    else (woken s).setf .DB_CQ_HEAD_HEAD q x := by
  simp only [State.cqHead, Bool.or_eq_true, decide_eq_true_eq]

theorem cqHead_inside (h : HeadOk s q x) : (answered s).cqHead q x = (woken s).setf .DB_CQ_HEAD_HEAD q x :=
  cqHead_eq.trans (if_neg (mt not_headOk_iff.2 (not_not.2 (headOk_woken.2 h))))

theorem cqHead_outside (h : ¬ HeadOk s q x) : (answered s).cqHead q x = (woken s).sat .DB_STATUS_BAD_DB q :=
  cqHead_eq.trans (if_pos (not_headOk_iff.1 (mt headOk_woken.1 h)))

/-! ## CQ_ARM (R269, R286) -/

theorem cqArm_written (v : Word) : (answered s).cqArmWrite q (v ||| 1).toNat =
    if s.rf .DB_CQ_TAIL_TAIL q ≠ s.rf .DB_CQ_HEAD_HEAD q then ((woken s).setf .DB_CQ_ARM_ARM q 0).vector (s.cqVector q)
    else (woken s).setf .DB_CQ_ARM_ARM q 1 := by
  have hb : bitAt (v ||| 1).toNat 0 = true := by rw [bitAt_or]; simp [bitAt]
  simp only [State.cqArmWrite, hb, cqVector_woken, rf_woken s (f := .DB_CQ_HEAD_HEAD) (by decide),
    rf_woken s (f := .DB_CQ_TAIL_TAIL) (by decide), Bool.not_true, Bool.false_eq_true, if_false, bne_iff_ne]

end

/-! ## CANCEL (R285, R198) -/

/-- An operation is looked up by the commands and entries of the queues alone. -/
theorem remoteOf_congr {s t : State} (h : t.qs = s.qs) (q id : Nat) : t.remoteOf q id = s.remoteOf q id := by
  simp only [State.remoteOf, State.cmd?, h]

theorem fetchedRemote_congr {s t : State} (h : t.qs = s.qs) (q id : Nat) : t.fetchedRemote q id = s.fetchedRemote q id := by
  simp only [State.fetchedRemote, h]

/-- Whether a command has completed is seen in the queues alone. -/
theorem completed_of_qs {s t u : State} {d : Done} (h : u.qs = s.qs) (hd : Completed u t d) : Completed s t d := by
  rwa [Completed, h] at hd

/-- The pair's generation does not depend on the fuses. -/
theorem Completed.keep {s t : State} {d : Done} (h : Completed s t d) : Completed s (s.keep t) d := h

theorem fetchedRemote_some {s : State} {q id : Nat} {f : Fetched} (h : s.fetchedRemote q id = some f) : f.q = q ∧ eId f.e = id := by
  have hf := List.find?_some h
  simp only [Bool.and_eq_true, beq_iff_eq] at hf
  exact ⟨hf.1.1.1, hf.1.1.2⟩

theorem remoteOf_some {s : State} {q id : Nat} {c : Cmd} {r : Remote} (h : s.remoteOf q id = some (c, r)) : c.q = q ∧ c.id = id := by
  unfold State.remoteOf at h
  split at h
  · next d hd =>
    have hd' := List.find?_some hd
    simp only [Bool.and_eq_true, beq_iff_eq] at hd'
    split at h
    · split at h
      · cases h
      · cases h; exact hd'
    · cases h
  · cases h

/-- An element that the filter drops anyway may go before it. -/
theorem filter_erase_of_not {α : Type} [BEq α] [LawfulBEq α] {p : α → Bool} {x : α} (h : p x = false) (l : List α) :
    (l.erase x).filter p = l.filter p := by
  induction l with
  | nil => rfl
  | cons y l ih =>
    rw [List.erase_cons]
    split
    · next hy => rw [List.filter_cons, beq_iff_eq.1 hy, h, if_neg Bool.false_ne_true]
    · rw [List.filter_cons, List.filter_cons, ih]

/-- The state with a fetched entry gone and its completion to be posted. -/
def fetchedCancelled (s : State) (q id : Nat) (f : Fetched) : State :=
  ({ s with qs := { s.qs with fetched := s.qs.fetched.erase f } } : State).finish q id (eOp f.e) 0x0B

theorem frame_fetchedCancelled (s : State) (q id : Nat) (f : Fetched) : Frame [.qs] [] s (fetchedCancelled s q id f) :=
  (frame_qs s _).trans (frame_finish ..)

theorem completed_fetchedCancelled {s : State} {q id : Nat} {f : Fetched} (hq : f.q = q) (hid : eId f.e = id) :
    Completed s (fetchedCancelled s q id f) (plainDone q id (eOp f.e) 0x0B 0) := by
  obtain ⟨hd, hf, hc⟩ := completed_finish ({ s with qs := { s.qs with fetched := s.qs.fetched.erase f } } : State) q id (eOp f.e) 0x0B 0
  refine ⟨hd, hf.trans (filter_erase_of_not ?_ _), hc⟩
  simp [plainDone, hq, hid]

section
variable {s : State} {q x : Nat}

theorem dbCancel_fetched {f : Fetched} (hr : s.remoteOf q x = none) (hf : s.fetchedRemote q x = some f) :
    s.dbCancel q x = fetchedCancelled s q x f := by
  simp only [State.dbCancel, hr, hf]
  rfl

theorem dbCancel_remote {c : Cmd} {r : Remote} (hr : s.remoteOf q x = some (c, r)) : s.dbCancel q x = s.cancelRemote c r := by
  simp only [State.dbCancel, hr]

theorem dbCancel_none (hr : s.remoteOf q x = none) (hf : s.fetchedRemote q x = none) : s.dbCancel q x = s.sat .DB_STATUS_BAD_CANCEL q := by
  simp only [State.dbCancel, hr, hf]

end

/-- CANCEL of an operation that is fetched and not started (R285): nothing of it was sent. -/
theorem does_cancel_fetched {s : State} {q : QP} {v : Word} {f : Fetched} (hc : s.coreOn = true) (hq : q.val < s.fuses.conf.queues)
    (hr : s.remoteOf q (v.toNat % 65536) = none) (hf : s.fetchedRemote q (v.toNat % 65536) = some f) : Does (.cancel q v) s fun t =>
      Completed s t (plainDone q (v.toNat % 65536) (eOp f.e) 0x0B 0) ∧ t.rf .PWR_STATE_CUR = wokenCur s
        ∧ Frame [.qs, .rdata] [(.PWR_STATE_CUR, 0)] s t := by
  have hqs : (woken s).qs = s.qs := (frame_woken s).part .qs (by simp)
  obtain ⟨hfq, hfid⟩ := fetchedRemote_some hf
  have hx := exec_cancel (v := v) hc hq
  rw [dbCancel_fetched ((remoteOf_congr hqs ..).trans hr) ((fetchedRemote_congr hqs ..).trans hf)] at hx
  have hd := does_woken (P := fun t => Completed s t _) hx (frame_fetchedCancelled ..) (by simp) (by simp) (completed_of_qs hqs (completed_fetchedCancelled hfq hfid))
  exact hd.imp fun t ⟨hcomp, hcur, _, hframe⟩ => ⟨hcomp, hcur, hframe.mono (by simp) (by simp)⟩

/-! ### What taking carriages out of their queues leaves alone (R198) -/

theorem AllBut.foldl {α : Type} {ps : List Part} {f : State → α → State} (l : List α) (h : ∀ s x, AllBut ps s (f s x)) (s : State) :
    AllBut ps s (l.foldl f s) := by
  induction l generalizing s with
  | nil => exact .refl ps s
  | cons x l ih => exact (h s x).trans (ih _)

theorem allBut_uncredit (s : State) (o : OutCar) : AllBut [.net] s (s.uncredit o) := by
  unfold State.uncredit
  split
  · exact allBut_setWin _ _
  · exact .refl _ _

theorem allBut_sendCredited (s : State) (w : Waiting) : AllBut [.net, .yards] s (s.sendCredited w) := by
  unfold State.sendCredited
  split
  · next ht =>
    exact (((allBut_takeCredit ht).trans (allBut_owe _ _ _ _ _ _ _)).mono (by simp)).trans (allBut_inject _ _ _ _)
  · exact allBut_net (by simp) s _

theorem allBut_pumpWaiting (s : State) : AllBut [.net, .yards] s s.pumpWaiting :=
  (allBut_net (by simp) s _).trans (AllBut.foldl _ (fun u w => allBut_sendCredited u w) _)

theorem allBut_cancelOut (s : State) (p : OutCar → Bool) : AllBut [.net, .yards, .posts] s (s.cancelOut p) := by
  have hgone : AllBut [.net, .yards, .posts] s ((s.net.outq.filter p).foldl (fun (s : State) o => s.uncredit o)
      { s with net := { s.net with outq := s.net.outq.filter fun o => !p o } }) :=
    (allBut_net (by simp) s _).trans ((AllBut.foldl _ (fun u o => allBut_uncredit u o) _).mono (by simp))
  refine .ite (hgone.trans ?_) hgone
  exact AllBut.trans ((frame_posts _ _).allBut (by simp)) ((allBut_pumpWaiting _).mono (by simp))

/-- An operation of which every carriage sent so far still waits completes CANCELLED (R198). -/
theorem cancelRemote_unsent {s : State} {c : Cmd} {r : Remote} (h : r.sent ≤ (s.net.outq.filter (r.owns s.self)).length) :
    ∃ p, s.cancelRemote c r = (s.cancelOut p).finishCmd c 0x0B :=
  ⟨_, if_pos (Nat.sub_eq_zero_of_le h)⟩

/-- What a command leaves alone stays so in the state that is kept of it. -/
theorem AllBut.keep {ps : List Part} {s t : State} (h : AllBut ps s t) : AllBut ps s (s.keep t) := fun p hp => (h p hp).keep

/-- CANCEL of an operation of which nothing has left (R198). -/
theorem does_cancel_unsent {s : State} {q : QP} {v : Word} {c : Cmd} {r : Remote} (hr : s.remoteOf q (v.toNat % 65536) = some (c, r))
    (he : exec (.cancel q v) s = .next (s.keep ((woken s).cancelRemote c r))) (hs : r.sent ≤ (s.net.outq.filter (r.owns s.self)).length) :
    Does (.cancel q v) s fun t =>
      Completed s t (plainDone q (v.toNat % 65536) (eOp c.e) 0x0B 0) ∧ t.rdata = 0 ∧ AllBut [.rdata, .qs, .net, .yards, .posts] s t := by
  have hw := frame_woken s
  have hself : (woken s).self = s.self := rf_woken s (by decide) 0
  have hnet : (woken s).net = s.net := hw.part .net (by simp)
  obtain ⟨p, hp⟩ := cancelRemote_unsent (s := woken s) (c := c) (r := r) (by rwa [hself, hnet])
  have hout := allBut_cancelOut (woken s) p
  have hqs : ((woken s).cancelOut p).qs = s.qs := Eq.trans (hout .qs (by simp)) (hw.part .qs (by simp))
  have hdata : ((woken s).cancelOut p).rdata = 0 := Eq.trans (hout .rdata (by simp)) (rdata_woken s)
  obtain ⟨hcq, hcid⟩ := remoteOf_some hr
  have hcomp := completed_finish ((woken s).cancelOut p) c.q c.id (eOp c.e) 0x0B 0
  rw [hcq, hcid] at hcomp
  have hall : AllBut [.rdata, .qs, .net, .yards, .posts] s (((woken s).cancelOut p).finishCmd c 0x0B) :=
    ((hw.allBut (by simp)).trans (hout.mono (by simp))).trans ((frame_finish ((woken s).cancelOut p) c.q c.id (eOp c.e) 0x0B 0).allBut (by simp))
  rw [hp] at he
  refine ⟨_, he, (completed_of_qs hqs ?_).keep, hdata, hall.keep⟩
  rwa [State.finishCmd, hcq, hcid]

/-! ## The statement -/

theorem cqArm_armed {s : State} {q : QP} {v : Word} (hc : s.coreOn = true) (hq : q.val < s.fuses.conf.queues)
    (h : s.rf .DB_CQ_TAIL_TAIL q = s.rf .DB_CQ_HEAD_HEAD q) : Does (.cqArm q v) s fun t =>
      t.rf .DB_CQ_ARM_ARM q = 1 ∧ t.rf .PWR_STATE_CUR = wokenCur s ∧ Frame [.rdata] [(.DB_CQ_ARM_ARM, q), (.PWR_STATE_CUR, 0)] s t := by
  have hx := exec_cqArm (v := v) hc hq
  rw [cqArm_written, if_neg (not_not.2 h)] at hx
  have hd := does_woken (P := fun t => t.rf .DB_CQ_ARM_ARM q = 1) hx (frame_setf ..) (by simp) (by simp) (State.rf_setf_same ..)
  exact hd.imp fun t ⟨harm, hcur, _, hf⟩ => ⟨harm, hcur, hf.mono (by simp) (by simp)⟩

theorem cqArm_sent {s : State} {q : QP} {v : Word} (hc : s.coreOn = true) (hq : q.val < s.fuses.conf.queues)
    (h : s.rf .DB_CQ_TAIL_TAIL q ≠ s.rf .DB_CQ_HEAD_HEAD q) (hm : s.rf .IRQ_DATA_MASK (s.cqVector q) = 0) (ho : s.aon.irqOut < 32) :
    Does (.cqArm q v) s fun t => t.rf .DB_CQ_ARM_ARM q = 0
      ∧ t.outbox = s.outbox ++ [.irq (s.rf .IRQ_ADDR_ADDR (s.cqVector q) * 4) (s.rf .IRQ_DATA_DATA (s.cqVector q))]
      ∧ Frame [.rdata, .outbox, .aon] [(.DB_CQ_ARM_ARM, q), (.PWR_STATE_CUR, 0)] s t := by
  have hx := exec_cqArm (v := v) hc hq
  have hset := frame_setf (woken s) .DB_CQ_ARM_ARM q 0
  have hrf : ∀ f i, f ≠ .PWR_STATE_CUR → f ≠ .DB_CQ_ARM_ARM → ((woken s).setf .DB_CQ_ARM_ARM q 0).rf f i = s.rf f i :=
    fun f i hcur harm => (hset.rf (by simp [harm])).trans (rf_woken s hcur i)
  have haon : ((woken s).setf .DB_CQ_ARM_ARM q 0).aon = s.aon := (frame_woken s).part .aon (by simp)
  have hout : ((woken s).setf .DB_CQ_ARM_ARM q 0).outbox = s.outbox := (frame_woken s).part .outbox (by simp)
  rw [cqArm_written, if_pos h, vector_sent ((hrf _ _ (by decide) (by decide)).trans hm) (by rwa [haon])] at hx
  have hsent := frame_message ((woken s).setf .DB_CQ_ARM_ARM q 0)
  have hd := does_woken (P := fun t => t.rf .DB_CQ_ARM_ARM q = 0
      ∧ t.outbox = s.outbox ++ [.irq (s.rf .IRQ_ADDR_ADDR (s.cqVector q) * 4) (s.rf .IRQ_DATA_DATA (s.cqVector q))])
    hx (hset.append (hsent _ _)) (by simp) (by simp) ⟨((hsent _ _).rf (by simp)).trans (State.rf_setf_same ..), by
      rw [hrf _ _ (by decide) (by decide), hrf _ _ (by decide) (by decide)]
      exact congrArg (· ++ _) hout⟩
  exact hd.imp fun t ⟨⟨harm, ho⟩, _, _, hf⟩ => ⟨harm, ho, hf.mono (by simp) (by simp)⟩

/-- Settles O24: each write wakes the block and is then the branch of its register's write that the index or the operation picks. -/
theorem doorbellsMoveTheirIndices : Obligations.DoorbellsMoveTheirIndices := by
  intro s q v hc hq x bad headOk awake
  have hx16 : x % 2 ^ 16 = x := Nat.mod_eq_of_lt (Nat.mod_lt _ (by decide))
  have hbad : ∀ i : Instr, exec i s = .next (s.keep ((woken s).sat .DB_STATUS_BAD_DB q)) → Does i s bad := fun i he =>
    (does_counted he (by decide)).imp fun t ⟨hcount, _, hf⟩ => ⟨hcount, hf⟩
  have hqs : (woken s).qs = s.qs := (frame_woken s).part .qs (by simp)
  have htail := exec_sqDoorbell (v := v) hc hq
  have hhead := exec_cqHeadWrite (v := v) hc hq
  have hcancel := exec_cancel (v := v) hc hq
  refine ⟨fun h => ?_, fun h => ?_, fun h => ?_, fun h => ?_, cqArm_armed hc hq, cqArm_sent hc hq, fun f hr hf => does_cancel_fetched hc hq hr hf,
    fun c r hr => ?_, fun hr hf => ?_⟩
  · rw [sqTail_inside h] at htail
    have hset := frame_setf (woken s) .DB_SQ_TAIL_TAIL q x
    have htouch := frame_yards ((woken s).setf .DB_SQ_TAIL_TAIL q x)
    have hd := does_woken (P := fun t => t.rf .DB_SQ_TAIL_TAIL q = x) htail (hset.append (htouch _)) (by simp) (by simp)
      ((State.rf_setf_same (woken s) .DB_SQ_TAIL_TAIL q x).trans hx16)
    exact hd.imp fun t ⟨hidx, hcur, hdata, hf⟩ => ⟨hidx, hcur, hdata, hf.mono (by simp) (by simp)⟩
  · rw [sqTail_outside h] at htail
    exact hbad _ htail
  · rw [cqHead_inside h] at hhead
    have hd := does_woken (P := fun t => t.rf .DB_CQ_HEAD_HEAD q = x) hhead (frame_setf ..) (by simp) (by simp)
      ((State.rf_setf_same ..).trans hx16)
    exact hd.imp fun t ⟨hidx, hcur, hdata, hf⟩ => ⟨hidx, hcur, hdata, hf.mono (by simp) (by simp)⟩
  · rw [cqHead_outside h] at hhead
    exact hbad _ hhead
  · rw [dbCancel_remote ((remoteOf_congr hqs ..).trans hr)] at hcancel
    refine ⟨hcancel, fun hs => (does_cancel_unsent hr hcancel hs).imp fun t ⟨hcomp, hdata, hall⟩ => ⟨hcomp, hdata, fun o _ ho => ?_, fun p hp => ?_⟩⟩
    · simp only [Remote.owns, Bool.and_eq_true, beq_iff_eq] at ho
      exact ho.1.1.1.1.1
    · exact hall p fun hn => by fin_cases hn <;> simp at hp
  · rw [dbCancel_none ((remoteOf_congr hqs ..).trans hr) ((fetchedRemote_congr hqs ..).trans hf)] at hcancel
    exact does_counted hcancel (by decide)

end Sys2Proof

namespace Sys2Proof

open Machine

/-! # Remote operations start (O19) -/

/-- Units of a remote operation: bytes, or one for a SIGNAL. -/
def unitsOf (op : Nat) (e : Entry) : Nat := if op = 0x42 then 8 else if op = 0x43 then 1 else rLen e

section
variable {s : State} {q op : Nat} {e : Entry} {ft : Fetched} (h : Starts s q op e remoteFields) (hq : q ≠ 0) (hft : s.start? q op e = some ft)
include h hq hft

/-- One whose fragment table could not be read. -/
theorem remoteCmd_unread {a : Nat} (hb : ft.bad = true) (ha : tableOf e = some a) :
    s.remoteCmd q op e = (s.sat .HCH_ERR_RD_ERR (portFor (s.qYard q) a)).finish q (eId e) op 4 := by
  rw [State.remoteCmd, show (q != 0) = true from bne_iff_ne.2 hq, startCmd_unread h hft hb ha]

/-- The tenant is not admitted by the endpoint's entry (R177). -/
theorem remoteCmd_blocked (hr : ft.bad = true → tableOf e = none) (hb : firstBad (remoteBad q e s) = none)
    (ht : bitAt (s.rf .RTE_EP_LO_TENANT_MASK (rEp e)) (s.yardTenant (s.qYard q)) = false) :
    s.remoteCmd q op e = s.finish q (eId e) op 7 := by
  rw [State.remoteCmd, show (q != 0) = true from bne_iff_ne.2 hq, startCmd_read h hft hr]
  simp only [hb, ht, Bool.not_false, if_true]

/-- One that passes every check becomes outstanding and sends what its window allows. -/
theorem remoteCmd_starts (hr : ft.bad = true → tableOf e = none) (hb : firstBad (remoteBad q e s) = none)
    (ht : bitAt (s.rf .RTE_EP_LO_TENANT_MASK (rEp e)) (s.yardTenant (s.qYard q)) = true) :
    s.remoteCmd q op e = (s.adopt ft (.remote { kind := op, ep := rEp e, tenant := s.yardTenant (s.qYard q), todo := [(0, unitsOf op e)] })).pumpRemotes := by
  rw [State.remoteCmd, show (q != 0) = true from bne_iff_ne.2 hq, startCmd_read h hft hr]
  simp only [hb, ht, Bool.not_true, Bool.false_eq_true, if_false]
  rfl

end

/-- The four remote commands: the command, its opcode, and how much it has to send. -/
def remoteRows (q : QP) (e : Entry) : List (Instr × Nat × Nat) :=
  [(.put q e, 0x40, ent e 24 4), (.get q e, 0x41, ent e 24 4), (.atomic q e, 0x42, 8), (.signalCommand q e, 0x43, 1)]

/-- Each of the four runs as a remote operation. -/
theorem remoteRows_run {s : State} {q : QP} {e : Entry} {c : Instr} {op len : Nat} (hc : s.coreOn = true) (h : (c, op, len) ∈ remoteRows q e) :
    exec c s = .next (s.keep (s.remoteCmd q op e)) ∧ unitsOf op e = len := by
  simp only [remoteRows, List.mem_cons, Prod.mk.injEq, List.not_mem_nil, or_false] at h
  rcases h with h | h | h | h <;> obtain ⟨rfl, rfl, rfl⟩ := h <;> exact ⟨event_on s (fun s => s.remoteCmd q _ e) hc, rfl⟩

/-- Settles O19: each command is a remote operation, whose start takes the branch that the hypotheses name. -/
theorem remoteCommandsStartTheirOperation : Obligations.RemoteCommandsStartTheirOperation := by
  intro s q e c op len hm ep tn unread
  refine ⟨fun v f hc hq hr hf => (does_cancel_fetched hc hq hr hf).imp fun t ⟨hcomp, _, hframe⟩ => ⟨hcomp, hframe⟩,
    fun a hq h ⟨ft, hft, hb⟩ ha => ?_, fun hq h hread hb => ?_⟩
  · have hq' : q.val ≠ 0 := fun h0 => hq (Fin.ext h0)
    have hx := (remoteRows_run h.1 hm).1
    rw [remoteCmd_unread h hq' hft hb ha] at hx
    have hsat := frame_sat s .HCH_ERR_RD_ERR (portFor (s.rf .DB_STATUS_YARD q) a) 1
    have hall := hsat.append (frame_finish _ q (eId e) op 4 0)
    exact does_of_frame hx hall ⟨completed_after hsat (by simp) .., counted_frame (counted_sat ..) (frame_finish ..) (by simp),
      hall.mono (by simp) (by simp)⟩
  · have hq' : q.val ≠ 0 := fun h0 => hq (Fin.ext h0)
    obtain ⟨ft, hft⟩ := Option.isSome_iff_exists.1 h.2.1
    obtain ⟨hfq, hfe, -⟩ := start?_some hft
    have hr : ft.bad = true → tableOf e = none := fun hbad => hread ⟨ft, hft, hbad⟩
    obtain ⟨hx, hlen⟩ := remoteRows_run h.1 hm
    refine ⟨fun ht => ?_, fun ht => ?_⟩
    · rw [remoteCmd_starts h hq' hft hr hb ht, hlen] at hx
      have hadopt := adopted_adopt s ft (.remote { kind := op, ep := ep, tenant := tn, todo := [(0, len)] })
      rw [hfq, hfe] at hadopt
      exact ⟨_, hadopt, frame_adopt .., hx⟩
    · rw [remoteCmd_blocked h hq' hft hr hb ht] at hx
      exact does_of_frame hx (frame_finish ..) ⟨completed_finish .., frame_finish ..⟩

end Sys2Proof

namespace Sys2Proof

open Machine

/-! # Identifiers and timers run out (O33) -/

/-! ## Quarantines, fences, shadow windows (R202, R312, R325) -/

section
variable {s : State} (hc : s.coreOn = true)
include hc

theorem exec_quarantineEnd (what : QuarId) : exec (.quarantineEnd what) s = .next (s.keep (s.quarantineOver what)) :=
  event_on s (fun s => s.quarantineOver what) hc

theorem exec_fenceEnd (ep : BitVec 16) : exec (.fenceEnd ep) s = .next (s.keep (s.fenceOver ep.toNat)) :=
  event_on s (fun s => s.fenceOver ep.toNat) hc

/-- The windows of domain d whose time has passed are gone. -/
def windowsClosed (s : State) (d : Domain) : State :=
  { s with aon := { s.aon with windows := s.aon.windows.filter fun w => !(w.dom == d && decide (w.until_ ≤ s.now)) } }

theorem exec_shadowWindowEnd (d : Domain) : exec (.shadowWindowEnd d) s = .next (s.keep (windowsClosed s d)) :=
  event_on s (fun s => windowsClosed s d) hc

theorem exec_commandTimeout (q : QP) (id : BitVec 16) :
    exec (.commandTimeout q id) s = .next (s.keep (if s.safe then s else s.timeout q id.toNat)) :=
  event_on s (fun s => if s.safe then s else s.timeout q id.toNat) hc

end

section
variable {s : State}

theorem quarantineOver_team {t : TeamSlot} (h : s.rf .TT_TEAM_STATE t = 3)
    (hp : max (s.team t).quarEnd ((s.team t).lastTraffic + s.quarantine) ≤ s.now) : s.quarantineOver (.team t) = s.setf .TT_TEAM_STATE t 0 :=
  if_pos (Bool.and_eq_true_iff.2 ⟨decide_eq_true h, decide_eq_true hp⟩)

theorem quarantineOver_team_early {t : TeamSlot}
    (h : s.rf .TT_TEAM_STATE t ≠ 3 ∨ s.now < max (s.team t).quarEnd ((s.team t).lastTraffic + s.quarantine)) : s.quarantineOver (.team t) = s := by
  refine if_neg fun hn => ?_
  obtain ⟨h3, hp⟩ := Bool.and_eq_true_iff.1 hn
  exact h.elim (fun hn => hn (of_decide_eq_true h3)) (Nat.not_lt.2 (of_decide_eq_true hp))

theorem quarantineOver_pair {q : QP} (h : s.rf .DB_STATUS_QUARANTINE q ≠ 0) (hd : s.destroying q = false)
    (hp : max (s.qp q).quarEnd ((s.qp q).lastTraffic + s.quarantine) ≤ s.now) : s.quarantineOver (.pair q) = s.setf .DB_STATUS_QUARANTINE q 0 :=
  if_pos (by simp [State.on, h, hd, hp])

theorem quarantineOver_pair_early {q : QP}
    (h : s.now < max (s.qp q).quarEnd ((s.qp q).lastTraffic + s.quarantine) ∨ s.destroying q = true) : s.quarantineOver (.pair q) = s := by
  refine if_neg fun hn => ?_
  simp only [Bool.and_eq_true, Bool.not_eq_true', decide_eq_true_eq] at hn
  obtain ⟨⟨-, hd⟩, hp⟩ := hn
  rcases h with h | h
  · exact Nat.not_lt.2 hp h
  · exact absurd (h.symm.trans hd) (by decide)

/-- The fence entries of an endpoint whose time has not passed, and every other endpoint's. -/
def fencesLeft (s : State) (ep : Nat) : List Fence := s.net.fences.filter fun f => !(f.ep == ep && f.until_ ≤ s.now)

/-- They remain, and their number is shown. -/
theorem fenceOver_eq (s : State) (ep : Nat) :
    s.fenceOver ep = ({ s with net := { s.net with fences := fencesLeft s ep } } : State).setf .RTE_FENCE_ACTIVE 0 (fencesLeft s ep).length := rfl

end

/-! ## COMMAND_TIMEOUT (R284, R328) -/

section
variable {s : State} {q id : Nat} {c : Cmd}

theorem timeout_early (h : s.cmd? q id = some c) (he : s.expired q (eOp c.e) c.t0 = false) : s.timeout q id = s := by
  simp [State.timeout, h, he]

theorem timeout_expired (h : s.cmd? q id = some c) (he : s.expired q (eOp c.e) c.t0 = true) :
    (∀ b, c.phase = .mirror b → s.timeout q id = (s.finishCmd c 3).fault 45) ∧ (∀ r, c.phase = .remote r → s.timeout q id = s.remoteTimeout c r)
      ∧ ∀ u n, c.phase = .work u n → s.timeout q id = s.workTimeout c u n := by
  refine ⟨fun b hp => ?_, fun r hp => ?_, fun u n hp => ?_⟩ <;> simp [State.timeout, h, he, hp]

variable {f : Fetched}

theorem timeout_fetched_early (h : s.cmd? q id = none) (hf : s.qs.fetched.find? (fun f => f.q == q && eId f.e == id) = some f)
    (he : s.expired q (eOp f.e) f.t0 = false) : s.timeout q id = s := by
  simp [State.timeout, h, hf, he]

theorem timeout_fetched (h : s.cmd? q id = none) (hf : s.qs.fetched.find? (fun f => f.q == q && eId f.e == id) = some f)
    (he : s.expired q (eOp f.e) f.t0 = true) : s.timeout q id = s.fetchedTimeout f := by
  simp [State.timeout, h, hf, he]

variable {u n : Nat} {i : Inst} (hi : s.insts.find? (fun i => i.team == u && i.n == n) = some i)
include hi

/-- The state in which command c has completed TIMEOUT and its member is missing from the instance, whose slot has begun. -/
def missingNow (s : State) (c : Cmd) (u n : Nat) : State :=
  (((s.finishCmd c 3).clearRec u n).sat .TT_TEAMCNT_MISSING_SELF u).updInst (fun j => j.team == u && j.n == n) Inst.lateMissing

theorem workTimeout_due (hs : i.st = .bound) (hd : i.due = true) : s.workTimeout c u n = missingNow s c u n := by
  simp only [State.workTimeout, hi, hs, hd, beq_self_eq_true, Bool.and_self, if_true]
  rfl

theorem workTimeout_unstarted (hs : i.st = .waiting ∨ (i.st = .bound ∧ i.due = false)) :
    s.workTimeout c u n = (s.finishCmd c 3).dropInsts fun j => j.team == u && j.n == n := by
  rcases hs with hs | ⟨hs, hd⟩
  · simp [State.workTimeout, hi, hs]
  · simp [State.workTimeout, hi, hs, hd]

theorem workTimeout_barrier (hs : i.st = .running ∨ i.st = .ended) (ho : i.op = 0x28) : s.workTimeout c u n = s.finishCmd c 3 := by
  rcases hs with hs | hs <;> simp [State.workTimeout, hi, hs, ho]

theorem workTimeout_running (hs : i.st = .running) (ho : i.op ≠ 0x28) : s.workTimeout c u n = s.hang u := by
  simp [State.workTimeout, hi, hs, ho]

end

theorem cmd?_some {s : State} {q id : Nat} {c : Cmd} (h : s.cmd? q id = some c) : c.q = q ∧ c.id = id := by
  have hc := List.find?_some h
  simpa only [Bool.and_eq_true, beq_iff_eq] using hc

theorem completed_finishCmd {s : State} {q id : Nat} {c : Cmd} (h : s.cmd? q id = some c) (status : Nat) :
    Completed s (s.finishCmd c status) (plainDone q id (eOp c.e) status 0) := by
  obtain ⟨rfl, rfl⟩ := cmd?_some h
  exact completed_finish ..

/-- A completion that later changes leave alone. -/
theorem completed_frame {s t u : State} {d : Done} {ps : List Part} {fs : List (Fld × Nat)} (h : Completed s t d) (k : Frame ps fs t u)
    (hq : .qs ∉ ps) (hg : ∀ i, (.DB_STATUS_QGEN, i) ∉ fs) : Completed s u d := by
  have hqs : u.qs = t.qs := k.part .qs hq
  rwa [Completed, hqs, ofGen, k.rf (hg d.q)]

theorem insts_updInst (s : State) (p : Inst → Bool) (f : Inst → Inst) : (s.updInst p f).insts = updWhere p f s.insts := rfl

/-- The instance whose slot has begun runs on as that of a missing member (R284). -/
theorem missingNow_spec {s : State} {q id u n : Nat} {c : Cmd} {i : Inst} (h : s.cmd? q id = some c)
    (hi : s.insts.find? (fun i => i.team == u && i.n == n) = some i) :
    Completed s (missingNow s c u n) (plainDone q id (eOp c.e) 3 0) ∧ Counted s .TT_TEAMCNT_MISSING_SELF u (missingNow s c u n)
      ∧ (∃ j ∈ (missingNow s c u n).insts, j.team = u ∧ j.n = n ∧ j.missing = true ∧ j.cmd = none ∧ j.st = .bound)
      ∧ Frame [.qs, .posts, .yards, .insts] [(.TT_TEAMCNT_MISSING_SELF, u)] s (missingNow s c u n) := by
  have hfin := frame_finish s c.q c.id (eOp c.e) 3 0
  have hclear := frame_clearRec (s.finishCmd c 3) u n
  have hsat := frame_sat ((s.finishCmd c 3).clearRec u n) .TT_TEAMCNT_MISSING_SELF u 1
  have hupd := frame_insts (((s.finishCmd c 3).clearRec u n).sat .TT_TEAMCNT_MISSING_SELF u)
  have hto := hfin.append hclear
  have hinsts : (((s.finishCmd c 3).clearRec u n).sat .TT_TEAMCNT_MISSING_SELF u).insts = s.insts := (hto.append hsat).part .insts (by simp)
  obtain ⟨hteam, hn⟩ : i.team = u ∧ i.n = n := by simpa using List.find?_some hi
  have hmem : Inst.lateMissing i ∈ (missingNow s c u n).insts := by
    have hlist : (missingNow s c u n).insts = updWhere (fun j => j.team == u && j.n == n) Inst.lateMissing s.insts := by
      rw [missingNow, insts_updInst, hinsts]
    rw [hlist, updWhere]
    exact List.mem_map.2 ⟨i, List.mem_of_find?_eq_some hi, if_pos (List.find?_some hi)⟩
  refine ⟨completed_frame (completed_finishCmd h 3) (hclear.append (hsat.append (hupd _))) (by simp) (by simp), ?_,
    ⟨_, hmem, hteam, hn, rfl, rfl, rfl⟩, ((hto.append hsat).append (hupd _)).mono (by simp) (by simp)⟩
  have hcount : Counted ((s.finishCmd c 3).clearRec u n) .TT_TEAMCNT_MISSING_SELF u (missingNow s c u n) :=
    counted_frame (counted_sat ..) (hupd _) (by simp)
  rwa [Counted, hto.rf (by simp)] at hcount

/-- A fetched command of a defined team counts (log entry 115). -/
def fetchedCounted (s : State) (f : Fetched) : State :=
  if teamOp (eOp f.e) && ent f.e 4 1 < 64 && s.rf .TT_TEAM_STATE (ent f.e 4 1) == 1 then countCmd s (ent f.e 4 1) (eOp f.e) else s

theorem fetchedTimeout_eq (s : State) (f : Fetched) : s.fetchedTimeout f = (fetchedCounted s f).finish f.q (eId f.e) (eOp f.e) 3 := rfl

theorem frame_fetchedCounted (s : State) (f : Fetched) : Frame [.teams] [] s (fetchedCounted s f) := frame_ite (frame_countCmd ..) (Frame.refl ..)

theorem frame_fetchedTimeout (s : State) (f : Fetched) : Frame [.qs, .teams] [] s (s.fetchedTimeout f) := by
  rw [fetchedTimeout_eq]
  exact ((frame_fetchedCounted s f).append (frame_finish ..)).mono (by simp) (by simp)

theorem completed_fetchedTimeout (s : State) (f : Fetched) : Completed s (s.fetchedTimeout f) (plainDone f.q (eId f.e) (eOp f.e) 3 0) := by
  rw [fetchedTimeout_eq]
  exact completed_after (frame_fetchedCounted s f) (by simp) ..

/-- Settles O33: every clause is a branch of `quarantineOver`, `fenceOver` or `timeout`, picked by what has passed and by the command's phase. -/
theorem identifiersAndTimersRunOut : Obligations.IdentifiersAndTimersRunOut := by
  intro s t q id ep d c f u n i r b hc tEnd qEnd left tmo
  have hquar := exec_quarantineEnd hc
  have htmo (hs : s.safe = false) : exec tmo s = .next (s.keep (s.timeout q id.toNat)) :=
    (exec_commandTimeout hc q id).trans (by rw [hs, if_neg Bool.false_ne_true])
  refine ⟨fun h3 hp => ?_, fun h => ?_, fun h hd hp => ?_, fun h => ?_, ?_, ?_, fun hs => ?_, fun hs h => ⟨fun he => ?_, fun he => ?_⟩,
    fun hs h hf => ⟨fun he => ?_, fun he => ?_⟩⟩
  · have hx := hquar (.team t)
    rw [quarantineOver_team h3 hp] at hx
    exact does_of_frame hx (frame_setf ..) ⟨State.rf_setf_same .., frame_setf ..⟩
  · exact does_nothing ((hquar (.team t)).trans (by rw [quarantineOver_team_early h]))
  · have hx := hquar (.pair q)
    rw [quarantineOver_pair h hd hp] at hx
    exact does_of_frame hx (frame_setf ..) ⟨State.rf_setf_same .., frame_setf ..⟩
  · exact does_nothing ((hquar (.pair q)).trans (by rw [quarantineOver_pair_early h]))
  · have hx := exec_fenceEnd hc ep
    rw [fenceOver_eq] at hx
    have hf := (frame_net s { s.net with fences := left }).append (frame_setf _ .RTE_FENCE_ACTIVE 0 left.length)
    exact does_of_frame hx hf ⟨rfl, State.rf_setf_same .., hf⟩
  · exact does_of_frame (exec_shadowWindowEnd hc d) (frame_aon s _) ⟨rfl, frame_aon s _⟩
  · exact does_nothing ((exec_commandTimeout hc q id).trans (by rw [hs, if_pos rfl]))
  · exact does_nothing ((htmo hs).trans (by rw [timeout_early h he]))
  · obtain ⟨hmirror, hremote, hwork⟩ := timeout_expired h he
    refine ⟨fun hp => (htmo hs).trans (by rw [hmirror b hp]), fun hp => (htmo hs).trans (by rw [hremote r hp]), fun hp hi => ?_⟩
    have hx := htmo hs
    rw [hwork u n hp] at hx
    refine ⟨fun hb hd => ?_, fun hst => hx.trans (by rw [workTimeout_unstarted hi hst]), fun hst ho => ?_,
      fun hst ho => hx.trans (by rw [workTimeout_running hi hst ho])⟩
    · rw [workTimeout_due hi hb hd] at hx
      obtain ⟨hcomp, hcount, hinst, hf⟩ := missingNow_spec h hi
      exact ⟨hx, does_of_frame hx hf ⟨hcomp, hcount, hinst, hf⟩⟩
    · rw [workTimeout_barrier hi hst ho] at hx
      exact does_of_frame hx (frame_finish ..) ⟨completed_finishCmd h 3, frame_finish ..⟩
  · exact does_nothing ((htmo hs).trans (by rw [timeout_fetched_early h hf he]))
  · have hx := htmo hs
    rw [timeout_fetched h hf he] at hx
    obtain ⟨hq, hid⟩ : f.q = q ∧ eId f.e = id.toNat := by simpa using List.find?_some hf
    have hcomp := completed_fetchedTimeout s f
    rw [hq, hid] at hcomp
    exact does_of_frame hx (frame_fetchedTimeout s f) ⟨hcomp, frame_fetchedTimeout s f⟩

end Sys2Proof

namespace Sys2Proof

open Machine

/-! # Remote requests at their target (O34) -/

/-! ## What a REIN unit's way depends on (R185) -/

/-- The register fields that tell a unit's way and the time. -/
def routeFields : List Fld :=
  [.RTE_SELF_EP, .RTE_EP_LO_X, .RTE_EP_LO_Y, .RTE_EP_LO_Z, .RTE_SLICE_EXT_X, .RTE_SLICE_EXT_Y, .RTE_SLICE_EXT_Z, .LNK_STATE_STATE,
   .LNK_RUNG_GROUPS, .RTE_LANEOWN_OWNER, .AON_MTC_MTC_NS]

/-- The router is the same in both states, and so is every way through it. -/
structure SameWays (s t : State) : Prop where
  net : t.net = s.net
  now : t.now = s.now
  fields : ∀ f ∈ routeFields, ∀ i, t.rf f i = s.rf f i

section
variable {s t : State}

theorem SameWays.self (h : SameWays s t) : t.self = s.self := h.fields _ (by simp [routeFields]) 0

theorem SameWays.coord (h : SameWays s t) (ep a : Nat) : t.coord ep a = s.coord ep a := by
  have hx := h.fields .RTE_EP_LO_X (by simp [routeFields]) ep
  have hy := h.fields .RTE_EP_LO_Y (by simp [routeFields]) ep
  have hz := h.fields .RTE_EP_LO_Z (by simp [routeFields]) ep
  simp only [State.coord, hx, hy, hz]

theorem SameWays.here (h : SameWays s t) (a : Nat) : t.here a = s.here a := by
  rw [State.here, State.here, h.self, h.coord]

theorem SameWays.extent (h : SameWays s t) (a : Nat) : t.extent a = s.extent a := by
  have hx := h.fields .RTE_SLICE_EXT_X (by simp [routeFields]) 0
  have hy := h.fields .RTE_SLICE_EXT_Y (by simp [routeFields]) 0
  have hz := h.fields .RTE_SLICE_EXT_Z (by simp [routeFields]) 0
  simp only [State.extent, hx, hy, hz]

theorem SameWays.deadFor (h : SameWays s t) (l n : Nat) : t.deadFor l n = s.deadFor l n := by
  have hst := h.fields .LNK_STATE_STATE (by simp [routeFields]) l
  have hg := h.fields .LNK_RUNG_GROUPS (by simp [routeFields]) l
  have ho := h.fields .RTE_LANEOWN_OWNER (by simp [routeFields]) 0
  simp only [State.deadFor, State.live, State.linkSt, State.subGroups, State.groupOwner, hst, hg, ho]

theorem SameWays.nextHop (h : SameWays s t) (tgt n ax : Nat) (rev rdir : Bool) : t.nextHop tgt n ax rev rdir = s.nextHop tgt n ax rev rdir := by
  simp only [State.nextHop, h.here, h.coord, h.extent, h.deadFor]

theorem SameWays.reinPort (h : SameWays s t) (r : Rein) : t.reinPort r = s.reinPort r := by
  simp only [State.reinPort, State.reinHop, h.self, h.nextHop]

/-- The router goes on in the same way. -/
theorem SameWays.withNet (h : SameWays s t) (x : Net) : SameWays { s with net := x } { t with net := x } := ⟨rfl, h.now, h.fields⟩

theorem SameWays.queueRein (h : SameWays s t) (r : Rein) : SameWays (s.queueRein r) (t.queueRein r) := by
  have hs := reinsOnly_queueRein s r
  have ht := reinsOnly_queueRein t r
  refine ⟨?_, ?_, ?_⟩
  · simp only [State.queueRein, h.reinPort, h.net]
    split
    · rfl
    · split <;> rfl
  · rw [hs, ht]; exact h.now
  · rw [hs, ht]; exact h.fields

theorem SameWays.foldl (h : SameWays s t) (l : List Rein) :
    SameWays (l.foldl (fun s x => s.queueRein x) s) (l.foldl (fun s x => s.queueRein x) t) := by
  induction l generalizing s t with
  | nil => exact h
  | cons r l ih => exact ih (h.queueRein r)

/-- A credit that is queued for return. -/
theorem SameWays.reinFor (h : SameWays s t) (c : Carriage) (blocked : Bool) : (t.reinFor c blocked).net = (s.reinFor c blocked).net := by
  have hgen : t.reinGenOf c = s.reinGenOf c := by simp only [State.reinGenOf, h.now]
  have hfold := (h.withNet { s.net with reinWait := [] }).foldl
    (s.net.reinWait ++ [{ dst := cSrc c, src := s.self, tenant := cTenant c, blocked := blocked, gen := s.reinGenOf c, credits := 1 }])
  simp only [State.reinFor, State.sendRein, hgen, h.self, h.net]
  exact hfold.net

/-- Changes that leave the router, the time and every way alone. -/
theorem sameWays_of_frame {ps : List Part} {fs : List (Fld × Nat)} (h : Frame ps fs s t) (hn : .net ∉ ps) (ht : .time ∉ ps) (hp : .power ∉ ps)
    (hf : ∀ f ∈ routeFields, ∀ i, (f, i) ∉ fs) : SameWays s t :=
  ⟨h.part .net hn, h.now (hf _ (by simp [routeFields]) 0) ht hp, fun f hm i => h.rf (hf f hm i)⟩

end

/-! ## What each command runs -/

section
variable {s : State} (hc : s.coreOn = true) {p : Port} {c : Carriage}
include hc

theorem putReceive_taken {s1 : State} (hs : s.safe = false) (h : s.takeAccepted p c [1] = some s1) :
    exec (.putReceive p c) s = .next (s.keep (s1.putArrive c)) := by
  show execPutReceive p c s = _
  rw [execPutReceive, event_on _ _ hc]
  simp only [hs, Bool.false_eq_true, if_false, h]

theorem putReceive_stays (h : s.safe = true ∨ s.takeAccepted p c [1] = none) : exec (.putReceive p c) s = .next (s.keep s) := by
  show execPutReceive p c s = _
  rw [execPutReceive, event_on _ _ hc]
  rcases h with h | h <;> simp only [h, if_true, ite_self]

theorem getReqReceive_taken {s1 : State} (h : s.takeAccepted p c [2] = some s1) : exec (.getReqReceive p c) s =
    .next (s.keep (s1.respond c 3 (s1.rdLocal (s1.aperture (cTenant c) (gTarget c)) (gLen c)))) := by
  show execGetReqReceive p c s = _
  rw [execGetReqReceive, event_on _ _ hc]
  simp only [h]

theorem getReqReceive_stays (h : s.takeAccepted p c [2] = none) : exec (.getReqReceive p c) s = .next (s.keep s) := by
  show execGetReqReceive p c s = _
  rw [execGetReqReceive, event_on _ _ hc]
  simp only [h]

theorem atomReqReceive_taken {s1 : State} (hs : s.safe = false) (h : s.takeAccepted p c [4] = some s1) :
    exec (.atomReqReceive p c) s = .next (s.keep (s1.atomArrive c)) := by
  show execAtomReqReceive p c s = _
  rw [execAtomReqReceive, event_on _ _ hc]
  simp only [hs, Bool.false_eq_true, if_false, h]

theorem atomReqReceive_stays (h : s.safe = true ∨ s.takeAccepted p c [4] = none) : exec (.atomReqReceive p c) s = .next (s.keep s) := by
  show execAtomReqReceive p c s = _
  rw [execAtomReqReceive, event_on _ _ hc]
  rcases h with h | h <;> simp only [h, if_true, ite_self]

theorem signalReceive_taken {s1 : State} (h : s.takeAccepted p c [6] = some s1) :
    exec (.signalReceive p c) s = .next (s.keep (s1.signalArrive c)) := by
  show execSignalReceive p c s = _
  rw [execSignalReceive, event_on _ _ hc]
  simp only [h]

theorem signalReceive_stays (h : s.takeAccepted p c [6] = none) : exec (.signalReceive p c) s = .next (s.keep s) := by
  show execSignalReceive p c s = _
  rw [execSignalReceive, event_on _ _ hc]
  simp only [h]

end

/-! ## Writes at the target (R195, R196) -/

section
variable (s : State) {a : Nat} (bs : List Byte)

theorem wrLocal_host (h : isDepot a = false) : s.wrLocal a bs = s.wrHost (offsetOf a) bs := if_neg (by simp [h])

theorem wrLocal_depot (h : isDepot a = true) : s.wrLocal a bs = s.wrDepot (offsetOf a) bs := if_pos h

theorem frame_wrLocal (a : Nat) : Frame [.host, .depot] [] s (s.wrLocal a bs) :=
  frame_ite ((frame_wrDepot s _ bs).mono (by simp) (by simp)) ((frame_host s _).mono (by simp) (by simp))

/-- The bytes stand in the memory that bit 47 names, and the other memory is as it was. -/
theorem stored_wrLocal (a : Nat) :
    (isDepot a = false → Stored s.host (s.wrLocal a bs).host (offsetOf a) bs ∧ (s.wrLocal a bs).depot = s.depot)
      ∧ (isDepot a = true → Stored s.depot (s.wrLocal a bs).depot (offsetOf a) bs ∧ (s.wrLocal a bs).host = s.host) :=
  ⟨fun h => wrLocal_host s bs h ▸ ⟨stored_wrBytes _ _ _, rfl⟩, fun h => wrLocal_depot s bs h ▸ ⟨stored_wrBytes _ _ _, rfl⟩⟩

end

section
variable {s : State} {c : Carriage} {m : Nat}

theorem putArrive_plain (h : gNotify c = false) : s.putArrive c =
    (s.wrLocal (s.aperture (cTenant c) (gTarget c)) ((c.payload.drop 64).take (gLen c))).reinFor c false := by
  simp only [State.putArrive, h, Bool.false_eq_true, if_false]

theorem putArrive_misuse (h : gNotify c = true) (hm : s.carMisuse (cTenant c) (gObj c % 2 ^ 14) false 0 = some m) :
    s.putArrive c = s.dropMisuse c m (gObj c % 2 ^ 14) := by
  simp only [State.putArrive, h, if_true, hm]

/-- What an atomic leaves in the word: ADD, SWAP, CAS, or else signed MAX. -/
theorem atomicWord_eq (aop : Nat) (w x y : Word) : atomicWord aop w x y =
    if aop = 0 then w + x else if aop = 1 then x else if aop = 2 then (if w = y then x else w) else if w.toInt < x.toInt then x else w := by
  match aop with
  | 0 => rfl
  | 1 => rfl
  | 2 => simp [atomicWord]
  | n + 3 => simp [atomicWord, BitVec.slt]

/-! ## SIGNAL (R259, R261) -/

theorem signalArrive_misuse (hm : s.carMisuse (cTenant c) (gTarget c % 2 ^ 14) (gAop c == 1) (gOp1 c) = some m) :
    s.signalArrive c = s.dropMisuse c m (gTarget c % 2 ^ 14) := by
  simp only [State.signalArrive, hm]

variable (hm : s.carMisuse (cTenant c) (gTarget c % 2 ^ 14) (gAop c == 1) (gOp1 c) = none)
include hm

theorem signalArrive_sets (ha : gAop c = 1) : s.signalArrive c = (s.setObj (gTarget c % 2 ^ 14) (gOp1 c) 0).reinFor c false := by
  have hset : (gAop c == 1) = true := by simp [ha]
  simp only [State.signalArrive, hm]
  simp only [hset, if_true]

theorem signalArrive_adds (ha : gAop c ≠ 1) (hl : s.lateEpoch (gTarget c % 2 ^ 14) (gOp2 c) = false)
    (hv : s.rf .SYN_OBJ_VALUE (gTarget c % 2 ^ 14) + gOp1 c < 2 ^ 63) :
    s.signalArrive c = (s.setObj (gTarget c % 2 ^ 14) (s.rf .SYN_OBJ_VALUE (gTarget c % 2 ^ 14) + gOp1 c) 1).reinFor c false := by
  have hset : (gAop c == 1) = false := by simp [ha]
  simp only [State.signalArrive, hm]
  simp only [hset, State.carAdd, hl, Bool.false_eq_true, if_false, hv, if_true]

theorem signalArrive_late (ha : gAop c ≠ 1) (hl : s.lateEpoch (gTarget c % 2 ^ 14) (gOp2 c) = true) :
    s.signalArrive c = (s.sat .SYN_MISUSE1_LATE_EPOCH 0).reinFor c false := by
  have hset : (gAop c == 1) = false := by simp [ha]
  simp only [State.signalArrive, hm]
  simp only [hset, State.carAdd, hl, Bool.false_eq_true, if_false, if_true]

end

/-- A request that is taken, changes something away from the router, and returns its credit. -/
theorem does_credited {i : Instr} {s u : State} {x : List Accepted} {c : Carriage} {ps : List Part} {fs : List (Fld × Nat)} {P : State → Prop}
    (he : exec i s = .next (s.keep (u.reinFor c false))) (hu : Frame ps fs (withAccepted s x) u) (hn : .net ∉ ps) (ht : .time ∉ ps)
    (hp : .power ∉ ps) (hf : ∀ f ∈ routeFields, ∀ i, (f, i) ∉ fs) (h : P (u.reinFor c false)) : Does i s fun t =>
      P t ∧ t.net = ((withAccepted s x).reinFor c false).net ∧ Frame (.net :: ps) fs s t := by
  have hall := ((frame_withAccepted s x).append hu).append (reinsOnly_reinFor u c false).frame
  have hall' : Frame (.net :: ps) fs s (u.reinFor c false) := hall.mono (by simp) (by simp)
  exact does_of_frame he hall' ⟨h, (sameWays_of_frame hu hn ht hp hf).reinFor c false, hall'⟩

/-- The object has its new value, and the credit returns. -/
theorem does_setObj {i : Instr} {s : State} {x : List Accepted} {c : Carriage} {n v op : Nat} (hv : v < 2 ^ 64)
    (he : exec i s = .next (s.keep (((withAccepted s x).setObj n v op).reinFor c false))) : Does i s fun t =>
      t.rf .SYN_OBJ_VALUE n = v ∧ t.net = ((withAccepted s x).reinFor c false).net
        ∧ Frame [.posts, .sync, .outbox, .net] [(.SYN_OBJ_VALUE, n), (.DBG_TRACE_STAT_SENT, 0)] s t := by
  have hval := ((reinsOnly_reinFor ((withAccepted s x).setObj n v op) c false).frame.rf (f := .SYN_OBJ_VALUE) (i := n) (by simp)).trans (rf_setObj ..)
  rw [Nat.mod_eq_of_lt hv] at hval
  have hd := does_credited (P := fun t => t.rf .SYN_OBJ_VALUE n = v) he (frame_setObj ..) (by simp) (by simp) (by simp)
    (by simp [routeFields]) hval
  exact hd.imp fun t ⟨h1, h2, hf⟩ => ⟨h1, h2, hf.mono (by simp) (by simp)⟩

/-- Settles O34: each request is its receive function's branch, and a credit's way home does not depend on what the request changed. -/
theorem remoteRequestsActAtTheirTarget : Obligations.RemoteRequestsActAtTheirTarget := by
  intro s s1 p c m hc a bs n credit old new set
  refine ⟨fun hs h hn => ?_, fun hs h hn hm => ?_, fun h => ?_, fun hs h => ?_, fun h => ⟨fun hm => ?_, fun hm => ⟨fun ha => ?_, fun ha hl hv => ?_,
    fun ha hl => ?_⟩⟩, fun h => ?_, fun h => ?_, fun h => ?_, fun h => ?_⟩
  · have hx := putReceive_taken hc hs h
    obtain ⟨-, x, rfl⟩ := takeAccepted_some h
    rw [putArrive_plain hn] at hx
    change exec (.putReceive p c) s = .next (s.keep (((withAccepted s x).wrLocal a bs).reinFor c false)) at hx
    obtain ⟨hhost, hdepot⟩ := stored_wrLocal (withAccepted s x) bs a
    have hrein := (reinsOnly_reinFor ((withAccepted s x).wrLocal a bs) c false).frame
    have hh : (((withAccepted s x).wrLocal a bs).reinFor c false).host = ((withAccepted s x).wrLocal a bs).host := hrein.part .host (by simp)
    have hd : (((withAccepted s x).wrLocal a bs).reinFor c false).depot = ((withAccepted s x).wrLocal a bs).depot := hrein.part .depot (by simp)
    have hdoes := does_credited (P := fun t => (isDepot a = false → Stored s.host t.host (offsetOf a) bs ∧ t.depot = s.depot)
        ∧ (isDepot a = true → Stored s.depot t.depot (offsetOf a) bs ∧ t.host = s.host))
      hx (frame_wrLocal ..) (by simp) (by simp) (by simp) (by simp) (by rw [hh, hd]; exact ⟨hhost, hdepot⟩)
    exact hdoes.imp fun t ⟨⟨h1, h2⟩, hcredit, hf⟩ => ⟨h1, h2, hcredit, hf.mono (by simp) (by simp)⟩
  · have hx := putReceive_taken hc hs h
    rwa [putArrive_misuse hn hm] at hx
  · have hx := getReqReceive_taken hc h
    obtain ⟨-, x, rfl⟩ := takeAccepted_some h
    exact hx
  · have hx := atomReqReceive_taken hc hs h
    obtain ⟨-, x, rfl⟩ := takeAccepted_some h
    have hnew : atomicWord (gAop c) old (w64 (gOp1 c)) (w64 (gOp2 c)) = new := atomicWord_eq ..
    obtain ⟨hhost, hdepot⟩ := stored_wrLocal (withAccepted s x) (leBytes 8 new.toNat) a
    have hw := frame_wrLocal (withAccepted s x) (leBytes 8 new.toNat) a
    refine ⟨(withAccepted s x).wrLocal a (leBytes 8 new.toNat), ?_, hhost, hdepot, hw.part .net (by simp),
      ((frame_withAccepted s x).append hw).mono (by simp) (by simp)⟩
    rw [← hnew]
    exact hx
  · have hx := signalReceive_taken hc h
    rwa [signalArrive_misuse hm] at hx
  · have hx := signalReceive_taken hc h
    obtain ⟨-, x, rfl⟩ := takeAccepted_some h
    rw [signalArrive_sets hm ha] at hx
    exact does_setObj (gOp1_lt c) hx
  · have hx := signalReceive_taken hc h
    obtain ⟨-, x, rfl⟩ := takeAccepted_some h
    rw [signalArrive_adds hm ha hl hv] at hx
    exact does_setObj (Nat.lt_trans hv (by decide)) hx
  · have hx := signalReceive_taken hc h
    obtain ⟨-, x, rfl⟩ := takeAccepted_some h
    rw [signalArrive_late hm ha hl] at hx
    have hrein := (reinsOnly_reinFor ((withAccepted s x).sat .SYN_MISUSE1_LATE_EPOCH 0) c false).frame
    exact does_credited (P := fun t => t.rf .SYN_MISUSE1_LATE_EPOCH = min (s.rf .SYN_MISUSE1_LATE_EPOCH + 1) (2 ^ fwidth .SYN_MISUSE1_LATE_EPOCH - 1))
      hx (frame_sat ..) (by simp) (by simp) (by simp) (by simp [routeFields]) ((hrein.rf (by simp)).trans (rf_sat ..))
  · exact does_nothing (putReceive_stays hc h)
  · exact does_nothing (getReqReceive_stays hc h)
  · exact does_nothing (atomReqReceive_stays hc h)
  · exact does_nothing (signalReceive_stays hc h)

end Sys2Proof

namespace Sys2Proof

open Machine

/-! # Carriages that arrive, and their verdicts (O39) -/

/-! ## NAKs (R189) -/

/-- A unit that leaves at once, and its counter. -/
theorem nak_free {s : State} {l t : Nat} (h : SlotsFree s l t) (n reason : Nat) : s.nak l t n reason =
    (sending s [.slot l t (mkSlot kNak (fieldsOf [(0, n), (2, reason)]))]).sat .RTE_RETRY_NAKS l := by
  rw [State.nak, unit_free h]

/-- The sending of a unit, counted. -/
theorem frame_sending_sat (s : State) (out : List OutEv) (f : Fld) (i : Nat) : Frame [.outbox] [(f, i)] s ((sending s out).sat f i) :=
  (frame_sending s out).append (frame_sat ..)

/-! ## CARRIAGE_ARRIVE (R178, R187, R189) -/

theorem frame_noteTraffic (s : State) (c : Carriage) : Frame [.yards, .teams] [] s (s.noteTraffic c) := by
  have hyard : Frame [.yards] [] s (if cSrc c = s.self then s.touch (cYard c) else s) :=
    frame_ite (frame_yards s _) (Frame.refl _ _ s)
  unfold State.noteTraffic
  exact frame_ite (hyard.append (frame_teams _ _)) (hyard.mono (by simp) (by simp))

/-- The sub-link of carriage c is now x, and c waits for the verdict that is due from `at_` on. -/
def waiting (s : State) (l : Nat) (c : Carriage) (x : SubLink) (at_ : Nat) : State :=
  let u := s.setSub l (cTenant c) x
  { u with net := { u.net with nextId := s.net.nextId + 1,
                               arriving := s.net.arriving ++ [{ id := s.net.nextId, l := l, t := cTenant c, c := c, at_ := at_ }] } }

theorem frame_waiting (s : State) (l : Nat) (c : Carriage) (x : SubLink) (at_ : Nat) : Frame [.net] [] s (waiting s l c x at_) :=
  (frame_setSub s l (cTenant c) x).trans (frame_net _ _)

/-- The NAKs of the LSNs skipped. -/
def skipNaks (s : State) (l t : Nat) (skipped : List Nat) : State := skipped.foldl (fun s k => s.nak l t k 0) s

/-- The sub-link expects the LSN after n, and those of `miss` lack an outcome. -/
def expecting (x : SubLink) (n : Nat) (miss : List Nat) : SubLink :=
  { x with expect := (n + 1) % 2048, missing := x.missing ++ miss, dirty := true }

/-- An unscheduled carriage whose LSN is d after the one expected, fewer than 1,024: the LSNs between get a NAK. -/
theorem arrive_ahead {s u : State} {l d : Nat} {c : Carriage} {skipped : List Nat} (hcls : cClass c ≠ 0)
    (hd : (cLsn c + 2048 - (s.sub l (cTenant c)).expect) % 2048 = d) (hlt : d < 1024) (hl : lsns (s.sub l (cTenant c)).expect d = skipped)
    (hu : skipNaks s l (cTenant c) skipped = u) (hn : u.net = s.net) : s.arrive l c =
      (waiting u l c (expecting (s.sub l (cTenant c)) (cLsn c) (skipped ++ [cLsn c])) s.now).noteTraffic c := by
  subst hd hl hu
  have hsub : (skipNaks s l (cTenant c) (lsns (s.sub l (cTenant c)).expect ((cLsn c + 2048 - (s.sub l (cTenant c)).expect) % 2048))).sub l (cTenant c)
      = s.sub l (cTenant c) := by rw [State.sub, hn, State.sub]
  rw [skipNaks] at hsub
  simp only [State.arrive, hlt, if_true, hcls, if_false, hsub, expecting, ← List.append_assoc]
  rfl

theorem lsns_one {a : Nat} (h : a < 2048) : lsns a 1 = [a] := by simp [lsns, Nat.mod_eq_of_lt h]

section
variable {s : State} (hc : s.coreOn = true) {l : Link} {c : Carriage}
include hc

theorem exec_carriageArrive : exec (.carriageArrive l c) s = .next (s.keep (s.carArrive l c)) := event_on s (fun s => s.carArrive l c) hc

theorem carriageArrive_discards (h : ¬ (s.live l = true ∧ s.subGroups l (cTenant c) ≠ [] ∧ cHchk c = hchk (c.hdr.toNat % 2 ^ 120))) :
    exec (.carriageArrive l c) s = .next (s.keep s) := by
  rw [exec_carriageArrive hc, State.carArrive, if_pos]
  by_contra hn
  exact h (by simpa [and_assoc] using hn)

theorem carriageArrive_takes (h : s.live l = true ∧ s.subGroups l (cTenant c) ≠ [] ∧ cHchk c = hchk (c.hdr.toNat % 2 ^ 120)) :
    exec (.carriageArrive l c) s = .next (s.keep (s.arrive l c)) := by
  rw [exec_carriageArrive hc, State.carArrive, if_neg]
  simpa [and_assoc] using h

end

/-- A carriage that waits behind NAKs which left the router's records alone. -/
theorem does_waiting {i : Instr} {s u : State} {l : Nat} {c : Carriage} {x : SubLink} {ps : List Part} {fs : List (Fld × Nat)}
    (he : exec i s = .next (s.keep ((waiting u l c x s.now).noteTraffic c))) (hn : u.net = s.net) (hu : Frame ps fs s u) : Does i s fun t =>
      (t.sub l (cTenant c) = x
        ∧ t.net.arriving = s.net.arriving ++ [{ id := s.net.nextId, l := l, t := cTenant c, c := c, at_ := s.now }]
        ∧ t.net = { s.net with subs := t.net.subs, arriving := t.net.arriving, nextId := s.net.nextId + 1 })
        ∧ Frame [.net, .yards, .teams] [] u t ∧ Frame (ps ++ [.net, .yards, .teams]) fs s t := by
  have hnote := frame_noteTraffic (waiting u l c x s.now) c
  have hnet : ((waiting u l c x s.now).noteTraffic c).net = (waiting u l c x s.now).net := hnote.part .net (by simp)
  have hafter : Frame [.net, .yards, .teams] [] u ((waiting u l c x s.now).noteTraffic c) := (frame_waiting u l c x s.now).append hnote
  have hall := hu.append hafter
  rw [List.append_nil] at hall
  refine does_of_frame he hall ⟨⟨?_, ?_, ?_⟩, hafter, hall⟩
  · rw [State.sub, hnet]
    exact sget_sset_same ..
  · rw [hnet, ← hn]
    rfl
  · rw [hnet, ← hn]
    rfl

/-! ## CRC_VERDICT (R188–R190) -/

/-- The carriages other than that with this number still wait for their verdict. -/
def judged (s : State) (id : Nat) : State := { s with net := { s.net with arriving := s.net.arriving.filter fun x => x.id != id } }

section
variable {s : State} {a : Arriving}

theorem verdictBad_nak (hr : a.recalled = false) (hl : a.late = false) (hcls : cClass a.c ≠ 0) (h3 : cRetry a.c ≠ 3) :
    s.verdictBad a = s.nak a.l a.t (cLsn a.c) (if lenOk a.c then 0 else 1) := by
  simp [State.verdictBad, hr, hl, hcls, h3]

theorem verdictBad_lost (hr : a.recalled = false) (hl : a.late = false) (hcls : cClass a.c ≠ 0) (h3 : cRetry a.c = 3) :
    s.verdictBad a = ((s.sat .RTE_RETRY_LOST a.l).fault 16 (s.carOrigin a.l a.c)).outcome a.l a.t (cLsn a.c) := by
  simp [State.verdictBad, hr, hl, hcls, h3]

end

section
variable {s : State} (hc : s.coreOn = true) {l : Link}
include hc

theorem exec_crcVerdict : exec (.crcVerdict l) s = .next (s.keep (s.verdict l)) := event_on s (fun s => s.verdict l) hc

theorem crcVerdict_none (h : s.net.arriving.find? (fun a => a.l == l.val && decide (a.at_ + 30 ≤ s.now)) = none) :
    exec (.crcVerdict l) s = .next (s.keep s) := by
  rw [exec_crcVerdict hc, State.verdict, h]

variable {a : Arriving} (h : s.net.arriving.find? (fun a => a.l == l.val && decide (a.at_ + 30 ≤ s.now)) = some a)
include h

theorem crcVerdict_bad (hw : lenOk a.c = false ∨ crcGood a.c = false) :
    exec (.crcVerdict l) s = .next (s.keep ((judged s a.id).verdictBad a)) := by
  have hbad : (a.recalled || !lenOk a.c || !crcGood a.c) = true := by
    rcases hw with hw | hw <;> simp [hw]
  rw [exec_crcVerdict hc, State.verdict, h]
  simp only [hbad, if_true]
  rfl

theorem crcVerdict_good (hr : a.recalled = false) (hl : a.late = false) (hw : ¬ (lenOk a.c = false ∨ crcGood a.c = false)) :
    exec (.crcVerdict l) s = .next (s.keep (if cClass a.c = 0 then ((judged s a.id).outcome l a.t (cLsn a.c)).schedGood a
      else ((judged s a.id).outcome l a.t (cLsn a.c)).routeOn a)) := by
  obtain ⟨hlen, hcrc⟩ : lenOk a.c = true ∧ crcGood a.c = true := by simpa [not_or] using hw
  rw [exec_crcVerdict hc, State.verdict, h]
  simp only [hr, hl, hlen, hcrc, Bool.not_true, Bool.or_self, Bool.false_eq_true, if_false]
  rfl

end

/-- The carriage found is one of the link. -/
theorem link_of_due {s : State} {l : Nat} {a : Arriving}
    (h : s.net.arriving.find? (fun a => a.l == l && decide (a.at_ + 30 ≤ s.now)) = some a) : a.l = l := by
  have hp := List.find?_some h
  simp only [Bool.and_eq_true, beq_iff_eq] at hp
  exact hp.1

/-- Settles O39: the distance of the LSN from the expected one says what is skipped, and a verdict is the branch that length, CRC and RETRY choose. -/
theorem carriagesArriveInOrderAndAreJudged : Obligations.CarriagesArriveInOrderAndAreJudged := by
  intro s l c a hc n t x lives taken m rest s1 wrong
  refine ⟨fun h => ?_, fun h hcls hn => ?_, fun h hfree hcls hx hn => ?_, fun h => ?_, fun h hr hl => ⟨fun hw hfree hcls h3 => ?_,
    fun hw hcls h3 => ?_, fun hw hcls => ?_, fun hw hcls => ?_⟩⟩
  · exact does_nothing (carriageArrive_discards hc h)
  · have hd : (cLsn c + 2048 - (s.sub l (cTenant c)).expect) % 2048 = 0 := by
      change (n + 2048 - x.expect) % 2048 = 0
      omega
    have he := carriageArrive_takes hc h
    rw [arrive_ahead hcls hd (by decide) rfl rfl rfl] at he
    exact (does_waiting he rfl (Frame.refl [] [] s)).imp fun u ⟨htaken, _, hf⟩ => ⟨htaken, hf⟩
  · have hd : (cLsn c + 2048 - (s.sub l (cTenant c)).expect) % 2048 = 1 := by
      change (n + 2048 - x.expect) % 2048 = 1
      omega
    let unit : List OutEv := [.slot l t (mkSlot kNak (fieldsOf [(0, x.expect), (2, 0)]))]
    have he := carriageArrive_takes hc h
    have hnaks : skipNaks s l t [x.expect] = (sending s unit).sat .RTE_RETRY_NAKS l := nak_free hfree x.expect 0
    have hu := frame_sending_sat s unit .RTE_RETRY_NAKS l
    rw [arrive_ahead hcls hd (by decide) (lsns_one hx) hnaks rfl] at he
    refine (does_waiting he rfl hu).imp fun u ⟨htaken, hafter, hf⟩ => ⟨htaken, ?_, ?_, hf.mono (by simp) (by simp)⟩
    · exact hafter.part .outbox (by simp)
    · exact counted_frame (counted_sat (sending s unit) ..) hafter (by simp)
  · exact does_nothing (crcVerdict_none hc h)
  · have hal := link_of_due h
    have hfree1 : SlotsFree (judged s a.id) l a.t := hfree
    have he := crcVerdict_bad hc h hw
    rw [verdictBad_nak hr hl hcls h3, hal, nak_free hfree1] at he
    have hj : Frame [.net] [] s (judged s a.id) := frame_net s _
    have hsent := frame_sending_sat (judged s a.id) [.slot l a.t (mkSlot kNak (fieldsOf [(0, m), (2, if lenOk a.c then 0 else 1)]))] .RTE_RETRY_NAKS l
    exact does_of_frame he (hj.append hsent) ⟨rfl, counted_sat (sending (judged s a.id) _) .., rfl, hj.append hsent⟩
  · have he := crcVerdict_bad hc h hw
    rwa [verdictBad_lost hr hl hcls h3, link_of_due h] at he
  · have he := crcVerdict_good hc h hr hl hw
    rwa [if_neg hcls] at he
  · have he := crcVerdict_good hc h hr hl hw
    rwa [if_pos hcls] at he

end Sys2Proof

namespace Sys2Proof

open Machine

/-! # CAP units and steps (O43) -/

section
variable {s : State} {l : Link} (hc : s.coreOn = true)
include hc

/-! ## What each command runs -/

theorem exec_capSend : exec (.capSend l) s = .next (s.keep (
    if s.linkSt l = 5 ∧ ((s.link l).caps = 0 ∨ (s.link l).capAt + 10000 ≤ s.now) ∧ s.safe = false then s.capOut l else s)) := by
  refine (event_on s _ hc).trans ?_
  simp only [Bool.and_eq_true, Bool.or_eq_true, decide_eq_true_eq, Bool.not_eq_true', and_assoc]

theorem exec_capReceive (g : Group) (v : Slot) : exec (.capReceive l g v) s = .next (s.keep (
    if s.linkSt l = 5 then (if trainOk 3 v = true then s.capIn l g v else s.badUnit l) else s)) := by
  show execCapReceive l g v s = _
  rw [execCapReceive, event_on _ _ hc]
  by_cases h : s.linkSt l = 5 <;> cases hv : trainOk 3 v <;> simp [h]

theorem exec_stepStart : exec (.stepStart l) s = .next (s.keep (
    if l.val % 2 = 0 ∧ s.live l = true ∧ s.rf .LNK_RUNG_RUNG l < s.rf .LNK_RUNG_CAP l ∧ (s.link l).active + 1000000 ≤ s.now ∧ s.safe = false
    then s.askStep l (s.rf .LNK_RUNG_RUNG l + 1) else s)) := by
  refine (event_on s _ hc).trans ?_
  simp only [leader, Bool.and_eq_true, beq_iff_eq, decide_eq_true_eq, Bool.not_eq_true', and_assoc]

theorem exec_stepReqReceive (v : Slot) (hl : s.live l = true ∨ s.linkSt l = 7) (hs : s.safe = false) : exec (.stepReqReceive l v) s =
    .next (s.keep (if trainOk 4 v = true then s.stepReq l (slotAt v 2 1) (slotAt v 3 1) else s.badUnit l)) := by
  have hgo : (!(s.live l || s.linkSt l = 7) || s.safe) = false := by rcases hl with h | h <;> simp [h, hs]
  show execStepReqReceive l v s = _
  rw [execStepReqReceive, event_on _ _ hc, hgo]
  cases trainOk 4 v <;> rfl

theorem exec_stepAckReceive_not (v : Slot) (h : s.linkSt l ≠ 7) : exec (.stepAckReceive l v) s = .next (s.keep s) := by
  show execStepAckReceive l v s = _
  rw [execStepAckReceive, event_on _ _ hc]
  simp [h]

theorem exec_stepAckReceive {v : Slot} (h : s.linkSt l = 7) (ha : (s.link l).asked = true) (hn : (s.link l).stepAt = none) (hv : trainOk 5 v = true) :
    exec (.stepAckReceive l v) s = .next (s.keep (
      if slotAt v 2 1 = (s.link l).target then
        (if slotAt v 4 1 = 1 then s.updLink l fun x => { x with stepAt := some (s.now + 1000) } else s.toActive l)
      else s)) := by
  show execStepAckReceive l v s = _
  rw [execStepAckReceive, event_on _ _ hc]
  by_cases ht : slotAt v 2 1 = (s.link l).target <;> simp [h, ha, hn, hv, ht]

theorem exec_rungChange_at {t : Nat} (h : (s.link l).stepAt = some t) : exec (.rungChange l) s =
    .next (s.keep (if s.linkSt l = 7 ∧ t ≤ s.now then s.rungChanged l else s)) := by
  show execRungChange l s = _
  rw [execRungChange, event_on _ _ hc, h]
  simp only [Bool.and_eq_true, decide_eq_true_eq]

theorem exec_rungChange_not (h : s.linkSt l ≠ 7) : exec (.rungChange l) s = .next (s.keep s) := by
  cases ht : (s.link l).stepAt with
  | none =>
    show execRungChange l s = _
    rw [execRungChange, event_on _ _ hc, ht]
  | some t => rw [exec_rungChange_at hc ht, if_neg fun k => h k.1]

end

/-! ## CAPS -/

/-- Training units, one for each group of a list, leave. -/
theorem frame_trainEach (l ty : Nat) (f : Nat → Nat) (gs : List Nat) (s : State) :
    Frame [.outbox] [] s (gs.foldl (fun (s : State) g => s.train l ty (f g)) s) :=
  Frame.foldl gs (fun u g _ => frame_train u l ty (f g)) s

theorem outbox_trainEach (l ty : Nat) (f : Nat → Nat) (gs : List Nat) (s : State) :
    (gs.foldl (fun (s : State) g => s.train l ty (f g)) s).outbox.length = s.outbox.length + gs.length := by
  induction gs generalizing s with
  | nil => rfl
  | cons g gs ih =>
    have hone : (s.train l ty (f g)).outbox.length = s.outbox.length + 1 := List.length_append
    rw [List.foldl_cons, ih, hone, List.length_cons]
    omega

/-- The fields of a CAP unit of group g (Table 8.3, 8.5). -/
def capFields (s : State) (l g : Nat) : Nat :=
  g + 256 * s.rf .LNK_CTL_RUNG_MAX l + 65536 * s.rf .LNK_CTL_FFE_REQ l + 2 ^ 24 * s.fuses.conf.code

/-- A CAP leaves on each kept group. -/
def capsSent (s : State) (l : Nat) : State :=
  (nat4.filter (bitAt (s.link l).keep)).foldl (fun (s' : State) g => s'.train l 3 (capFields s l g)) s

theorem capColumn_eq (s : State) (l : Nat) :
    s.capColumn l = (capsSent s l).updLink l fun x => { x with caps := x.caps + 1, capAt := s.now } := rfl

/-- A column of CAPs is one unit for each kept group, and is noted. -/
theorem capColumn_sent (s : State) (l : Nat) :
    LinkIs s l { s.link l with caps := (s.link l).caps + 1, capAt := s.now } (s.capColumn l)
      ∧ (s.capColumn l).outbox.length = s.outbox.length + (nat4.filter (bitAt (s.link l).keep)).length
      ∧ Frame [.links, .outbox] [] s (s.capColumn l) := by
  have hsent : Frame [.outbox] [] s (capsSent s l) := frame_trainEach l 3 (capFields s l) _ s
  have hk := linkIs_of_links (hsent.part .links (by simp)) l
  have hu := linkIs_updLink (capsSent s l) l fun x => { x with caps := x.caps + 1, capAt := s.now }
  rw [hk.1] at hu
  exact ⟨hk.trans hu, outbox_trainEach l 3 (capFields s l) _ s, (hsent.append (frame_updLink _ l _)).mono (by simp) (by simp)⟩

section
variable {s : State} {l : Nat}

theorem capOut_noted (h : (s.link l).caps = 0 ∨ (s.link l).keep &&& (s.link l).capMask = 0) : s.capOut l = s.capColumn l :=
  if_neg (by rcases h with h | h <;> simp [h])

theorem capOut_settled (h : (s.link l).caps ≠ 0) (hg : (s.link l).keep &&& (s.link l).capMask ≠ 0) :
    s.capOut l = (s.capColumn l).capsDone l ((s.link l).keep &&& (s.link l).capMask) :=
  if_pos (by simp [h, hg])

variable {g : Nat} {v : Slot}

theorem capIn_dropped (h : bitAt (s.link l).keep g = false) : s.capIn l g v = s := if_pos (by rw [h]; rfl)

theorem capIn_crossed (h : bitAt (s.link l).keep g = true) (hv : slotAt v 2 1 ≠ g) :
    s.capIn l g v = (s.setf .LNK_STATE_LAST_FAIL l 5).dropGroup l g 5 := by
  rw [State.capIn, if_neg (by simp [h]), if_pos (by simpa using hv)]

theorem capIn_noted (h : bitAt (s.link l).keep g = true) (hv : slotAt v 2 1 = g) (h0 : (s.link l).caps = 0) :
    s.capIn l g v = s.updLink l fun x =>
      { x with capMask := if bitAt (s.link l).capMask g then (s.link l).capMask else (s.link l).capMask + 2 ^ g,
               capMax := slotAt v 3 1 % 4, ffe := slotAt v 4 1 % 8 } := by
  rw [State.capIn, if_neg (by simp [h]), if_neg (by simp [hv])]
  exact if_neg (by simp [h0])

end

/-! ## Steps -/

section
variable {s : State} {l rung mask : Nat}

/-- A step that does not go one rung down, nor one up within the cap, is refused; so is one up at an end that has itself asked. -/
theorem stepReq_refused (h : ¬ (rung + 1 = s.rf .LNK_RUNG_RUNG l ∨ rung = s.rf .LNK_RUNG_RUNG l + 1 ∧ rung ≤ s.rf .LNK_RUNG_CAP l) ∨
      s.linkSt l = 7 ∧ (s.link l).asked = true ∧ rung + 1 ≠ s.rf .LNK_RUNG_RUNG l) : s.stepReq l rung mask = s.ackStep l rung mask 0 := by
  refine if_pos ?_
  simp only [Bool.or_eq_true, Bool.and_eq_true, beq_iff_eq, decide_eq_true_eq, Bool.not_eq_true', ← Bool.not_eq_true]
  tauto

/-- One that is neither is accepted; it happens 1 us later. -/
theorem stepReq_accepted (h : rung + 1 = s.rf .LNK_RUNG_RUNG l ∨ rung = s.rf .LNK_RUNG_RUNG l + 1 ∧ rung ≤ s.rf .LNK_RUNG_CAP l)
    (hb : s.linkSt l = 7 → (s.link l).stepAt = none ∧ rung + 1 = s.rf .LNK_RUNG_RUNG l) : s.stepReq l rung mask =
      (if s.linkSt l = 6 then (s.ackStep l rung mask 1).leave l 7 else s.ackStep l rung mask 1).updLink l fun x =>
        { x with target := rung, asked := false, stepAt := some (s.now + 1000) } := by
  refine if_neg ?_
  simp only [Bool.or_eq_true, Bool.and_eq_true, beq_iff_eq, decide_eq_true_eq, Bool.not_eq_true', ← Bool.not_eq_true]
  rintro (⟨h7, hs | ⟨-, hup, -⟩⟩ | hn)
  · rw [(hb h7).1] at hs
    cases hs
  · have := (hb h7).2
    omega
  · exact hn h

theorem rungChanged_down (h : (s.link l).target < s.rf .LNK_RUNG_RUNG l) : s.rungChanged l =
    ((s.setf .LNK_RUNG_CAP l (s.link l).target).updLink l fun y => { y with lowCap := (s.link l).target }).quick l (s.link l).target
      (s.rf .LNK_RUNG_GROUPS l) 10 := if_pos h

theorem rungChanged_up (h : s.rf .LNK_RUNG_RUNG l ≤ (s.link l).target) : s.rungChanged l =
    ((s.toLock l (s.link l).target (s.rf .LNK_RUNG_GROUPS l) true).setfs [(.SYN_LINK_DELAY_VALID, l, 0), (.SYN_LINK_OFFSET_VALID, l, 0)]).updLink l
      fun y => { y with prevRung := s.rf .LNK_RUNG_RUNG l, prevGroups := s.rf .LNK_RUNG_GROUPS l, stepAt := none, asked := false } :=
  if_neg (Nat.not_lt.2 h)

end

theorem live_iff {s : State} {l : Nat} : s.live l = true ↔ s.linkSt l = 6 := beq_iff_eq

/-- Settles O43: each command is the branch of its function that the link's state, its record and the unit name. -/
theorem capsAndStepsSettleTheRung : Obligations.CapsAndStepsSettleTheRung := by
  intro s l g v at_ hc x r rung mask down up ack capTime groups
  have hrefuse : exec (.stepReqReceive l v) s = .next (s.keep (s.ackStep l rung mask 0)) → Does (.stepReqReceive l v) s fun t =>
      t.outbox = s.outbox ++ [ack 0] ∧ Frame [.outbox] [] s t := fun h => does_of_frame h (frame_train ..) ⟨rfl, frame_train ..⟩
  have hcap : s.linkSt l = 5 → trainOk 3 v = true → exec (.capReceive l g v) s = .next (s.keep (s.capIn l g v)) := fun h hv => by
    rw [exec_capReceive hc, if_pos h, if_pos hv]
  have hreq : s.live l = true ∨ s.linkSt l = 7 → s.safe = false → trainOk 4 v = true →
      exec (.stepReqReceive l v) s = .next (s.keep (s.stepReq l rung mask)) := fun hl hs hv => by
    rw [exec_stepReqReceive hc v hl hs, if_pos hv]
  refine ⟨fun hg hn => ?_, fun hg h0 hm => ?_, fun hn => ?_, fun h => ?_, fun h hv => ?_,
    fun h hv => ⟨fun hk => ?_, fun hk hr => ?_, fun hk hr h0 => ?_⟩, fun hl ha hr ht hs => ?_, fun h => ?_, fun hl hs hv => ?_,
    fun hl hs hv => ⟨fun hn => ?_, fun hd => ?_⟩, fun h7 hs ha hn hv => ⟨fun hd => ?_, fun hd => ?_⟩,
    fun h7 ha hn hv => ⟨fun hr => ?_, fun hr hok => ?_, fun hr hok => ?_⟩, fun h => ⟨?_, ?_⟩, fun h7 ht hd => ⟨fun hlt => ?_, fun hle => ?_⟩,
    fun ht hd => ?_⟩
  · have hx := exec_capSend (l := l) hc
    rw [if_pos hg, capOut_noted hn] at hx
    obtain ⟨hlink, hout, hf⟩ := capColumn_sent s l
    exact does_of_frame hx hf ⟨hlink, hout, hf⟩
  · rw [exec_capSend hc, if_pos hg, capOut_settled h0 hm]
  · exact does_nothing ((exec_capSend hc).trans (by rw [if_neg hn]))
  · exact does_nothing ((exec_capReceive hc g v).trans (by rw [if_neg h]))
  · rw [exec_capReceive hc, if_pos h, if_neg (Bool.eq_false_iff.1 hv)]
  · exact does_nothing ((hcap h hv).trans (by rw [capIn_dropped hk]))
  · rw [hcap h hv, capIn_crossed hk hr]
  · have hx := hcap h hv
    rw [capIn_noted hk hr h0] at hx
    exact does_of_frame hx (frame_updLink ..) ⟨linkIs_updLink .., frame_updLink ..⟩
  · rw [exec_stepStart hc, if_pos ⟨hl, ha, hr, ht, hs⟩]
  · refine does_nothing ((exec_stepStart hc).trans (congrArg (fun t => Host.Outcome.next (s.keep t)) (if_neg ?_)))
    rintro ⟨h1, h2, h3, h4, h5⟩
    rcases h with h | h | h | h | h
    · omega
    · exact Bool.noConfusion (h.symm.trans h2)
    · exact Nat.not_lt.2 h h3
    · exact Nat.not_le.2 h h4
    · exact Bool.noConfusion (h.symm.trans h5)
  · rw [exec_stepReqReceive hc v (.inl hl) hs, if_neg (Bool.eq_false_iff.1 hv)]
  · exact hrefuse ((hreq (.inl hl) hs hv).trans (by rw [stepReq_refused (.inl hn)]))
  · have h6 := live_iff.1 hl
    rw [hreq (.inl hl) hs hv, stepReq_accepted hd (fun h7 => absurd (h6.symm.trans h7) (by decide)), if_pos h6]
    rfl
  · have hx := hreq (.inr h7) hs hv
    rw [stepReq_accepted (.inl hd) (fun _ => ⟨hn, hd⟩), if_neg (by rw [h7]; decide)] at hx
    have hf := ((frame_train s l 5 (rung + 256 * mask + 65536 * 1)).append (frame_updLink _ l fun x =>
      { x with target := rung, asked := false, stepAt := some (s.now + 1000) })).mono (qs := [.links, .outbox]) (gs := []) (by simp) (by simp)
    exact does_of_frame hx hf ⟨linkIs_updLink (s.ackStep l rung mask 1) .., rfl, hf⟩
  · exact hrefuse ((hreq (.inr h7) hs hv).trans (by rw [stepReq_refused (.inr ⟨h7, ha, hd⟩)]))
  · exact does_nothing ((exec_stepAckReceive hc h7 ha hn hv).trans (by rw [if_neg hr]))
  · have hx := exec_stepAckReceive hc h7 ha hn hv
    rw [if_pos hr, if_pos hok] at hx
    exact does_of_frame hx (frame_updLink ..) ⟨linkIs_updLink .., frame_updLink ..⟩
  · rw [exec_stepAckReceive hc h7 ha hn hv, if_pos hr, if_neg hok]
  · exact does_nothing (exec_stepAckReceive_not hc v h)
  · exact does_nothing (exec_rungChange_not hc h)
  · rw [exec_rungChange_at hc ht, if_pos ⟨h7, hd⟩, rungChanged_down hlt]
  · rw [exec_rungChange_at hc ht, if_pos ⟨h7, hd⟩, rungChanged_up hle]
  · exact does_nothing ((exec_rungChange_at hc ht).trans (by rw [if_neg fun k => Nat.not_le.2 hd k.2]))

end Sys2Proof

namespace Sys2Proof

open Machine

/-! # Fibres, rings and gains (O45) -/

/-! ## Lasers and group records (R222, Table 8.5) -/

theorem bitAt_putBit {n g : Nat} (hn : n < 16) (hg : g < 4) (b : Bool) : bitAt (putBit n g b % 16) g = b := by
  have h : ∀ n < 16, ∀ g < 4, ∀ b, bitAt (putBit n g b % 16) g = b := by decide
  exact h n hn g hg b

theorem frame_laser (s : State) (l g : Nat) (b : Bool) : Frame [.outbox] [(.LNK_FIBRE_LASER_ON, l)] s (s.laser l g b) := by
  unfold State.laser
  split
  · exact Frame.refl ..
  · exact (frame_setf s .LNK_FIBRE_LASER_ON l _).append (frame_outbox _ _)

theorem laserAt_laser {s : State} {l g : Nat} (b : Bool) (hg : g < 4) (h : s.rf .LNK_FIBRE_LASER_ON l < 16) : (s.laser l g b).laserAt l g = b := by
  unfold State.laser
  split
  · assumption
  · exact (congrArg (bitAt · g) (State.rf_setf_same s .LNK_FIBRE_LASER_ON l _)).trans (bitAt_putBit h hg b)

/-- Of the groups' records only that of group g of link l has changed: it is y. -/
def GroupIs (s : State) (l g : Nat) (y : GroupRec) (t : State) : Prop :=
  t.group l g = y ∧ (∀ h, h ≠ g → t.group l h = s.group l h) ∧ ∀ j, j ≠ l → t.link j = s.link j

theorem frame_setGroup (s : State) (l g : Nat) (y : GroupRec) : Frame [.links] [] s (s.setGroup l g y) := frame_links s _

theorem groupIs_setGroup (s : State) (l g : Nat) (y : GroupRec) : GroupIs s l g y (s.setGroup l g y) := by
  obtain ⟨hlink, hother⟩ := linkIs_setLink s l { s.link l with groups := sset (fun _ => {}) (s.link l).groups g y }
  have hgroups : ((s.setGroup l g y).link l).groups = sset (fun _ => {}) (s.link l).groups g y := congrArg LinkRec.groups hlink
  refine ⟨?_, fun h hh => ?_, hother⟩
  · rw [State.group, hgroups]
    exact sget_sset_same ..
  · rw [State.group, hgroups]
    exact sget_sset_other _ _ _ _ _ _ hh

/-- A later change that leaves the links alone. -/
theorem GroupIs.frame {s t u : State} {l g : Nat} {y : GroupRec} {ps : List Part} {fs : List (Fld × Nat)} (h : GroupIs s l g y t)
    (k : Frame ps fs t u) (hn : .links ∉ ps) : GroupIs s l g y u := by
  have hl : ∀ j, u.link j = t.link j := fun j => by rw [State.link, show u.links = t.links from k.part .links hn, State.link]
  obtain ⟨h1, h2, h3⟩ := h
  simp only [State.group] at h1 h2
  exact ⟨by rw [State.group, hl, h1], fun i hi => by rw [State.group, hl, h2 i hi, State.group], fun j hj => (hl j).trans (h3 j hj)⟩

/-- A group's record changes, and its laser is turned on or off. -/
theorem groupLaser (s : State) (l : Nat) (g : Group) (y : GroupRec) (b : Bool) :
    let t := (s.setGroup l g y).laser l g b
    GroupIs s l g y t ∧ (s.rf .LNK_FIBRE_LASER_ON l < 16 → t.laserAt l g = b) ∧ Frame [.links, .outbox] [(.LNK_FIBRE_LASER_ON, l)] s t := by
  have hg := frame_setGroup s l g y
  have hl := frame_laser (s.setGroup l g y) l g b
  exact ⟨(groupIs_setGroup s l g y).frame hl (by simp), fun h => laserAt_laser b g.isLt (by rwa [hg.rf List.not_mem_nil]),
    (hg.append hl).mono (by simp) (by simp)⟩

/-! ## What each command runs -/

section
variable (s : State) (l : Link) (g : Group)

theorem exec_lightOn : exec (.lightOn l g) s = .next (s.keep (if s.coreOn then
    (((s.setPresent l g true).rise l g).openFibre l g).darkToLock l else s.setPresent l g true)) := rfl

theorem exec_lightLoss : exec (.lightLoss l g) s = .next (s.keep (if s.coreOn && s.lightAt l g then
    (s.setPresent l g false).lightGone l g else s.setPresent l g false)) := rfl

theorem frame_setPresent (l g : Nat) (b : Bool) : Frame [] [(.AON_LIGHT_PRESENT, 0)] s (s.setPresent l g b) := frame_setf ..

theorem rf_setPresent (l g : Nat) (b : Bool) :
    (s.setPresent l g b).rf .AON_LIGHT_PRESENT = putBit (s.rf .AON_LIGHT_PRESENT) (4 * l + g) b % 2 ^ fwidth .AON_LIGHT_PRESENT :=
  State.rf_setf_same s .AON_LIGHT_PRESENT 0 _

variable {s l g} (hc : s.coreOn = true)
include hc

theorem exec_probePulse : exec (.probePulse l g) s = .next (s.keep (
    if s.accessible l g = true ∧ s.laserAllowed l g = true ∧ ((s.group l g).st = .off ∨ (s.group l g).st = .probe) ∧ (s.group l g).t + 100000000 ≤ s.now
    then (s.setGroup l g { s.group l g with st := .probe, t := s.now }).laser l g true else s)) := by
  show execProbePulse l g s = _
  rw [execProbePulse, event_on _ _ hc]
  simp only [State.pulse, Bool.and_eq_true, Bool.or_eq_true, beq_iff_eq, decide_eq_true_eq, and_assoc]

theorem exec_probePulseEnd : exec (.probePulseEnd l g) s = .next (s.keep (
    if (s.group l g).st = .probe ∧ (s.group l g).t + 1500000 ≤ s.now then s.laser l g false else s)) := by
  show execProbePulseEnd l g s = _
  rw [execProbePulseEnd, event_on _ _ hc]
  simp only [Bool.and_eq_true, beq_iff_eq, decide_eq_true_eq]

theorem exec_litWaitExpiry : exec (.litWaitExpiry l g) s = .next (s.keep (
    if (s.group l g).st = .litWait ∧ (s.group l g).t + 2000000 ≤ s.now then
      (if s.lightAt l g = true then s.setGroup l g { s.group l g with st := .lit }
       else (s.setGroup l g { s.group l g with st := .off, t := s.now }).laser l g false)
    else s)) := by
  show execLitWaitExpiry l g s = _
  rw [execLitWaitExpiry, event_on _ _ hc]
  simp only [Bool.and_eq_true, beq_iff_eq, decide_eq_true_eq]

theorem exec_laserFault : exec (.laserFault l g) s = .next (s.keep (if s.faultAt l g = true then s else s.laserFaulted l g)) := by
  show execLaserFault l g s = _
  rw [execLaserFault, event_on _ _ hc]

/-- The groups that have had light for 1 ms and that a bring-up from REAIM may admit (R227, R233). -/
def aimedMask (s : State) (l : Nat) : Nat :=
  maskOf fun g => s.lightAt l g && bitAt (s.link l).aim g && decide ((s.group l g).lightT + 1000000 ≤ s.now)

theorem exec_reaimLight : exec (.reaimLight l) s = .next (s.keep (
    if s.linkSt l = 10 ∧ aimedMask s l ≠ 0 ∧ s.safe = false then s.toLock l 0 (aimedMask s l) false else s)) := by
  show execReaimLight l s = _
  rw [execReaimLight, event_on _ _ hc]
  simp only [Bool.and_eq_true, bne_iff_ne, decide_eq_true_eq, Bool.not_eq_true', and_assoc]
  rfl

theorem exec_reaimTimeout : exec (.reaimTimeout l) s = .next (s.keep (
    if s.linkSt l = 10 ∧ (s.link l).t + 50000000 ≤ s.now then (s.failDark l 11).fault 12 (.link l) else s)) := by
  show execReaimTimeout l s = _
  rw [execReaimTimeout, event_on _ _ hc]
  simp only [Bool.and_eq_true, decide_eq_true_eq]

theorem exec_bridleService (ring : Fin 128) (v : BitVec 10) : exec (.bridleService l ring v) s = .next (s.keep (
    if s.linkSt l ≠ 0 ∧ s.rf .PWR_STATE_CUR ≠ 3 then s.bridle l ring v.toNat else s)) := by
  show execBridleService l ring v s = _
  rw [execBridleService, event_on _ _ hc]
  simp only [Bool.and_eq_true, bne_iff_ne]

/-- Lane k's pending range is set, and is no longer pending. -/
def gainApplied (s : State) (l k p : Nat) : State :=
  (s.setGain l k (p - 1)).updLink l fun x => { x with gains := sset (fun _ => 0) x.gains k 0 }

theorem exec_gainChangeApply (k : Fin 64) (receiving : Bool) : exec (.gainChangeApply l k receiving) s = .next (s.keep (
    if sget (fun _ => 0) (s.link l).gains k = 0 ∨ (s.live l = true ∧ (receiving = true ∨ s.inGuard = false ∨ s.stage64 < s.inStage64 + 3840)) then s
    else gainApplied s l k (sget (fun _ => 0) (s.link l).gains k))) := by
  show execGainChangeApply l k s receiving = _
  rw [execGainChangeApply, event_on _ _ hc]
  simp only [Bool.or_eq_true, Bool.and_eq_true, decide_eq_true_eq, Bool.not_eq_true', or_assoc]
  rfl

end

/-! ## One service of a ring (R236, R239) -/

section
variable {s : State} {l k v : Nat}

theorem bridle_off (h : s.rf .LNK_RING_STATE (ringIx l k) = 0) :
    s.bridle l k v = (s.sweep l k 0).emit (.heater l k ((s.sweep l k 0).heater l k)) := by
  rw [State.bridle, h]
  rfl

theorem bridle_failed (h : s.rf .LNK_RING_STATE (ringIx l k) = 3) : s.bridle l k v = s := by
  rw [State.bridle, h]
  rfl

/-- A service of a ring that sweeps or is locked: its code goes out, its sample is served; of a filter ring the lane's DFE adapts, and with the
ring locked the sample is a level of the lane (R217, R234). -/
theorem bridle_serves {st : Nat} (h : s.rf .LNK_RING_STATE (ringIx l k) = st) (h0 : st ≠ 0) (h3 : st ≠ 3) : s.bridle l k v =
    let out := s.emit (.heater l k (s.written l k))
    let served := if (s.ring l k).phase = 0 then out.sweepServe l k v else out.trackServe l k v
    let adapted := if 64 ≤ k then served.dfeServe l (k - 64) else served
    if 64 ≤ k && st = 2 then adapted.gainServe l (k - 64) v else adapted := by
  rw [State.bridle, h]
  split
  · exact absurd rfl h0
  · exact absurd rfl h3
  · rfl

end

/-! ## Gain ranges (R217, R234, R235) -/

/-- A base-4 digit below place b + 1 is one of the number's remainder there. -/
theorem digit4_mod (x : Nat) {b m : Nat} (h : b < m) : x % 4 ^ m / 4 ^ b % 4 = x / 4 ^ b % 4 := by
  obtain ⟨c, rfl⟩ : ∃ c, m = b + (1 + c) := ⟨m - b - 1, by omega⟩
  rw [Nat.pow_add 4 b, Nat.mod_mul_right_div_self, Nat.pow_add, Nat.mod_mod_of_dvd _ (Dvd.intro _ rfl)]

/-- A number whose base-4 digit a is replaced by r: what stands above and below digit a stays. -/
theorem digit4_split (v a r : Nat) :
    let w := v - v / 4 ^ a % 4 * 4 ^ a + r * 4 ^ a
    w / 4 ^ a = 4 * (v / 4 ^ a / 4) + r ∧ w % 4 ^ a = v % 4 ^ a := by
  intro w
  have ho : 0 < 4 ^ a := Nat.pow_pos (by decide)
  have hd : v / 4 ^ a % 4 ≤ v / 4 ^ a := Nat.mod_le ..
  have hw : w = v % 4 ^ a + 4 ^ a * (4 * (v / 4 ^ a / 4) + r) := by
    have hv : v = v % 4 ^ a + 4 ^ a * (4 * (v / 4 ^ a / 4)) + v / 4 ^ a % 4 * 4 ^ a := by
      calc v = v % 4 ^ a + 4 ^ a * (v / 4 ^ a) := (Nat.mod_add_div v _).symm
        _ = v % 4 ^ a + 4 ^ a * (4 * (v / 4 ^ a / 4) + v / 4 ^ a % 4) := by rw [Nat.div_add_mod]
        _ = _ := by ring
    rw [Nat.mul_add, Nat.mul_comm _ r]
    omega
  rw [hw]
  exact ⟨by rw [Nat.add_mul_div_left _ _ ho, Nat.div_eq_of_lt (Nat.mod_lt _ ho), Nat.zero_add],
    by rw [Nat.add_mul_mod_self_left, Nat.mod_mod]⟩

/-- The base-4 digits of a number whose digit a is replaced by r. -/
theorem digit4_replace (v : Nat) {a r : Nat} (b : Nat) (hr : r < 4) :
    (v - v / 4 ^ a % 4 * 4 ^ a + r * 4 ^ a) / 4 ^ b % 4 = if b = a then r else v / 4 ^ b % 4 := by
  obtain ⟨hdiv, hmod⟩ := digit4_split v a r
  rcases Nat.lt_trichotomy b a with h | rfl | h
  · rw [if_neg (by omega), ← digit4_mod _ h, hmod, digit4_mod v h]
  · rw [if_pos rfl, hdiv]
    omega
  · obtain ⟨c, rfl⟩ : ∃ c, b = a + (1 + c) := ⟨b - a - 1, by omega⟩
    have hq : (4 * (v / 4 ^ a / 4) + r) / 4 = v / 4 ^ a / 4 := by omega
    rw [if_neg (by omega), Nat.pow_add, ← Nat.div_div_eq_div_mul, ← Nat.div_div_eq_div_mul, hdiv, Nat.pow_add, ← Nat.div_div_eq_div_mul,
      ← Nat.div_div_eq_div_mul, Nat.pow_one, hq]

section
variable (s : State) (l k : Nat)

/-- The new value of GAIN_RANGES: the digit of lane k is r. -/
theorem rf_setGain (r : Nat) : (s.setGain l k r).rf .LNK_GAIN_RANGES (2 * l + k / 32) =
    (s.rf .LNK_GAIN_RANGES (2 * l + k / 32) - s.gain l k * 4 ^ (k % 32) + r * 4 ^ (k % 32)) % 4 ^ 32 :=
  State.rf_setf_same s .LNK_GAIN_RANGES (2 * l + k / 32) _

theorem frame_setGain (r : Nat) : Frame [.links] [(.LNK_GAIN_RANGES, 2 * l + k / 32)] s (s.setGain l k r) :=
  (frame_setf s .LNK_GAIN_RANGES (2 * l + k / 32) _).append (frame_updLink _ l _)

theorem gain_setGain (j : Nat) {r : Nat} (hr : r < 4) : (s.setGain l k r).gain l j = if j = k then r else s.gain l j := by
  by_cases hj : j / 32 = k / 32
  · have hjk : j % 32 = k % 32 ↔ j = k := by omega
    rw [State.gain, hj, rf_setGain, digit4_mod _ (Nat.mod_lt j (by decide)), State.gain, digit4_replace _ _ hr, State.gain, hj]
    simp only [hjk]
  · rw [if_neg (by rintro rfl; exact hj rfl), State.gain, (frame_setGain s l k r).rf (by simpa using hj), State.gain]

/-- The DFE record of lane k from now on holds for 256 columns (R217). -/
def dfeHeld (s : State) (l k : Nat) : DfeRec := { s.dfe l k with hold := s.t64 + 256 * colTime (s.rf .LNK_RUNG_RUNG l) }

theorem linkIs_setGain (r : Nat) : LinkIs s l { s.link l with dfe := sset (fun _ => {}) (s.link l).dfe k (dfeHeld s l k) } (s.setGain l k r) :=
  linkIs_updLink (s.setf ..) l fun x => { x with dfe := sset (fun _ => {}) x.dfe k (dfeHeld s l k) }

theorem linkIs_gainApplied (p : Nat) : LinkIs s l { s.link l with
    dfe := sset (fun _ => {}) (s.link l).dfe k (dfeHeld s l k), gains := sset (fun _ => 0) (s.link l).gains k 0 } (gainApplied s l k p) := by
  have hset := linkIs_setGain s l k (p - 1)
  have hupd := linkIs_updLink (s.setGain l k (p - 1)) l fun x => { x with gains := sset (fun _ => 0) x.gains k 0 }
  rw [hset.1] at hupd
  exact hset.trans hupd

theorem frame_gainApplied (p : Nat) : Frame [.links] [(.LNK_GAIN_RANGES, 2 * l + k / 32)] s (gainApplied s l k p) :=
  ((frame_setGain s l k (p - 1)).append (frame_updLink _ l _)).mono (by simp) (by simp)

theorem gain_gainApplied (j : Nat) {p : Nat} (h0 : 0 < p) (h4 : p ≤ 4) : (gainApplied s l k p).gain l j = if j = k then p - 1 else s.gain l j := by
  rw [← gain_setGain s l k j (by omega : p - 1 < 4), State.gain, State.gain]
  exact congrArg (fun v => v / 4 ^ (j % 32) % 4) ((frame_updLink (s.setGain l k (p - 1)) l _).rf List.not_mem_nil)

/-- The lane's DFE is the one held, and no range is pending. -/
theorem gainApplied_lane (p : Nat) : (gainApplied s l k p).dfe l k = dfeHeld s l k ∧ sget (fun _ => 0) ((gainApplied s l k p).link l).gains k = 0 := by
  rw [State.dfe, (linkIs_gainApplied s l k p).1]
  exact ⟨sget_sset_same .., sget_sset_same ..⟩

end

/-- Settles O45: each command is the branch of its function that the hypotheses name. -/
theorem lightRunsFibresRingsAndGains : Obligations.LightRunsFibresRingsAndGains := by
  intro s l g k ring sample receiving x gs on off s1 m mayPulse p i serves fibre dfe out apply waits
  have hpresent : ∀ {c : Instr} {b : Bool}, exec c s = .next (s.keep (s.setPresent l g b)) → Does c s fun t =>
      t.rf .AON_LIGHT_PRESENT = putBit (s.rf .AON_LIGHT_PRESENT) (4 * l.val + g.val) b % 2 ^ fwidth .AON_LIGHT_PRESENT
        ∧ Frame [] [(.AON_LIGHT_PRESENT, 0)] s t := fun h =>
    does_of_frame h (frame_setPresent ..) ⟨rf_setPresent .., frame_setPresent ..⟩
  have hbridle : s.coreOn = true → serves → exec (.bridleService l ring sample) s = .next (s.keep (s.bridle l ring sample.toNat)) := fun hc h => by
    rw [exec_bridleService hc, if_pos h]
  refine ⟨fun hc => ⟨hpresent ?_, hpresent ?_⟩, fun hc hl => hpresent ?_, fun hc => ⟨?_, fun hl => ?_⟩, fun hc hp => ?_, fun hc hp => ?_,
    fun hc hst ht => ?_, fun hc hst => ?_, fun hc hst ht => ⟨fun hl => ?_, fun hl => ?_⟩, fun hc h => ?_, fun hc hf => ?_, fun hc hf => ?_,
    fun hc hst hm hs => ?_, fun hc hst => ⟨?_, ?_⟩, fun hc hst ht => ?_, fun hc h => ?_, fun hc hs h => ?_, fun hc hs h => ?_, fun hc hs h hp => ?_,
    fun hc h0 h4 hw => ?_, fun hc h => ?_⟩
  · rw [exec_lightOn, if_neg (Bool.eq_false_iff.1 hc)]
  · rw [exec_lightLoss, hc]
    rfl
  · rw [exec_lightLoss, hl, Bool.and_false]
    rfl
  · rw [exec_lightOn, if_pos hc]
  · rw [exec_lightLoss, hc, hl]
    rfl
  · have hx := exec_probePulse (l := l) (g := g) hc
    rw [if_pos hp] at hx
    obtain ⟨hgroup, hlaser, hf⟩ := groupLaser s l g { s.group l g with st := .probe, t := s.now } true
    exact does_of_frame hx hf ⟨hgroup, hlaser, hf⟩
  · exact does_nothing ((exec_probePulse hc).trans (by rw [if_neg hp]))
  · have hx := exec_probePulseEnd (l := l) (g := g) hc
    rw [if_pos ⟨hst, ht⟩] at hx
    exact does_of_frame hx (frame_laser ..) ⟨laserAt_laser false g.isLt, frame_laser ..⟩
  · exact does_nothing ((exec_probePulseEnd hc).trans (by rw [if_neg fun h => hst h.1]))
  · have hx := exec_litWaitExpiry (l := l) (g := g) hc
    rw [if_pos ⟨hst, ht⟩, if_pos hl] at hx
    exact does_of_frame hx (frame_setGroup ..) ⟨groupIs_setGroup .., frame_setGroup ..⟩
  · have hx := exec_litWaitExpiry (l := l) (g := g) hc
    rw [if_pos ⟨hst, ht⟩, if_neg (Bool.eq_false_iff.1 hl)] at hx
    obtain ⟨hgroup, hlaser, hf⟩ := groupLaser s l g { s.group l g with st := .off, t := s.now } false
    exact does_of_frame hx hf ⟨hgroup, hlaser, hf⟩
  · exact does_nothing ((exec_litWaitExpiry hc).trans (by rw [if_neg fun k => h.elim (fun hn => hn k.1) (Nat.not_lt.2 k.2)]))
  · exact does_nothing ((exec_laserFault hc).trans (by rw [if_pos hf]))
  · rw [exec_laserFault hc, if_neg (Bool.eq_false_iff.1 hf)]
  · exact (exec_reaimLight hc).trans (by rw [if_pos ⟨hst, hm, hs⟩]; rfl)
  · exact does_nothing ((exec_reaimLight hc).trans (by rw [if_neg fun h => hst h.1]))
  · exact does_nothing ((exec_reaimTimeout hc).trans (by rw [if_neg fun h => hst h.1]))
  · rw [exec_reaimTimeout hc, if_pos ⟨hst, ht⟩]
  · refine does_nothing ((exec_bridleService hc ring sample).trans ?_)
    split
    · next hs => rw [bridle_failed (h.resolve_left (not_not.2 hs))]
    · rfl
  · rw [hbridle hc hs, bridle_off h]
  · rw [hbridle hc hs, bridle_serves h (by decide) (by decide)]
    simp only [Nat.reduceEqDiff, decide_false, Bool.and_false, Bool.false_eq_true, if_false]
    rfl
  · rw [hbridle hc hs, bridle_serves h (by decide) (by decide)]
    by_cases hk : 64 ≤ ring.val <;> simp [dfe, out, hp, hk]
  · have hx := exec_gainChangeApply (l := l) hc k receiving
    rw [if_neg fun h => h.elim (Nat.ne_of_gt h0) hw] at hx
    obtain ⟨hdfe, hpending⟩ := gainApplied_lane s l k p
    have hgain := fun j => gain_gainApplied s l k j h0 h4
    exact does_of_frame hx (frame_gainApplied ..) ⟨hdfe, (hgain k).trans (if_pos rfl), fun j _ hj => (hgain j).trans (if_neg hj), hpending,
      (linkIs_gainApplied s l k p).2, frame_gainApplied ..⟩
  · exact does_nothing ((exec_gainChangeApply hc k receiving).trans (by rw [if_pos h]))

end Sys2Proof

namespace Sys2Proof

open Machine

/-! # PRBS checkers (O44) -/

theorem exec_prbsSync {s : State} {l : Link} {k : Fin 64} {bits : List Bool} (hc : s.coreOn = true)
    (h : (prbsSt (s.linkSt l) && s.prbsPattern l (s.linkSt l) != 0) = true) :
    exec (.prbsSync l k bits) s = .next (s.keep (s.prbsBits l k bits)) := by
  show execPrbsSync l k s bits = _
  rw [execPrbsSync, event_on _ _ hc, if_pos h]

/-- In test mode bits received on a lane leave its counter of errors within its field, whatever it was: it saturates (R218). -/
theorem prbsBits_err_le {s : State} {l : Nat} (k : Nat) (bits : List Bool) (h : s.linkSt l = 11) :
    (s.prbsBits l k bits).rf .LNK_LANE_PRBS_ERR (64 * l + k) ≤ 2 ^ 32 - 1 := by
  let r := (sget (fun _ => ({} : PrbsRec)) (s.link l).prbs k).takeAll (s.prbsPattern l (s.linkSt l)) bits
  have hsat : (s.prbsBits l k bits).rf .LNK_LANE_PRBS_ERR (64 * l + k) = _ :=
    (congrArg (fun t => State.rf t _ _) (if_pos h)).trans (rf_sat _ .LNK_LANE_PRBS_ERR (64 * l + k) r.2)
  rw [hsat]
  exact Nat.min_le_right ..

/-- Link 0 in test mode with PRBS7; the checker of lane 0 has seen 63 bits without error, and the lane's counter of errors reads 2^32, one more than
its field of 32 bits holds. -/
def overfullLane : State :=
  let s := (State.reset.setf .LNK_STATE_STATE 0 11).setf .LNK_PRBS_CTL_PATTERN 0 1
  { s with
    regs := sset (fun _ => 0) s.regs (fkey .LNK_LANE_PRBS_ERR 0) (2 ^ 32)
    links := [(0, { prbs := [(0, { reg := List.replicate 7 false, run := 63 })] })] }

theorem overfullLane_err : overfullLane.rf .LNK_LANE_PRBS_ERR 0 = 2 ^ 32 := rfl

theorem overfullLane_on : overfullLane.coreOn = true := rfl

theorem overfullLane_tests : overfullLane.linkSt 0 = 11 ∧ overfullLane.rf .LNK_PRBS_CTL_PATTERN 0 = 1 := ⟨rfl, rfl⟩

theorem overfullLane_pattern : overfullLane.prbsPattern 0 (overfullLane.linkSt 0) = 1 := rfl

theorem overfullLane_checker : sget (fun _ => ({} : PrbsRec)) (overfullLane.link 0).prbs 0 = { reg := List.replicate 7 false, run := 63 } := rfl

/-- Refutes O44: in test mode the bit that synchronises a lane's checker also adds 0 to LNK_LANE.PRBS_ERR, a saturating counter, which brings a value
beyond the field's 32 bits down to 2^32 - 1, where the clause on the 64th bit lets no field but PRBS_SYNC change. No write of a field makes such a
value; the statement speaks of every state. -/
theorem not_patternsErrorsAndTimeoutsDecideTheLink : ¬ Obligations.PatternsErrorsAndTimeoutsDecideTheLink := by
  intro h
  let bit := prbsNext 1 (List.replicate 7 false)
  obtain ⟨hst, hpat⟩ := overfullLane_tests
  have hsel : (prbsSt (overfullLane.linkSt 0) && overfullLane.prbsPattern 0 (overfullLane.linkSt 0) != 0) = true := by
    rw [overfullLane_pattern, hst]
    rfl
  obtain ⟨-, -, -, -, -, -, -, -, hsynced, -⟩ := h overfullLane 0 0 0 0 [] bit [] [] 0 0 overfullLane_on
  obtain ⟨t, he, -, hf⟩ := hsynced (.inl ⟨hst, hpat.trans_ne Nat.one_ne_zero⟩) (congrArg PrbsRec.run overfullLane_checker)
    ((congrArg (fun x => x.reg.length) overfullLane_checker).trans (congrArg (fun p => (prbsTaps p).1) overfullLane_pattern).symm)
    (congrArg₂ (fun p x => prbsNext p x.reg) overfullLane_pattern overfullLane_checker).symm
  have hx := exec_prbsSync (l := 0) (k := 0) (bits := [bit]) overfullLane_on hsel
  have ht : overfullLane.keep (overfullLane.prbsBits 0 0 [bit]) = t := Host.Outcome.next.inj (hx.symm.trans he)
  have hle : t.rf .LNK_LANE_PRBS_ERR 0 ≤ 2 ^ 32 - 1 := ht ▸ prbsBits_err_le 0 [bit] hst
  have hsame : t.rf .LNK_LANE_PRBS_ERR 0 = overfullLane.rf .LNK_LANE_PRBS_ERR 0 := hf.rf (by simp)
  rw [hsame, overfullLane_err] at hle
  omega

end Sys2Proof

namespace Sys2Proof

open Machine

/-! # A link leaves its state (O13) -/

/-! ## What leaving leaves alone -/

/-- The fields that decide the time and whether a fault asks for the safe state. -/
def reactKept : List Fld := [.AON_MTC_MTC_NS, .FLT_REACT0_REACT, .FLT_REACT1_REACT]

/-- From s to t at most the parts listed and the states of the links listed have changed, and of the register fields none of `reactKept`; no time
has passed. -/
structure Aside (ps : List Part) (ls : List Nat) (s t : State) : Prop where
  queue : t.pending = s.pending
  fuses : t.fuses = s.fuses
  parts : AllBut ps s t
  now : t.now = s.now
  fields : ∀ f ∈ reactKept, ∀ i, t.rf f i = s.rf f i
  states : ∀ k, k ∉ ls → t.linkSt k = s.linkSt k

namespace Aside

variable {ps : List Part} {ls : List Nat} {s t u : State}

theorem refl (ps : List Part) (ls : List Nat) (s : State) : Aside ps ls s s := ⟨rfl, rfl, .refl ps s, rfl, fun _ _ _ => rfl, fun _ _ => rfl⟩

theorem trans (h : Aside ps ls s t) (k : Aside ps ls t u) : Aside ps ls s u :=
  ⟨k.queue.trans h.queue, k.fuses.trans h.fuses, h.parts.trans k.parts, k.now.trans h.now, fun f hf i => (k.fields f hf i).trans (h.fields f hf i),
    fun j hj => (k.states j hj).trans (h.states j hj)⟩

theorem mono {qs : List Part} {ms : List Nat} (h : Aside ps ls s t) (hp : ps ⊆ qs) (hl : ls ⊆ ms) : Aside qs ms s t :=
  ⟨h.queue, h.fuses, h.parts.mono hp, h.now, h.fields, fun k hk => h.states k fun hm => hk (hl hm)⟩

theorem ite {c : Prop} [Decidable c] (h : Aside ps ls s t) (k : Aside ps ls s u) : Aside ps ls s (if c then t else u) := by
  split
  · exact h
  · exact k

theorem foldl {α : Type} {f : State → α → State} (l : List α) (h : ∀ u, ∀ x ∈ l, Aside ps ls u (f u x)) (s : State) : Aside ps ls s (l.foldl f s) := by
  induction l generalizing s with
  | nil => exact .refl ps ls s
  | cons x l ih => exact (h s x (List.mem_cons_self ..)).trans (ih (fun u y hy => h u y (List.mem_cons_of_mem _ hy)) _)

theorem part (h : Aside ps ls s t) (p : Part) (hp : p ∉ ps) : p.Same s t := h.parts p hp

theorem reaction (h : Aside ps ls s t) (b : Nat) : t.reaction b = s.reaction b := by
  simp only [State.reaction, h.fields _ (by decide : Fld.FLT_REACT0_REACT ∈ reactKept), h.fields _ (by decide : Fld.FLT_REACT1_REACT ∈ reactKept)]

end Aside

/-- A change of parts other than the clock's, and of fields that neither decide the time nor a reaction nor show another link's state. -/
theorem Frame.aside {ps qs : List Part} {gs : List (Fld × Nat)} {ls : List Nat} {s t : State} (h : Frame qs gs s t) (hq : qs ⊆ ps)
    (hg : ∀ x ∈ gs, x.1 ∉ reactKept ∧ (x.1 = .LNK_STATE_STATE → x.2 ∈ ls)) (hc : .time ∉ qs ∧ .power ∉ qs) : Aside ps ls s t where
  queue := h.1
  fuses := h.2.1
  parts := h.allBut hq
  now := h.now (fun hm => (hg _ hm).1 (by decide)) hc.1 hc.2
  fields := fun _ hf _ => h.rf fun hm => (hg _ hm).1 hf
  states := fun _ hk => h.rf fun hm => hk ((hg _ hm).2 rfl)

theorem aside_setf (ps : List Part) (ls : List Nat) (s : State) {f : Fld} (i v : Nat) (hf : f ∉ .LNK_STATE_STATE :: reactKept) :
    Aside ps ls s (s.setf f i v) := by
  rw [List.mem_cons, not_or] at hf
  exact (frame_setf s f i v).aside (by simp) (by simp [hf]) (by simp)

theorem aside_net {ps : List Part} (h : .net ∈ ps) (ls : List Nat) (s : State) (x : Net) : Aside ps ls s { s with net := x } :=
  (frame_net s x).aside (by simpa using h) (by simp) (by simp)

theorem aside_groom {ps : List Part} (h : .groom ∈ ps) (ls : List Nat) (s : State) (x : GroomSt) : Aside ps ls s { s with groom := x } :=
  (frame_groom s x).aside (by simpa using h) (by simp) (by simp)

theorem aside_latch {ps : List Part} (ho : .outbox ∈ ps) (ha : .aon ∈ ps) (ls : List Nat) (s : State) (b : Nat) (o : Origin) (d : Nat) :
    Aside ps ls s (s.latch b o d) :=
  (frame_latch s b o d).aside (by simp [ho, ha]) (by simp [latchFields, reactKept]) (by simp)

/-! ## Carriages that look for another way (R179) -/

theorem aside_reinFor {ps : List Part} (h : .net ∈ ps) (ls : List Nat) (s : State) (c : Carriage) (b : Bool) : Aside ps ls s (s.reinFor c b) :=
  (reinsOnly_reinFor s c b).frame.aside (by simpa using h) (by simp) (by simp)

theorem aside_refuse {ps : List Part} (h : .net ∈ ps) (ls : List Nat) (s : State) (l : Nat) (c : Carriage) : Aside ps ls s (s.refuse l c) := by
  have h1 : Aside ps ls s (if farKind c then (s.sat .RTE_DROPS_TENANT 0).sat .GRM_FARWIN_REJECT l else s.sat .RTE_DROPS_TENANT 0) :=
    .ite ((aside_setf _ _ _ _ _ (by decide)).trans (aside_setf _ _ _ _ _ (by decide))) (aside_setf _ _ _ _ _ (by decide))
  exact .ite (h1.trans (aside_reinFor h ls _ c true)) h1

theorem aside_receiveAt (s : State) (c : Carriage) (port id : Nat) : Aside [.net, .yards] [] s (s.receiveAt c port id) := by
  have h0 : Aside [.net, .yards] [] s (if cDst c = s.self then s.undoze else s) :=
    .ite (.ite (aside_setf _ _ _ _ _ (by decide)) (.refl ..)) (.refl ..)
  unfold State.receiveAt
  dsimp only
  split
  · exact h0.trans (aside_setf _ _ _ _ _ (by decide))
  · exact h0.trans (aside_setf _ _ _ _ _ (by decide))
  · exact h0.trans ((aside_setf _ _ _ _ _ (by decide)).trans (aside_setf _ _ _ _ _ (by decide)))
  · exact h0.trans (aside_refuse (by simp) _ _ _ _)
  · exact h0.trans (aside_setf _ _ _ _ _ (by decide))
  · have htouch : ∀ u : State, Aside [.net, .yards] [] u (u.touchFor c) := fun u =>
      .foldl _ (fun u y _ => (frame_yards u _).aside (by simp) (by simp) (by simp)) u
    exact h0.trans ((Aside.trans (.ite (aside_setf _ _ _ _ _ (by decide)) (.refl ..)) (aside_net (by simp) _ _ _)).trans (htouch _))

theorem aside_inject (s : State) (c : Carriage) (port inAxis : Nat) : Aside [.net, .yards] [] s (s.inject c port inAxis) := by
  have henq : ∀ l p adv c', Aside [.net, .yards] [] s (s.enqueue l p adv c') := fun _ _ _ _ =>
    (aside_net (by simp) _ s _).trans (aside_net (by simp) _ _ _)
  unfold State.inject
  dsimp only
  refine .ite (.ite (aside_setf _ _ _ _ _ (by decide)) (henq ..)) ?_
  split
  · exact henq ..
  · exact (aside_net (by simp) _ s _).trans (aside_receiveAt ..)
  · exact aside_setf _ _ _ _ _ (by decide)

theorem aside_reroute (s : State) (l : Nat) : Aside [.net, .yards] [] s (s.reroute l) :=
  (aside_net (by simp) _ s _).trans (.foldl _ (fun u o _ => aside_inject u ..) _)

/-! ## The pieces of leaving a state (R70, R190, R229, R307) -/

/-- The parts that a link's change of state changes by itself. -/
def stateParts : List Part := [.outbox, .tt, .links]

/-- The parts that leaving a state may change besides the instances. -/
def leaveParts : List Part := [.outbox, .tt, .links, .groom, .aon, .net, .yards, .time]

theorem stateParts_leave : stateParts ⊆ leaveParts := by decide

theorem aside_midChange (s : State) (l : Nat) : Aside stateParts [] s (s.midChange l) :=
  .ite ((frame_tt s _).aside (by decide) (by simp) (by simp)) (.refl ..)

/-- Choosing the time source does not move the clock. -/
theorem aside_sourceUpdate (s : State) : Aside leaveParts [] s s.sourceUpdate := by
  have h := frame_sourceUpdate s
  have htime := sourceUpdate_time s
  have hmtc : s.sourceUpdate.rf .AON_MTC_MTC_NS 0 = s.rf .AON_MTC_MTC_NS 0 := h.rf (by simp)
  have hcore : s.sourceUpdate.coreOn = s.coreOn := by rw [State.coreOn, show s.sourceUpdate.power = s.power from h.part .power (by simp), State.coreOn]
  refine ⟨h.1, h.2.1, h.allBut (by decide), ?_, fun f hf i => h.rf ?_, fun k _ => h.rf (by simp)⟩
  · simp only [State.now, State.mtc, State.edgeMtc, State.interp, hcore, hmtc, congrArg TimeSt.frac htime, congrArg TimeSt.sub htime,
      congrArg TimeSt.freeze htime]
  · rintro hm
    simp only [List.mem_cons, Prod.mk.injEq, List.not_mem_nil, or_false] at hm
    rcases hm with ⟨rfl, -⟩ | ⟨rfl, -⟩ <;> exact absurd hf (by decide)

/-- A pattern begins or ends: the checkers of the link's lanes. -/
theorem aside_prbsTurn (s : State) (l st : Nat) : Aside stateParts [] s (s.prbsTurn l st) := by
  have hclear : Aside stateParts [] s (if prbsSt (s.linkSt l) then
      ((List.range 64).foldl (fun (s : State) k => s.setf .LNK_LANE_PRBS_SYNC (64 * l + k) 0) s).setLink l { s.link l with prbs := [] } else s) :=
    .ite ((Aside.foldl _ (fun u k _ => aside_setf _ _ u _ _ (by decide)) s).trans ((frame_links _ _).aside (by decide) (by simp) (by simp))) (.refl ..)
  exact Aside.ite (hclear.trans ((frame_outbox _ _).aside (by decide) (by simp) (by simp))) hclear

/-- The link, and no other, shows its new state. -/
theorem aside_setLinkSt (s : State) (l st : Nat) : Aside stateParts [l] s (s.setLinkSt l st) := by
  by_cases h : s.linkSt l = st
  · rw [State.setLinkSt, if_pos h]
    exact .refl ..
  · rw [setLinkSt_eq h]
    refine Aside.trans ?_ ((frame_updLink _ l _).aside (by decide) (by simp) (by simp))
    refine (((aside_prbsTurn s l st).mono (by simp) (by simp)).trans ((frame_trace _ 12 (l + 256 * s.linkSt l + 65536 * st)).aside (by decide) (by simp [reactKept])
      (by simp))).trans ?_
    exact (frame_setf ..).aside (by simp) (by simp [reactKept]) (by simp)

theorem linkSt_setLinkSt_of_lt (s : State) (l : Nat) {st : Nat} (h : st < 16) : (s.setLinkSt l st).linkSt l = st := by
  by_cases he : s.linkSt l = st
  · rw [State.setLinkSt, if_pos he, he]
  · exact linkSt_setLinkSt he h

theorem aside_loseMirror (s : State) (es : List RetryEnt) : Aside leaveParts [] s (s.loseMirror es) :=
  .ite (.refl ..) ((aside_setf _ _ s _ _ (by decide)).trans (aside_groom (by decide) _ _ _))

theorem aside_loseUnsent (s : State) (os : List OutCar) : Aside leaveParts [] s (s.loseUnsent os) :=
  .ite (.refl ..) ((aside_setf _ _ s _ _ (by decide)).trans (aside_groom (by decide) _ _ _))

theorem aside_mirInvalid0 (s : State) : Aside leaveParts [] s s.mirInvalid0 :=
  .foldl _ (fun u c _ => .ite ((aside_setf _ _ u _ _ (by decide)).trans (aside_latch (by decide) (by decide) _ _ _ _ _)) (.refl ..)) s

theorem aside_loseMove {ps : List Part} (hi : .insts ∈ ps) (s : State) (c : Carriage) : Aside ps [] s (s.loseMove c) :=
  .ite ((frame_insts s _).aside (by simpa using hi) (by simp) (by simp)) (.refl ..)

theorem aside_loseRetry {ps : List Part} (hi : .insts ∈ ps) (hps : leaveParts ⊆ ps) (s : State) (l : Nat) (es : List RetryEnt) :
    Aside ps [] s (s.loseRetry l es) :=
  .foldl es (fun u e _ => ((aside_loseMove hi u e.c).trans (aside_setf _ _ _ _ _ (by decide))).trans
    (aside_latch (hps (by decide)) (hps (by decide)) _ _ _ _ _)) s

/-- The retry buffer of the sub-link of tenant t is lost. -/
def retryLost (l : Nat) (s : State) (t : Nat) : State :=
  ((s.loseMirror (s.sub l t).retry).loseRetry l (s.sub l t).retry).setSub l t
    { s.sub l t with retry := [], missing := [], late := [], repeats := [], dirty := false }

/-- No carriage is in the retry buffers of link l. -/
def NoRetry (l : Nat) (s : State) : Prop := ∀ u, u < 4 → (s.sub l u).retry = []

theorem NoRetry.congr {l : Nat} {s t : State} (h : NoRetry l s) (hs : t.net.subs = s.net.subs) : NoRetry l t := fun u hu => by
  rw [State.sub, hs]
  exact h u hu

/-- The retry buffers are lost; where they are empty no instance loses a part. -/
theorem aside_retriesLost {ps : List Part} (hps : leaveParts ⊆ ps) {l : Nat} (ts : List Nat) (hts : ∀ t ∈ ts, t < 4) {s : State}
    (hi : .insts ∈ ps ∨ NoRetry l s) : Aside ps [] s (ts.foldl (retryLost l) s) := by
  rcases hi with hi | hn
  · exact .foldl ts (fun u t _ => (((aside_loseMirror u _).mono hps (by simp)).trans (aside_loseRetry hi hps ..)).trans
      (aside_net (hps (by decide)) _ _ _)) s
  · induction ts generalizing s with
    | nil => exact .refl ..
    | cons t ts ih =>
      have he : retryLost l s t = s.setSub l t { s.sub l t with retry := [], missing := [], late := [], repeats := [], dirty := false } := by
        rw [retryLost, hn t (hts t (List.mem_cons_self ..))]
        rfl
      have hn' : NoRetry l (retryLost l s t) := fun u hu => by
        rw [he, sub_setSub]
        split
        · rfl
        · exact hn u hu
      have hone : Aside ps [] s (retryLost l s t) := he ▸ aside_net (hps (by decide)) [] s _
      exact hone.trans (ih (fun u hu => hts u (List.mem_cons_of_mem _ hu)) hn')

/-! ## Leaving (R229, R231) -/

/-- Link l, and no other, has come to state st; besides, at most the parts listed have changed. -/
def Moved (ps : List Part) (l st : Nat) (s t : State) : Prop := Aside ps [l] s t ∧ t.linkSt l = st

/-- A later change that leaves the links' states alone. -/
theorem Moved.after {ps : List Part} {l st : Nat} {s t u : State} (h : Moved ps l st s t) (k : Aside ps [] t u) : Moved ps l st s u :=
  ⟨h.1.trans (k.mono (List.Subset.refl _) (by simp)), (k.states l (by simp)).trans h.2⟩

/-- Leaving leads to the new state; with carriages in the retry buffers instances may change too. -/
theorem leave0_moves {ps : List Part} (hps : leaveParts ⊆ ps) {s : State} {l st : Nat} (hst : st < 16) (hi : .insts ∈ ps ∨ NoRetry l s) :
    Moved ps l st s (s.leave0 l st) := by
  unfold State.leave0
  extract_lets act s1 x s2 s3 s5 n s6 s7 s4
  have h1 : Aside stateParts [] s s1 := .ite ((aside_setf _ _ s _ _ (by decide)).trans (aside_midChange ..)) (.refl ..)
  have h2 : Aside stateParts [l] s s2 := ((h1.mono (by simp) (by simp)).trans (aside_setLinkSt s1 l st)).trans
    ((frame_links _ _).aside (by decide) (by simp) (by simp))
  have hs2 : s2.linkSt l = st := linkSt_setLinkSt_of_lt s1 l hst
  have h23 : Aside stateParts [] s2 s3 := .ite (.refl ..) ((aside_setf _ _ s2 _ _ (by decide)).trans (aside_setf _ _ _ _ _ (by decide)))
  have h3 := h2.trans (h23.mono (by simp) (by simp))
  have hi3 : .insts ∈ ps ∨ NoRetry l s3 := hi.imp id fun hn => hn.congr (congrArg Net.subs (h3.part .net (by decide)))
  have h5 : Aside ps [] s3 s5 := aside_retriesLost hps nat4 (by decide) hi3
  have h6 : Aside ps [] s5 s6 := aside_net (hps (by decide)) [] s5 _
  have h67 : Aside ps [] s6 s7 := ((aside_loseUnsent s6 _).mono hps (by simp)).trans (aside_setf _ _ _ _ _ (by decide))
  have h7 := (h5.trans h6).trans h67
  have h34 : Aside ps [] s3 s4 := .ite (.ite (h7.trans ((aside_mirInvalid0 s7).mono hps (by simp))) h7) (.refl ..)
  have h4 : Aside ps [] s2 s4 := (h23.mono (List.Subset.trans stateParts_leave hps) (by simp)).trans h34
  have hend : Aside ps [] s2 (if act then (s4.reroute l).sourceUpdate else s4) :=
    .ite ((h4.trans ((aside_reroute s4 l).mono (List.Subset.trans (by decide) hps) (by simp))).trans ((aside_sourceUpdate _).mono hps (by simp))) h4
  exact Moved.after ⟨h2.mono (List.Subset.trans stateParts_leave hps) (by simp), hs2⟩ hend

/-- A link may leave its state without more than these parts changing, the safe state aside: CARRIAGE_LOST and MIRROR_FAIL do not ask for it, and
where instances are not among the parts there is no carriage to lose. -/
structure Leavable (ps : List Part) (l : Nat) (s : State) : Prop where
  parts : leaveParts ⊆ ps
  insts : .insts ∈ ps ∨ NoRetry l s
  carriageLost : s.reaction 16 < 2
  mirrorFail : s.reaction 45 < 2

theorem wantsSafe_of_reaction {s : State} {b : Nat} (hb : b ≠ 0) (h : s.reaction b < 2) : s.wantsSafe b = false := by
  simp [State.wantsSafe, hb, h]

theorem leave_moves {ps : List Part} {s : State} {l st : Nat} (h : Leavable ps l s) (hst : st < 16) : Moved ps l st s (s.leave l st) := by
  have hm := leave0_moves h.parts hst h.insts
  have h16 : (s.leave0 l st).wantsSafe 16 = false := wantsSafe_of_reaction (by decide) (by rw [hm.1.reaction]; exact h.carriageLost)
  have h45 : (s.leave0 l st).wantsSafe 45 = false := wantsSafe_of_reaction (by decide) (by rw [hm.1.reaction]; exact h.mirrorFail)
  rw [State.leave, State.react, if_neg (by simp [h16, h45])]
  exact hm

/-! ## HALTs of the link (R231) -/

/-- A unit leaves, or waits: no retry buffer changes. -/
theorem unit_aside (s : State) (l t k fields : Nat) :
    Aside [.net, .outbox] [] s (s.unit l t k fields) ∧ (s.unit l t k fields).net.subs = s.net.subs := by
  have hemit : ∀ (u : State) (o : OutEv), Aside [.net, .outbox] [] u (u.emit o) := fun u o => (frame_outbox u _).aside (by simp) (by simp) (by simp)
  have hflush : Aside [.net, .outbox] [] s (s.flushUnits l t) := (aside_net (by simp) _ s _).trans (.foldl _ (fun u _ _ => hemit u _) _)
  have hsubs : (s.flushUnits l t).net.subs = s.net.subs := by rw [flushUnits_eq]
  unfold State.unit
  split
  · exact ⟨hflush.trans (hemit _ _), hsubs⟩
  split
  · exact ⟨(aside_net (by simp) _ s _).trans (hemit _ _), rfl⟩
  · exact ⟨aside_net (by simp) _ s _, rfl⟩

theorem haltLink_aside (s : State) (l reason : Nat) :
    Aside [.net, .outbox] [] s (s.haltLink l reason) ∧ (s.haltLink l reason).net.subs = s.net.subs := by
  unfold State.haltLink
  split
  case isFalse => exact ⟨.refl .., rfl⟩
  case isTrue hl =>
    clear hl
    generalize s.subTenants l = ts
    induction ts generalizing s with
    | nil => exact ⟨.refl .., rfl⟩
    | cons t ts ih =>
      obtain ⟨ha, hs⟩ := unit_aside s l t kHalt (haltFields 0xFF 0 reason s.self)
      obtain ⟨ha', hs'⟩ := ih (s.unit l t kHalt (haltFields 0xFF 0 reason s.self))
      exact ⟨ha.trans ha', hs'.trans hs⟩

theorem Leavable.halt {ps : List Part} {s : State} {l : Nat} (h : Leavable ps l s) (reason : Nat) :
    Leavable ps l (s.haltLink l reason) ∧ Aside ps [] s (s.haltLink l reason) := by
  obtain ⟨ha, hsubs⟩ := haltLink_aside s l reason
  exact ⟨⟨h.parts, h.insts.imp id fun hn => hn.congr hsubs, by rw [ha.reaction]; exact h.carriageLost, by rw [ha.reaction]; exact h.mirrorFail⟩,
    ha.mono (List.Subset.trans (by decide) h.parts) (by simp)⟩

/-- The link leaves its state after a HALT. -/
theorem halt_leave_moves {ps : List Part} {s : State} {l st : Nat} (h : Leavable ps l s) (reason : Nat) (hst : st < 16) :
    Moved ps l st s ((s.haltLink l reason).leave l st) := by
  obtain ⟨hl, ha⟩ := h.halt reason
  obtain ⟨hm, hs⟩ := leave_moves hl hst
  exact ⟨(ha.mono (List.Subset.refl _) (by simp)).trans hm, hs⟩

/-! ## Rungs, lasers and rings (R217, R222, R239) -/

section
variable (s : State) (l : Nat)

theorem frame_setRung (rung : Nat) : Frame [.links] [(.LNK_RUNG_RUNG, l)] s (s.setRung l rung) :=
  frame_ite (Frame.refl ..) ((frame_setf s .LNK_RUNG_RUNG l rung).append (frame_updLink _ l _))

theorem rf_setRung {rung : Nat} (h : rung < 4) : (s.setRung l rung).rf .LNK_RUNG_RUNG l = rung := by
  unfold State.setRung
  split
  · assumption
  · rw [(frame_updLink _ l _).rf List.not_mem_nil, State.rf_setf_same]
    exact Nat.mod_eq_of_lt h

/-- The fields of a link that its lasers change. -/
def laserFields (l : Nat) : List (Fld × Nat) := [(.LNK_FIBRE_LASER_FAULT, l), (.LNK_FIBRE_LASER_ON, l)]

theorem frame_startFibre : Frame [.links, .outbox] (laserFields l) s (s.startFibre l) := by
  have hlaser : ∀ u g b, Frame [.links, .outbox] (laserFields l) u (State.laser u l g b) := fun u g b =>
    (frame_laser u l g b).mono (by simp) (by simp [laserFields])
  have hgroup : ∀ u g x, Frame [.links, .outbox] (laserFields l) u (State.setGroup u l g x) := fun u g x =>
    (frame_setGroup u l g x).mono (by simp) (by simp)
  exact ((frame_setf s .LNK_FIBRE_LASER_FAULT l 0).mono (by simp) (by simp [laserFields])).trans (Frame.foldl nat4 (fun u g _ =>
    frame_ite (Frame.refl ..) (frame_ite (frame_ite ((hgroup u g _).trans (hlaser _ g true)) (Frame.refl ..)) (hlaser u g true))) _)

theorem frame_lasersOff (every : Bool) : Frame [.links, .outbox] [(.LNK_FIBRE_LASER_ON, l)] s (s.lasersOff l every) :=
  (((frame_setf s .LNK_FIBRE_LASER_ON l _).append (frame_links _ _)).append (frame_outbox _ _)).mono (by simp) (by simp)

theorem rf_lasersOff : (s.lasersOff l true).rf .LNK_FIBRE_LASER_ON l = 0 := by
  have hnone : (nat4.filter fun g => bitAt (s.rf .LNK_FIBRE_LASER_ON l) g && !bitAt 15 g) = [] :=
    List.filter_eq_nil_iff.2 fun g hg => by
      have h15 : ∀ g ∈ nat4, bitAt 15 g = true := by decide
      simp [h15 g hg]
  refine (State.rf_setf_same s .LNK_FIBRE_LASER_ON l _).trans ?_
  rw [if_pos rfl, hnone]
  rfl

theorem frame_ringsOff : Frame [.links] ((List.range 128).map fun k => (Fld.LNK_RING_STATE, 128 * l + k)) s (s.ringsOff l) :=
  ((frame_setEach .LNK_RING_STATE (fun k => 128 * l + k) (fun _ => 0) (fun _ => true) (List.range 128) s).append (frame_links _ _)).mono
    (by simp) (by simp)

end

/-! ## The actions (Table 8.6, Table 10.7) -/

/-- The rung and the cap of link l are those of Walk. -/
def AtWalk (l : Nat) (t : State) : Prop := t.rf .LNK_RUNG_RUNG l = 0 ∧ t.rf .LNK_RUNG_CAP l = 0

theorem AtWalk.frame {l : Nat} {t u : State} {ps : List Part} {fs : List (Fld × Nat)} (h : AtWalk l t) (k : Frame ps fs t u)
    (hr : (.LNK_RUNG_RUNG, l) ∉ fs) (hc : (.LNK_RUNG_CAP, l) ∉ fs) : AtWalk l u := ⟨(k.rf hr).trans h.1, (k.rf hc).trans h.2⟩

/-- A change of the link's record and of fields that show no link's state. -/
theorem Frame.aside_links {ps qs : List Part} {gs : List (Fld × Nat)} {s t : State} (h : Frame qs gs s t) (hps : leaveParts ⊆ ps)
    (hq : qs ⊆ [.links, .outbox]) (hg : ∀ x ∈ gs, x.1 ∉ .LNK_STATE_STATE :: reactKept) : Aside ps [] s t := by
  have hc : ∀ p : Part, p ∉ [Part.links, .outbox] → p ∉ qs := fun p hp hm => hp (hq hm)
  exact h.aside (fun p hp => hps ((by decide : [Part.links, .outbox] ⊆ leaveParts) (hq hp)))
    (fun x hx => ⟨fun hm => hg x hx (List.mem_cons_of_mem _ hm), fun he => absurd (he ▸ List.mem_cons_self .. : x.1 ∈ _) (hg x hx)⟩)
    ⟨hc _ (by decide), hc _ (by decide)⟩

section
variable {ps : List Part} {s : State} {l : Nat} (h : Leavable ps l s)
include h

/-- DARK is entered at Walk. -/
theorem toDark_moves : Moved ps l 1 s (s.toDark l) ∧ AtWalk l (s.toDark l) := by
  have hrung := frame_setRung (s.leave l 1) l 0
  have hset := frame_setfs [(.LNK_RUNG_CAP, l, 0), (.LNK_RUNG_GROUPS, l, 0)] ((s.leave l 1).setRung l 0)
  have hupd := frame_updLink (((s.leave l 1).setRung l 0).setfs [(.LNK_RUNG_CAP, l, 0), (.LNK_RUNG_GROUPS, l, 0)]) l fun x =>
    { x with lowCap := 3, step := false, stepAt := none, asked := false }
  have hf := (hrung.append hset).append hupd
  refine ⟨(leave_moves h (by decide)).after (hf.aside_links h.parts (by simp) (by simp [fieldsIn, reactKept])), ?_, ?_⟩
  · exact ((hset.append hupd).rf (by simp [fieldsIn])).trans (rf_setRung _ l (by decide))
  · exact (hupd.rf (by simp)).trans (rf_setfs (v := 0) (by simp) (by simp) _)

theorem linkAct_enable : Moved ps l 1 s (s.linkAct l 0) ∧ AtWalk l (s.linkAct l 0) := by
  obtain ⟨hm, hw⟩ := toDark_moves h
  have hf := (frame_updLink (s.toDark l) l fun x => { x with attribHold := false, attrib := 0 }).append (frame_startFibre _ l)
  exact ⟨hm.after (hf.aside_links h.parts (by simp) (by simp [laserFields, reactKept])), hw.frame hf (by simp [laserFields]) (by simp [laserFields])⟩

theorem linkAct_disable : Moved ps l 0 s (s.linkAct l 1) ∧ AtWalk l (s.linkAct l 1) ∧ (s.linkAct l 1).rf .LNK_FIBRE_LASER_ON l = 0 := by
  let u := (s.haltLink l 6).leave l 0
  have hm : Moved ps l 0 s u := halt_leave_moves h 6 (by decide)
  have hlaser := frame_lasersOff u l true
  have hrung := frame_setRung (u.lasersOff l true) l 0
  have hcap := frame_setf ((u.lasersOff l true).setRung l 0) .LNK_RUNG_CAP l 0
  have hrings := frame_ringsOff (((u.lasersOff l true).setRung l 0).setf .LNK_RUNG_CAP l 0) l
  have hf := ((hlaser.append hrung).append hcap).append hrings
  refine ⟨hm.after (hf.aside_links h.parts (by simp) ?_), ⟨?_, ?_⟩, ?_⟩
  · simp [reactKept]
  · exact ((hcap.append hrings).rf (by simp)).trans (rf_setRung _ l (by decide))
  · exact (hrings.rf (by simp)).trans (State.rf_setf_same ..)
  · exact (((hrung.append hcap).append hrings).rf (by simp)).trans (rf_lasersOff u l)

theorem linkAct_retrain (hl : l < 6) : Moved ps l 1 s (s.linkAct l 2) ∧ AtWalk l (s.linkAct l 2)
    ∧ ⟨.link ⟨l, hl⟩, s.now + 100000000⟩ ∈ (s.linkAct l 2).aon.windows := by
  obtain ⟨hh, ha⟩ := h.halt 3
  obtain ⟨⟨hd, hs⟩, hw⟩ := toDark_moves hh
  have hm : Moved ps l 1 s ((s.haltLink l 3).toDark l) := ⟨(ha.mono (List.Subset.refl _) (by simp)).trans hd, hs⟩
  have he : s.linkAct l 2 = ((s.haltLink l 3).toDark l).shadow (.link ⟨l, hl⟩) 100000000 := dif_pos hl
  have hf : Frame [.aon] [] ((s.haltLink l 3).toDark l) (s.linkAct l 2) := he ▸ frame_aon _ _
  refine ⟨hm.after (hf.aside (fun p hp => h.parts ((by decide : [Part.aon] ⊆ leaveParts) hp)) (by simp) (by simp)), hw.frame hf (by simp) (by simp), ?_⟩
  rw [he, ← hm.1.now]
  exact List.mem_append_right _ (List.mem_singleton.2 rfl)

theorem linkAct_reaim : Moved ps l 10 s (s.linkAct l 3) :=
  (halt_leave_moves h 5 (by decide)).after ((frame_updLink ((s.haltLink l 5).leave l 10) l fun x =>
    { x with step := false, stepAt := none, asked := false }).aside_links h.parts (by simp) (by simp))

theorem linkAct_test : Moved ps l 11 s (s.linkAct l 4)
    ∧ (s.rf .LNK_PRBS_CTL_RUNG l < 4 → (s.linkAct l 4).rf .LNK_RUNG_RUNG l = s.rf .LNK_PRBS_CTL_RUNG l) := by
  have hfibre := frame_startFibre (((s.haltLink l 6).leave l 11).setRung l (s.rf .LNK_PRBS_CTL_RUNG l)) l
  have hf := (frame_setRung ((s.haltLink l 6).leave l 11) l (s.rf .LNK_PRBS_CTL_RUNG l)).append hfibre
  exact ⟨(halt_leave_moves h 6 (by decide)).after (hf.aside_links h.parts (by simp) (by simp [laserFields, reactKept])),
    fun hr => (hfibre.rf (by simp [laserFields])).trans (rf_setRung _ l hr)⟩

end

/-- The actions and the states that they lead to. -/
def actions : List (Nat × Nat) := [(0, 1), (1, 0), (2, 1), (3, 10), (4, 11)]

/-- What each action does to the link besides. -/
def ActionDone (s : State) (l act : Nat) (t : State) : Prop :=
  (act < 3 → AtWalk l t) ∧ (act = 1 → t.rf .LNK_FIBRE_LASER_ON l = 0)
    ∧ (act = 4 → s.rf .LNK_PRBS_CTL_RUNG l < 4 → t.rf .LNK_RUNG_RUNG l = s.rf .LNK_PRBS_CTL_RUNG l)
    ∧ (act = 2 → ∃ h : l < 6, ⟨.link ⟨l, h⟩, s.now + 100000000⟩ ∈ t.aon.windows)

theorem linkAct_done {ps : List Part} {s : State} {l act target : Nat} (h : Leavable ps l s) (hl : l < 6) (ha : (act, target) ∈ actions) :
    Moved ps l target s (s.linkAct l act) ∧ ActionDone s l act (s.linkAct l act) := by
  simp only [actions, List.mem_cons, Prod.mk.injEq, List.not_mem_nil, or_false] at ha
  rcases ha with ⟨rfl, rfl⟩ | ⟨rfl, rfl⟩ | ⟨rfl, rfl⟩ | ⟨rfl, rfl⟩ | ⟨rfl, rfl⟩
  · obtain ⟨hm, hw⟩ := linkAct_enable h
    exact ⟨hm, fun _ => hw, nofun, nofun, nofun⟩
  · obtain ⟨hm, hw, hlaser⟩ := linkAct_disable h
    exact ⟨hm, fun _ => hw, fun _ => hlaser, nofun, nofun⟩
  · obtain ⟨hm, hw, hwin⟩ := linkAct_retrain h hl
    exact ⟨hm, fun _ => hw, nofun, nofun, fun _ => ⟨hl, hwin⟩⟩
  · exact ⟨linkAct_reaim h, fun h => absurd h (by decide), nofun, nofun, nofun⟩
  · obtain ⟨hm, hr⟩ := linkAct_test h
    exact ⟨hm, fun h => absurd h (by decide), nofun, fun _ => hr, nofun⟩

/-! ## The commands -/

theorem frame_boot (s : State) (x : Boot) : Frame [.boot] [] s { s with boot := x } :=
  frame_of_parts rfl rfl rfl fun p _ => by cases p <;> simp_all [Part.Same]

/-- The commands of LINK_CONTROL with their actions and the states that these lead to. -/
def linkRows (q : QP) (e : Entry) : List (Instr × Nat × Nat) :=
  [(.linkEnable q e, 0, 1), (.linkDisable q e, 1, 0), (.linkRetrain q e, 2, 1), (.linkReaim q e, 3, 10), (.linkTest q e, 4, 11)]

section
variable {s : State} {e : Entry} {c : Instr} {act target : Nat}

theorem linkRows_action (h : (c, act, target) ∈ linkRows 0 e) : (act, target) ∈ actions := List.mem_map_of_mem (f := Prod.snd) h

theorem exec_linkRow (hc : s.coreOn = true) (h : (c, act, target) ∈ linkRows 0 e) (ha : ent e 5 1 = act) :
    exec c s = .next (s.keep (s.linkControl 0 act e)) := by
  simp only [linkRows, List.mem_cons, Prod.mk.injEq, List.not_mem_nil, or_false] at h
  have hother : ∀ t : State, ent e 5 1 < 5 → t.linkOther 0 e = t := fun t h5 => if_neg (by rw [lcAct]; omega)
  rcases h with ⟨rfl, rfl, -⟩ | ⟨rfl, rfl, -⟩ | ⟨rfl, rfl, -⟩ | ⟨rfl, rfl, -⟩ | ⟨rfl, rfl, -⟩
  · show execLinkEnable 0 e s = _
    rw [execLinkEnable, event_on _ _ hc]
    exact congrArg (fun t => Host.Outcome.next (s.keep t)) (hother _ (by omega))
  · exact event_on s (fun s => s.linkControl 0 1 e) hc
  · exact event_on s (fun s => s.linkControl 0 2 e) hc
  · exact event_on s (fun s => s.linkControl 0 3 e) hc
  · exact event_on s (fun s => s.linkControl 0 4 e) hc

end

section
variable {s : State} {e : Entry} {act : Nat} (h : Starts s 0 0x0B e [(4, 1), (5, 1)]) (hl : ent e 4 1 < 6) (ha : ent e 5 1 = act) (h5 : act < 5)
include h hl ha h5

/-- A LINK_CONTROL of this action that passes its checks. -/
theorem linkControl_eq {ft : Fetched} (hft : s.start? 0 0x0B e = some ft) : s.linkControl 0 act e =
    if s.linkHeld e then { s.adopt ft (.link (ent e 4 1) act) with boot := { s.boot with held := s.boot.held ++ [(ent e 4 1, 0, eId e)] } }
    else s.linkDo 0 (eId e) e := by
  have hgood : firstBad (linkBad e s) = none := by
    have h1 : decide (5 < lcLink e) = false := decide_eq_false (by rw [lcLink]; omega)
    have h2 : decide (4 < lcAct e) = false := decide_eq_false (by rw [lcAct]; omega)
    simp [linkBad, h1, h2, firstBad]
  refine (if_neg (by simp [lcAct, ha])).trans ((startCmd_read h hft fun _ => tableOf_of_opcode h rfl (by decide)).trans ?_)
  rw [hgood]
  subst ha
  rfl

end

/-- Leaving and completing touch no memory, postilion or team. -/
theorem leave_completes_keeps : ∀ p ∈ ([.host, .depot, .scratch, .posts, .mesh, .teams, .boot, .hitch, .arr, .pins, .shadows, .sync] : List Part),
    p ∉ .qs :: .insts :: leaveParts := by decide

/-- The action was carried out, and the command completes. -/
theorem does_linkAct {s : State} {e : Entry} {c : Instr} {act target : Nat} (hm : (act, target) ∈ actions) (hl : ent e 4 1 < 6)
    (h16 : s.reaction 16 < 2) (h45 : s.reaction 45 < 2)
    (he : exec c s = .next (s.keep ((s.linkAct (ent e 4 1) act).finish 0 (eId e) 0x0B 0))) : Does c s fun t =>
      t.linkSt (ent e 4 1) = target ∧ (∀ k, k ≠ ent e 4 1 → t.linkSt k = s.linkSt k) ∧ ActionDone s (ent e 4 1) act t
      ∧ (NoRetry (ent e 4 1) s → t.insts = s.insts) ∧ Completed s t (plainDone 0 (eId e) 0x0B 0 0)
      ∧ Keeps [.host, .depot, .scratch, .posts, .mesh, .teams, .boot, .hitch, .arr, .pins, .shadows, .sync] s t := by
  obtain ⟨⟨haside, hst⟩, hrung, hlaser, htest, hwin⟩ :=
    linkAct_done (ps := .insts :: leaveParts) ⟨by simp, .inl (by simp), h16, h45⟩ hl hm
  have hinsts : NoRetry (ent e 4 1) s → (s.linkAct (ent e 4 1) act).insts = s.insts := fun hn =>
    (linkAct_done (ps := leaveParts) ⟨by simp, .inr hn, h16, h45⟩ hl hm).1.1.part .insts (by decide)
  have hfin := frame_finish (s.linkAct (ent e 4 1) act) 0 (eId e) 0x0B 0 0
  have hkeep : s.keep ((s.linkAct (ent e 4 1) act).finish 0 (eId e) 0x0B 0) = (s.linkAct (ent e 4 1) act).finish 0 (eId e) 0x0B 0 := by
    simp only [State.keep, ← hfin.1.trans haside.queue, ← hfin.2.1.trans haside.fuses]
  have hall : AllBut (.qs :: .insts :: leaveParts) s ((s.linkAct (ent e 4 1) act).finish 0 (eId e) 0x0B 0) :=
    (haside.parts.mono (by simp)).trans (hfin.allBut (by simp))
  exact ⟨(s.linkAct (ent e 4 1) act).finish 0 (eId e) 0x0B 0, hkeep ▸ he, hst, fun k hk => haside.states k (by simpa using hk), ⟨hrung, hlaser, htest, hwin⟩, hinsts,
    completed_of_qs (haside.part .qs (by decide)) (completed_finish ..), fun p hp => hall p (leave_completes_keeps p hp)⟩

/-- Settles O13: a command that passes its checks is linkAct, which leaves the link's state by `leave`. -/
theorem linkControlMovesTheLink : Obligations.LinkControlMovesTheLink := by
  intro s q e c act target hmem l hq hs hl ha
  subst hq
  have hm := linkRows_action (e := e) hmem
  have h5 : act < 5 := by
    have hact : ∀ x ∈ actions, x.1 < 5 := by decide
    exact hact _ hm
  obtain ⟨ft, hft⟩ := Option.isSome_iff_exists.1 hs.2.1
  obtain ⟨hfq, hfe, -⟩ := start?_some hft
  have hx := exec_linkRow hs.1 hmem ha
  rw [linkControl_eq hs hl ha h5 hft] at hx
  have hdo : linkWrong s e = false → s.linkHeld e = false → exec c s = .next (s.keep ((s.linkAct l act).finish 0 (eId e) 0x0B 0)) := fun hw hn => by
    rw [hx, if_neg (Bool.eq_false_iff.1 hn), State.linkDo, if_neg (Bool.eq_false_iff.1 hw), lcAct, ha]
    rfl
  refine ⟨hdo, fun hw hn h16 h45 => ?_, fun hn => ?_⟩
  · obtain ⟨t, he, hst, hother, ⟨hrung, hlaser, htest, hwin⟩, hinsts, hcomp, hkeeps⟩ := does_linkAct hm hl h16 h45 (hdo hw hn)
    exact ⟨t, he, hst, hother, hrung, hlaser, htest, hinsts, hwin, hcomp, hkeeps⟩
  · rw [if_pos hn] at hx
    have hf := (frame_adopt s ft (.link l act)).append (frame_boot (s.adopt ft (.link l act)) { s.boot with held := s.boot.held ++ [(l, 0, eId e)] })
    have hadopt := adopted_adopt s ft (.link l act)
    rw [hfq, hfe] at hadopt
    exact does_of_frame hx hf ⟨rfl, hadopt, hf⟩

end Sys2Proof

namespace Sys2Proof

open Machine

/-! # The admin queue and the interrupt vectors (O25) -/

/-! ## Frames of a register write -/

/-- Fields that a change leaves at their values need not stand in its frame. -/
theorem Frame.drop {ps : List Part} {fs gs : List (Fld × Nat)} {s t : State} (h : Frame ps fs s t)
    (hg : ∀ x ∈ fs, x ∉ gs → t.rf x.1 x.2 = s.rf x.1 x.2) : Frame ps gs s t := by
  obtain ⟨hp, hf, hparts, hrf⟩ := h
  refine ⟨hp, hf, hparts, fun f i hn => ?_⟩
  by_cases hm : (f, i) ∈ fs
  · exact hg _ hm hn
  · exact hrf f i hm

/-- Writing a field that has no shadow copy changes that field at most. -/
theorem frame_putField {f : Fld} (hf : (fieldSpec f).cls ≠ .t) (s0 : State) (i w : Nat) (a : State × Bool) :
    Frame [] [(f, i)] a.1 (s0.putField i w a f).1 := by
  have hset : ∀ v, Frame [] [(f, i)] a.1 (a.1.setf f i v) := fun v => frame_setf a.1 f i v
  unfold State.putField
  dsimp only
  split
  · split
    · exact Frame.refl ..
    · split
      · exact Frame.refl ..
      · exact hset _
  · next hc => exact absurd hc hf
  · exact hset _
  · exact hset _
  · exact hset _
  · exact Frame.refl ..

/-- A write none of whose fields has a shadow copy, none refused, changes its fields at most. -/
theorem frame_putReg {r : Reg} {s : State} {i w off : Nat} (ht : ∀ f ∈ regFields r, FieldTaken s i w f)
    (hc : ∀ f ∈ regFields r, (fieldSpec f).cls ≠ .t) : Frame [] ((regFields r).map fun f => (f, i)) s (s.putReg r i w off) := by
  have hfold : ∀ (l : List Fld) (a : State × Bool), l ⊆ regFields r →
      Frame [] ((regFields r).map fun f => (f, i)) a.1 (l.foldl (s.putField i w) a).1 := by
    intro l
    induction l with
    | nil => exact fun a _ => Frame.refl ..
    | cons f l ih =>
      intro a hl
      obtain ⟨hf, hl⟩ := List.cons_subset.1 hl
      have hfield := frame_putField (hc f hf) s i w a
      exact (hfield.mono (List.Subset.refl _) (by simpa using hf)).trans (ih _ hl)
  obtain ⟨-, -, -, -, hflag⟩ := putField_fold (regFields r) (regFields_nodup r) (fun f hf => fieldSpec_reg hf) ht (s, false) fun _ _ => rfl
  have hput : s.putReg r i w off = ((regFields r).foldl (s.putField i w) (s, false)).1 := by
    simp only [State.putReg, hflag, if_neg Bool.false_ne_true]
  exact hput ▸ hfold _ (s, false) (List.Subset.refl _)

/-! ## Words with their top bit forced (log entry 118) -/

/-- A field below bit 63 does not see bit 63. -/
theorem fpart_of_low {f : Fld} {v w : Nat} (hf : (fieldSpec f).hi < 63) (h : ∀ j < 63, v.testBit j = w.testBit j) : fpart f v = fpart f w := by
  have hlo := (fieldSpec_bits f).1
  refine Nat.eq_of_testBit_eq fun j => ?_
  simp only [fpart, bitsOf, Nat.testBit_mod_two_pow, Nat.testBit_div_two_pow]
  by_cases hj : j < (fieldSpec f).hi - (fieldSpec f).lo + 1
  · rw [h _ (by omega)]
  · simp [hj]

theorem testBit_setTop (v : Word) {j : Nat} (h : j < 63) : (v ||| 0x8000000000000000#64).toNat.testBit j = v.toNat.testBit j := by
  have htop : (2 ^ 63 : Nat).testBit j = false := Nat.testBit_two_pow_of_ne (Nat.ne_of_gt h)
  rw [BitVec.toNat_or, Nat.testBit_or, show (0x8000000000000000#64).toNat = 2 ^ 63 from rfl, htop, Bool.or_false]

theorem testBit_clearTop (v : Word) {j : Nat} (h : j < 63) : (v &&& 0x7FFFFFFFFFFFFFFF#64).toNat.testBit j = v.toNat.testBit j := by
  rw [BitVec.toNat_and, show (0x7FFFFFFFFFFFFFFF#64).toNat = 2 ^ 63 - 1 from rfl, Nat.and_two_pow_sub_one_eq_mod, Nat.testBit_mod_two_pow]
  simp [h]

/-- The top bit as a field. -/
theorem fpart_top {f : Fld} (hh : (fieldSpec f).hi = 63) (hl : (fieldSpec f).lo = 63) (v : Nat) : fpart f v = (v.testBit 63).toNat := by
  rw [Nat.toNat_testBit, fpart, bitsOf, hh, hl, Nat.sub_self, Nat.zero_add, Nat.pow_one]

theorem setTop_top (v : Word) : (v ||| 0x8000000000000000#64).toNat.testBit 63 = true := by
  rw [BitVec.toNat_or, Nat.testBit_or, show (0x8000000000000000#64).toNat = 2 ^ 63 from rfl, Nat.testBit_two_pow_self, Bool.or_true]

theorem clearTop_top (v : Word) : (v &&& 0x7FFFFFFFFFFFFFFF#64).toNat.testBit 63 = false := by
  rw [BitVec.toNat_and, show (0x7FFFFFFFFFFFFFFF#64).toNat = 2 ^ 63 - 1 from rfl, Nat.and_two_pow_sub_one_eq_mod, Nat.testBit_mod_two_pow]
  simp

/-! ## ADM_CTL -/

section
variable {s : State} (hc : s.coreOn = true) (v : Word)
include hc

theorem exec_adminQueueEnable : exec (.adminQueueEnable v) s =
    .next (s.keep ((answered s).putReg .ADM_CTL 0 (v ||| 0x8000000000000000#64).toNat 0x1000110)) :=
  putWord_on (r := .ADM_CTL) hc (by decide) rfl

theorem exec_adminQueueDisable : exec (.adminQueueDisable v) s =
    .next (s.keep ((answered s).putReg .ADM_CTL 0 (v &&& 0x7FFFFFFFFFFFFFFF#64).toNat 0x1000110)) :=
  putWord_on (r := .ADM_CTL) hc (by decide) rfl

theorem exec_irqUnmask (k : Fin 32) : exec (.irqUnmask k v) s =
    .next (s.keep ((answered s).irqData k (v &&& 0x7FFFFFFFFFFFFFFF#64).toNat (regOff .IRQ_DATA k))) :=
  putWord_on (r := .IRQ_DATA) hc k.isLt rfl

end

/-- The S fields of ADM_CTL take the parts of w: they hold them already, or both sizes are in 4 to 16 and the queue is disabled (R265). -/
def AdminTakes (s : State) (w : Nat) : Prop := ∀ f ∈ ([.ADM_CTL_CQ_LOG2, .ADM_CTL_SQ_LOG2, .ADM_CTL_VECTOR] : List Fld),
  fpart f w = s.rf f ∨ (rangeOk f (fpart f w) = true ∧ s.on .ADM_CTL_EN = false)

theorem fieldTaken_adm {s : State} {w : Nat} (h : AdminTakes s w) : ∀ f ∈ regFields .ADM_CTL, FieldTaken s 0 w f := by
  intro f hf ha hcls
  rcases List.mem_cons.1 hf with rfl | hf
  · cases hcls
  · rw [fieldSpec_reg (r := .ADM_CTL) (List.mem_cons_of_mem _ hf)]
    exact h f hf

/-- A write of ADM_CTL whose S fields are taken puts EN, the sizes and the vector, and nothing else. -/
theorem admCtl_written {s : State} {w off : Nat} (h : AdminTakes s w) :
    (∀ f ∈ regFields .ADM_CTL, (s.putReg .ADM_CTL 0 w off).rf f = fpart f w)
      ∧ Frame [] ((regFields .ADM_CTL).map fun f => (f, 0)) s (s.putReg .ADM_CTL 0 w off) := by
  have hrw : ∀ f ∈ regFields .ADM_CTL, (fieldSpec f).acc = .rw ∧ (fieldSpec f).cls ≠ .t := by decide
  obtain ⟨hw, -, -⟩ := putReg_taken (off := off) (fieldTaken_adm h)
  exact ⟨fun f hf => (hw f hf).1 (hrw f hf).1 (hrw f hf).2,
    frame_putReg (fieldTaken_adm h) fun f hf => (hrw f hf).2⟩

/-! ## IRQ_DATA (R286, R350) -/

/-- A write of IRQ_DATA puts MASK and DATA, and nothing else. -/
theorem irqData_written (s : State) (i w off : Nat) :
    (s.putReg .IRQ_DATA i w off).rf .IRQ_DATA_MASK i = fpart .IRQ_DATA_MASK w
      ∧ (s.putReg .IRQ_DATA i w off).rf .IRQ_DATA_DATA i = fpart .IRQ_DATA_DATA w
      ∧ Frame [] [(.IRQ_DATA_MASK, i), (.IRQ_DATA_DATA, i)] s (s.putReg .IRQ_DATA i w off) := by
  have hcls : ∀ f ∈ regFields .IRQ_DATA, (fieldSpec f).cls = .l := by decide
  have ht : ∀ f ∈ regFields .IRQ_DATA, FieldTaken s i w f := fun f hf _ hs => by rw [hcls f hf] at hs; cases hs
  obtain ⟨hw, -, -⟩ := putReg_taken (off := off) ht
  obtain ⟨-, -, -, -, hpend⟩ := hw .IRQ_DATA_PENDING (by decide)
  refine ⟨(hw _ (by decide)).1 rfl (by decide), (hw _ (by decide)).1 rfl (by decide),
    (frame_putReg ht fun f hf => by rw [hcls f hf]; decide).drop ?_⟩
  simp [regFields, hpend (.inl rfl)]

/-- The message of a vector that was masked with one pending. -/
theorem irqData_sends {s : State} {i w off : Nat} (hm : s.rf .IRQ_DATA_MASK i ≠ 0) (hp : s.rf .IRQ_DATA_PENDING i ≠ 0)
    (hw : w.testBit 63 = false) : s.irqData i w off =
      ((s.putReg .IRQ_DATA i w off).setf .IRQ_DATA_PENDING i 0).message (s.rf .IRQ_ADDR_ADDR i * 4) (fpart .IRQ_DATA_DATA w) := by
  obtain ⟨hmask, hdata, hf⟩ := irqData_written s i w off
  rw [fpart_top rfl rfl, hw, Bool.toNat_false] at hmask
  simp only [State.irqData, State.on, hmask, hdata, hf.rf (f := .IRQ_ADDR_ADDR) (i := i) (by simp), bne_iff_ne.2 hm, bne_iff_ne.2 hp,
    bne_self_eq_false, Bool.not_false, Bool.and_self, if_true]

/-- Without a pending message the write is a plain one. -/
theorem irqData_quiet {s : State} {i w off : Nat} (hp : s.rf .IRQ_DATA_PENDING i = 0) : s.irqData i w off = s.putReg .IRQ_DATA i w off := by
  simp only [State.irqData, State.on, hp, bne_self_eq_false, Bool.and_false, Bool.false_eq_true, if_false]

theorem message_sent {s : State} {addr data : Nat} (h : s.aon.irqOut < 32) :
    s.message addr data = { s.emit (.irq addr data) with aon := { s.aon with irqOut := s.aon.irqOut + 1 } } := if_pos h

/-! ## The commands -/

theorem fpart_admVector (n : Nat) : fpart .ADM_CTL_VECTOR n = n % 32 := congrArg (· % 32) (Nat.div_one n)

theorem fpart_irqData (n : Nat) : fpart .IRQ_DATA_DATA n = n % 2 ^ 32 := congrArg (· % 2 ^ 32) (Nat.div_one n)

theorem fpart_setTop {f : Fld} (hf : (fieldSpec f).hi < 63) (v : Word) : fpart f (v ||| 0x8000000000000000#64).toNat = fpart f v.toNat :=
  fpart_of_low hf fun _ => testBit_setTop v

theorem fpart_clearTop {f : Fld} (hf : (fieldSpec f).hi < 63) (v : Word) : fpart f (v &&& 0x7FFFFFFFFFFFFFFF#64).toNat = fpart f v.toNat :=
  fpart_of_low hf fun _ => testBit_clearTop v

section
variable {s : State} (hc : s.coreOn = true) {v : Word} {n : Nat} (hn : n = v.toNat)
include hc hn

theorem does_adminQueueEnable (hen : s.rf .ADM_CTL_EN = 0) (hs : 4 ≤ n / 2 ^ 8 % 32 ∧ n / 2 ^ 8 % 32 ≤ 16)
    (hq : 4 ≤ n / 2 ^ 16 % 32 ∧ n / 2 ^ 16 % 32 ≤ 16) : Does (.adminQueueEnable v) s fun t =>
      (t.rf .ADM_CTL_EN = 1 ∧ t.rf .ADM_CTL_SQ_LOG2 = n / 2 ^ 8 % 32 ∧ t.rf .ADM_CTL_CQ_LOG2 = n / 2 ^ 16 % 32
        ∧ t.rf .ADM_CTL_VECTOR = n % 32)
      ∧ Frame [.rdata] ((regFields .ADM_CTL).map fun f => (f, 0)) s t := by
  subst hn
  have hoff : (answered s).on .ADM_CTL_EN = false := by
    rw [State.on, show (answered s).rf .ADM_CTL_EN 0 = 0 from hen, bne_self_eq_false]
  have htakes : AdminTakes (answered s) (v ||| 0x8000000000000000#64).toNat := by
    simp only [AdminTakes, List.forall_mem_cons]
    rw [fpart_setTop (by decide), fpart_setTop (by decide), fpart_setTop (by decide)]
    exact ⟨.inr ⟨Bool.and_eq_true_iff.2 (hq.imp decide_eq_true decide_eq_true), hoff⟩,
      .inr ⟨Bool.and_eq_true_iff.2 (hs.imp decide_eq_true decide_eq_true), hoff⟩, .inr ⟨rfl, hoff⟩, by simp⟩
  obtain ⟨hw, hf⟩ := admCtl_written (off := 0x1000110) htakes
  refine does_write (exec_adminQueueEnable hc v) hf ⟨?_, ?_, ?_, ?_⟩
  · rw [hw _ (by decide), fpart_top rfl rfl, setTop_top]
    rfl
  · exact (hw _ (by decide)).trans (fpart_setTop (by decide) v)
  · exact (hw _ (by decide)).trans (fpart_setTop (by decide) v)
  · rw [hw _ (by decide), fpart_setTop (by decide), fpart_admVector]

theorem does_adminQueueDisable (hs : s.rf .ADM_CTL_SQ_LOG2 = n / 2 ^ 8 % 32) (hq : s.rf .ADM_CTL_CQ_LOG2 = n / 2 ^ 16 % 32)
    (hv : s.rf .ADM_CTL_VECTOR = n % 32) :
    Does (.adminQueueDisable v) s fun t => t.rf .ADM_CTL_EN = 0 ∧ Frame [.rdata] [(.ADM_CTL_EN, 0)] s t := by
  subst hn
  have hsame : ∀ f ∈ ([.ADM_CTL_CQ_LOG2, .ADM_CTL_SQ_LOG2, .ADM_CTL_VECTOR] : List Fld),
      fpart f (v &&& 0x7FFFFFFFFFFFFFFF#64).toNat = s.rf f := by
    simp only [List.forall_mem_cons]
    rw [fpart_clearTop (by decide), fpart_clearTop (by decide), fpart_clearTop (by decide), fpart_admVector]
    exact ⟨hq.symm, hs.symm, hv.symm, by simp⟩
  obtain ⟨hw, hf⟩ := admCtl_written (s := answered s) (off := 0x1000110) fun f hf => .inl (hsame f hf)
  refine does_write (exec_adminQueueDisable hc v) (hf.drop fun x hx hn => ?_) ?_
  · obtain ⟨f, hf, rfl⟩ := List.mem_map.1 hx
    rcases List.mem_cons.1 hf with rfl | hf'
    · exact absurd (List.mem_singleton.2 rfl) hn
    · exact (hw f hf).trans (hsame f hf')
  · rw [hw _ (by decide), fpart_top rfl rfl, clearTop_top]
    rfl

variable {k : Fin 32}

/-- With a message pending the unmasked vector sends it and PENDING clears. -/
theorem does_irqUnmask_sends (hm : s.rf .IRQ_DATA_MASK k ≠ 0) (hp : s.rf .IRQ_DATA_PENDING k ≠ 0) (ho : s.aon.irqOut < 32) :
    Does (.irqUnmask k v) s fun t => t.rf .IRQ_DATA_MASK k = 0 ∧ t.rf .IRQ_DATA_PENDING k = 0 ∧ t.rf .IRQ_DATA_DATA k = n % 2 ^ 32
      ∧ t.outbox = s.outbox ++ [.irq (s.rf .IRQ_ADDR_ADDR k * 4) (n % 2 ^ 32)] ∧ t.aon.irqOut = s.aon.irqOut + 1
      ∧ Frame [.rdata, .outbox, .aon] [(.IRQ_DATA_MASK, k), (.IRQ_DATA_PENDING, k), (.IRQ_DATA_DATA, k)] s t := by
  subst hn
  have hx := exec_irqUnmask hc v k
  rw [irqData_sends (s := answered s) hm hp (clearTop_top v), fpart_clearTop (by decide), fpart_irqData] at hx
  obtain ⟨hmask, hdata, hf⟩ := irqData_written (answered s) k (v &&& 0x7FFFFFFFFFFFFFFF#64).toNat (regOff .IRQ_DATA k)
  rw [fpart_top rfl rfl, clearTop_top] at hmask
  rw [fpart_clearTop (by decide), fpart_irqData] at hdata
  have hf1 := ((frame_rdata s 0).append hf).append (frame_setf _ .IRQ_DATA_PENDING k 0)
  have haon : State.aon _ = s.aon := hf1.part .aon (by simp)
  have hout : State.outbox _ = s.outbox := hf1.part .outbox (by simp)
  rw [message_sent (haon ▸ ho), haon] at hx
  have hf2 := frame_message (((answered s).putReg .IRQ_DATA k (v &&& 0x7FFFFFFFFFFFFFFF#64).toNat (regOff .IRQ_DATA k)).setf .IRQ_DATA_PENDING k 0)
    (.irq ((answered s).rf .IRQ_ADDR_ADDR k * 4) (v.toNat % 2 ^ 32)) { s.aon with irqOut := s.aon.irqOut + 1 }
  refine does_of_frame hx (hf1.append hf2) ⟨?_, ?_, ?_, congrArg (· ++ _) hout, rfl, (hf1.append hf2).mono (by simp) (by simp)⟩
  · rw [hf2.rf List.not_mem_nil, State.rf_setf_other _ _ _ _ _ _ (by simp), hmask]
    rfl
  · rw [hf2.rf List.not_mem_nil, State.rf_setf_same]
    rfl
  · rw [hf2.rf List.not_mem_nil, State.rf_setf_other _ _ _ _ _ _ (by simp), hdata]

/-- With none pending only MASK and DATA change. -/
theorem does_irqUnmask_quiet (hp : s.rf .IRQ_DATA_PENDING k = 0) : Does (.irqUnmask k v) s fun t =>
    (t.rf .IRQ_DATA_MASK k = 0 ∧ t.rf .IRQ_DATA_DATA k = n % 2 ^ 32) ∧ Frame [.rdata] [(.IRQ_DATA_MASK, k), (.IRQ_DATA_DATA, k)] s t := by
  subst hn
  have hx := exec_irqUnmask hc v k
  rw [irqData_quiet (s := answered s) hp] at hx
  obtain ⟨hmask, hdata, hf⟩ := irqData_written (answered s) k (v &&& 0x7FFFFFFFFFFFFFFF#64).toNat (regOff .IRQ_DATA k)
  rw [fpart_top rfl rfl, clearTop_top] at hmask
  rw [fpart_clearTop (by decide), fpart_irqData] at hdata
  exact does_write hx hf ⟨hmask, hdata⟩

end

/-- Settles O25: each command is a plain write of its register, whose forced bit the other fields do not see. -/
theorem adminQueueAndVectorMaskAreSwitched : Obligations.AdminQueueAndVectorMaskAreSwitched := by
  intro s v k hc n
  refine ⟨fun hen h1 h2 h3 h4 => ?_, does_adminQueueDisable hc rfl, does_irqUnmask_sends hc rfl, fun hp => ?_⟩
  · obtain ⟨t, he, ⟨hen, hsq, hcq, hv⟩, hf⟩ := does_adminQueueEnable hc rfl hen ⟨h1, h2⟩ ⟨h3, h4⟩
    exact ⟨t, he, hen, hsq, hcq, hv, hf.mono (by simp) (by simp [regFields])⟩
  · obtain ⟨t, he, ⟨hmask, hdata⟩, hf⟩ := does_irqUnmask_quiet hc rfl hp
    exact ⟨t, he, hmask, hdata, hf⟩

end Sys2Proof

namespace Sys2Proof

open Machine

/-! # Barrier carriages (O36) -/

/-! ## Barrier ends (R250, R252) -/

theorem frame_sync (s : State) (x : Sync) : Frame [.sync] [] s { s with sync := x } :=
  frame_of_parts rfl rfl rfl fun p _ => by cases p <;> simp_all [Part.Same]

theorem bar_setBar (s : State) (t : Nat) (b : BarSt) : (s.setBar t b).bar t = b := sget_sset_same ..

theorem node_setNode (b : BarSt) (a : Nat) (n : BarNode) : (b.setNode a n).node a = n := by
  unfold BarSt.setNode BarSt.node
  split
  · rfl
  · split <;> rfl

/-- Whose arrivals are held, and whether one awaits its release, is no matter of the nodes. -/
theorem setNode_held_out (b : BarSt) (a : Nat) (n : BarNode) : (b.setNode a n).held = b.held ∧ (b.setNode a n).out = b.out := by
  unfold BarSt.setNode
  split
  · exact ⟨rfl, rfl⟩
  · split <;> exact ⟨rfl, rfl⟩

/-- Node nd after one more arrival that does not complete it. -/
def nodeArrived (nd : BarNode) (absent : Bool) : BarNode := { nd with count := nd.count + 1, absent := nd.absent || absent }

/-- One more arrival counted at the node of axis a, nothing else. -/
def nodeCounted (s : State) (t a : Nat) (absent : Bool) : State := s.setBar t ((s.bar t).setNode a (nodeArrived ((s.bar t).node a) absent))

theorem frame_nodeCounted (s : State) (t a : Nat) (absent : Bool) : Frame [.sync] [] s (nodeCounted s t a absent) := frame_sync s _

theorem node_nodeCounted (s : State) (t a : Nat) (absent : Bool) :
    ((nodeCounted s t a absent).bar t).node a = nodeArrived ((s.bar t).node a) absent := by
  rw [nodeCounted, bar_setBar, node_setNode]

theorem nodeCounted_held_out (s : State) (t a : Nat) (absent : Bool) :
    ((nodeCounted s t a absent).bar t).held = (s.bar t).held ∧ ((nodeCounted s t a absent).bar t).out = (s.bar t).out := by
  rw [nodeCounted, bar_setBar]
  exact setNode_held_out ..

section
variable {s : State} {t a : Nat} {rest : List Nat} {absent : Bool}

/-- An arrival at a node that still lacks arrivals afterwards is counted there. -/
theorem onArrive_counted {sense : Bool} (hs : ((s.bar t).node a).sense = sense)
    (hn : ((s.bar t).node a).count < (spanChildren (axisVal (s.team t).ext a) (s.rank t a)).length) :
    s.onArrive t (a :: rest) sense absent = nodeCounted s t a absent := by
  have hsense : (((s.bar t).node a).sense != sense) = false := by simp [hs]
  simp only [State.onArrive, hsense, Bool.false_eq_true, if_false, Nat.add_comm 1, Nat.add_lt_add_iff_right, hn, if_true, nodeCounted, nodeArrived]

/-- No held arrival is made where there is none, or one still awaits its release. -/
theorem heldArrive_stays (h : (s.bar t).held = [] ∨ (s.bar t).out = true) : s.heldArrive t = s := by
  unfold State.heldArrive
  split
  · next he => exact if_pos (h.resolve_left (by simp [he]))
  · rfl

end

/-! ## What a barrier carriage does (R253, R261) -/

section
variable {s : State} {c : Carriage}

theorem barrierHere_orphan (hv : s.rf .SYN_BAR_VALID (cTeam c) = 0) : s.barrierHere c = (s.reinFor c false).misuse 6 0 (cSrc c) := by
  have hrein : (s.reinFor c false).on .SYN_BAR_VALID (cTeam c) = false := by
    simp only [State.on, (reinsOnly_reinFor s c false).frame.rf (List.not_mem_nil), hv, bne_self_eq_false]
  have hon : s.on .SYN_BAR_VALID (cTeam c) = false := by simp [State.on, hv]
  simp [State.barrierHere, hon]

variable (hv : s.rf .SYN_BAR_VALID (cTeam c) ≠ 0)
include hv

/-- A RELEASE for a team that has its barrier object. -/
theorem barrierHere_release (hp : bPhase c ≠ 0) : s.barrierHere c =
    ((s.reinFor c false).onRelease (cTeam c) (bLevel c) (bSense c) (bAbsent c)).heldArrive (cTeam c) := by
  have hon : s.on .SYN_BAR_VALID (cTeam c) = true := bne_iff_ne.2 hv
  simp [State.barrierHere, hon, hp]

variable (hp : bPhase c = 0)
include hp

/-- An ARRIVE for a level that is no axis of the team. -/
theorem barrierHere_noAxis (hl : (s.teamAxes (cTeam c)).dropWhile (· != bLevel c) = []) :
    s.barrierHere c = (s.reinFor c false).misuse 6 (s.rf .SYN_BAR_OBJ (cTeam c)) (cSrc c) := by
  have hon : s.on .SYN_BAR_VALID (cTeam c) = true := bne_iff_ne.2 hv
  simp [State.barrierHere, hon, hp, hl]

/-- An ARRIVE for an axis of the team. -/
theorem barrierHere_arrive {a : Nat} {rest : List Nat} (hl : (s.teamAxes (cTeam c)).dropWhile (· != bLevel c) = a :: rest) :
    s.barrierHere c = if ((s.bar (cTeam c)).node a).sense = bSense c
      then ((s.reinFor c false).onArrive (cTeam c) (a :: rest) (bSense c) (bAbsent c)).heldArrive (cTeam c)
      else (s.reinFor c false).misuse 5 (s.rf .SYN_BAR_OBJ (cTeam c)) (cSrc c) := by
  have hon : s.on .SYN_BAR_VALID (cTeam c) = true := bne_iff_ne.2 hv
  simp only [State.barrierHere, hon, hp, hl, Bool.not_true, Bool.false_eq_true, if_false, if_true, bne_iff_ne, ite_not]

end

section
variable {s s1 : State} (hc : s.coreOn = true) {p : Port} {c : Carriage}
include hc

theorem exec_barrierArrive (hp : bPhase c = 0) (h : s.takeAccepted p c [7] = some s1) :
    exec (.barrierArrive p c) s = .next (s.keep (s1.barrierHere c)) := by
  show execBarrierArrive p c s = _
  rw [execBarrierArrive, event_on _ _ hc]
  simp only [hp, if_true, h]

theorem exec_barrierArrive_phase (hp : bPhase c ≠ 0) : exec (.barrierArrive p c) s = .next (s.keep s) := by
  show execBarrierArrive p c s = _
  rw [execBarrierArrive, event_on _ _ hc]
  simp only [hp, if_false]

theorem exec_barrierRelease (hp : bPhase c ≠ 0) (h : s.takeAccepted p c [7] = some s1) :
    exec (.barrierRelease p c) s = .next (s.keep (s1.barrierHere c)) := by
  show execBarrierRelease p c s = _
  rw [execBarrierRelease, event_on _ _ hc]
  simp only [bne_iff_ne.2 hp, if_true, h]

theorem exec_barrierRelease_phase (hp : bPhase c = 0) : exec (.barrierRelease p c) s = .next (s.keep s) := by
  show execBarrierRelease p c s = _
  rw [execBarrierRelease, event_on _ _ hc]
  simp only [hp, bne_self_eq_false, Bool.false_eq_true, if_false]

end

/-- An arrival that its node still counts, at an end that makes no held arrival, changes the node. -/
theorem onArrive_heldArrive_counted {s : State} {t a : Nat} {sense : Bool} (rest : List Nat) (absent : Bool)
    (hs : ((s.bar t).node a).sense = sense) (hh : (s.bar t).held = [] ∨ (s.bar t).out = true)
    (hn : ((s.bar t).node a).count < (spanChildren (axisVal (s.team t).ext a) (s.rank t a)).length) :
    (s.onArrive t (a :: rest) sense absent).heldArrive t = nodeCounted s t a absent := by
  obtain ⟨hheld, hout⟩ := nodeCounted_held_out s t a absent
  rw [onArrive_counted hs hn, heldArrive_stays]
  rwa [hheld, hout]

/-- Settles O36: what a carriage does is one branch of barrierHere, whose tests do not see the credit that goes back first. -/
theorem barrierCarriagesMoveTheTree : Obligations.BarrierCarriagesMoveTheTree := by
  intro s s1 p c a rest hc t s2 n nd levels
  refine ⟨fun hp h => ?_, fun hp h => ?_, fun hp => does_nothing (exec_barrierArrive_phase hc hp),
    fun hp => does_nothing (exec_barrierRelease_phase hc hp)⟩
  · have hx : ∀ u, s1.barrierHere c = u → exec (.barrierArrive p c) s = .next (s.keep u) := fun _ he => he ▸ exec_barrierArrive hc hp h
    obtain ⟨-, x, rfl⟩ := takeAccepted_some h
    refine ⟨fun hv => hx _ (barrierHere_orphan hv), fun hv hl => hx _ (barrierHere_noAxis hv hp hl), fun hv hl => ?_⟩
    have harrive := barrierHere_arrive (s := withAccepted s x) hv hp hl
    have hgood (hs : nd.sense = bSense c) : exec (.barrierArrive p c) s =
        .next (s.keep ((s2.onArrive t (a :: rest) (bSense c) (bAbsent c)).heldArrive t)) := hx _ (harrive.trans (if_pos hs))
    refine ⟨fun hs => hx _ (harrive.trans (if_neg hs)), fun hs => hl ▸ hgood hs, fun hs hh hn => ?_⟩
    obtain ⟨hbar, hteam, hrank⟩ : s2.bar t = s.bar t ∧ s2.team t = s.team t ∧ s2.rank t a = s.rank t a := by
      rw [show s2 = _ from reinsOnly_reinFor (withAccepted s x) c false]
      exact ⟨rfl, rfl, rfl⟩
    have hcount := onArrive_heldArrive_counted (s := s2) (sense := bSense c) rest (bAbsent c) (by rwa [hbar]) (by rwa [hbar])
      (by rwa [hbar, hteam, hrank])
    have hnode := node_nodeCounted s2 t a (bAbsent c)
    rw [hbar] at hnode
    have hf := ((frame_withAccepted s x).append (reinsOnly_reinFor (withAccepted s x) c false).frame).append (frame_nodeCounted s2 t a (bAbsent c))
    exact does_of_frame (hcount ▸ hgood hs) hf ⟨hnode, rfl, hf.mono (by simp) (by simp)⟩
  · have hx : ∀ u, s1.barrierHere c = u → exec (.barrierRelease p c) s = .next (s.keep u) := fun _ he => he ▸ exec_barrierRelease hc hp h
    obtain ⟨-, x, rfl⟩ := takeAccepted_some h
    exact ⟨fun hv => hx _ (barrierHere_orphan hv), fun hv => hx _ (barrierHere_release hv hp)⟩

end Sys2Proof

namespace Sys2Proof

open Machine

/-! # Stuck yards, yard resets and replay (O51) -/

/-! ## Sparse maps after dropping keys -/

section
variable {α : Type} (d : Nat → α) (f : Nat → Bool) (m : List (Nat × α)) {k : Nat}

theorem sget_above {j : Nat} (h : above j m = true) (hk : k ≤ j) : sget d m k = d k := by
  cases m with
  | nil => rfl
  | cons x t =>
    have hx : j < x.1 := (above_cons j x.1 x.2 t).1 h |>.1
    exact if_pos (Nat.lt_of_le_of_lt hk hx)

/-- A dropped key reads as the default. -/
theorem sget_skeep_dropped (h : f k = false) : sget d (skeep f m) k = d k := by
  induction m with
  | nil => rfl
  | cons x t ih =>
    obtain ⟨j, w⟩ := x
    by_cases hj : f j = true
    · have hne : k ≠ j := fun e => by rw [e, hj] at h; cases h
      rw [show skeep f ((j, w) :: t) = (j, w) :: skeep f t from List.filter_cons_of_pos hj, sget, if_neg hne, ih, ite_self]
    · exact (congrArg (sget d · k) (List.filter_cons_of_neg hj)).trans ih

/-- A kept key of a map in canonical form reads as before. -/
theorem sget_skeep_kept [DecidableEq α] (hw : swf d m = true) (h : f k = true) : sget d (skeep f m) k = sget d m k := by
  induction m with
  | nil => rfl
  | cons x t ih =>
    obtain ⟨j, w⟩ := x
    simp only [swf, Bool.and_eq_true] at hw
    obtain ⟨⟨-, ha⟩, ht⟩ := hw
    by_cases hj : f j = true
    · rw [show skeep f ((j, w) :: t) = (j, w) :: skeep f t from List.filter_cons_of_pos hj, sget, sget, ih ht]
    · have hne : k ≠ j := fun e => hj (e ▸ h)
      rw [show skeep f ((j, w) :: t) = skeep f t from List.filter_cons_of_neg hj, sget, if_neg hne]
      split
      · next hlt => exact sget_above d _ (above_skeep f j t ha) (Nat.le_of_lt hlt)
      · exact ih ht

end

/-! ## Faults already latched, and the newest record of the log -/

/-- A source already latched, and not masked, changes nothing. -/
theorem fault_unmasked {s : State} {b : Nat} {o : Origin} (d : Nat) (hm : s.masked o b = false) (hb : bitAt (s.rf .FLT_STATUS_SOURCES) b = true) :
    s.fault b o d = s := by
  have hl : s.latch b o d = s := by
    simp only [State.latch, hm, hb, Bool.false_eq_true, if_true, if_false, ite_self]
  simp [State.fault, hl, hb]

theorem logged_log (s : State) (typ unit detail : Nat) (body : List Word) : Logged s (s.log typ unit detail body) typ unit detail body := by
  have hend : ∀ (u : State) (e : Nat),
      (if e = 16384 then (u.setf .AON_LOG_PTR_HEAD 0 0).sat .AON_LOG_PTR_WRAPS 0 else u.setf .AON_LOG_PTR_HEAD 0 e).aon = u.aon := fun u e => by
    split <;> rfl
  exact ⟨_, (congrArg (fun x : Aon => x.log.getLast?) (hend _ _)).trans List.getLast?_concat⟩

/-- The record bears the time; nothing else of the state before matters. -/
theorem Logged.congr {s u t : State} {typ unit detail : Nat} {body : List Word} (h : Logged u t typ unit detail body) (hn : u.now = s.now) :
    Logged s t typ unit detail body := by
  obtain ⟨off, h⟩ := h
  exact ⟨off, hn ▸ h⟩

/-! ## Yard records -/

theorem frame_setYard (s : State) (y : Nat) (x : YardRec) : Frame [.yards] [] s (s.setYard y x) := frame_yards s _

theorem yard_setYard (s : State) (y : Nat) (x : YardRec) : (s.setYard y x).yard y = x := sget_sset_same ..

theorem yard_setYard_other (s : State) {y k : Nat} (x : YardRec) (h : k ≠ y) : (s.setYard y x).yard k = s.yard k := sget_sset_other _ _ _ _ _ _ h

/-! ## The detector (R263, R264) -/

/-- The conditions under which the detector raises yard y. -/
def Raises (s : State) (y : Yard) : Prop :=
  s.rf .SYN_DL_CTL_EN ≠ 0 ∧ bitAt (s.rf .SYN_DL_STATUS_RAISED) y = false ∧ s.stuckYard y = true
    ∧ (s.yard y).quietAt + s.rf .SYN_DL_CTL_WINDOW_US * 1000 ≤ s.now

theorem raises_iff {s : State} {y : Yard} : (s.on .SYN_DL_CTL_EN && !bitAt (s.rf .SYN_DL_STATUS_RAISED) y && s.stuckYard y
    && decide ((s.yard y).quietAt + s.rf .SYN_DL_CTL_WINDOW_US * 1000 ≤ s.now)) = true ↔ Raises s y := by
  simp [Raises, State.on, and_assoc]

theorem exec_deadlockRaise {s : State} (hc : s.coreOn = true) {y : Yard} (h : Raises s y) :
    exec (.deadlockRaise y) s = .next (s.keep (s.raise y)) := by
  show execDeadlockRaise y s = _
  rw [execDeadlockRaise, event_on _ _ hc, if_pos (raises_iff.2 h)]

theorem exec_deadlockRaise_not {s : State} (hc : s.coreOn = true) {y : Yard} (h : ¬ Raises s y) :
    exec (.deadlockRaise y) s = .next (s.keep s) := by
  show execDeadlockRaise y s = _
  rw [execDeadlockRaise, event_on _ _ hc, if_neg (mt raises_iff.1 h)]

/-- Setting a clear bit of a mask of four. -/
theorem bitAt_putBit_set {n g k : Nat} (hg : g < 4) (hn : bitAt n g = false) (hk : k < 4) :
    bitAt (putBit n g true % 2 ^ 4) k = (bitAt n k || k == g) := by
  have hmod : ∀ j, j < 4 → bitAt (n % 2 ^ 4) j = bitAt n j := fun j hj => by
    rw [bitAt_eq_testBit, bitAt_eq_testBit, Nat.testBit_mod_two_pow]
    simp [hj]
  have hput : ∀ m < 2 ^ 4, ∀ g < 4, bitAt m g = false → ∀ k < 4, bitAt ((m + 2 ^ g) % 2 ^ 4) k = (bitAt m k || k == g) := by decide
  have hset := hput (n % 2 ^ 4) (Nat.mod_lt _ (by decide)) g hg (hmod g hg ▸ hn) k hk
  rw [hmod k hk, Nat.mod_add_mod] at hset
  rwa [putBit, hn, if_neg (by decide), if_pos rfl]

/-- What raising a yard leaves with DEADLOCK latched already. -/
theorem raise_latched {s : State} {y : Yard} (hy : bitAt (s.rf .SYN_DL_STATUS_RAISED) y = false) (hb : bitAt (s.rf .FLT_STATUS_SOURCES) 29 = true)
    (hm : s.masked (.yard y) 29 = false) :
    (∀ k, k < 4 → bitAt ((s.raise y).rf .SYN_DL_STATUS_RAISED) k = (bitAt (s.rf .SYN_DL_STATUS_RAISED) k || k == y))
      ∧ Counted s .SYN_DL_STATUS_COUNT 0 (s.raise y) ∧ Logged s (s.raise y) 6 y 0 (wordsOf (s.snapshot y))
      ∧ Frame [.aon] [(.AON_LOG_PTR_HEAD, 0), (.AON_LOG_PTR_WRAPS, 0), (.SYN_DL_STATUS_RAISED, 0), (.SYN_DL_STATUS_COUNT, 0)] s (s.raise y) := by
  have hset := frame_setf s .SYN_DL_STATUS_RAISED 0 (putBit (s.rf .SYN_DL_STATUS_RAISED) y true)
  have hsat := frame_sat (s.setf .SYN_DL_STATUS_RAISED 0 (putBit (s.rf .SYN_DL_STATUS_RAISED) y true)) .SYN_DL_STATUS_COUNT 0 1
  have hlog := frame_log ((s.setf .SYN_DL_STATUS_RAISED 0 (putBit (s.rf .SYN_DL_STATUS_RAISED) y true)).sat .SYN_DL_STATUS_COUNT 0) 6 y 0
    (wordsOf (s.snapshot y))
  have hr : s.raise y = ((s.setf .SYN_DL_STATUS_RAISED 0 (putBit (s.rf .SYN_DL_STATUS_RAISED) y true)).sat .SYN_DL_STATUS_COUNT 0).log 6 y 0
      (wordsOf (s.snapshot y)) := by
    rw [State.raise, fault_unmasked y hm hb]
  rw [hr]
  refine ⟨fun k hk => ?_, ?_, (logged_log ..).congr ((hset.append hsat).now (by simp) (by simp) (by simp)),
    ((hset.append hsat).append hlog).mono (by simp) (by simp)⟩
  · rw [hlog.rf (by simp), hsat.rf (by simp), State.rf_setf_same]
    exact bitAt_putBit_set y.isLt hy hk
  · refine counted_frame ?_ hlog (by simp)
    rw [Counted, rf_sat, hset.rf (by simp)]

/-! ## Step 5: the yard is cleared (R321) -/

/-- A postilion as the running variant's program loads it afresh. -/
def reloaded (s : State) (p : Nat) : Post :=
  match s.prog p with
  | some pr => ({} : Post).load pr
  | none => {}

theorem prog_frame {s t : State} {ps : List Part} {fs : List (Fld × Nat)} (h : Frame ps fs s t) (ht : .tt ∉ ps)
    (hn : (.TT_STORE_NO_VARIANT, 0) ∉ fs) (hv : (.TT_STORE_VAR_IDX, 0) ∉ fs) (p : Nat) : t.prog p = s.prog p := by
  have htt : t.tt = s.tt := h.part .tt ht
  unfold State.prog State.on
  rw [h.rf hn, h.rf hv, htt]

theorem reloaded_frame {s t : State} {ps : List Part} {fs : List (Fld × Nat)} (h : Frame ps fs s t) (ht : .tt ∉ ps)
    (hn : (.TT_STORE_NO_VARIANT, 0) ∉ fs) (hv : (.TT_STORE_VAR_IDX, 0) ∉ fs) (p : Nat) : reloaded t p = reloaded s p := by
  rw [reloaded, prog_frame h ht hn hv, reloaded]

/-- Postilion c of row y is loaded afresh. -/
def reloadPost (y : Nat) (s : State) (c : Nat) : State := s.setPost (16 * y + c) (reloaded s (16 * y + c))

theorem frame_reloadPost (y : Nat) (s : State) (c : Nat) : Frame [.posts, .yards] [] s (reloadPost y s c) := frame_setPost ..

theorem reloaded_reloadPost (y : Nat) (s : State) (c p : Nat) : reloaded (reloadPost y s c) p = reloaded s p :=
  reloaded_frame (frame_reloadPost y s c) (by simp) (by simp) (by simp) p

theorem yard_setPost_elsewhere (s : State) {p k : Nat} (x : Post) (h : k ≠ p / 16) : (s.setPost p x).yard k = s.yard k := by
  unfold State.setPost
  split
  · rfl
  · exact yard_setYard_other _ _ h

/-- The postilions after some of row y are loaded afresh. -/
theorem post_reloadPosts (y : Nat) (l : List Nat) (s : State) (p : Nat) :
    (l.foldl (reloadPost y) s).post p = if p ∈ l.map (16 * y + ·) then reloaded s p else s.post p := by
  induction l generalizing s with
  | nil => rfl
  | cons c l ih =>
    rw [List.foldl_cons, ih, reloaded_reloadPost, List.map_cons]
    by_cases hp : p = 16 * y + c
    · subst hp
      simp [reloadPost]
    · rw [reloadPost, State.post_setPost_other _ _ _ _ hp]
      simp [hp]

/-- No record of another yard moves with them. -/
theorem yard_reloadPosts {y k : Nat} (hk : k ≠ y) (l : List Nat) (hl : ∀ c ∈ l, c < 16) (s : State) :
    (l.foldl (reloadPost y) s).yard k = s.yard k := by
  induction l generalizing s with
  | nil => rfl
  | cons c l ih =>
    have hrow : k ≠ (16 * y + c) / 16 := by have := hl c (List.mem_cons_self ..); omega
    exact (ih (fun d hd => hl d (List.mem_cons_of_mem _ hd)) _).trans (yard_setPost_elsewhere s _ hrow)

/-- The generation counts up and the row's wait is cleared, after a change of the bank and of what the units hold of the yard. -/
def genAdvanced (y : Nat) (v : State) : State := (v.inc .YRD_STATE_GEN y).setf .ARR_WAIT_WAIT y 0

theorem genAdvanced_changes (s : State) (y : Nat) (scr : List (Nat × Byte)) (arr : ArraySt) (groom : GroomSt) (hitch : HitchSt) (sync : Sync) :
    Frame [.scratch, .arr, .groom, .hitch, .sync] [(.YRD_STATE_GEN, y), (.ARR_WAIT_WAIT, y)] s
        (genAdvanced y { s with scratch := scr, arr := arr, groom := groom, hitch := hitch, sync := sync })
      ∧ (genAdvanced y { s with scratch := scr, arr := arr, groom := groom, hitch := hitch, sync := sync }).rf .YRD_STATE_GEN y
        = (s.rf .YRD_STATE_GEN y + 1) % 256 := by
  have hparts : Frame [.scratch, .arr, .groom, .hitch, .sync] [] s
      { s with scratch := scr, arr := arr, groom := groom, hitch := hitch, sync := sync } :=
    frame_of_parts rfl rfl rfl fun p _ => by cases p <;> simp_all [Part.Same]
  refine ⟨hparts.append ((frame_setf _ .YRD_STATE_GEN y _).append (frame_setf _ .ARR_WAIT_WAIT y 0)), ?_⟩
  rw [genAdvanced, State.rf_setf_other _ _ _ _ _ _ (by simp), State.inc, State.rf_setf_same, hparts.rf List.not_mem_nil]
  rfl

/-- Clearing yard y: bank, row and waits first (u), then its postilions. -/
theorem clearYard_eq (s : State) (y : Nat) : ∃ u, s.clearYard y = (List.range 16).foldl (reloadPost y) u
    ∧ Frame [.scratch, .arr, .groom, .hitch, .sync] [(.YRD_STATE_GEN, y), (.ARR_WAIT_WAIT, y)] s u
    ∧ u.scratch = skeep (fun a => !(a / 2 ^ 26 == y)) s.scratch ∧ u.sync = { s.sync with coach := s.sync.coach.filter fun c => c.y != y }
    ∧ u.rf .YRD_STATE_GEN y = (s.rf .YRD_STATE_GEN y + 1) % 256 := by
  obtain ⟨load, scr, arr, groom, hitch, sync, hu, hload, hscr, hsync⟩ : ∃ load scr arr groom hitch sync,
      s.clearYard y = (List.range 16).foldl load
        (genAdvanced y { s with scratch := scr, arr := arr, groom := groom, hitch := hitch, sync := sync })
      ∧ load = reloadPost y ∧ scr = skeep (fun a => !(a / 2 ^ 26 == y)) s.scratch
      ∧ sync = { s.sync with coach := s.sync.coach.filter fun c => c.y != y } := by
    unfold State.clearYard genAdvanced
    exact ⟨_, _, _, _, _, _, rfl, rfl, rfl, rfl⟩
  obtain ⟨hf, hgen⟩ := genAdvanced_changes s y scr arr groom hitch sync
  exact ⟨_, hload ▸ hu, hf, hscr, hsync, hgen⟩

/-- The yard's state after YARD_DRAIN_COMPLETE. -/
def drainDone (s : State) (y : Nat) : State := (s.clearYard y).setYard y { (s.clearYard y).yard y with step := .cleared }

theorem exec_yardDrainComplete {s : State} (hc : s.coreOn = true) {y : Yard} (hs : (s.yard y).step = .draining) (hd : s.drained y = true) :
    exec (.yardDrainComplete y) s = .next (s.keep (drainDone s y)) := by
  show execYardDrainComplete y s = _
  rw [execYardDrainComplete, event_on _ _ hc, if_pos (by simp [hs, hd]), drainDone]

theorem exec_yardDrainComplete_not {s : State} (hc : s.coreOn = true) {y : Yard} (h : (s.yard y).step ≠ .draining ∨ s.drained y = false) :
    exec (.yardDrainComplete y) s = .next (s.keep s) := by
  show execYardDrainComplete y s = _
  rw [execYardDrainComplete, event_on _ _ hc, if_neg (by simpa [imp_iff_not_or] using h)]

/-- After u, where the bank, the row and the waits have been cleared, only postilions and yard records change. -/
theorem frame_drainDone {s u : State} {y : Nat} (hu : s.clearYard y = (List.range 16).foldl (reloadPost y) u) :
    Frame [.posts, .yards] [] u (drainDone s y) := by
  have hrow : Frame [.posts, .yards] [] u (s.clearYard y) := by
    rw [hu]
    exact Frame.foldl _ (fun v c _ => frame_reloadPost y v c) u
  exact (hrow.append (frame_setYard (s.clearYard y) y _)).mono (by simp) (by simp)

theorem post_drainDone (s : State) (y p : Nat) :
    (drainDone s y).post p = if p ∈ (List.range 16).map (16 * y + ·) then reloaded s p else s.post p := by
  obtain ⟨u, hu, hf, -, -, -⟩ := clearYard_eq s y
  have hposts : (drainDone s y).posts = (s.clearYard y).posts := (frame_setYard _ y _).part .posts (by simp)
  have huposts : u.posts = s.posts := hf.part .posts (by simp)
  have hrow := post_reloadPosts y (List.range 16) u p
  rw [← hu, reloaded_frame hf (by simp) (by simp) (by simp) p, State.post, State.post, huposts] at hrow
  rw [State.post, hposts, hrow, State.post]

theorem yard_drainDone_other (s : State) {y k : Nat} (hk : k ≠ y) : (drainDone s y).yard k = s.yard k := by
  obtain ⟨u, hu, hf, -, -, -⟩ := clearYard_eq s y
  have huyards : u.yards = s.yards := hf.part .yards (by simp)
  rw [drainDone, yard_setYard_other _ _ hk, hu, yard_reloadPosts hk _ (fun c => List.mem_range.1), State.yard, huyards, State.yard]

/-- What is cleared of yard y, and that the other yards keep theirs. -/
theorem drainDone_cleared (s : State) (y : Nat) : ((drainDone s y).yard y).step = .cleared
    ∧ (∀ k, k ≠ y → (drainDone s y).yard k = s.yard k) ∧ (drainDone s y).rf .YRD_STATE_GEN y = (s.rf .YRD_STATE_GEN y + 1) % 256
    ∧ (∀ a, a / 2 ^ 26 = y → sget byte0 (drainDone s y).scratch a = 0)
    ∧ (Memory.wf s.scratch = true → ∀ a, a / 2 ^ 26 ≠ y → sget byte0 (drainDone s y).scratch a = sget byte0 s.scratch a)
    ∧ (∀ c, c < 16 → (drainDone s y).post (16 * y + c) = reloaded s (16 * y + c))
    ∧ (∀ p, p / 16 ≠ y → (drainDone s y).post p = s.post p)
    ∧ (drainDone s y).sync = { s.sync with coach := s.sync.coach.filter fun c => c.y != y }
    ∧ Frame [.scratch, .arr, .groom, .hitch, .sync, .posts, .yards] [(.YRD_STATE_GEN, y), (.ARR_WAIT_WAIT, y)] s (drainDone s y) := by
  obtain ⟨u, hu, hf, hscr, hsync, hgen⟩ := clearYard_eq s y
  have hend := frame_drainDone hu
  have hscratch : (drainDone s y).scratch = u.scratch := hend.part .scratch (by simp)
  have hwaits : (drainDone s y).sync = u.sync := hend.part .sync (by simp)
  refine ⟨by rw [drainDone, yard_setYard], fun k => yard_drainDone_other s, by rw [hend.rf List.not_mem_nil, hgen], fun a ha => ?_,
    fun hw a ha => ?_, fun c hc => ?_, fun p hp => ?_, by rw [hwaits, hsync], (hf.append hend).mono (by simp) (by simp)⟩
  · rw [hscratch, hscr]
    exact sget_skeep_dropped _ _ _ (by simpa using ha)
  · rw [hscratch, hscr]
    exact sget_skeep_kept _ _ _ hw (by simpa using ha)
  · rw [post_drainDone, if_pos (List.mem_map_of_mem (List.mem_range.2 hc))]
  · rw [post_drainDone, if_neg]
    intro hm
    obtain ⟨c, hc, rfl⟩ := List.mem_map.1 hm
    have := List.mem_range.1 hc
    omega

/-! ## The end of a reset (Table 12.4, step 8) -/

/-- The reset of yard y has ended, and completed RESET_YARD where a command asked for it. -/
def ResetEnded (s : State) (y : Nat) (t : State) : Prop :=
  t.rf .YRD_STATE_STATE y = (if s.oos then 3 else 0) ∧ t.rf .YRD_STATE_REPLAY_TEAM y = 0 ∧ (t.yard y).step = .running
    ∧ t.qs = { s.qs with dones := s.qs.dones ++ match (s.yard y).cmd with
      | some (q, id) => [ofGen t (plainDone q id 0x0E (if s.oos then 0xA else 0) 0)]
      | none => [] }

/-- The state of yard y's row and record once its reset has ended. -/
def resetOver (s : State) (y : Nat) : State :=
  ((s.setf .YRD_STATE_STATE y (if s.oos then 3 else 0)).setf .YRD_STATE_REPLAY_TEAM y 0).setYard y
    { s.yard y with step := .running, cmd := none, suspects := [], replaying := none }

theorem frame_resetOver (s : State) (y : Nat) : Frame [.yards] [(.YRD_STATE_STATE, y), (.YRD_STATE_REPLAY_TEAM, y)] s (resetOver s y) :=
  ((frame_setf s .YRD_STATE_STATE y _).append (frame_setf _ .YRD_STATE_REPLAY_TEAM y 0)).append (frame_setYard _ y _)

/-- The yard's source latched and no shadow window open, only the command that asked for the reset is left to complete. -/
theorem finishReset_latched {s : State} {y : Nat} (hw : s.aon.windows = []) (hb : bitAt (s.rf .FLT_STATUS_SOURCES) (36 + y) = true) :
    s.finishReset y = match (s.yard y).cmd with
      | some (q, id) => (resetOver s y).finish q id 0x0E (if s.oos then 0xA else 0)
      | none => resetOver s y := by
  have hf := (frame_setf s .YRD_STATE_STATE y (if s.oos then 3 else 0)).append (frame_setf _ .YRD_STATE_REPLAY_TEAM y 0)
  have hfault : ((s.setf .YRD_STATE_STATE y (if s.oos then 3 else 0)).setf .YRD_STATE_REPLAY_TEAM y 0).fault (36 + y) (.yard y) =
      (s.setf .YRD_STATE_STATE y (if s.oos then 3 else 0)).setf .YRD_STATE_REPLAY_TEAM y 0 :=
    fault_latched hw (by rw [hf.rf (by simp)]; exact hb)
  simp only [State.finishReset, hfault]
  cases (s.yard y).cmd <;> rfl

theorem resetOver_shown (s : State) (y : Nat) : (resetOver s y).rf .YRD_STATE_STATE y = (if s.oos then 3 else 0)
    ∧ (resetOver s y).rf .YRD_STATE_REPLAY_TEAM y = 0 ∧ ((resetOver s y).yard y).step = .running := by
  refine ⟨?_, ?_, by rw [resetOver, yard_setYard]⟩
  · rw [resetOver, (frame_setYard _ y _).rf List.not_mem_nil, State.rf_setf_other _ _ _ _ _ _ (by simp), State.rf_setf_same]
    split <;> rfl
  · rw [resetOver, (frame_setYard _ y _).rf List.not_mem_nil, State.rf_setf_same]
    rfl

/-- With nothing else outstanding or fetched a completion joins those to be posted, and that is all. -/
theorem qs_finish_alone {s : State} (hq : s.qs.cmds = []) (hft : s.qs.fetched = []) (q id op status result : Nat) :
    (s.finish q id op status result).qs =
      { s.qs with dones := s.qs.dones ++ [ofGen (s.finish q id op status result) (plainDone q id op status result)] } := by
  simp only [State.finish, State.finishWith, hq, hft, List.filter_nil]
  rfl

/-- With nothing outstanding, no shadow window and the yard's source latched a reset that ends does nothing else. -/
theorem finishReset_ends {s : State} {y : Nat} (hq : s.qs.cmds = []) (hft : s.qs.fetched = []) (hw : s.aon.windows = [])
    (hb : bitAt (s.rf .FLT_STATUS_SOURCES) (36 + y) = true) : ResetEnded s y (s.finishReset y)
      ∧ Frame [.yards, .qs] [(.YRD_STATE_STATE, y), (.YRD_STATE_REPLAY_TEAM, y)] s (s.finishReset y) := by
  have hf := frame_resetOver s y
  have hqs : (resetOver s y).qs = s.qs := hf.part .qs (by simp)
  obtain ⟨hst, hteam, hstep⟩ := resetOver_shown s y
  rw [finishReset_latched hw hb]
  unfold ResetEnded
  cases (s.yard y).cmd with
  | none => exact ⟨⟨hst, hteam, hstep, by simp [hqs]⟩, hf.mono (by simp) (by simp)⟩
  | some c =>
    obtain ⟨q, id⟩ := c
    have hfin := frame_finish (resetOver s y) q id 0x0E (if s.oos then 0xA else 0) 0
    have hdone := qs_finish_alone (s := resetOver s y) (hqs ▸ hq) (hqs ▸ hft) q id 0x0E (if s.oos then 0xA else 0) 0
    have hyards : ((resetOver s y).finish q id 0x0E (if s.oos then 0xA else 0)).yards = (resetOver s y).yards := hfin.part .yards (by simp)
    refine ⟨⟨by rw [hfin.rf List.not_mem_nil, hst], by rw [hfin.rf List.not_mem_nil, hteam], ?_, hqs ▸ hdone⟩, hf.append hfin⟩
    rw [State.yard, hyards]
    exact hstep

/-! ## Step 6: the coachman starts again -/

theorem exec_coachmanRestart {s : State} (hc : s.coreOn = true) {y : Yard} (hs : (s.yard y).step = .cleared) :
    exec (.coachmanRestart y) s = .next (s.keep (s.restartCoach y)) := by
  show execCoachmanRestart y s = _
  rw [execCoachmanRestart, event_on _ _ hc, if_pos (beq_iff_eq.2 hs)]

theorem exec_coachmanRestart_not {s : State} (hc : s.coreOn = true) {y : Yard} (hs : (s.yard y).step ≠ .cleared) :
    exec (.coachmanRestart y) s = .next (s.keep s) := by
  show execCoachmanRestart y s = _
  rw [execCoachmanRestart, event_on _ _ hc, if_neg (mt beq_iff_eq.1 hs)]

/-- The instances of yard y not started are to be bound anew, and none of its completions is held. -/
def boundAnew (s : State) (y : Nat) : State :=
  (s.updInst (fun i => i.st == .bound && s.rf .TT_TEAM_YARD i.team == y) fun i => { i with st := .waiting }).setYard y { s.yard y with held := [] }

theorem frame_boundAnew (s : State) (y : Nat) : Frame [.insts, .yards] [] s (boundAnew s y) := (frame_insts s _).append (frame_setYard _ y _)

/-- Yard y goes to REPLAYING with its suspects. -/
def replayBegun (s : State) (y : Nat) : State :=
  ((boundAnew s y).setYard y { s.yard y with step := .replay, held := [], replaying := none }).setf .YRD_STATE_STATE y 2

theorem frame_replayBegun (s : State) (y : Nat) : Frame [.insts, .yards] [(.YRD_STATE_STATE, y)] s (replayBegun s y) :=
  (((frame_boundAnew s y).append (frame_setYard _ y _)).append (frame_setf _ .YRD_STATE_STATE y 2)).mono (by simp) (by simp)

/-- With nothing held or outstanding. -/
theorem restartCoach_quiet {s : State} {y : Nat} (hh : (s.yard y).held = []) (hq : s.qs.cmds = []) : s.restartCoach y =
    if s.oos || (s.yard y).suspects.isEmpty then (boundAnew s y).finishReset y
    else replayBegun s y := by
  have hrec : ((boundAnew s y).yard y) = { s.yard y with held := [] } := yard_setYard ..
  simp only [State.restartCoach, hh, hq, List.foldl_nil, List.filter_nil]
  change (if (boundAnew s y).oos || _ then (boundAnew s y).finishReset y
    else ((boundAnew s y).setYard y { (boundAnew s y).yard y with step := .replay, replaying := none }).setf .YRD_STATE_STATE y 2) = _
  rw [hrec]
  rfl

/-! ## Replay (R330) -/

theorem exec_replay {s : State} (hc : s.coreOn = true) {y : Yard} (hs : (s.yard y).step = .replay) :
    exec (.replay y) s = .next (s.keep (s.replayMove y)) := by
  show execReplay y s = _
  rw [execReplay, event_on _ _ hc, if_pos (beq_iff_eq.2 hs)]

theorem exec_replay_not {s : State} (hc : s.coreOn = true) {y : Yard} (hs : (s.yard y).step ≠ .replay) :
    exec (.replay y) s = .next (s.keep s) := by
  show execReplay y s = _
  rw [execReplay, event_on _ _ hc, if_neg (mt beq_iff_eq.1 hs)]

section
variable {s : State} {y : Nat} {z : Suspect} {rest : List Suspect} {i : Inst}

theorem replayMove_ends (hs : (s.yard y).suspects = []) : s.replayMove y = s.finishReset y := by
  simp only [State.replayMove, hs]

/-- The first suspect, which has gone, makes way. -/
theorem replayMove_pops (hs : (s.yard y).suspects = z :: rest) (hz : s.suspectNow z = none) : s.replayMove y =
    (s.setYard y { s.yard y with suspects := rest, replaying := none }).log 9 y
      (z.inst.team + 256 * if s.rf .TT_TEAM_STATE z.inst.team = 1 then 0xE else 1) := by
  simp only [State.replayMove, State.popSuspect, hs, hz]

theorem replayMove_running (hs : (s.yard y).suspects = z :: rest) (hz : s.suspectNow z = some i) : s.replayMove y =
    if (s.yard y).replaying.isSome then s
    else ((s.setYard y { s.yard y with replaying := some s.now }).setf .YRD_STATE_REPLAY_TEAM y i.team).rerun i := by
  simp only [State.replayMove, hs, hz]

end

section
variable {s : State} (hc : s.coreOn = true) {y : Yard}
include hc

theorem exec_replayGuilty_idle (h : (s.yard y).suspects = [] ∨ (s.yard y).replaying = none ∨ (s.yard y).step ≠ .replay) :
    exec (.replayGuilty y) s = .next (s.keep s) := by
  show execReplayGuilty y s = _
  rw [execReplayGuilty, event_on _ _ hc]
  congr 2
  split
  · next z rest t0 hs ht =>
    have hstep : ((s.yard y).step == .replay) = false := by simpa [hs, ht] using h
    split
    · exact if_neg (by simp [hstep])
    · rfl
  · rfl

/-- The suspect under replay is found guilty when its timer has expired, and not before. -/
theorem exec_replayGuilty_timed {z : Suspect} {rest : List Suspect} {t0 : Nat} {i : Inst} (hs : (s.yard y).suspects = z :: rest)
    (ht : (s.yard y).replaying = some t0) (hz : s.suspectNow z = some i) : exec (.replayGuilty y) s = .next (s.keep
      (if (s.yard y).step = .replay ∧ t0 + s.rf .DB_TIMEOUT_COLL_MS (s.team i.team).queue * 1000000 ≤ s.now then s.guilty y z i else s)) := by
  show execReplayGuilty y s = _
  rw [execReplayGuilty, event_on _ _ hc]
  simp only [hs, ht, hz, Bool.and_eq_true, beq_iff_eq, decide_eq_true_eq]
  rfl

end

/-! ## The statement -/

section
variable {s : State} (hc : s.coreOn = true) {y : Yard} {z : Suspect} {rest : List Suspect}
include hc

/-- Restarted with suspects left the yard replays. -/
theorem does_coachmanRestart_replays (hstep : (s.yard y).step = .cleared) (hh : (s.yard y).held = []) (hq : s.qs.cmds = []) (ho : s.oos = false)
    (hs : (s.yard y).suspects = z :: rest) : Does (.coachmanRestart y) s fun t => t.rf .YRD_STATE_STATE y = 2
      ∧ t.yard y = { s.yard y with step := .replay, held := [], replaying := none } ∧ t.insts = (boundAnew s y).insts
      ∧ Frame [.insts, .yards] [(.YRD_STATE_STATE, y)] s t := by
  have hx := exec_coachmanRestart hc hstep
  rw [restartCoach_quiet hh hq, hs, ho, List.isEmpty_cons, Bool.or_self, if_neg Bool.false_ne_true] at hx
  exact does_of_frame hx (frame_replayBegun s y) ⟨State.rf_setf_same .., yard_setYard .., rfl, frame_replayBegun s y⟩

/-- Restarted without, or out of service, its reset ends. -/
theorem does_coachmanRestart_ends (hstep : (s.yard y).step = .cleared) (hh : (s.yard y).held = []) (hq : s.qs.cmds = [])
    (hft : s.qs.fetched = []) (hw : s.aon.windows = []) (hb : bitAt (s.rf .FLT_STATUS_SOURCES) (36 + y) = true)
    (hs : s.oos = true ∨ (s.yard y).suspects = []) : Does (.coachmanRestart y) s fun t => ResetEnded s y t ∧ t.insts = (boundAnew s y).insts
      ∧ Frame [.insts, .yards, .qs] [(.YRD_STATE_STATE, y), (.YRD_STATE_REPLAY_TEAM, y)] s t := by
  have hx := exec_coachmanRestart hc hstep
  have hend : (s.oos || (s.yard y).suspects.isEmpty) = true := by simpa using hs
  rw [restartCoach_quiet hh hq, if_pos hend] at hx
  obtain ⟨hended, hfin⟩ := finishReset_ends (s := boundAnew s y) (y := y) hq hft hw hb
  have hrec : ((boundAnew s y).yard y) = { s.yard y with held := [] } := yard_setYard ..
  rw [ResetEnded, hrec] at hended
  have hf := (frame_boundAnew s y).append hfin
  exact does_of_frame hx hf ⟨hended, hfin.part .insts (by simp), hf.mono (by simp) (by simp)⟩

/-- The first suspect has gone: its outcome is logged, and it makes way. -/
theorem does_replay_pops (hstep : (s.yard y).step = .replay) (hs : (s.yard y).suspects = z :: rest) (hz : s.suspectNow z = none) :
    Does (.replay y) s fun t => t.yard y = { s.yard y with suspects := rest, replaying := none }
      ∧ Logged s t 9 y (z.inst.team + 256 * if s.rf .TT_TEAM_STATE z.inst.team = 1 then 0xE else 1) []
      ∧ Frame [.yards, .aon] [(.AON_LOG_PTR_HEAD, 0), (.AON_LOG_PTR_WRAPS, 0)] s t := by
  have hx := exec_replay hc hstep
  rw [replayMove_pops hs hz] at hx
  have hset := frame_setYard s y { s.yard y with suspects := rest, replaying := none }
  have hlog := frame_log (s.setYard y { s.yard y with suspects := rest, replaying := none }) 9 y
    (z.inst.team + 256 * if s.rf .TT_TEAM_STATE z.inst.team = 1 then 0xE else 1) []
  have hyards : State.yards _ = State.yards _ := hlog.part .yards (by simp)
  refine does_of_frame hx (hset.append hlog) ⟨?_, (logged_log ..).congr (hset.now (by simp) (by simp) (by simp)), hset.append hlog⟩
  rw [State.yard, hyards]
  exact yard_setYard ..

end

/-- Settles O51: each command is the branch of its row that its hypotheses name; what a drain, a restart, a replay and the end of a
reset leave is said above. -/
theorem yardResetsRunTheirSteps : Obligations.YardResetsRunTheirSteps := by
  intro s y z rest i t0 hc r S ptr raises again ended quiet ends
  refine ⟨exec_deadlockRaise hc, fun hr hb hm => ?_, fun hr => does_nothing (exec_deadlockRaise_not hc hr),
    fun h => does_nothing (exec_yardDrainComplete_not hc h), fun hs hd => ?_,
    fun hs => does_nothing (exec_coachmanRestart_not hc hs), exec_coachmanRestart hc, does_coachmanRestart_replays hc,
    fun hs hh ⟨hq, hft, hw, hb⟩ hz => does_coachmanRestart_ends hc hs hh hq hft hw hb hz, fun hs => does_nothing (exec_replay_not hc hs),
    fun hs hz ⟨hq, hft, hw, hb⟩ => ?_, does_replay_pops hc, fun hs hz hi ht => does_nothing ?_, fun hs hz hi ht => ?_,
    fun h => does_nothing (exec_replayGuilty_idle hc h), fun hz ht hi => ⟨fun hn => does_nothing ?_, fun hs hn => ?_⟩⟩
  · have hx := exec_deadlockRaise hc hr
    obtain ⟨-, hclear, -, -⟩ := hr
    obtain ⟨hbits, hcount, hlog, hf⟩ := raise_latched hclear hb hm
    exact does_of_frame hx hf ⟨hbits, hcount, hlog, hf⟩
  · obtain ⟨hstep, hyards, hgen, hbank, hrest, hrow, hposts, hsync, hf⟩ := drainDone_cleared s y
    exact does_of_frame (exec_yardDrainComplete hc hs hd) hf ⟨hstep, hyards, hgen, hbank, hrest, hrow, hposts, hsync, hf⟩
  · obtain ⟨hended, hf⟩ := finishReset_ends hq hft hw hb
    exact does_of_frame (replayMove_ends hz ▸ exec_replay hc hs) hf ⟨hended, hf⟩
  · rw [exec_replay hc hs, replayMove_running hz hi, if_pos (by rw [ht, Option.isSome_some])]
  · rw [exec_replay hc hs, replayMove_running hz hi, if_neg (by rw [ht, Option.isSome_none]; exact Bool.false_ne_true)]
  · rw [exec_replayGuilty_timed hc hz ht hi, if_neg fun h => Nat.not_le.2 hn h.2]
  · rw [exec_replayGuilty_timed hc hz ht hi, if_pos ⟨hs, hn⟩]

end Sys2Proof

namespace Sys2Proof

open Machine

/-! # Admin commands: in order, invalid, out of service (O8, O9, O10, O18) -/

/-! ## The branches of an admin command -/

/-- The records of the pairs are read off the queues. -/
theorem qp_congr {s t : State} (h : t.qs.qps = s.qs.qps) (q : Nat) : t.qp q = s.qp q := by rw [State.qp, h, State.qp]

/-- A command that completes at once does only that. -/
theorem does_finish {c : Instr} {s : State} {q id op status result : Nat} (he : exec c s = .next (s.keep (s.finish q id op status result))) :
    Does c s fun t => Completed s t (plainDone q id op status result) ∧ t.qs.qps = s.qs.qps ∧ Frame [.qs] [] s t :=
  does_of_frame he (frame_finish ..) ⟨completed_finish .., rfl, frame_finish ..⟩

section
variable {s : State} {q op : Nat} {e : Entry} {fs : List (Nat × Nat)} {ft : Fetched} {onPair : Bool} {f : State → Fetched → State}

/-- Out of service or in Stable a command not named by R288 completes OUT_OF_SERVICE. -/
theorem startCmd_outOfService (hft : s.start? q op e = some ft) (ho : (s.oos || s.stable) = true) (ha : oosAllowed op e = false) :
    s.startCmd q op e fs onPair f = s.finish q (eId e) op 0xA := by
  simp only [State.startCmd, hft, ho, ha, Bool.not_false, Bool.and_true, if_true]

/-- An entry whose flags or reserved bytes are not in order completes INVALID (R273). -/
theorem startCmd_malformed {rd : Nat × Nat} (hft : s.start? q op e = some ft) (ho : (s.oos || s.stable) = false) (hform : formBad e fs = some rd) :
    s.startCmd q op e fs onPair f = s.invalid q e rd.1 rd.2 := by
  simp only [State.startCmd, hft, ho, hform, Bool.false_and, Bool.false_eq_true, if_false]

variable {bad : State → List (Bool × Nat × Nat)} (h : Starts s 0 op e fs) (hft : s.start? 0 op e = some ft) (htable : tableOf e = none)
include h hft htable

/-- An admin command that passes its own checks has its effect. -/
theorem adminCmd_passes (hb : firstBad (bad s) = none) : s.adminCmd 0 op e fs bad f = f s ft := by
  refine (startCmd_read h hft fun _ => htable).trans ?_
  simp only [hb]

/-- One that fails a check of its own completes INVALID with the first that fails. -/
theorem adminCmd_fails {rd : Nat × Nat} (hb : firstBad (bad s) = some rd) : s.adminCmd 0 op e fs bad f = s.invalid 0 e rd.1 rd.2 := by
  refine (startCmd_read h hft fun _ => htable).trans ?_
  simp only [hb]

end

/-- What an admin command of pair 0 that names no table and passes its own checks does. -/
theorem exec_of_adminCmd {s : State} {op : Nat} {e : Entry} {fs : List (Nat × Nat)} {c : Instr} {bad : State → List (Bool × Nat × Nat)}
    {eff : State → State} (h : Starts s 0 op e fs) (hop : fragOps op = false ∧ op ≠ 0x30 ∧ op ≠ 0x31 ∧ op ≠ 0x32)
    (he : exec c s = event s fun s => s.adminCmd 0 op e fs bad fun s _ => eff s) (hb : firstBad (bad s) = none) :
    exec c s = .next (s.keep (eff s)) := by
  obtain ⟨ft, hft⟩ := Option.isSome_iff_exists.1 h.2.1
  rw [he, event_on _ _ h.1, adminCmd_passes h hft (tableOf_of_opcode h hop.1 hop.2) hb]

/-! ## Out of service (O10) -/

/-- The eleven commands of O10 with their opcodes. -/
def startedRows (q : QP) (e : Entry) : List (Instr × Nat) :=
  [(.createSq q e, 0x01), (.createCq q e, 0x02), (.defineTeam q e, 0x05), (.retireTeam q e, 0x06), (.setTenant q e, 0x08), (.allocSync q e, 0x09),
    (.freeSync q e, 0x0A), (.mirrorConfig q e, 0x0C), (.resetYard q e, 0x0E), (.setEndpoints q e, 0x10), (.setDetour q e, 0x11)]

/-- Command c of opcode op is started by `startCmd`, and R288 does not name it. -/
def StartsByR288 (s : State) (q : QP) (e : Entry) (c : Instr) (op : Nat) : Prop :=
  oosAllowed op e = false ∧ ∃ fs onPair f, exec c s = .next (s.keep (s.startCmd q op e fs onPair f))

theorem startsByR288_of_event {s : State} {q : QP} {e : Entry} {c : Instr} {op : Nat} {fs : List (Nat × Nat)} {onPair : Bool}
    {f : State → Fetched → State} (hc : s.coreOn = true) (he : exec c s = event s fun s => s.startCmd q op e fs onPair f)
    (ha : oosAllowed op e = false) : StartsByR288 s q e c op := ⟨ha, fs, onPair, f, he.trans (event_on _ _ hc)⟩

theorem startedRows_start {s : State} {q : QP} {e : Entry} {c : Instr} {op : Nat} (hc : s.coreOn = true) (h : (c, op) ∈ startedRows q e) :
    StartsByR288 s q e c op := by
  simp only [startedRows, List.mem_cons, Prod.mk.injEq, List.not_mem_nil, or_false] at h
  rcases h with h | h | h | h | h | h | h | h | h | h | h <;> obtain ⟨rfl, rfl⟩ := h <;> exact startsByR288_of_event hc rfl rfl

/-- Settles O10: each of the commands is started by `startCmd`, whose first branch is OUT_OF_SERVICE. -/
theorem adminCommandsOutOfServiceChangeNothing : Obligations.AdminCommandsOutOfServiceChangeNothing := by
  intro s q e c op hm hc hst ho
  obtain ⟨ft, hft⟩ := Option.isSome_iff_exists.1 hst
  obtain ⟨ha, fs, onPair, f, hx⟩ := startedRows_start hc hm
  rw [startCmd_outOfService hft ho ha] at hx
  exact (does_finish hx).imp fun t ⟨hdone, hqps, hf⟩ => ⟨hdone, fun r => qp_congr hqps r, hf⟩

/-! ## The first failed check (O18) -/

/-- The ten commands of O18 with opcode, operand fields and own checks. -/
def checkedRows (s : State) (q : QP) (e : Entry) : List (Instr × Nat × List (Nat × Nat) × List (Bool × Nat × Nat)) :=
  [(.createSq q e, 0x01, [(4, 2), (8, 8), (16, 1), (20, 2), (22, 2)], createSqBad e s),
    (.createCq q e, 0x02, [(4, 2), (8, 8), (16, 1), (17, 1), (24, 8)], createCqBad e s),
    (.destroySq q e, 0x03, [(4, 2)], destroySqBad e s), (.destroyCq q e, 0x04, [(4, 2)], destroyCqBad e s),
    (.defineTeam q e, 0x05, [(4, 1), (5, 1), (6, 1), (7, 1), (8, 1), (9, 1), (10, 1), (12, 3), (16, 3), (20, 2)], defineTeamBad e s),
    (.setTenant q e, 0x08, [(4, 1), (5, 1), (6, 2), (8, 2), (12, 2), (14, 2), (16, 4)], setTenantBad e s),
    (.mirrorConfig q e, 0x0C, [(4, 1), (6, 2), (8, 1), (12, 4), (16, 4)], mirrorConfigBad e s),
    (.resetYard q e, 0x0E, [(4, 1), (5, 1)], resetYardBad e s),
    (.setEndpoints q e, 0x10, [(4, 2), (6, 2), (8, 8), (16, 8)], setEndpointsBad e s),
    (.setDetour q e, 0x11, [(4, 2), (6, 2), (8, 1), (16, 8)], setDetourBad e s)]

/-- Command c of opcode op runs as an admin command with the operand fields `fs` and the checks `bad`, and names no table. -/
def RunsAsAdminCmd (s : State) (q : QP) (e : Entry) (c : Instr) (op : Nat) (fs : List (Nat × Nat)) (bad : List (Bool × Nat × Nat)) : Prop :=
  (fragOps op = false ∧ op ≠ 0x30 ∧ op ≠ 0x31 ∧ op ≠ 0x32)
    ∧ ∃ b eff, b s = bad ∧ exec c s = .next (s.keep (s.adminCmd q op e fs b eff))

theorem exec_destroyCq_undestroyed {s : State} {q : QP} {e : Entry} (hc : s.coreOn = true) (hd : s.destroying (ent e 4 2) = false) :
    execDestroyCq q e s = .next (s.keep (s.adminCmd q 0x04 e [(4, 2)] (destroyCqBad e) fun s _ =>
      (s.setf .DB_STATUS_CQ_LIVE (ent e 4 2) 0).finish q (eId e) 0x04 0)) :=
  (event_on s _ hc).trans (congrArg (fun t => Host.Outcome.next (s.keep t)) (if_neg (ne_true_of_eq_false hd)))

theorem runsAsAdminCmd_of_event {s : State} {q : QP} {e : Entry} {c : Instr} {op : Nat} {fs : List (Nat × Nat)}
    {b : State → List (Bool × Nat × Nat)} {eff : State → Fetched → State} (hc : s.coreOn = true)
    (he : exec c s = event s fun s => s.adminCmd q op e fs b eff) (hop : fragOps op = false ∧ op ≠ 0x30 ∧ op ≠ 0x31 ∧ op ≠ 0x32) :
    RunsAsAdminCmd s q e c op fs (b s) := ⟨hop, b, eff, rfl, he.trans (event_on _ _ hc)⟩

/-- Each of them runs so; DESTROY_CQ while no DESTROY_SQ of its pair is still to complete. -/
theorem checkedRows_run {s : State} {q : QP} {e : Entry} {c : Instr} {op : Nat} {fs : List (Nat × Nat)} {bad : List (Bool × Nat × Nat)}
    (hc : s.coreOn = true) (h : (c, op, fs, bad) ∈ checkedRows s q e) (hd : op = 0x04 → s.destroying (ent e 4 2) = false) :
    RunsAsAdminCmd s q e c op fs bad := by
  simp only [checkedRows, List.mem_cons, Prod.mk.injEq, List.not_mem_nil, or_false] at h
  rcases h with h | h | h | h | h | h | h | h | h | h <;> obtain ⟨rfl, rfl, rfl, rfl⟩ := h
  case inr.inr.inr.inl => exact ⟨by decide, _, _, rfl, exec_destroyCq_undestroyed hc (hd rfl)⟩
  all_goals exact runsAsAdminCmd_of_event hc rfl (by decide)

/-- Settles O18: an entry that is not in order is refused by `startCmd`, one that fails a check of its own by `adminCmd`. -/
theorem invalidCommandsReportTheFirstFailedCheck : Obligations.InvalidCommandsReportTheFirstFailedCheck := by
  intro s q e c op fs bad rd hm hc hst ho hd hbad
  obtain ⟨ft, hft⟩ := Option.isSome_iff_exists.1 hst
  obtain ⟨-, -, hop⟩ := start?_some hft
  obtain ⟨⟨hfrag, hdesc⟩, b, eff, hb, hx⟩ := checkedRows_run hc hm hd
  have hinv : s.adminCmd q op e fs b eff = s.finish q (eId e) op 6 (rd.1 + 256 * rd.2) := by
    rcases hbad with hform | ⟨hform, hq, hfirst⟩
    · exact (startCmd_malformed hft ho hform).trans (hop ▸ rfl)
    · subst hq hb
      have hs : Starts s 0 op e fs := ⟨hc, hst, ho, hform⟩
      exact (adminCmd_fails hs hft (tableOf_of_opcode hs hfrag hdesc) hfirst).trans (hop ▸ rfl)
  rw [hinv] at hx
  exact (does_finish hx).imp fun t ⟨hdone, _, hf⟩ => ⟨hdone, hf⟩

end Sys2Proof

namespace Sys2Proof

open Machine

/-! # Queue pairs come into service and leave it (O8) -/

/-! ## CREATE_SQ and CREATE_CQ (R276) -/

section
variable {s : State} {c : Instr} {l : List (Fld × Nat × Nat)} {p q id op result : Nat} {x : QpRec}

/-- A command that sets a list of fields and the record of one pair, and completes. -/
theorem does_pairSet (he : exec c s = .next (s.keep (((s.setfs l).setQp p x).finish q id op 0 result))) (hn : (fieldsIn l).Nodup)
    (hfit : ∀ y ∈ l, y.2.2 < 2 ^ fwidth y.1) : Does c s fun t =>
      (∀ y ∈ l, t.rf y.1 y.2.1 = y.2.2) ∧ t.qp p = x ∧ (∀ r, r ≠ p → t.qp r = s.qp r) ∧ Completed s t (plainDone q id op 0 result)
      ∧ Frame [.qs] (fieldsIn l) s t := by
  have hset := frame_setfs l s
  have hqs : (s.setfs l).qs = s.qs := hset.part .qs (by simp)
  have hqp : Frame [.qs] [] (s.setfs l) ((s.setfs l).setQp p x) := frame_qs _ _
  have hdone : Frame [.qs] [] ((s.setfs l).setQp p x) _ := frame_finish _ q id op 0 result
  have hf := ((hset.append hqp).append hdone).mono (qs := [.qs]) (gs := fieldsIn l) (by simp) (by simp)
  refine does_of_frame he hf ⟨fun y hy => ?_, sget_sset_same .., fun r hr => ?_, ?_, hf⟩
  · have hv : (s.setfs l).rf y.1 y.2.1 = y.2.2 % 2 ^ fwidth y.1 :=
      rf_setfs hy (fun w hw => congrArg (·.2.2) (List.inj_on_of_nodup_map hn hw hy rfl)) s
    rw [hdone.rf List.not_mem_nil, hqp.rf List.not_mem_nil, hv, Nat.mod_eq_of_lt (hfit y hy)]
  · exact (sget_sset_other _ _ _ _ _ _ hr).trans (qp_congr (congrArg Queues.qps hqs) r)
  · have hc := completed_finish ((s.setfs l).setQp p x) q id op 0 result
    rwa [Completed, show ((s.setfs l).setQp p x).qs = { s.qs with qps := sset (fun _ => {}) s.qs.qps p x } from
      congrArg (fun k : Queues => { k with qps := sset (fun _ => {}) k.qps p x }) hqs] at hc

end

/-- The fields that CREATE_CQ sets. -/
def cqFields (e : Entry) : List (Fld × Nat × Nat) :=
  let p := ent e 4 2
  [(.DB_STATUS_CQ_LOG2, p, ent e 16 1), (.DB_STATUS_VECTOR, p, ent e 17 1), (.DB_STATUS_CQ_LIVE, p, 1), (.DB_CQ_TAIL_TAIL, p, 0),
    (.DB_CQ_HEAD_HEAD, p, 0), (.DB_CQ_ARM_ARM, p, 0)]

/-- The fields that CREATE_SQ sets. -/
def sqFields (s : State) (e : Entry) : List (Fld × Nat × Nat) :=
  let p := ent e 4 2
  [(.DB_STATUS_QGEN, p, (s.rf .DB_STATUS_QGEN p + 1) % 256), (.DB_STATUS_SQ_LOG2, p, ent e 16 1), (.DB_STATUS_SQ_LIVE, p, 1),
    (.DB_SQ_TAIL_TAIL, p, 0), (.DB_SQ_HEAD_HEAD, p, 0), (.DB_TIMEOUT_COLL_MS, p, if ent e 20 2 = 0 then 2000 else ent e 20 2),
    (.DB_TIMEOUT_REM_100US, p, if ent e 22 2 = 0 then 1000 else ent e 22 2)]

theorem cqFields_fit {e : Entry} (hlog : ent e 16 1 ≤ 16) (hvec : ent e 17 1 ≤ 31) : ∀ y ∈ cqFields e, y.2.2 < 2 ^ fwidth y.1 := by
  simp only [cqFields, List.forall_mem_cons]
  exact ⟨Nat.lt_of_le_of_lt hlog (by decide), Nat.lt_of_le_of_lt hvec (by decide), by decide, by decide, by decide, by decide,
    fun _ h => absurd h List.not_mem_nil⟩

/-- A timeout, given or by default, fits its field of 16 bits. -/
theorem timeout_lt (e : Entry) (o : Nat) {d : Nat} (hd : d < 2 ^ 16) : (if ent e o 2 = 0 then d else ent e o 2) < 2 ^ 16 := by
  split
  · exact hd
  · exact ent_lt e o 2

theorem sqFields_fit {s : State} {e : Entry} (hlog : ent e 16 1 ≤ 16) : ∀ y ∈ sqFields s e, y.2.2 < 2 ^ fwidth y.1 := by
  simp only [sqFields, List.forall_mem_cons]
  exact ⟨Nat.mod_lt _ (by decide), Nat.lt_of_le_of_lt hlog (by decide), by decide, by decide, by decide, timeout_lt e 20 (by decide),
    timeout_lt e 22 (by decide), fun _ h => absurd h List.not_mem_nil⟩

section
variable {s : State} {e : Entry}

/-- The pair and the ring that CREATE_CQ and CREATE_SQ take (Table 10.7). -/
def RingOk (s : State) (e : Entry) : Prop :=
  ent e 4 2 ≠ 0 ∧ ent e 4 2 < s.fuses.conf.queues ∧ ent e 8 8 % 4096 = 0 ∧ 4 ≤ ent e 16 1 ∧ ent e 16 1 ≤ 16
    ∧ s.rf .DB_STATUS_QUARANTINE (ent e 4 2) = 0

theorem createCqBad_none (h : RingOk s e) (hvec : ent e 17 1 ≤ 31) (hmir : ent e 24 8 % 8 = 0)
    (hcq : s.rf .DB_STATUS_CQ_LIVE (ent e 4 2) = 0) (hsq : s.rf .DB_STATUS_SQ_LIVE (ent e 4 2) = 0) : firstBad (createCqBad e s) = none := by
  obtain ⟨hp, hlt, hbase, hlo, hhi, hquar⟩ := h
  simp [createCqBad, ringBad, firstBad, qpOf, State.nq, State.on, Nat.not_le.2 hlt, Nat.not_lt.2 hlo, Nat.not_lt.2 hhi, Nat.not_lt.2 hvec, hp,
    hbase, hquar, hmir, hcq, hsq]

theorem createSqBad_none (h : RingOk s e) (hcq : s.rf .DB_STATUS_CQ_LIVE (ent e 4 2) ≠ 0) (hsq : s.rf .DB_STATUS_SQ_LIVE (ent e 4 2) = 0) :
    firstBad (createSqBad e s) = none := by
  obtain ⟨hp, hlt, hbase, hlo, hhi, hquar⟩ := h
  simp [createSqBad, ringBad, firstBad, qpOf, State.nq, State.on, Nat.not_le.2 hlt, Nat.not_lt.2 hlo, Nat.not_lt.2 hhi, hp, hbase, hquar, hcq, hsq]

theorem exec_createCq (h : Starts s 0 0x02 e [(4, 2), (8, 8), (16, 1), (17, 1), (24, 8)]) (hb : firstBad (createCqBad e s) = none) :
    exec (.createCq 0 e) s = .next (s.keep ((createCq e s).finish 0 (eId e) 0x02 0 0)) :=
  exec_of_adminCmd (eff := fun s => (createCq e s).finish 0 (eId e) 0x02 0) h (by decide) rfl hb

theorem createCq_eq (s : State) (e : Entry) : createCq e s =
    (s.setfs (cqFields e)).setQp (ent e 4 2) { s.qp (ent e 4 2) with cqBase := ent e 8 8, mirror := ent e 24 8 } := rfl

/-- The generation in force is what the field just set reads (R276). -/
theorem exec_createSq (h : Starts s 0 0x01 e [(4, 2), (8, 8), (16, 1), (20, 2), (22, 2)]) (hb : firstBad (createSqBad e s) = none) :
    exec (.createSq 0 e) s = .next (s.keep ((createSq e s).finish 0 (eId e) 0x01 0 ((createSq e s).rf .DB_STATUS_QGEN (ent e 4 2)))) :=
  exec_of_adminCmd (eff := fun s => (createSq e s).finish 0 (eId e) 0x01 0 ((createSq e s).rf .DB_STATUS_QGEN (ent e 4 2))) h (by decide) rfl hb

theorem createSq_eq (s : State) (e : Entry) :
    createSq e s = (s.setfs (sqFields s e)).setQp (ent e 4 2) { s.qp (ent e 4 2) with sqBase := ent e 8 8 } := rfl

theorem nodup_sqFields (s : State) (e : Entry) : (fieldsIn (sqFields s e)).Nodup := by simp [fieldsIn, sqFields]

theorem nodup_cqFields (e : Entry) : (fieldsIn (cqFields e)).Nodup := by simp [fieldsIn, cqFields]

theorem qgen_createSq (s : State) (e : Entry) : (createSq e s).rf .DB_STATUS_QGEN (ent e 4 2) = (s.rf .DB_STATUS_QGEN (ent e 4 2) + 1) % 256 := by
  have hset : (s.setfs (sqFields s e)).rf .DB_STATUS_QGEN (ent e 4 2) = (s.rf .DB_STATUS_QGEN (ent e 4 2) + 1) % 256 % 2 ^ fwidth .DB_STATUS_QGEN :=
    rf_setfs (by simp [sqFields]) (by simp [sqFields]) s
  exact hset.trans (Nat.mod_mod _ 256)

/-! ## DESTROY_CQ (R276) -/

theorem destroyCqBad_none (hp : ent e 4 2 ≠ 0) (hlt : ent e 4 2 < s.fuses.conf.queues) (hcq : s.rf .DB_STATUS_CQ_LIVE (ent e 4 2) ≠ 0)
    (hsq : s.rf .DB_STATUS_SQ_LIVE (ent e 4 2) = 0) : firstBad (destroyCqBad e s) = none := by
  simp [destroyCqBad, firstBad, qpOf, State.nq, State.on, Nat.not_le.2 hlt, hp, hcq, hsq]

theorem exec_destroyCq (h : Starts s 0 0x04 e [(4, 2)]) (hd : s.destroying (ent e 4 2) = false) (hb : firstBad (destroyCqBad e s) = none) :
    exec (.destroyCq 0 e) s = .next (s.keep ((s.setf .DB_STATUS_CQ_LIVE (ent e 4 2) 0).finish 0 (eId e) 0x04 0)) := by
  obtain ⟨ft, hft⟩ := Option.isSome_iff_exists.1 h.2.1
  exact (exec_destroyCq_undestroyed h.1 hd).trans
    (congrArg (fun t => Host.Outcome.next (s.keep t)) (adminCmd_passes h hft (tableOf_of_opcode h rfl (by decide)) hb))

/-- Before the DESTROY_SQ of its pair has completed, DESTROY_CQ does nothing (R272). -/
theorem does_destroyCq_waits {q : QP} (hd : s.destroying (ent e 4 2) = true) : Does (.destroyCq q e) s (Frame [] [] s) := by
  have he : exec (.destroyCq q e) s = event s fun s => if s.destroying (qpOf e) then s else
    s.adminCmd q 0x04 e [(4, 2)] (destroyCqBad e) fun s _ => (s.setf .DB_STATUS_CQ_LIVE (qpOf e) 0).finish q (eId e) 0x04 0 := rfl
  cases hc : s.coreOn with
  | false => exact ⟨s, he.trans (event_off _ _ hc), Frame.refl ..⟩
  | true => exact does_nothing (he.trans ((event_on _ _ hc).trans (congrArg (fun t => Host.Outcome.next (s.keep t)) (if_pos hd))))

theorem does_destroyCq (h : Starts s 0 0x04 e [(4, 2)]) (hd : s.destroying (ent e 4 2) = false) (hb : firstBad (destroyCqBad e s) = none) :
    Does (.destroyCq 0 e) s fun t => t.rf .DB_STATUS_CQ_LIVE (ent e 4 2) = 0 ∧ (∀ r, t.qp r = s.qp r)
      ∧ Completed s t (plainDone 0 (eId e) 0x04 0 0) ∧ Frame [.qs] [(.DB_STATUS_CQ_LIVE, ent e 4 2)] s t := by
  have hset := frame_setf s .DB_STATUS_CQ_LIVE (ent e 4 2) 0
  have hf := hset.append (frame_finish (s.setf .DB_STATUS_CQ_LIVE (ent e 4 2) 0) 0 (eId e) 0x04 0 0)
  exact does_of_frame (exec_destroyCq h hd hb) hf ⟨State.rf_setf_same s .DB_STATUS_CQ_LIVE _ 0, fun _ => rfl, completed_after hset (by simp) .., hf⟩

/-! ## DESTROY_SQ (R277) -/

theorem destroySqBad_none (hp : ent e 4 2 ≠ 0) (hlt : ent e 4 2 < s.fuses.conf.queues) (hsq : s.rf .DB_STATUS_SQ_LIVE (ent e 4 2) ≠ 0)
    (ht : s.teamNames (ent e 4 2) = false) : firstBad (destroySqBad e s) = none := by
  simp [destroySqBad, firstBad, qpOf, State.nq, State.on, Nat.not_le.2 hlt, hp, hsq, ht]

theorem frame_finishWith (s : State) (d : Done) : Frame [.qs] [] s (s.finishWith d) := frame_qs s _

/-- The completion of a DESTROY_SQ, which waits for every other of its pair. -/
def destroyDone (e : Entry) : Done := { plainDone 0 (eId e) 0x03 0 0 with after := some (ent e 4 2) }

theorem exec_destroySq (h : Starts s 0 0x03 e [(4, 2)]) (hb : firstBad (destroySqBad e s) = none) :
    exec (.destroySq 0 e) s = .next (s.keep ((destroySq e s).finishWith (destroyDone e))) :=
  exec_of_adminCmd (eff := fun s => (destroySq e s).finishWith (destroyDone e)) h (by decide) rfl hb

/-- The fields that DESTROY_SQ sets of pair p. -/
def destroyFields (p : Nat) : List (Fld × Nat) := [(.DB_STATUS_SQ_LIVE, p), (.DB_STATUS_QUARANTINE, p)]

/-- Where no instance passes the test, none is dropped. -/
theorem dropInsts_of_not {f : Inst → Bool} (h : ∀ i ∈ s.insts, f i = false) : s.dropInsts f = s := by
  have hgone : ∀ i ∈ s.insts, (f i && (i.st == .waiting || i.st == .bound)) = false := fun i hm => by rw [h i hm, Bool.false_and]
  have hnone : s.insts.filter (fun i => f i && (i.st == .waiting || i.st == .bound)) = [] :=
    List.filter_eq_nil_iff.2 fun i hm => ne_true_of_eq_false (hgone i hm)
  have hall : s.insts.filter (fun i => !(f i && (i.st == .waiting || i.st == .bound))) = s.insts :=
    List.filter_eq_self.2 fun i hm => by rw [hgone i hm, Bool.not_false]
  simp only [State.dropInsts, hnone, List.foldl_nil, hall]

/-- An instance is bound to a command of pair p. -/
theorem unbind_eq (s : State) (p : Nat) : (s.unbind fun q _ => q == p) = s.dropInsts fun i => i.cmd.any fun c => c.1 == p := by
  refine congrArg s.dropInsts (funext fun i => ?_)
  cases i.cmd <;> rfl

/-- With no command outstanding or fetched and no instance bound, the service ends and the pair is in quarantine. -/
theorem destroySq_idle (hc : ∀ c ∈ s.qs.cmds, c.q ≠ ent e 4 2) (hf : ∀ f ∈ s.qs.fetched, f.q ≠ ent e 4 2)
    (hi : ∀ i ∈ s.insts, ∀ id, i.cmd ≠ some (ent e 4 2, id)) :
    destroySq e s = (s.setf .DB_STATUS_SQ_LIVE (ent e 4 2) 0).setf .DB_STATUS_QUARANTINE (ent e 4 2) 1 := by
  have hcmds : s.qs.cmds.filter (fun c => c.q == qpOf e) = [] := List.filter_eq_nil_iff.2 fun c hm => by simpa [qpOf] using hc c hm
  have hfetched : s.qs.fetched.filter (fun f => f.q == qpOf e) = [] := List.filter_eq_nil_iff.2 fun f hm => by simpa [qpOf] using hf f hm
  have hcancel : (s.setf .DB_STATUS_SQ_LIVE (qpOf e) 0).cancelCmds (fun c => c.q == qpOf e) = s.setf .DB_STATUS_SQ_LIVE (qpOf e) 0 := by
    show (s.qs.cmds.filter _).foldl _ _ = _
    rw [hcmds, List.foldl_nil]
  unfold destroySq
  simp only [hcancel]
  rw [show (s.setf .DB_STATUS_SQ_LIVE (qpOf e) 0).qs.cmds.filter (fun c => c.q == qpOf e) = [] from hcmds, List.foldl_nil,
    show (s.setf .DB_STATUS_SQ_LIVE (qpOf e) 0).qs.fetched.filter (fun f => f.q == qpOf e) = [] from hfetched, List.foldl_nil, unbind_eq,
    dropInsts_of_not]
  · rfl
  · intro i hm
    rw [Option.any_eq_false]
    exact fun c hcmd => beq_false_of_ne fun hq => hi i hm c.2 (hcmd.trans (congrArg some (Prod.ext hq rfl)))

theorem does_destroySq_idle (h : Starts s 0 0x03 e [(4, 2)]) (hb : firstBad (destroySqBad e s) = none) (hc : ∀ c ∈ s.qs.cmds, c.q ≠ ent e 4 2)
    (hf : ∀ f ∈ s.qs.fetched, f.q ≠ ent e 4 2) (hi : ∀ i ∈ s.insts, ∀ id, i.cmd ≠ some (ent e 4 2, id)) : Does (.destroySq 0 e) s fun t =>
      t.rf .DB_STATUS_SQ_LIVE (ent e 4 2) = 0 ∧ t.rf .DB_STATUS_QUARANTINE (ent e 4 2) = 1 ∧ (∀ r, t.qp r = s.qp r)
      ∧ Completed s t (destroyDone e) ∧ Frame [.qs] (destroyFields (ent e 4 2)) s t := by
  have hx := exec_destroySq h hb
  rw [destroySq_idle hc hf hi] at hx
  have hquar := frame_setf (s.setf .DB_STATUS_SQ_LIVE (ent e 4 2) 0) .DB_STATUS_QUARANTINE (ent e 4 2) 1
  have hfin : Frame [.qs] [] ((s.setf .DB_STATUS_SQ_LIVE (ent e 4 2) 0).setf .DB_STATUS_QUARANTINE (ent e 4 2) 1) _ := frame_finishWith _ (destroyDone e)
  have hframe := ((frame_setf s .DB_STATUS_SQ_LIVE (ent e 4 2) 0).append hquar).append hfin
  exact does_of_frame hx hframe ⟨(hfin.rf List.not_mem_nil).trans ((hquar.rf (by simp)).trans (State.rf_setf_same ..)),
    (hfin.rf List.not_mem_nil).trans (State.rf_setf_same ..), fun _ => rfl, ⟨rfl, rfl, rfl⟩, hframe⟩

end

/-- Settles O8: each command that passes its checks sets its list of fields and its pair's record, and completes; a DESTROY_CQ whose pair is being
destroyed waits. -/
theorem queuePairsAreCreatedAndTheirRingsRemoved : Obligations.QueuePairsAreCreatedAndTheirRingsRemoved := by
  intro s q e p ring
  refine ⟨fun hq h (hr : RingOk s e) hvec hmir hcq hsq => ?_, fun hq h (hr : RingOk s e) hcq hsq => ?_, fun hq h hp hlt hcq hsq hd => ?_, does_destroyCq_waits,
    fun hq h hp hlt hsq ht hc hf hi => ?_⟩ <;> subst hq
  · have hx := exec_createCq h (createCqBad_none hr hvec hmir hcq hsq)
    obtain ⟨-, -, -, -, hlog, -⟩ := hr
    rw [createCq_eq] at hx
    have hd := does_pairSet hx (nodup_cqFields e) (cqFields_fit hlog hvec)
    refine hd.imp fun t ⟨hrf, hqp, hother, hdone, hframe⟩ => ?_
    simp only [cqFields, List.forall_mem_cons] at hrf
    obtain ⟨hlog2, hvector, hlive, htail, hhead, harm, -⟩ := hrf
    exact ⟨hlive, hlog2, hvector, htail, hhead, harm, hqp, hother, hdone, hframe.mono (by simp) (by simp [fieldsIn, cqFields, p])⟩
  · have hx := exec_createSq h (createSqBad_none hr hcq hsq)
    obtain ⟨-, -, -, -, hlog, -⟩ := hr
    rw [qgen_createSq, createSq_eq] at hx
    have hd := does_pairSet hx (nodup_sqFields s e) (sqFields_fit hlog)
    refine hd.imp fun t ⟨hrf, hqp, hother, hdone, hframe⟩ => ?_
    simp only [sqFields, List.forall_mem_cons] at hrf
    obtain ⟨hgen, hlog2, hlive, htail, hhead, hcoll, hrem, -⟩ := hrf
    exact ⟨hgen, hlive, hlog2, htail, hhead, hcoll, hrem, hqp, hother, hdone, hframe.mono (by simp) (by simp [fieldsIn, sqFields, p])⟩
  · exact does_destroyCq h hd (destroyCqBad_none hp hlt hcq hsq)
  · exact does_destroySq_idle h (destroySqBad_none hp hlt hsq ht) hc hf hi

end Sys2Proof

namespace Sys2Proof

open Machine

/-! # DESTROY_SQ ends every command of its pair (O9) -/

/-! ## Taking carriages out of their queues changes fields of the router only (R182, R184, R198) -/

/-- The register fields that sending, receiving and refusing a carriage may change. -/
def routerFields : List Fld :=
  [.RTE_WINSTAT_IN_USE, .RTE_RXGEN_GENS, .RTE_DROPS_MALFORMED, .RTE_DROPS_MISROUTE, .RTE_DROPS_STALE, .RTE_DROPS_TENANT, .RTE_EP_HI_STALE,
    .GRM_FARWIN_REJECT, .PWR_STATE_CUR]

/-- From s to t no register field but the router's has changed, nor what the fuses fix. -/
def RouterOnly (s t : State) : Prop := t.fuses = s.fuses ∧ ∀ f, f ∉ routerFields → ∀ i, t.rf f i = s.rf f i

namespace RouterOnly

variable {s t u : State}

theorem refl (s : State) : RouterOnly s s := ⟨rfl, fun _ _ _ => rfl⟩

theorem trans (h : RouterOnly s t) (k : RouterOnly t u) : RouterOnly s u :=
  ⟨k.1.trans h.1, fun f hf i => (k.2 f hf i).trans (h.2 f hf i)⟩

theorem ite {c : Prop} [Decidable c] (h : RouterOnly s t) (k : RouterOnly s u) : RouterOnly s (if c then t else u) := by
  split
  · exact h
  · exact k

theorem foldl {α : Type} {f : State → α → State} (l : List α) (h : ∀ u x, RouterOnly u (f u x)) (s : State) : RouterOnly s (l.foldl f s) := by
  induction l generalizing s with
  | nil => exact .refl s
  | cons x l ih => exact (h s x).trans (ih _)

end RouterOnly

/-- A change of parts and of fields of the router. -/
theorem Frame.routerOnly {ps : List Part} {fs : List (Fld × Nat)} {s t : State} (h : Frame ps fs s t) (hf : ∀ x ∈ fs, x.1 ∈ routerFields) :
    RouterOnly s t := ⟨h.2.1, fun _ hn _ => h.rf fun hm => hn (hf _ hm)⟩

theorem routerOnly_setf (s : State) {f : Fld} (hf : f ∈ routerFields) (i v : Nat) : RouterOnly s (s.setf f i v) :=
  (frame_setf s f i v).routerOnly (by simpa using hf)

theorem routerOnly_net (s : State) (x : Net) : RouterOnly s { s with net := x } := (frame_net s x).routerOnly (by simp)

theorem routerOnly_setWin (s : State) (w : Win) : RouterOnly s (s.setWin w) :=
  .ite (routerOnly_net s _) ((routerOnly_net s _).trans (routerOnly_setf _ (by decide) _ _))

section
variable {s s1 : State} {ep tenant team : Nat} {w : Win}

theorem routerOnly_openWin (h : s.openWin ep tenant team = some (s1, w)) : RouterOnly s s1 := by
  unfold State.openWin at h
  split at h
  · cases h; exact .refl s
  · split at h
    · cases h
    · cases h; exact (routerOnly_net s _).trans (routerOnly_setWin _ _)

theorem routerOnly_takeCredit (h : s.takeCredit ep tenant team = some (s1, w)) : RouterOnly s s1 := by
  unfold State.takeCredit at h
  split at h
  · cases h
  · next hw =>
    split at h
    · cases h
    · cases h; exact (routerOnly_openWin hw).trans (routerOnly_setWin _ _)

end

theorem routerOnly_owe (s : State) (ep tenant team seq q id : Nat) : RouterOnly s (s.owe ep tenant team seq q id) := by
  unfold State.owe
  split
  · exact routerOnly_setWin _ _
  · exact .refl s

theorem routerOnly_uncredit (s : State) (o : OutCar) : RouterOnly s (s.uncredit o) := by
  unfold State.uncredit
  split
  · exact routerOnly_setWin _ _
  · exact .refl s

theorem routerOnly_refuse (s : State) (l : Nat) (c : Carriage) : RouterOnly s (s.refuse l c) := by
  have h1 : RouterOnly s (if farKind c then (s.sat .RTE_DROPS_TENANT 0).sat .GRM_FARWIN_REJECT l else s.sat .RTE_DROPS_TENANT 0) :=
    .ite ((routerOnly_setf s (by decide) _ _).trans (routerOnly_setf _ (by decide) _ _)) (routerOnly_setf s (by decide) _ _)
  exact .ite (h1.trans ((reinsOnly_reinFor _ c true).frame.routerOnly (by simp))) h1

theorem routerOnly_touchFor (s : State) (c : Carriage) : RouterOnly s (s.touchFor c) :=
  .foldl _ (fun u _ => (frame_yards u _).routerOnly (by simp)) s

theorem routerOnly_receiveAt (s : State) (c : Carriage) (port id : Nat) : RouterOnly s (s.receiveAt c port id) := by
  have h0 : RouterOnly s (if cDst c = s.self then s.undoze else s) := .ite (.ite (routerOnly_setf s (by decide) _ _) (.refl s)) (.refl s)
  unfold State.receiveAt
  dsimp only
  split
  · exact h0.trans (routerOnly_setf _ (by decide) _ _)
  · exact h0.trans (routerOnly_setf _ (by decide) _ _)
  · exact h0.trans ((routerOnly_setf _ (by decide) _ _).trans (routerOnly_setf _ (by decide) _ _))
  · exact h0.trans (routerOnly_refuse _ _ _)
  · exact h0.trans (routerOnly_setf _ (by decide) _ _)
  · exact h0.trans ((RouterOnly.trans (.ite (routerOnly_setf _ (by decide) _ _) (.refl _)) (routerOnly_net _ _)).trans (routerOnly_touchFor _ _))

theorem routerOnly_inject (s : State) (c : Carriage) (port inAxis : Nat) : RouterOnly s (s.inject c port inAxis) := by
  have henq : ∀ l p adv c', RouterOnly s (s.enqueue l p adv c') := fun _ _ _ _ => (routerOnly_net s _).trans (routerOnly_net _ _)
  unfold State.inject
  dsimp only
  refine .ite (.ite (routerOnly_setf s (by decide) _ _) (henq ..)) ?_
  split
  · exact henq ..
  · exact (routerOnly_net s _).trans (routerOnly_receiveAt _ _ _ _)
  · exact routerOnly_setf s (by decide) _ _

theorem routerOnly_sendCredited (s : State) (w : Waiting) : RouterOnly s (s.sendCredited w) := by
  unfold State.sendCredited
  split
  · next ht => exact ((routerOnly_takeCredit ht).trans (routerOnly_owe ..)).trans (routerOnly_inject ..)
  · exact routerOnly_net s _

theorem routerOnly_cancelOut (s : State) (p : OutCar → Bool) : RouterOnly s (s.cancelOut p) := by
  have hgone : RouterOnly s ((s.net.outq.filter p).foldl (fun (s : State) o => s.uncredit o)
      { s with net := { s.net with outq := s.net.outq.filter fun o => !p o } }) :=
    (routerOnly_net s _).trans (.foldl _ (fun u o => routerOnly_uncredit u o) _)
  have hpump : ∀ u : State, RouterOnly u u.pumpWaiting := fun u => (routerOnly_net u _).trans (.foldl _ (fun u w => routerOnly_sendCredited u w) _)
  exact .ite (hgone.trans (RouterOnly.trans ((frame_posts _ _).routerOnly (by simp)) (hpump _))) hgone

/-- Cancelling what the commands of a pair still have to send changes the router's fields, the router, the yards' records and the postilions. -/
theorem cancelCmds_keeps (s : State) (p : Cmd → Bool) : RouterOnly s (s.cancelCmds p) ∧ AllBut [.net, .yards, .posts] s (s.cancelCmds p) := by
  unfold State.cancelCmds
  refine ⟨.foldl _ (fun u c => ?_) s, .foldl _ (fun u c => ?_) s⟩
  · split
    · exact routerOnly_cancelOut ..
    · exact routerOnly_cancelOut ..
    · exact .refl u
  · split
    · exact allBut_cancelOut _ _
    · exact allBut_cancelOut _ _
    · exact .refl _ u

/-! ## Commands of one pair complete ABORTED one after the other -/

/-- The commands listed, id and opcode, of pair p complete ABORTED. -/
def abortAll (p : Nat) (l : List (Nat × Nat)) (s : State) : State := l.foldl (fun s x => s.finish p x.1 x.2 1) s

theorem frame_abortAll (p : Nat) (l : List (Nat × Nat)) (s : State) : Frame [.qs] [] s (abortAll p l s) :=
  Frame.foldl l (fun u x _ => frame_finish u p x.1 x.2 1 0) s

/-- A completion shows the generation of its pair. -/
theorem ofGen_congr {s t : State} (h : ∀ q, t.rf .DB_STATUS_QGEN q = s.rf .DB_STATUS_QGEN q) (d : Done) : ofGen t d = ofGen s d := by
  rw [ofGen, h, ofGen]

/-- An item named by the first id or by one of the rest. -/
theorem not_named_cons (a b c : Bool) : (!(a && c) && !(a && b)) = !(a && (b || c)) := by cases a <;> cases b <;> cases c <;> rfl

theorem abortAll_qs (p : Nat) (l : List (Nat × Nat)) (s : State) : (abortAll p l s).qs = { s.qs with
    cmds := s.qs.cmds.filter fun c => !(c.q == p && l.any fun x => c.id == x.1)
    fetched := s.qs.fetched.filter fun f => !(f.q == p && l.any fun x => eId f.e == x.1)
    dones := s.qs.dones ++ l.map fun x => ofGen s (plainDone p x.1 x.2 1 0) } := by
  induction l generalizing s with
  | nil => simp [abortAll]
  | cons x l ih =>
    refine (ih (s.finish p x.1 x.2 1)).trans ?_
    obtain ⟨hdones, hfetched, hcmds⟩ := completed_finish s p x.1 x.2 1 0
    have hgen : ∀ d, ofGen (s.finish p x.1 x.2 1) d = ofGen s d := ofGen_congr fun _ => rfl
    rw [hdones, hfetched, hcmds]
    simp only [hgen, List.filter_filter, not_named_cons, plainDone, List.any_cons, List.map_cons, List.append_assoc, List.singleton_append]
    rfl

/-! ## The effect of DESTROY_SQ (R277) -/

/-- The outstanding commands of pair p. -/
def openCmds (s : State) (p : Nat) : List Cmd := s.qs.cmds.filter fun c => c.q == p

/-- The fetched entries of pair p that are no outstanding command. -/
def leftEntries (s : State) (p : Nat) : List Fetched :=
  s.qs.fetched.filter fun f => f.q == p && !((openCmds s p).any fun c => c.id == eId f.e)

/-- Id and opcode of the outstanding commands of pair p. -/
def openIds (s : State) (p : Nat) : List (Nat × Nat) := (openCmds s p).map fun c => (c.id, eOp c.e)

/-- Id and opcode of the entries left. -/
def leftIds (s : State) (p : Nat) : List (Nat × Nat) := (leftEntries s p).map fun f => (eId f.e, eOp f.e)

/-- The state in which the submission queue of pair p is out of service and nothing of its commands is sent any more. -/
def sqStopped (s : State) (p : Nat) : State := (s.setf .DB_STATUS_SQ_LIVE p 0).cancelCmds fun c => c.q == p

/-- The state in which its commands have completed too. -/
def sqAborted (s : State) (p : Nat) : State := abortAll p (leftIds s p) (abortAll p (openIds s p) (sqStopped s p))

section
variable (s : State) (p : Nat)

theorem sqStopped_qs : (sqStopped s p).qs = s.qs := (cancelCmds_keeps _ _).2 .qs (by simp)

/-- The entries of pair p that are left once its outstanding commands have completed. -/
theorem fetched_after_open :
    (abortAll p (openIds s p) (sqStopped s p)).qs.fetched.filter (fun f => f.q == p) = leftEntries s p := by
  rw [abortAll_qs, sqStopped_qs, leftEntries, openIds, List.filter_filter]
  refine List.filter_congr fun f _ => ?_
  simp only [List.any_map, Function.comp_def, BEq.comm (a := eId f.e)]
  cases f.q == p <;> rfl

/-- The model's two folds are these. -/
theorem destroySq_eq (e : Entry) : destroySq e s =
    ((sqAborted s (ent e 4 2)).dropInsts fun i => i.cmd.any fun c => c.1 == ent e 4 2).setf .DB_STATUS_QUARANTINE (ent e 4 2) 1 := by
  have hcmds : ∀ u : State, (openCmds s (ent e 4 2)).foldl (fun (s : State) c => s.finishCmd c 1) u = abortAll (ent e 4 2) (openIds s (ent e 4 2)) u := by
    intro u
    rw [abortAll, openIds, List.foldl_map]
    refine List.foldl_ext _ _ _ fun v c hm => ?_
    rw [State.finishCmd, eq_of_beq (List.mem_filter.1 hm).2]
  have hfetched : ∀ (l : List Fetched) (u : State),
      l.foldl (fun (s : State) f => s.finish (ent e 4 2) (eId f.e) (eOp f.e) 1) u = abortAll (ent e 4 2) (l.map fun f => (eId f.e, eOp f.e)) u :=
    fun l u => by rw [abortAll, List.foldl_map]
  have hopen : (sqStopped s (ent e 4 2)).qs.cmds.filter (fun c => c.q == ent e 4 2) = openCmds s (ent e 4 2) := by rw [sqStopped_qs]; rfl
  rw [← unbind_eq, sqAborted, leftIds, ← fetched_after_open, ← hfetched, ← hcmds, ← hopen]
  rfl

/-- Of two filters that between them name every item of the test, none of the test is left. -/
theorem filter_named {α : Type} {l : List α} {a b c : α → Bool} (h : ∀ x ∈ l, a x = true → b x = false → c x = true) :
    (l.filter fun x => !(a x && b x)).filter (fun x => !(a x && c x)) = l.filter fun x => !a x := by
  rw [List.filter_filter]
  refine List.filter_congr fun x hm => ?_
  cases ha : a x with
  | false => rfl
  | true =>
    cases hb : b x with
    | true => simp
    | false => simp [h x hm ha hb]

/-- No command and no entry of pair p is left, and those of other pairs are as before. -/
theorem sqAborted_qs : (sqAborted s p).qs = { s.qs with
    cmds := s.qs.cmds.filter fun c => c.q != p
    fetched := s.qs.fetched.filter fun f => f.q != p
    dones := s.qs.dones ++ (openIds s p).map (fun x => ofGen (sqStopped s p) (plainDone p x.1 x.2 1 0))
      ++ (leftIds s p).map fun x => ofGen (sqStopped s p) (plainDone p x.1 x.2 1 0) } := by
  have hgen : ∀ d, ofGen (abortAll p (openIds s p) (sqStopped s p)) d = ofGen (sqStopped s p) d :=
    ofGen_congr fun _ => (frame_abortAll ..).rf List.not_mem_nil
  have hopen : ∀ c ∈ s.qs.cmds, (c.q == p) = true → ((openIds s p).any fun x => c.id == x.1) = true := fun c hm hq =>
    List.any_eq_true.2 ⟨(c.id, eOp c.e), List.mem_map_of_mem (List.mem_filter.2 ⟨hm, hq⟩), beq_self_eq_true _⟩
  have hleft : ∀ f ∈ s.qs.fetched, (f.q == p) = true → ((openIds s p).any fun x => eId f.e == x.1) = false →
      ((leftIds s p).any fun x => eId f.e == x.1) = true := by
    intro f hm hq ho
    refine List.any_eq_true.2 ⟨(eId f.e, eOp f.e), List.mem_map_of_mem (List.mem_filter.2 ⟨hm, ?_⟩), beq_self_eq_true _⟩
    rw [openIds, List.any_map] at ho
    simp only [Function.comp_def, BEq.comm (a := eId f.e)] at ho
    rw [hq, ho]
    rfl
  rw [sqAborted, abortAll_qs, abortAll_qs, sqStopped_qs]
  simp only [hgen, filter_named hleft, filter_named fun c hm hq hn => absurd (hopen c hm hq) (ne_true_of_eq_false hn)]
  rfl

/-! ## What it leaves alone -/

/-- The state that a DESTROY_SQ makes. -/
def sqDestroyed (s : State) (e : Entry) : State := (destroySq e s).finishWith (destroyDone e)

end

/-- Dropping instances drops those of the test that have not started. -/
theorem insts_dropInsts (s : State) (f : Inst → Bool) :
    (s.dropInsts f).insts = s.insts.filter fun i => !(f i && (i.st == .waiting || i.st == .bound)) :=
  congrArg (List.filter _) ((Frame.foldl (ps := [.posts, .yards]) (fs := []) _ (fun u (i : Inst) _ => frame_clearRec u i.team i.n) s).part .insts (by simp))

theorem frame_sqAborted (s : State) (p : Nat) : Frame [.qs] [] (sqStopped s p) (sqAborted s p) :=
  (frame_abortAll ..).trans (frame_abortAll ..)

theorem finishWith_qs (s : State) (d : Done) : (s.finishWith d).qs = { s.qs with
    cmds := s.qs.cmds.filter fun c => !(c.q == d.q && c.id == d.id)
    fetched := s.qs.fetched.filter fun f => !(f.q == d.q && eId f.e == d.id)
    dones := s.qs.dones ++ [ofGen (s.finishWith d) d] } := rfl

section
variable (s : State) (e : Entry)

/-- After the commands' carriages are taken out of their queues: the lists of commands, the dropped instances and their records, the quarantine. -/
theorem frame_sqDestroyed : Frame [.qs, .posts, .yards, .insts] [(.DB_STATUS_QUARANTINE, ent e 4 2)] (sqStopped s (ent e 4 2)) (sqDestroyed s e) := by
  rw [sqDestroyed, destroySq_eq]
  exact ((((frame_sqAborted s _).append (frame_dropInsts ..)).append (frame_setf ..)).append (frame_finishWith ..)).mono (by simp) (by simp)

theorem sqDestroyed_qs : (sqDestroyed s e).qs = { s.qs with
    cmds := (s.qs.cmds.filter fun c => c.q != ent e 4 2).filter fun c => !(c.q == 0 && c.id == eId e)
    fetched := (s.qs.fetched.filter fun f => f.q != ent e 4 2).filter fun f => !(f.q == 0 && eId f.e == eId e)
    dones := s.qs.dones ++ (openIds s (ent e 4 2)).map (fun x => ofGen (sqDestroyed s e) (plainDone (ent e 4 2) x.1 x.2 1 0))
      ++ (leftIds s (ent e 4 2)).map (fun x => ofGen (sqDestroyed s e) (plainDone (ent e 4 2) x.1 x.2 1 0))
      ++ [ofGen (sqDestroyed s e) (destroyDone e)] } := by
  have hqs : (destroySq e s).qs = (sqAborted s (ent e 4 2)).qs := by
    rw [destroySq_eq]
    exact (frame_dropInsts _ _).part .qs (by simp)
  have hgen : ofGen (sqDestroyed s e) = ofGen (sqStopped s (ent e 4 2)) :=
    funext (ofGen_congr fun _ => (frame_sqDestroyed s e).rf (by simp))
  have hdone := finishWith_qs (destroySq e s) (destroyDone e)
  rw [hqs, sqAborted_qs, show ofGen ((destroySq e s).finishWith (destroyDone e)) = _ from hgen] at hdone
  rw [hgen]
  exact hdone

/-- The instances bound to a command of the pair that have not started are gone. -/
theorem sqDestroyed_insts : (sqDestroyed s e).insts =
    s.insts.filter fun i => !((i.st == .waiting || i.st == .bound) && i.cmd.any fun c => c.1 == ent e 4 2) := by
  have hkept : (sqAborted s (ent e 4 2)).insts = s.insts :=
    Eq.trans ((frame_sqAborted s _).part .insts (by simp)) ((cancelCmds_keeps _ _).2 .insts (by simp))
  refine Eq.trans ((frame_finishWith (destroySq e s) (destroyDone e)).part .insts (by simp)) ?_
  rw [destroySq_eq]
  refine (insts_dropInsts ..).trans ?_
  rw [hkept]
  exact List.filter_congr fun i _ => by rw [Bool.and_comm]

/-- Of the register fields only the router's and two of the pair's page change. -/
theorem rf_sqDestroyed {f : Fld} (hf : f ∉ routerFields) {i : Nat} (hn : (f, i) ∉ destroyFields (ent e 4 2)) :
    (sqDestroyed s e).rf f i = s.rf f i := by
  rw [destroyFields, List.mem_cons, not_or] at hn
  calc (sqDestroyed s e).rf f i = (sqStopped s (ent e 4 2)).rf f i := (frame_sqDestroyed s e).rf hn.2
    _ = (s.setf .DB_STATUS_SQ_LIVE (ent e 4 2) 0).rf f i := (cancelCmds_keeps _ _).1.2 f hf i
    _ = s.rf f i := State.rf_setf_other _ _ _ _ _ _ fun h => hn.1 (Prod.ext h.1 h.2)

theorem sqLive_sqDestroyed : (sqDestroyed s e).rf .DB_STATUS_SQ_LIVE (ent e 4 2) = 0 :=
  calc (sqDestroyed s e).rf .DB_STATUS_SQ_LIVE (ent e 4 2)
      = (sqStopped s (ent e 4 2)).rf .DB_STATUS_SQ_LIVE (ent e 4 2) := (frame_sqDestroyed s e).rf (by simp)
    _ = (s.setf .DB_STATUS_SQ_LIVE (ent e 4 2) 0).rf .DB_STATUS_SQ_LIVE (ent e 4 2) := (cancelCmds_keeps _ _).1.2 _ (by decide) _
    _ = 0 := State.rf_setf_same ..

theorem quarantine_sqDestroyed : (sqDestroyed s e).rf .DB_STATUS_QUARANTINE (ent e 4 2) = 1 := by
  rw [sqDestroyed, destroySq_eq, (frame_finishWith ..).rf List.not_mem_nil]
  exact State.rf_setf_same ..

theorem sqDestroyed_fuses : (sqDestroyed s e).fuses = s.fuses := (frame_sqDestroyed s e).2.1.trans (cancelCmds_keeps _ _).1.1

theorem allBut_sqDestroyed : AllBut [.net, .qs, .posts, .yards, .insts] s (sqDestroyed s e) :=
  (((frame_setf s .DB_STATUS_SQ_LIVE (ent e 4 2) 0).allBut (by simp)).trans ((cancelCmds_keeps _ _).2.mono (by simp))).trans
    ((frame_sqDestroyed s e).allBut (by simp))

end

/-- No field of a doorbell page is the router's. -/
theorem doorbellFields_router : ∀ f ∈ doorbellFields, f ∉ routerFields := by decide

/-- Settles O9: the queue's carriages are taken out, its commands and entries complete in two folds, its instances are dropped, and what the router
does meanwhile reaches no doorbell page. -/
theorem destroySqEndsEveryCommandOfThePair : Obligations.DestroySqEndsEveryCommandOfThePair := by
  intro s q e p q0 hq h hp hlt hsq ht
  subst hq
  have hx : exec (.destroySq 0 e) s = .next (s.keep (sqDestroyed s e)) := exec_destroySq h (destroySqBad_none hp hlt hsq ht)
  have hrf := fun f i => rf_keep (sqDestroyed_fuses s e) f i
  have hqs := sqDestroyed_qs s e
  have hqps : (sqDestroyed s e).qs.qps = s.qs.qps := by rw [hqs]
  have hgen : ofGen (sqDestroyed s e) = ofGen (s.keep (sqDestroyed s e)) := funext (ofGen_congr fun q => (hrf _ q).symm)
  refine ⟨_, hx, (hrf _ _).trans (sqLive_sqDestroyed s e), (hrf _ _).trans (quarantine_sqDestroyed s e), ?_, ?_, ?_, sqDestroyed_insts s e,
    qp_congr hqps, fun f hf r hn => (hrf f r).trans (rf_sqDestroyed s e (doorbellFields_router f hf) hn),
    fun x hkeep => (allBut_sqDestroyed s e).keep x fun hm => ?_⟩
  · exact (congrArg Queues.cmds hqs).trans ((List.filter_filter ..).trans (List.filter_congr fun c _ => Bool.and_comm ..))
  · exact (congrArg Queues.fetched hqs).trans ((List.filter_filter ..).trans (List.filter_congr fun f _ => Bool.and_comm ..))
  · refine (congrArg Queues.dones hqs).trans ?_
    rw [hgen, openIds, leftIds, List.map_map, List.map_map]
    rfl
  · revert x
    decide

end Sys2Proof

namespace Sys2Proof

open Machine

/-! # SUBMISSION_FETCH takes entries in order (O30) -/

section
variable {s : State} {y : Yard} {q : Nat} {ue tbl : BitVec 8}

theorem exec_submissionFetch (hc : s.coreOn = true) : exec (.submissionFetch y ue tbl) s = .next (s.keep (s.fetchTurn y ue tbl)) :=
  event_on s (fun s => s.fetchTurn y ue tbl) hc

/-! ## The turn of a coachman (R268) -/

theorem fetchTurn_idle (h : s.coachAt y = false ∨ s.safe = true) : s.fetchTurn y ue tbl = s :=
  if_pos (by rcases h with h | h <;> simp [h])

/-- A coachman with no pair to serve does no more than confirm the start-up. -/
theorem fetchTurn_none (hy : s.coachAt y = true) (hs : s.safe = false) (hn : s.firmwareOk.nextPair y = none) :
    s.fetchTurn y ue tbl = s.firmwareOk := by
  rw [State.fetchTurn, if_neg (by simp [hy, hs])]
  simp only [hn]

/-- Firmware has set OK and start-up goes on with step 6 (R369). -/
def bootAdvanced (s : State) : State := { s.setf .CMR_BOOT_CTL_OK 0 1 with boot := { s.boot with step := 6, t := s.now, attempts := 0 } }

/-- The shadow windows of the block have ended too (R374). -/
def bootConfirmed (s : State) : State :=
  { bootAdvanced s with aon := { s.aon with windows := s.aon.windows.filter fun w => w.dom != .block } }

theorem firmwareOk_booting (hb : s.boot.step = 5) (hs : s.stable = false) : s.firmwareOk = bootConfirmed s :=
  if_pos (by simp [hb, hs])

theorem firmwareOk_running (h : ¬ (s.boot.step = 5 ∧ s.stable = false)) : s.firmwareOk = s :=
  if_neg (by simpa using h)

theorem frame_bootConfirmed (s : State) : Frame [.boot, .aon] [(.CMR_BOOT_CTL_OK, 0)] s (bootConfirmed s) :=
  ((frame_setf s .CMR_BOOT_CTL_OK 0 1).append (frame_boot _ _)).append (frame_aon (bootAdvanced s) _)

/-- The record of yard y once it has served pair q. -/
def servedPair (s : State) (y : Yard) (q : Nat) : State := s.setYard y { s.yard y with rr := q + 1, quietAt := s.now }

theorem fetchTurn_some (hy : s.coachAt y = true) (hs : s.safe = false) (hb : ¬ (s.boot.step = 5 ∧ s.stable = false)) (hn : s.nextPair y = some q) :
    s.fetchTurn y ue tbl = (servedPair s y q).fetchN y q ue tbl 0 (min 8 (min (s.unfetched q) (s.fetchRoom q))) := by
  rw [State.fetchTurn, if_neg (by simp [hy, hs]), firmwareOk_running hb]
  simp only [hn]
  rfl

/-! ## One entry (R268, R273) -/

/-- The place of the entry at the head of pair q's ring. -/
def headAddr (s : State) (q : Nat) : Nat := s.sqBase q + 64 * s.rf .DB_SQ_HEAD_HEAD q

/-- The entry there. -/
def headEntry (s : State) (q : Nat) : Entry := BitVec.ofNat 512 (rdLe s.host (headAddr s q) 64)

/-- The state in which yard y serves pair q and the head of its ring has advanced. -/
def headAdvanced (s : State) (y : Yard) (q : Nat) : State :=
  (servedPair s y q).setf .DB_SQ_HEAD_HEAD q ((s.rf .DB_SQ_HEAD_HEAD q + 1) % 2 ^ s.sqLog q)

theorem fetchN_one : (servedPair s y q).fetchN y q ue tbl 0 1 = if ue.getLsbD 0 then (headAdvanced s y q).readErr y (headAddr s q)
    else (headAdvanced s y q).takeEntry q (headEntry s q) (tbl.getLsbD 0) := rfl

theorem frame_headAdvanced : Frame [.yards] [(.DB_SQ_HEAD_HEAD, q)] s (headAdvanced s y q) :=
  (frame_setYard s y _).append (frame_setf ..)

theorem head_headAdvanced (hl : s.sqLog q ≤ 16) :
    (headAdvanced s y q).rf .DB_SQ_HEAD_HEAD q = (s.rf .DB_SQ_HEAD_HEAD q + 1) % 2 ^ s.sqLog q :=
  (State.rf_setf_same ..).trans (Nat.mod_eq_of_lt
    (Nat.lt_of_lt_of_le (Nat.mod_lt _ (Nat.two_pow_pos _)) (Nat.pow_le_pow_right (by decide) hl)))

theorem yard_headAdvanced (z : Nat) :
    (headAdvanced s y q).yard z = if z = y then { s.yard y with rr := q + 1, quietAt := s.now } else s.yard z := by
  split
  · next h => rw [h]; exact yard_setYard s y _
  · next h => exact yard_setYard_other s _ h

theorem now_headAdvanced : (headAdvanced s y q).now = s.now := frame_headAdvanced.now (by simp) (by simp) (by simp)

theorem idTaken_headAdvanced (id : Nat) : (headAdvanced s y q).idTaken q id = s.idTaken q id := rfl

theorem inService_headAdvanced : ((headAdvanced s y q).oos || (headAdvanced s y q).stable) = (s.oos || s.stable) := by
  simp only [State.oos, State.stable, State.on, frame_headAdvanced.rf (f := .FLT_CTL_OOS) (by simp),
    frame_headAdvanced.rf (f := .AON_BOOT_STABLE) (by simp)]

end

section
variable {s : State} {q : Nat} {e : Entry} {bad : Bool}

theorem takeEntry_new (ht : s.idTaken q (eId e) = false) (hd : definedOp (eOp e) = true) (hsub : subOpBad e = none) :
    s.takeEntry q e bad = { s with qs := { s.qs with fetched := s.qs.fetched ++ [⟨q, e, s.now, bad⟩] } } := by
  simp [State.takeEntry, ht, hd, hsub]

theorem takeEntry_taken (ht : s.idTaken q (eId e) = true) : s.takeEntry q e bad = s.doneAtFetch q e 6 (invResult rDuplicate 2) := if_pos ht

theorem takeEntry_undefined (ht : s.idTaken q (eId e) = false) (hd : definedOp (eOp e) = false) (ho : (s.oos || s.stable) = false) :
    s.takeEntry q e bad = s.doneAtFetch q e 6 (invResult rOpcode 0) := by
  simp [State.takeEntry, ht, hd, ho]

end

/-- The state in which an entry has been read and the lists of the queues have these more. -/
def entryTaken (s : State) (y : Yard) (q : Nat) (fetched : List Fetched) (dones : List Done) : State :=
  { headAdvanced s y q with qs := { s.qs with fetched := s.qs.fetched ++ fetched, dones := s.qs.dones ++ dones } }

theorem frame_entryTaken (s : State) (y : Yard) (q : Nat) (fetched : List Fetched) (dones : List Done) :
    Frame [.qs, .yards] [(.DB_SQ_HEAD_HEAD, q)] s (entryTaken s y q fetched dones) :=
  ((frame_headAdvanced (s := s)).append (frame_qs _ _)).mono (by simp) (by simp)

section
variable {s : State} {y : Yard} {q : Nat} {bad : Bool}

theorem takeEntry_headAdvanced_new (ht : s.idTaken q (eId (headEntry s q)) = false) (hd : definedOp (eOp (headEntry s q)) = true)
    (hsub : subOpBad (headEntry s q) = none) :
    (headAdvanced s y q).takeEntry q (headEntry s q) bad = entryTaken s y q [⟨q, headEntry s q, s.now, bad⟩] [] := by
  rw [takeEntry_new (s := headAdvanced s y q) ht hd hsub, now_headAdvanced, entryTaken, List.append_nil]
  rfl

/-- An entry that completes at its fetch. -/
theorem doneAtFetch_headAdvanced (status result : Nat) : (headAdvanced s y q).doneAtFetch q (headEntry s q) status result =
    entryTaken s y q [] [ofGen s (plainDone q (eId (headEntry s q)) (eOp (headEntry s q)) status result)] := by
  rw [State.doneAtFetch, frame_headAdvanced.rf (by simp), entryTaken, List.append_nil]
  rfl

end

/-- What a turn of yard y that takes one entry of pair q has done: the head has advanced, the yard has noted the pair, and the lists have these more. -/
def TookOne (s : State) (y : Yard) (q : Nat) (fetched : List Fetched) (dones : List Done) (fs : List (Fld × Nat)) (t : State) : Prop :=
  t.rf .DB_SQ_HEAD_HEAD q = (s.rf .DB_SQ_HEAD_HEAD q + 1) % 2 ^ s.sqLog q
    ∧ t.qs = { s.qs with fetched := s.qs.fetched ++ fetched, dones := s.qs.dones ++ dones }
    ∧ (∀ z : Nat, t.yard z = if z = y then { s.yard y with rr := q + 1, quietAt := s.now } else s.yard z)
    ∧ Frame [.qs, .yards] ((.DB_SQ_HEAD_HEAD, q) :: fs) s t

section
variable {s : State} {y : Yard} {q : Nat} {ue tbl : BitVec 8} (hc : s.coreOn = true) (hy : s.coachAt y = true) (hs : s.safe = false)
  (hb : ¬ (s.boot.step = 5 ∧ s.stable = false)) (hn : s.nextPair y = some q) (hk : min 8 (min (s.unfetched q) (s.fetchRoom q)) = 1)
include hc hy hs hb hn hk

theorem exec_fetch_one : exec (.submissionFetch y ue tbl) s = .next (s.keep (
    if ue.getLsbD 0 then (headAdvanced s y q).readErr y (headAddr s q)
    else (headAdvanced s y q).takeEntry q (headEntry s q) (tbl.getLsbD 0))) := by
  rw [exec_submissionFetch hc, fetchTurn_some hy hs hb hn, hk, fetchN_one]

/-- An entry whose read succeeds changes the lists of the queues only. -/
theorem does_fetch_taken {fetched : List Fetched} {dones : List Done} (hl : s.sqLog q ≤ 16) (he : ue.getLsbD 0 = false)
    (hu : (headAdvanced s y q).takeEntry q (headEntry s q) (tbl.getLsbD 0) = entryTaken s y q fetched dones) :
    Does (.submissionFetch y ue tbl) s (TookOne s y q fetched dones []) := by
  have hx := exec_fetch_one (ue := ue) (tbl := tbl) hc hy hs hb hn hk
  rw [if_neg (ne_true_of_eq_false he), hu] at hx
  have hf := frame_entryTaken s y q fetched dones
  exact does_of_frame hx hf ⟨head_headAdvanced (y := y) hl, rfl, yard_headAdvanced, hf⟩

/-- One whose read has an error is skipped and counted (log entry 159). -/
theorem does_fetch_unread (hl : s.sqLog q ≤ 16) (he : ue.getLsbD 0 = true) : Does (.submissionFetch y ue tbl) s fun t =>
    TookOne s y q [] [] [(.HCH_ERR_RD_ERR, portFor y (headAddr s q))] t ∧ Counted s .HCH_ERR_RD_ERR (portFor y (headAddr s q)) t := by
  have hx := exec_fetch_one (ue := ue) (tbl := tbl) hc hy hs hb hn hk
  rw [if_pos he] at hx
  have hhead := frame_headAdvanced (s := s) (y := y) (q := q)
  have hsat := frame_sat (headAdvanced s y q) .HCH_ERR_RD_ERR (portFor y (headAddr s q)) 1
  have hf := (hhead.append hsat).mono (qs := [.qs, .yards]) (gs := [(.DB_SQ_HEAD_HEAD, q), (.HCH_ERR_RD_ERR, portFor y (headAddr s q))])
    (by simp) (by simp)
  refine does_of_frame hx hf ⟨⟨(hsat.rf (by simp)).trans (head_headAdvanced hl), ?_, yard_headAdvanced, hf⟩, ?_⟩
  · simp only [List.append_nil]
    rfl
  · exact (counted_sat (headAdvanced s y q) ..).trans (by rw [hhead.rf (by simp)])

end

/-- Settles O30: the turn is `fetchTurn`'s branch that the hypotheses name, and of one entry `takeEntry`'s. -/
theorem submissionFetchTakesEntriesInOrder : Obligations.SubmissionFetchTakesEntriesInOrder := by
  intro s y q ue tbl hc fetch h port done e k turns
  have hx := exec_submissionFetch (y := y) (ue := ue) (tbl := tbl) hc
  refine ⟨fun hi => does_nothing (hx.trans (by rw [fetchTurn_idle hi])), fun hy hs hb hst hn => ?_, fun hy hs hb => ⟨fun hn => ?_, fun hn => ?_,
    fun hn hk hl => ⟨fun hue ht hd hsub => ?_, fun hue ht => ?_, fun hue ht hd ho => ?_, does_fetch_unread hc hy hs hb hn hk hl⟩⟩⟩
  · rw [fetchTurn_none hy hs hn, firmwareOk_booting hb hst] at hx
    exact does_of_frame hx (frame_bootConfirmed s) ⟨State.rf_setf_same s .CMR_BOOT_CTL_OK 0 1, rfl, frame_bootConfirmed s⟩
  · rw [← firmwareOk_running hb] at hn
    rw [fetchTurn_none hy hs hn, firmwareOk_running hb] at hx
    exact does_nothing hx
  · rw [fetchTurn_some hy hs hb hn] at hx
    exact hx
  · exact does_fetch_taken hc hy hs hb hn hk hl hue (takeEntry_headAdvanced_new ht hd hsub)
  · exact does_fetch_taken hc hy hs hb hn hk hl hue ((takeEntry_taken (s := headAdvanced s y q) ht).trans (doneAtFetch_headAdvanced ..))
  · exact does_fetch_taken hc hy hs hb hn hk hl hue
      ((takeEntry_undefined (s := headAdvanced s y q) ht hd (inService_headAdvanced.trans ho)).trans (doneAtFetch_headAdvanced ..))

end Sys2Proof
